-- ==== Sys2Proof/Word.lean ====
section
/-! DEFINITION. Words of the machine: bytes, register words, and bytes read as little-endian integers (R6, R7, 00_scope.md). -/

namespace Sys2Proof

/-- A byte. -/
abbrev Byte := BitVec 8

/-- A register word: every register is 32 bits wide (R10). -/
abbrev W32 := BitVec 32

/-- A string of bytes, lowest address first. -/
abbrev Bytes := List Byte

end Sys2Proof
end

