-- ==== Sys2Proof/Syntax.lean ====
section
/-! DEFINITION. The commands of the block: one constructor of `Instr` for each row of spec/opcode_table.json, with the operands of that row. -/

namespace Sys2Proof

/-- A host command in progress: function, queue and the command_id of its entry (R369). -/
structure CmdRef where
  fn : Nat
  q : Nat
  id : Nat
  deriving DecidableEq, Repr

/-- A register or doorbell access (R10 to R17, R358 to R361). `who` is the reader or writer: a PCIe function 0 to 24,
25 for Lantus, 26 for the debug port. `bar` is 0 or 2; `be` is the four byte enables; `poisoned` is a poisoned TLP (R354). -/
structure RegAccess where
  who : Nat
  bar : Nat
  offset : Nat
  be : Nat
  value : W32
  poisoned : Bool
  deriving DecidableEq, Repr

/-- A physical tile of a well. -/
structure TileRef where
  well : Nat
  tile : Nat
  deriving DecidableEq, Repr

/-- A pump of a well. -/
structure PumpRef where
  well : Nat
  pump : Nat
  deriving DecidableEq, Repr

/-- A stream whose units a receiver checks (R234): into a pump, of a tile's transfer unit, or of a copy channel. -/
inductive Link where
  | pump (u : PumpRef)
  | tile (t : TileRef)
  | copy (well chan : Nat)
  deriving DecidableEq, Repr

/-- What an IDE_KM message of the base specification asks for (R380): to program a key of a stream, to switch to a key set, or to stop it. -/
inductive IdeKm where
  | keyProg (stream keySet : Nat) (tx : Bool) (key : Bytes)
  | keySetGo (stream keySet : Nat)
  | keySetStop (stream keySet : Nat)
  | query (stream : Nat)
  deriving DecidableEq, Repr

/-- A change of a function's configuration space (R357, R377, R381). -/
inductive ConfigChange where
  | bars (base0 base2 : Nat)
  | msixEntry (vec addr data : Nat) (masked : Bool)
  | msixEnable (on : Bool)
  | busMaster (on : Bool)
  | numVfs (n : Nat)
  | aspmL1 (on : Bool)
  | completionTimeout (ticks : Nat)
  deriving DecidableEq, Repr

/-- What the protection code finds in a bucket a scrubber reads (R229, R259): clean, a word corrected, or uncorrectable. -/
inductive EccFound where
  | clean
  | corrected (word : Nat)
  | uncorrectable
  deriving DecidableEq, Repr

/-- An error of a memory array or of the LPDDR5X link, as its code reports it (R194, R232, R252): a word corrected in a cistern, in a tile store or step
memory, or on the read link, a bucket read again with success, or a double-bit error that stands in a cistern bucket, in a word of a tile store or of a step
memory, or in an LPDDR5X bucket, whose next read fails after its retries. -/
inductive ArrayError where
  | cistern (well : Nat)
  | store (t : TileRef)
  | link (well : Nat)
  | reread (well : Nat)
  | doubleCistern (well : Nat)
  | doubleStore (t : TileRef)
  | doubleStep (t : TileRef)
  | doubleLpx (well : Nat)
  deriving DecidableEq, Repr

/-- What a receiver reports of a unit (R234, R235): its check passed, its check failed, or the pump's queue is full. -/
inductive CheckResult where
  | passed
  | failed
  | busy
  deriving DecidableEq, Repr

/-- Boot self-test result of a well (R222, R258, R402): failed tiles with their first failing test, failed buckets, and whether the LPDDR5X device trained. -/
structure WellTest where
  failedTiles : List (Nat × Nat)
  badBuckets : List Nat
  lpddrTrained : Bool
  deriving DecidableEq, Repr

/-- The commands: one constructor per row of spec/opcode_table.json. -/
inductive Instr where
  /-- NOP (R372). -/
  | nop (c : CmdRef)
  /-- ROUND_OPEN (R46). -/
  | roundOpen (c : CmdRef)
  /-- ROUND_CLOSE_INTAKE (R49). -/
  | roundCloseIntake (c : CmdRef)
  /-- ROUND_ABORT (R518). -/
  | roundAbort (c : CmdRef)
  /-- ROUND_RESUME (R76). -/
  | roundResume (c : CmdRef)
  /-- CHECKPOINT_READ (R75). -/
  | checkpointRead (c : CmdRef)
  /-- CHECKPOINT_STORED (R75). -/
  | checkpointStored (c : CmdRef)
  /-- PARTITION_RESET (R43). -/
  | partitionReset (c : CmdRef)
  /-- DMA_TO_DEVICE (R373). -/
  | dmaToDevice (c : CmdRef)
  /-- DMA_TO_HOST (R373). -/
  | dmaToHost (c : CmdRef)
  /-- QP_CREATE (R306). -/
  | qpCreate (c : CmdRef)
  /-- QP_DESTROY (R515). -/
  | qpDestroy (c : CmdRef)
  /-- REGION_REGISTER (R312). -/
  | regionRegister (c : CmdRef)
  /-- REGION_REVOKE (R313). -/
  | regionRevoke (c : CmdRef)
  /-- RECV_POST (R374). -/
  | recvPost (c : CmdRef)
  /-- IMAGE_LOAD (R290). -/
  | imageLoad (c : CmdRef)
  /-- FLOORPLAN_LOAD (R280). -/
  | floorplanLoad (c : CmdRef)
  /-- TILE_REMAP (R224). -/
  | tileRemap (c : CmdRef)
  /-- TILE_SELFTEST (R225). -/
  | tileSelftest (c : CmdRef)
  /-- BUCKET_RETIRE (R257). -/
  | bucketRetire (c : CmdRef)
  /-- POWER_STATE (R455). -/
  | powerState (c : CmdRef)
  /-- ATTEST_REPORT (R411). -/
  | attestReport (c : CmdRef)
  /-- LOG_DRAIN (R481). -/
  | logDrain (c : CmdRef)
  /-- FW_LOAD (R401). -/
  | fwLoad (data : Option Bytes)
  /-- KEY_PROGRAM (R393). -/
  | keyProgram (data : Option Bytes)
  /-- KEY_INVALIDATE (R394). -/
  | keyInvalidate (data : Option Bytes)
  /-- FW_FLOOR_ADVANCE (R404). -/
  | fwFloorAdvance (data : Option Bytes)
  /-- DEBUG_UNLOCK (R398). -/
  | debugUnlock (data : Option Bytes)
  /-- DEBUG_DISABLE (R399). -/
  | debugDisable
  /-- CERT_INSTALL (R406). -/
  | certInstall (data : Option Bytes)
  /-- KEX_START (R417). -/
  | kexStart (fn : Nat) (msg : Bytes)
  /-- KEX_FINISH (R414). -/
  | kexFinish (fn : Nat) (msg : Bytes)
  /-- SEC_MSG (R416). -/
  | secMsg (fn : Nat) (msg : Bytes)
  /-- END_SESSION (R417). -/
  | endSession (fn : Nat) (msg : Bytes)
  /-- SESSION_START_EXPIRY (R417). -/
  | sessionStartExpiry (p : Nat)
  /-- KEX_ENTROPY_TIMEOUT (R417). -/
  | kexEntropyTimeout (p : Nat)
  /-- DOE_DISCOVERY (R378). -/
  | doeDiscovery (fn : Nat) (index : Nat)
  /-- GET_VERSION (R379). -/
  | getVersion (fn : Nat)
  /-- GET_CAPABILITIES (R379). -/
  | getCapabilities (fn : Nat)
  /-- NEGOTIATE_ALGORITHMS (R379). -/
  | negotiateAlgorithms (fn : Nat)
  /-- GET_DIGESTS (R379). -/
  | getDigests (fn : Nat)
  /-- GET_CERTIFICATE (R379). -/
  | getCertificate (fn : Nat) (offset : Nat) (length : Nat)
  /-- CHALLENGE (R379). -/
  | challenge (fn : Nat) (nonce : Bytes)
  /-- GET_MEASUREMENTS (R411). -/
  | getMeasurements (fn : Nat) (index : Nat)
  /-- UNSUPPORTED_REQUEST (R379). -/
  | unsupportedRequest (fn : Nat) (code : Nat)
  /-- IDE_KM (R380). -/
  | ideKm (p : Nat) (m : IdeKm)
  /-- STOP_INTERFACE_REQUEST (R381). -/
  | stopInterfaceRequest (p : Nat) (fn : Nat)
  /-- REGISTER_WRITE (R15). -/
  | registerWrite (a : RegAccess)
  /-- REGISTER_READ_CLEAR (R17). -/
  | registerReadClear (a : RegAccess)
  /-- LO_READ (R13). -/
  | loRead (a : RegAccess)
  /-- HI_WRITE (R14). -/
  | hiWrite (a : RegAccess)
  /-- CLOSE_INTAKE (R86). -/
  | closeIntake (a : RegAccess)
  /-- ADMISSION_HOLD (R86). -/
  | admissionHold (a : RegAccess)
  /-- INT_ENABLE_WRITE (R85). -/
  | intEnableWrite (a : RegAccess)
  /-- RNG_DATA_READ (R443). -/
  | rngDataRead (a : RegAccess)
  /-- SELF_TEST (R225). -/
  | selfTest (a : RegAccess)
  /-- FLUSH (R237). -/
  | flush (a : RegAccess)
  /-- SCRUB_START (R259). -/
  | scrubStart (a : RegAccess)
  /-- SCRUB_ABORT (R259). -/
  | scrubAbort (a : RegAccess)
  /-- CLEAR_ALL (R269). -/
  | clearAll (a : RegAccess)
  /-- ADMIN_DOWN (R489). -/
  | adminDown (a : RegAccess)
  /-- QUEUE_ENABLE (R365). -/
  | queueEnable (a : RegAccess)
  /-- QUEUE_DISABLE (R368). -/
  | queueDisable (a : RegAccess)
  /-- SQ_TAIL_DOORBELL (R366). -/
  | sqTailDoorbell (a : RegAccess)
  /-- CQ_HEAD_DOORBELL (R366). -/
  | cqHeadDoorbell (a : RegAccess)
  /-- EVQ_CONS_WRITE (R347). -/
  | evqConsWrite (a : RegAccess)
  /-- COMMAND_FETCH (R367). -/
  | commandFetch (fn : Nat) (q : Nat) (entry : Option Bytes)
  /-- QUEUE_DRAINED (R368). -/
  | queueDrained (fn : Nat) (q : Nat)
  /-- HOST_READ_COMPLETION (R354). -/
  | hostReadCompletion (c : CmdRef) (data : Option Bytes)
  /-- COMPLETION_TIMEOUT (R354). -/
  | completionTimeout (c : CmdRef)
  /-- MSIX_UNMASK (R377). -/
  | msixUnmask (fn : Nat) (vec : Nat)
  /-- LINK_DOWN (R355). -/
  | linkDown (cause : Nat)
  /-- LINK_UP (R384). -/
  | linkUp (width : Nat) (rate : Nat) (flit : Bool)
  /-- L1_IDLE_ENTRY (R356). -/
  | l1IdleEntry
  /-- FUNCTION_LEVEL_RESET (R362). -/
  | functionLevelReset (fn : Nat)
  /-- IDE_INTEGRITY_FAIL (R380). -/
  | ideIntegrityFail (stream : Nat)
  /-- TDI_CONFIG_CHANGE (R381). -/
  | tdiConfigChange (fn : Nat) (ch : ConfigChange)
  /-- FRAME_RECEIVE (R339). -/
  | frameReceive (port : Nat) (frame : Bytes)
  /-- SEND (R316). -/
  | send (port : Nat) (prio : Nat)
  /-- WRITE (R321). -/
  | write (port : Nat) (prio : Nat)
  /-- READ_REQ (R322). -/
  | readReq (port : Nat) (prio : Nat)
  /-- ACK (R336). -/
  | ack (port : Nat) (prio : Nat)
  /-- NAK (R337). -/
  | nak (port : Nat) (prio : Nat)
  /-- COMPLETE (R330). -/
  | complete (port : Nat) (prio : Nat)
  /-- CLOSE (R307). -/
  | close (port : Nat) (prio : Nat)
  /-- PACKET_COMMIT (R342). -/
  | packetCommit (port : Nat) (prio : Nat)
  /-- READ_RESPONSE_SEND (R322). -/
  | readResponseSend (qpn : Nat)
  /-- RECORD_SEND (R324). -/
  | recordSend (qpn : Nat)
  /-- ACK_TIMER (R335). -/
  | ackTimer (qpn : Nat) (cls : Nat)
  /-- RETRANSMIT_TIMER (R336). -/
  | retransmitTimer (qpn : Nat) (cls : Nat) (psn : Nat)
  /-- RNR_DELAY_EXPIRY (R336). -/
  | rnrDelayExpiry (qpn : Nat) (psn : Nat)
  /-- PATH_PROBE (R338). -/
  | pathProbe (qpn : Nat) (path : Nat)
  /-- PFC_REFRESH (R343). -/
  | pfcRefresh (port : Nat) (prio : Nat)
  /-- XOFF_LONG (R348). -/
  | xoffLong (port : Nat) (prio : Nat)
  /-- PFC_FRAME_RECEIVE (R344). -/
  | pfcFrameReceive (port : Nat) (enables : Nat) (quanta : List Nat)
  /-- PFC_PAUSE_EXPIRY (R344). -/
  | pfcPauseExpiry (port : Nat) (prio : Nat)
  /-- PORT_DOWN (R338). -/
  | portDown (port : Nat) (cause : Nat)
  /-- PORT_UP (R489). -/
  | portUp (port : Nat)
  /-- PORT_RETRAIN (R489). -/
  | portRetrain (port : Nat)
  /-- QP_DRAIN_COMPLETE (R307). -/
  | qpDrainComplete (qpn : Nat)
  /-- REGION_INFLIGHT_ZERO (R313). -/
  | regionInflightZero (p : Nat) (region : Nat)
  /-- ADMISSION_DECISION (R56). -/
  | admissionDecision (qpn : Nat) (msn : Nat)
  /-- UPLOAD_WINDOW_EXPIRY (R59). -/
  | uploadWindowExpiry (p : Nat) (client : Nat)
  /-- UPLOAD_ACCUMULATED (R67). -/
  | uploadAccumulated (p : Nat) (client : Nat)
  /-- PROMISE_DEADLINE (R65). -/
  | promiseDeadline (p : Nat) (client : Nat)
  /-- INTAKE_CLOSE_TIME (R49). -/
  | intakeCloseTime (p : Nat)
  /-- CHECKPOINT_INTERVAL (R72). -/
  | checkpointInterval (p : Nat)
  /-- CHECKPOINT_CUT (R73). -/
  | checkpointCut (p : Nat)
  /-- CHECKPOINT_SEALED (R73). -/
  | checkpointSealed (p : Nat)
  /-- ADMISSION_REOPEN (R63). -/
  | admissionReopen (p : Nat)
  /-- BATCH_TIMER_EXPIRY (R54). -/
  | batchTimerExpiry (p : Nat)
  /-- SETTLE_WINDOW_EXPIRY (R82). -/
  | settleWindowExpiry (p : Nat)
  /-- UNMASK_MESSAGE (R109). -/
  | unmaskMessage (qpn : Nat) (msn : Nat)
  /-- DSHARE_MESSAGE (R153). -/
  | dshareMessage (qpn : Nat) (msn : Nat)
  /-- WINDLASS_ENTRY (R212). -/
  | windlassEntry (p : Nat)
  /-- STRETCH_ACTIVATION (R205). -/
  | stretchActivation (p : Nat)
  /-- LOOP (R207). -/
  | stepLoop (t : TileRef)
  /-- JUMP (R207). -/
  | stepJump (t : TileRef)
  /-- SYNC (R208). -/
  | stepSync (t : TileRef)
  /-- SYNC_RELEASE (R208). -/
  | syncRelease (p : Nat)
  /-- WAIT (R209). -/
  | stepWait (t : TileRef)
  /-- QUEUE_ENTRY_POSTED (R209). -/
  | queueEntryPosted (p : Nat)
  /-- DONE (R211). -/
  | stepDone (t : TileRef)
  /-- END (R211). -/
  | stepEnd (t : TileRef)
  /-- TRAP (R220). -/
  | stepTrap (t : TileRef)
  /-- HDR (R145). -/
  | hdr (t : TileRef)
  /-- TBLCHK (R203). -/
  | tblchk (t : TileRef)
  /-- MMUL (R214). -/
  | mmul (t : TileRef)
  /-- MMAC (R214). -/
  | mmac (t : TileRef)
  /-- MADD (R214). -/
  | madd (t : TileRef)
  /-- MSUB (R214). -/
  | msub (t : TileRef)
  /-- MNEG (R214). -/
  | mneg (t : TileRef)
  /-- RADD (R214). -/
  | radd (t : TileRef)
  /-- RSUB (R214). -/
  | rsub (t : TileRef)
  /-- RNEG (R214). -/
  | rneg (t : TileRef)
  /-- FMA (R187). -/
  | fma (t : TileRef)
  /-- DOT (R214). -/
  | dot (t : TileRef)
  /-- CVT (R190). -/
  | cvt (t : TileRef)
  /-- FEST (R190). -/
  | fest (t : TileRef)
  /-- LOGIC (R214). -/
  | logic (t : TileRef)
  /-- CLMUL (R189). -/
  | clmul (t : TileRef)
  /-- GFRED (R189). -/
  | gfred (t : TileRef)
  /-- KECCAK (R199). -/
  | keccak (t : TileRef)
  /-- SAMPLE (R199). -/
  | sample (t : TileRef)
  /-- NTT_FWD (R195). -/
  | nttFwd (t : TileRef)
  /-- NTT_INV (R195). -/
  | nttInv (t : TileRef)
  /-- AUTO (R195). -/
  | auto (t : TileRef)
  /-- BCV_SCALE (R196). -/
  | bcvScale (t : TileRef)
  /-- BCV_OUT (R196). -/
  | bcvOut (t : TileRef)
  /-- TABLE_RELOAD (R137). -/
  | tableReload (t : TileRef)
  /-- AES_KEY (R197). -/
  | aesKey (t : TileRef)
  /-- AES_CTR (R197). -/
  | aesCtr (t : TileRef)
  /-- GCM_OPEN (R198). -/
  | gcmOpen (t : TileRef)
  /-- LOAD (R214). -/
  | load (t : TileRef)
  /-- STORE (R214). -/
  | store (t : TileRef)
  /-- PUMP (R241). -/
  | pump (t : TileRef)
  /-- TILE_SEND (R214). -/
  | tileSend (t : TileRef)
  /-- RECV (R202). -/
  | recv (t : TileRef)
  /-- KEYSTREAM (R142). -/
  | keystream (t : TileRef)
  /-- TURN (R240). -/
  | turn (t : TileRef)
  /-- STEPFETCH (R204). -/
  | stepfetch (t : TileRef)
  /-- RNG_READ (R199). -/
  | rngRead (t : TileRef)
  /-- WATCHDOG (R220). -/
  | watchdog (t : TileRef)
  /-- WINDLASS_STOP (R219). -/
  | windlassStop (t : TileRef)
  /-- TRANSFER_CHECK_RESULT (R234). -/
  | transferCheckResult (k : Link) (r : CheckResult)
  /-- RING_ADD (R242). -/
  | ringAdd (u : PumpRef)
  /-- RING_SUB (R242). -/
  | ringSub (u : PumpRef)
  /-- MOD_ADD (R242). -/
  | modAdd (u : PumpRef)
  /-- MOD_SUB (R242). -/
  | modSub (u : PumpRef)
  /-- AXPY (R242). -/
  | axpy (u : PumpRef)
  /-- SMIN (R242). -/
  | smin (u : PumpRef)
  /-- SMAX (R242). -/
  | smax (u : PumpRef)
  /-- ZERO (R243). -/
  | zeroOp (u : PumpRef)
  /-- COPY (R245). -/
  | copyOp (u : PumpRef)
  /-- SET_COEF (R244). -/
  | setCoef (u : PumpRef)
  /-- COPY_DESCRIPTOR_START (R246). -/
  | copyDescriptorStart (well : Nat) (chan : Nat)
  /-- COPY_DESCRIPTOR_DONE (R246). -/
  | copyDescriptorDone (well : Nat) (chan : Nat)
  /-- MERGE_IDLE_TIMEOUT (R237). -/
  | mergeIdleTimeout (well : Nat) (bucket : Nat)
  /-- CORRECTED_WORD_WRITEBACK (R232): the array, the bucket of a cistern or LPDDR5X device, and the 64-bit word, 8 for the valid-bit row; what an array does
  not have is 0. -/
  | correctedWordWriteback (e : ArrayError) (bucket word : Nat)
  /-- SCRUB_READ (R259). -/
  | scrubRead (well : Nat) (found : EccFound)
  /-- TRIPLE_VOTE_SCAN (R261). -/
  | tripleVoteScan
  /-- SOURCE_SETTLE_END (R427). -/
  | sourceSettleEnd (n : Nat)
  /-- NOISE_SAMPLE (R428). -/
  | noiseSample (n : Nat) (raw : Bool)
  /-- DRBG_GENERATE (R436). -/
  | drbgGenerate (b : Nat)
  /-- REPORT_SIGN (R410). -/
  | reportSign (c : CmdRef)
  /-- REPORT_ENTROPY_TIMEOUT (R410). -/
  | reportEntropyTimeout (c : CmdRef)
  /-- IMAGE_INSTALL (R292). -/
  | imageInstall (p : Nat)
  /-- SLOT_OWNER_SWITCH (R281). -/
  | slotOwnerSwitch
  /-- TILE_SELFTEST_DONE (R225). -/
  | tileSelftestDone (t : TileRef) (failing : Nat)
  /-- POWER_ON_RESET (R503). -/
  | powerOnReset
  /-- DEVICE_RESET (R503). -/
  | deviceReset
  /-- RESET_RELEASE (R503). -/
  | resetRelease
  /-- FW_VERIFY_DONE (R403). -/
  | fwVerifyDone (pauseUs : Nat)
  /-- BOOT_SELFTEST_DONE (R222). -/
  | bootSelftestDone (r : List WellTest)
  /-- LANTUS_FETCH_ERROR (R405). -/
  | lantusFetchError (data : Bool)
  /-- PWR_FAIL_N (R469). -/
  | pwrFailN
  /-- PWR_FAIL_DEASSERT (R469). -/
  | pwrFailDeassert
  /-- POWER_LOSS (R470). -/
  | powerLoss
  /-- WAKE_N (R459). -/
  | wakeN
  /-- MGMT_ADDRESS_MATCH (R459). -/
  | mgmtAddressMatch (dynamic : Bool) (addr : Nat)
  /-- PCIE_L1_EXIT (R459). -/
  | pcieL1Exit
  /-- AVS_VDONE (R452). -/
  | avsVdone (mv : Nat)
  /-- AVS_TIMEOUT (R452). -/
  | avsTimeout
  /-- PLL_LOCK (R448). -/
  | pllLock
  /-- PLL_LOCK_LOST (R449). -/
  | pllLockLost
  /-- V_RUN_ADJUST (R451). -/
  | vRunAdjust (up : Bool)
  /-- TELEMETRY_POLL (R453). -/
  | telemetryPoll (fail : Option (Nat × Nat)) (powerW : Nat) (currentA : Nat)
  /-- THERMAL_SAMPLE (R462). -/
  | thermalSample (readings : List Int)
  /-- THERMAL_TRIP (R468). -/
  | thermalTrip
  /-- GOVERNOR_PERIOD (R464). -/
  | governorPeriod
  /-- VR_ALERT_N (R466). -/
  | vrAlertN
  /-- LOG_WRITE (R475). -/
  | logWrite
  /-- LOCK_INTERFACE_REQUEST (R381). -/
  | lockInterfaceRequest (p : Nat) (fn : Nat)
  /-- START_INTERFACE_REQUEST (R381). -/
  | startInterfaceRequest (p : Nat) (fn : Nat)
  /-- GET_DEVICE_INTERFACE_REPORT (R381). -/
  | getDeviceInterfaceReport (p : Nat) (fn : Nat)
  /-- SELF_REFRESH_EXIT_DONE (R460). -/
  | selfRefreshExitDone (trained : List Bool)
  /-- LPX_FAILED (R253). -/
  | lpxFailed (well : Nat)
  /-- FW_COPY_VERIFIED (R405). -/
  | fwCopyVerified (ok : Bool)
  /-- KEX_REPORT (R417). -/
  | kexReport (p : Nat)
  deriving DecidableEq, Repr

end Sys2Proof
end

