-- ==== Sys2Proof/Config.lean ====
section
/-! DEFINITION. What the spec leaves open or takes from standards outside it: constants without a body, of which nothing can be proved. -/

namespace Sys2Proof

/-- Free values: what the spec leaves open, drawn with a counter of the state (log entry 1). -/
opaque Config.free : Nat → Nat

/-- ML-DSA-44 of FIPS 204, KeyGen_internal: public key (1,312 bytes) and private key of a seed (R397). An outside standard (log entry 6). -/
opaque Config.mldsaKeyGen : Bytes → Bytes × Bytes

/-- ML-DSA.Sign of FIPS 204, hedged: private key, message, context string, randomness (R410). -/
opaque Config.mldsaSign : Bytes → Bytes → Bytes → Bytes → Bytes

/-- ML-DSA.Verify of FIPS 204: public key, message, context string, signature (R273, R398, R414). -/
opaque Config.mldsaVerify : Bytes → Bytes → Bytes → Bytes → Bool

/-- ML-KEM-768 of FIPS 203, KeyGen_internal: encapsulation and decapsulation key of 64 random bytes (R417). -/
opaque Config.mlkemKeyGen : Bytes → Bytes × Bytes

/-- ML-KEM.Decaps of FIPS 203: decapsulation key, ciphertext; implicit rejection included (R414). -/
opaque Config.mlkemDecaps : Bytes → Bytes → Bytes

/-- Subject public key of the leaf certificate of an SPDM certificate chain (R406). -/
opaque Config.leafPublicKey : Bytes → Bytes

/-- Reply payload of the base specification to an IDE_KM message (R380). -/
opaque Config.ideKmReply : Bytes → Bytes

/-- Reply payload of the base specification to a TDISP message (R381): request and outcome code. -/
opaque Config.tdispReply : Bytes → Nat → Bytes

/-- The reciprocal and reciprocal-square-root estimate tables of the lane unit (R190): function and operand bits. -/
opaque Config.estimate : Nat → Nat → Nat

end Sys2Proof
end

