-- ==== Sys2Proof/Machine/Bits.lean ====
section
/-! DEFINITION. Bit fields, byte order and the list helpers that every other file uses (00_scope.md, "Numbers and bits"). -/

namespace Sys2Proof.Machine

open Sys2Proof

/-- Bits [hi:lo] of a number. -/
def bits (n hi lo : Nat) : Nat := (n >>> lo) % 2 ^ (hi + 1 - lo)

/-- Bit i of a number as a truth value. -/
def bit (n i : Nat) : Bool := n.testBit i

/-- A truth value as one bit. -/
def b2n (b : Bool) : Nat := if b then 1 else 0

/-- Little-endian integer of a byte string (R6, R7). -/
def leNat : Bytes → Nat
  | [] => 0
  | b :: bs => b.toNat + 256 * leNat bs

/-- Big-endian integer of a byte string (standard headers, R6). -/
def beNat (bs : Bytes) : Nat := bs.foldl (fun a b => 256 * a + b.toNat) 0

/-- The `len` low bytes of a number, little-endian. -/
def toLE : Nat → Nat → Bytes
  | _, 0 => []
  | n, len + 1 => BitVec.ofNat 8 n :: toLE (n / 256) len

/-- The `len` low bytes of a number, big-endian. -/
def toBE (n len : Nat) : Bytes := (toLE n len).reverse

/-- `len` bytes of a string from an offset. -/
def slice (bs : Bytes) (off len : Nat) : Bytes := (bs.drop off).take len

/-- A little-endian field of `len` bytes at byte offset `off` (R7). -/
def rd (bs : Bytes) (off len : Nat) : Nat := leNat (slice bs off len)

/-- A big-endian field of `len` bytes at byte offset `off`. -/
def rdBE (bs : Bytes) (off len : Nat) : Nat := beNat (slice bs off len)

/-- A string with the bytes from an offset on replaced. -/
def patch (bs : Bytes) (off : Nat) (new : Bytes) : Bytes :=
  bs.take off ++ new ++ bs.drop (off + new.length)

/-- Bytes of zeros. -/
def zeros (n : Nat) : Bytes := List.replicate n 0

/-- A string cut or padded with zeros to `n` bytes. -/
def fit (bs : Bytes) (n : Nat) : Bytes := (bs ++ zeros (n - bs.length)).take n

/-- Bytes from numbers. -/
def bytesOf (ns : List Nat) : Bytes := ns.map (BitVec.ofNat 8)

/-- The bytes of a text's characters. -/
def ascii (t : String) : Bytes := t.toList.map (fun c => BitVec.ofNat 8 c.toNat)

/-- Bitwise exclusive-OR of two byte strings, to the shorter of the two. -/
def xorBytes (a b : Bytes) : Bytes := List.zipWith (· ^^^ ·) a b

/-- Split a string into pieces of `n` bytes; the fuel is the string's length. -/
def chunksAux {α : Type} (n : Nat) : Nat → List α → List (List α)
  | 0, _ => []
  | fuel + 1, bs => if bs.isEmpty then [] else bs.take n :: chunksAux n fuel (bs.drop n)

/-- Split a list into pieces of `n` elements, the last one shorter if need be. -/
def chunks {α : Type} (n : Nat) (bs : List α) : List (List α) := chunksAux n bs.length bs

/-- Ceiling of a division. -/
def ceilDiv (a b : Nat) : Nat := (a + b - 1) / b

/-- Ticks of a duration in nanoseconds (R19, "Pseudocode" of 00_scope.md): round up, 2.5 ns a tick. -/
def ticksOfNs (ns : Nat) : Nat := (ns * 2 + 4) / 5

/-- Ticks of a duration in microseconds (R19). -/
def ticksOfUs (us : Nat) : Nat := 400 * us

/-- Ticks of a duration in milliseconds (R19). -/
def ticksOfMs (ms : Nat) : Nat := 400000 * ms

/-- Set element `i` of a list by a function of it; no change past the end. -/
def updAt {α : Type} (l : List α) (i : Nat) (f : α → α) : List α :=
  match l, i with
  | [], _ => []
  | a :: as, 0 => f a :: as
  | a :: as, i + 1 => a :: updAt as i f

/-- Value of a key in an association list. -/
def look {α : Type} (k : Nat) : List (Nat × α) → Option α
  | [] => none
  | (k', v) :: l => if k' = k then some v else look k l

/-- Put a value at a key of an association list sorted by rising key. -/
def put {α : Type} (k : Nat) (v : α) : List (Nat × α) → List (Nat × α)
  | [] => [(k, v)]
  | (k', v') :: l =>
    if k < k' then (k, v) :: (k', v') :: l
    else if k = k' then (k, v) :: l
    else (k', v') :: put k v l

/-- Remove a key. -/
def del {α : Type} (k : Nat) (l : List (Nat × α)) : List (Nat × α) := l.filter (fun p => p.1 ≠ k)

/-- Insert into a list of rising numbers without repeats. -/
def insertNat (k : Nat) : List Nat → List Nat
  | [] => [k]
  | k' :: l => if k < k' then k :: k' :: l else if k = k' then k' :: l else k' :: insertNat k l

/-- The 2-of-3 vote of three copies; none when all three differ (R27, R39, R261). -/
def vote {α : Type} [DecidableEq α] (a b c : α) : Option α :=
  if a = b then some a else if a = c then some a else if b = c then some b else none

/-- Number of bits needed to write n. -/
def bitLen (n : Nat) : Nat := if n = 0 then 0 else Nat.log2 n + 1

/-- Number of ones among the low `w` bits. -/
def popCount (n : Nat) : Nat → Nat
  | 0 => 0
  | w + 1 => b2n (bit n w) + popCount n w

/-- Two's complement reading of a `w`-bit number. -/
def sgn (w n : Nat) : Int := if n % 2 ^ w < 2 ^ (w - 1) then ((n % 2 ^ w : Nat) : Int) else ((n % 2 ^ w : Nat) : Int) - (2 ^ w : Nat)

/-- The `w`-bit two's complement word of an integer. -/
def unsgn (w : Nat) (i : Int) : Nat := (i % (2 ^ w : Nat)).toNat

/-- Reverse the low `w` bits of a number. -/
def bitRev : Nat → Nat → Nat
  | 0, _ => 0
  | w + 1, n => (n % 2) * 2 ^ w + bitRev w (n / 2)

end Sys2Proof.Machine
end

