-- ==== Sys2Proof/Machine/Crypto.lean ====
section
/-! DEFINITION. The standard functions the spec names: the CRCs, AES-256, GCM, Keccak with SHA3-256 and KMAC256,
and CTR_DRBG with AES-256 and the derivation function (00_scope.md R8, 06 R197 to R199, 07, 09 R301 R308, 11 R390, 12 R434). -/

namespace Sys2Proof.Machine

open Sys2Proof

/-! ## CRCs -/

/-- `n` shifts of a reflected CRC register with polynomial `poly`. -/
def crcShift (poly : Nat) : Nat → Nat → Nat
  | 0, c => c
  | n + 1, c => crcShift poly n (if c % 2 = 1 then (c / 2) ^^^ poly else c / 2)

/-- Reflected 32-bit CRC with initial value and final exclusive-OR of all ones. -/
def crcReflected (poly : Nat) (bs : Bytes) : Nat :=
  (bs.foldl (fun c b => crcShift poly 8 (c ^^^ b.toNat)) 0xFFFFFFFF) ^^^ 0xFFFFFFFF

/-- CRC-32C of R8: polynomial 0x1EDC6F41 in reflected form. -/
def crc32c (bs : Bytes) : Nat := crcReflected 0x82F63B78 bs

/-- The frame check sequence of IEEE 802.3. -/
def crcEthernet (bs : Bytes) : Nat := crcReflected 0xEDB88320 bs

/-- `n` shifts of an unreflected 16-bit CRC register, polynomial 0x1021. -/
def crc16Shift : Nat → Nat → Nat
  | 0, c => c
  | n + 1, c => crc16Shift n (if c ≥ 0x8000 then ((c * 2) % 0x10000) ^^^ 0x1021 else (c * 2) % 0x10000)

/-- CRC-16 with polynomial 0x1021 and initial value 0xFFFF. -/
def crc16 (bs : Bytes) : Nat :=
  bs.foldl (fun c b => crc16Shift 8 (c ^^^ (256 * b.toNat))) 0xFFFF

/-- Do the last four bytes of a structure hold its CRC-32C (R8)? -/
def crcEndsOk (bs : Bytes) : Bool :=
  decide (4 ≤ bs.length) && rd bs (bs.length - 4) 4 == crc32c (bs.take (bs.length - 4) ++ zeros 4)

/-- A structure with its last four bytes set to its CRC-32C (R8). -/
def sealCrc (bs : Bytes) : Bytes :=
  let body := bs.take (bs.length - 4)
  body ++ toLE (crc32c (body ++ zeros 4)) 4

/-- The CRC-32C of a structure whose CRC field lies at a byte offset, that field taken as zero (R8). -/
def crcWithField (bs : Bytes) (off : Nat) : Nat := crc32c (patch bs off (zeros 4))

/-! ## AES-256 (FIPS 197); blocks are lists of 16 byte values -/

/-- The substitution box, entry i in bits [8i+7:8i]. -/
def aesSbox : Nat :=
  0x16BB54B00F2D99416842E6BF0D89A18CDF2855CEE9871E9B948ED9691198F8E19E1DC186B95735610EF6034866B53E708A8BBD4B1F74DDE8C6B4A61C2E2578BA08AE7A65EAF4566CA94ED58D6D37C8E779E4959162ACD3C25C2406490A3A32E0DB0B5EDE14B8EE4688902A22DC4F816073195D643D7EA7C41744975FEC130CCDD2F3FF1021DAB6BCF5389D928F40A351A89F3C507F02F94585334D43FBAAEFD0CF584C4A39BECB6A5BB1FC20ED00D153842FE329B3D63B52A05A6E1B1A2C830975B227EBE28012079A059618C323C7041531D871F1E5A534CCF73F362693FDB7C072A49CAFA2D4ADF04759FA7DC982CA76ABD7FE2B670130C56F6BF27B777C63

/-- One entry of the substitution box. -/
def aesSub (x : Nat) : Nat := (aesSbox >>> (8 * x)) % 256

/-- Doubling in the field of AES. -/
def aesX2 (a : Nat) : Nat := if a ≥ 128 then ((a * 2) % 256) ^^^ 0x1B else a * 2

/-- One column of MixColumns. -/
def aesMixCol : List Nat → List Nat
  | [a, b, c, d] =>
    let t := a ^^^ b ^^^ c ^^^ d
    [a ^^^ t ^^^ aesX2 (a ^^^ b), b ^^^ t ^^^ aesX2 (b ^^^ c), c ^^^ t ^^^ aesX2 (c ^^^ d), d ^^^ t ^^^ aesX2 (d ^^^ a)]
  | l => l

/-- ShiftRows on a block in column order. -/
def aesShiftRows (s : List Nat) : List Nat :=
  [0, 5, 10, 15, 4, 9, 14, 3, 8, 13, 2, 7, 12, 1, 6, 11].map (fun i => s.getD i 0)

/-- The next eight words of the AES-256 key schedule from the last eight. -/
def aesKeyNext (rc : Nat) (w : List (List Nat)) : List (List Nat) :=
  let x := List.zipWith (fun (a b : Nat) => a ^^^ b)
  let last := w.getD 7 []
  let g := match last with
    | [a, b, c, d] => [aesSub b ^^^ rc, aesSub c, aesSub d, aesSub a]
    | l => l
  let w0 := x (w.getD 0 []) g
  let w1 := x (w.getD 1 []) w0
  let w2 := x (w.getD 2 []) w1
  let w3 := x (w.getD 3 []) w2
  let w4 := x (w.getD 4 []) (w3.map aesSub)
  let w5 := x (w.getD 5 []) w4
  let w6 := x (w.getD 6 []) w5
  let w7 := x (w.getD 7 []) w6
  [w0, w1, w2, w3, w4, w5, w6, w7]

/-- `n` further groups of eight key words, the round constant doubling at each. -/
def aesSchedule : Nat → Nat → List (List Nat) → List (List Nat)
  | 0, _, _ => []
  | n + 1, rc, w => let w' := aesKeyNext rc w; w' ++ aesSchedule n (rc * 2) w'

/-- The 15 round keys of 16 bytes of a 32-byte key. -/
def aesRoundKeys (key : Bytes) : List (List Nat) :=
  let w := chunks 4 ((fit key 32).map BitVec.toNat)
  chunks 16 ((w ++ aesSchedule 7 1 w).flatten.take 240)

/-- The middle rounds and the last round over the remaining round keys. -/
def aesRounds : List (List Nat) → List Nat → List Nat
  | [], s => s
  | [k], s => List.zipWith (fun (a b : Nat) => a ^^^ b) (aesShiftRows (s.map aesSub)) k
  | k :: ks, s =>
    aesRounds ks (List.zipWith (fun (a b : Nat) => a ^^^ b) (((chunks 4 (aesShiftRows (s.map aesSub))).map aesMixCol).flatten) k)

/-- Encrypt one block under expanded round keys. -/
def aesBlock (rks : List (List Nat)) (blk : Bytes) : Bytes :=
  match rks with
  | [] => blk
  | k :: ks => bytesOf (aesRounds ks (List.zipWith (fun (a b : Nat) => a ^^^ b) ((fit blk 16).map BitVec.toNat) k))

/-- AES-256 of one block. -/
def aes256 (key blk : Bytes) : Bytes := aesBlock (aesRoundKeys key) blk

/-! ## GCM (NIST SP 800-38D) -/

/-- `n` steps of the multiplication in GF(2^128): x from its highest bit, v halved, z the sum. -/
def gfMulAux : Nat → Nat → Nat → Nat → Nat
  | 0, _, _, z => z
  | n + 1, x, v, z =>
    gfMulAux n x (if v % 2 = 1 then (v / 2) ^^^ (0xE1 <<< 120) else v / 2) (if bit x n then z ^^^ v else z)

/-- Multiplication in GF(2^128) of GCM, blocks read as big-endian integers. -/
def gfMul (x y : Nat) : Nat := gfMulAux 128 x y 0

/-- GHASH of blocks under the hash key. -/
def ghash (h : Nat) (blocks : List Bytes) : Nat :=
  blocks.foldl (fun y b => gfMul (y ^^^ beNat (fit b 16)) h) 0

/-- Add one to the last 32 bits of a counter block read big-endian. -/
def gcmInc (c : Nat) : Nat := 2 ^ 32 * (c / 2 ^ 32) + (c + 1) % 2 ^ 32

/-- `n` keystream blocks from a counter block. -/
def gcmStream (rks : List (List Nat)) : Nat → Nat → Bytes
  | 0, _ => []
  | n + 1, c => aesBlock rks (toBE c 16) ++ gcmStream rks n (gcmInc c)

/-- The tag of a ciphertext with its additional data. -/
def gcmTag (rks : List (List Nat)) (j0 : Nat) (aad ct : Bytes) : Bytes :=
  let h := beNat (aesBlock rks (zeros 16))
  let s := ghash h (chunks 16 aad ++ chunks 16 ct ++ [toBE (aad.length * 8) 8 ++ toBE (ct.length * 8) 8])
  xorBytes (toBE s 16) (aesBlock rks (toBE j0 16))

/-- AES-256-GCM encryption with a 12-byte nonce: ciphertext and 16-byte tag. -/
def gcmSeal (key nonce aad pt : Bytes) : Bytes × Bytes :=
  let rks := aesRoundKeys key
  let j0 := 2 ^ 32 * (beNat (fit nonce 12)) + 1
  let ct := xorBytes pt (gcmStream rks (ceilDiv pt.length 16) (gcmInc j0))
  (ct, gcmTag rks j0 aad ct)

/-- AES-256-GCM decryption: the plaintext when the tag matches. -/
def gcmOpen (key nonce aad ct tag : Bytes) : Option Bytes :=
  let rks := aesRoundKeys key
  let j0 := 2 ^ 32 * (beNat (fit nonce 12)) + 1
  if gcmTag rks j0 aad ct = tag then
    some (xorBytes ct (gcmStream rks (ceilDiv ct.length 16) (gcmInc j0)))
  else none

/-! ## Keccak (FIPS 202) and KMAC256 (NIST SP 800-185) -/

/-- Rotate a 64-bit lane left. -/
def rotl64 (x n : Nat) : Nat := ((x <<< n) % 2 ^ 64) ||| (x >>> (64 - n))

/-- Lane x + 5y of a Keccak state, both coordinates taken modulo five. -/
def laneXY (a : List Nat) (x y : Nat) : Nat := a.getD (x % 5 + 5 * (y % 5)) 0

/-- theta: every lane takes up the parity of the column before its own and, turned by one, of the column after it. -/
def keccakTheta (a : List Nat) : List Nat :=
  let parity := fun (x : Nat) => (List.range 5).foldl (fun v y => v ^^^ laneXY a x y) 0
  let effect := (List.range 5).map (fun x => parity (x + 4) ^^^ rotl64 (parity (x + 1)) 1)
  (a.zip (List.range 25)).map (fun e => e.1 ^^^ effect.getD (e.2 % 5) 0)

/-- rho and pi in one: the walk from lane (1, 0) over (y, 2x + 3y) visits every lane but (0, 0); its step t carries a lane to the next place, turned by the
triangular number of t + 1. `at_` is the lane the walk stands at. -/
def keccakWalk (a : List Nat) : Nat → Nat → Nat → List Nat → List Nat
  | 0, _, _, out => out
  | n + 1, t, at_, out =>
    let next := at_ / 5 + 5 * ((2 * (at_ % 5) + 3 * (at_ / 5)) % 5)
    keccakWalk a n (t + 1) next (out.set next (rotl64 (a.getD at_ 0) ((t + 1) * (t + 2) / 2 % 64)))

/-- chi: every lane takes up the second lane after it in its row, where the first one after it is clear. -/
def keccakChi (a : List Nat) : List Nat :=
  (List.range 25).map (fun i => laneXY a i (i / 5) ^^^ (laneXY a (i + 2) (i / 5) - (laneXY a (i + 1) (i / 5) &&& laneXY a (i + 2) (i / 5))))

/-- The bits that iota adds in one round come from the register of rc(t), x^8 + x^6 + x^5 + x^4 + 1: seven of them stand at the bits 2^j - 1 of lane (0, 0).
Answers the constant and the register after it. -/
def keccakIota : Nat → Nat → Nat → Nat → Nat × Nat
  | 0, _, reg, c => (c, reg)
  | n + 1, j, reg, c => keccakIota n (j + 1) (if reg < 128 then 2 * reg else (2 * reg - 256) ^^^ 0x71) (c + reg % 2 * 2 ^ (2 ^ j - 1))

/-- Rounds of Keccak-f[1600], from the state of the register of rc(t) on. -/
def keccakRounds : Nat → Nat → List Nat → List Nat
  | 0, _, a => a
  | n + 1, reg, a =>
    let e := keccakTheta a
    let k := keccakIota 7 0 reg 0
    keccakRounds n k.2 ((keccakChi (keccakWalk e 24 0 1 e)).modify 0 (fun x => x ^^^ k.1))

/-- The permutation Keccak-f[1600], 24 rounds. -/
def keccakF (a : List Nat) : List Nat := keccakRounds 24 1 a

/-- Bytes as 64-bit lanes, little-endian. -/
def lanesOf (bs : Bytes) : List Nat := (chunks 8 bs).map leNat

/-- Absorb whole blocks of `rate` bytes. -/
def keccakAbsorb (rate : Nat) (blocks : List Bytes) : List Nat :=
  blocks.foldl (fun st b => keccakF (List.zipWith (fun (x y : Nat) => x ^^^ y) st (lanesOf (fit (b.take rate) 200)))) (List.replicate 25 0)

/-- Squeeze `n` blocks of `rate` bytes. -/
def keccakSqueeze (rate : Nat) : Nat → List Nat → Bytes
  | 0, _ => []
  | n + 1, st => ((st.map (fun l => toLE l 8)).flatten.take rate) ++ keccakSqueeze rate n (keccakF st)

/-- Message padding: the domain byte, zeros, and a last byte with its top bit set. -/
def keccakPad (rate dom : Nat) (msg : Bytes) : Bytes :=
  let n := rate - msg.length % rate
  if n = 1 then msg ++ bytesOf [dom + 0x80]
  else msg ++ bytesOf [dom] ++ zeros (n - 2) ++ bytesOf [0x80]

/-- The sponge. -/
def keccakSponge (rate dom : Nat) (msg : Bytes) (outLen : Nat) : Bytes :=
  (keccakSqueeze rate (ceilDiv outLen rate) (keccakAbsorb rate (chunks rate (keccakPad rate dom msg)))).take outLen

/-- SHA3-256. -/
def sha3 (msg : Bytes) : Bytes := keccakSponge 136 0x06 msg 32

/-- Length of a number in bytes, at least one. -/
def byteLen (n : Nat) : Nat := if n = 0 then 1 else bitLen n / 8 + b2n (bitLen n % 8 ≠ 0)

/-- left_encode of SP 800-185. -/
def leftEncode (n : Nat) : Bytes := bytesOf [byteLen n] ++ toBE n (byteLen n)

/-- right_encode of SP 800-185. -/
def rightEncode (n : Nat) : Bytes := toBE n (byteLen n) ++ bytesOf [byteLen n]

/-- encode_string of SP 800-185. -/
def encodeString (bs : Bytes) : Bytes := leftEncode (bs.length * 8) ++ bs

/-- bytepad of SP 800-185. -/
def bytepad (w : Nat) (bs : Bytes) : Bytes :=
  let z := leftEncode w ++ bs
  z ++ zeros ((w - z.length % w) % w)

/-- KMAC256 with a key, data, an output length in bytes and a customisation string. -/
def kmac256 (key data : Bytes) (outLen : Nat) (custom : Bytes) : Bytes :=
  keccakSponge 136 0x04
    (bytepad 136 (encodeString (ascii "KMAC") ++ encodeString custom) ++ bytepad 136 (encodeString key) ++ data ++ rightEncode (outLen * 8))
    outLen

/-! ## CTR_DRBG with AES-256 and the derivation function (NIST SP 800-90A), 48-byte seed -/

/-- Add one to a 16-byte counter block. -/
def ctrInc (v : Nat) : Nat := (v + 1) % 2 ^ 128

/-- `n` output blocks of CTR_DRBG from V, with V after them. -/
def drbgBlocks (rks : List (List Nat)) : Nat → Nat → Bytes × Nat
  | 0, v => ([], v)
  | n + 1, v =>
    let v1 := ctrInc v
    let r := drbgBlocks rks n v1
    (aesBlock rks (toBE v1 16) ++ r.1, r.2)

/-- CTR_DRBG_Update: the new Key and V. -/
def drbgUpdate (key : Bytes) (v : Nat) (provided : Bytes) : Bytes × Nat :=
  let t := xorBytes (drbgBlocks (aesRoundKeys key) 3 v).1 (fit provided 48)
  (t.take 32, beNat (t.drop 32))

/-- BCC of the derivation function: CBC-MAC with zero start. -/
def drbgBcc (rks : List (List Nat)) (data : Bytes) : Bytes :=
  (chunks 16 data).foldl (fun c b => aesBlock rks (xorBytes c b)) (zeros 16)

/-- `n` blocks of the derivation function's first phase. -/
def drbgDfAux (rks : List (List Nat)) (s : Bytes) : Nat → Nat → Bytes
  | 0, _ => []
  | n + 1, i => drbgBcc rks (toBE i 4 ++ zeros 12 ++ s) ++ drbgDfAux rks s n (i + 1)

/-- `n` chained blocks of the derivation function's second phase. -/
def drbgDfOut (rks : List (List Nat)) : Nat → Bytes → Bytes
  | 0, _ => []
  | n + 1, x => let y := aesBlock rks x; y ++ drbgDfOut rks n y

/-- Block_Cipher_df to 48 bytes. -/
def drbgDf (input : Bytes) : Bytes :=
  let s0 := toBE input.length 4 ++ toBE 48 4 ++ input ++ bytesOf [0x80]
  let s := s0 ++ zeros ((16 - s0.length % 16) % 16)
  let t := drbgDfAux (aesRoundKeys (bytesOf (List.range 32))) s 3 0
  drbgDfOut (aesRoundKeys (t.take 32)) 3 ((t.drop 32).take 16)

/-- Instantiate from entropy, nonce and personalisation. -/
def drbgInstantiate (material : Bytes) : Bytes × Nat := drbgUpdate (zeros 32) 0 (drbgDf material)

/-- Reseed from entropy and additional input. -/
def drbgReseed (key : Bytes) (v : Nat) (material : Bytes) : Bytes × Nat := drbgUpdate key v (drbgDf material)

/-- Generate `n` bytes with no additional input: output, new Key and V. -/
def drbgGenerate (key : Bytes) (v n : Nat) : Bytes × Bytes × Nat :=
  let r := drbgBlocks (aesRoundKeys key) (ceilDiv n 16) v
  let u := drbgUpdate key r.2 (zeros 48)
  (r.1.take n, u.1, u.2)

end Sys2Proof.Machine
end

