-- ==== Sys2Proof/Machine/RegTable.lean ====
section
/-! DEFINITION. The register tables of the spec: for each block its rows (offset, stride, count, fields), as the chapters' register tables state them. -/

namespace Sys2Proof.Machine

open Sys2Proof

/-- Access types of R15 (00_scope.md). No register table uses W1S. -/
inductive Acc where
  | ro | rw | w1c | rc | wo | rwl
  deriving DecidableEq, Repr

/-- One field of a register: bits [hi:lo], its access type and its reset value. -/
structure Fld where
  hi : Nat
  lo : Nat
  acc : Acc
  reset : Nat
  deriving DecidableEq, Repr

/-- Which half of a 64-bit pair a register is (R13, R14). -/
inductive Half where
  | single | low | high
  deriving DecidableEq, Repr

/-- A row of a register table: registers at base, base + stride, ... -/
structure RegRow where
  base : Nat
  stride : Nat
  count : Nat
  name : String
  half : Half
  flds : List Fld
  deriving DecidableEq, Repr

/-- A field written short. -/
def fl (hi lo : Nat) (acc : Acc) (reset : Nat) : Fld := ⟨hi, lo, acc, reset⟩

/-- A register written short. -/
def rg (base : Nat) (name : String) (flds : List Fld) : RegRow := ⟨base, 4, 1, name, .single, flds⟩

/-- An array of registers written short. -/
def rga (base stride count : Nat) (name : String) (flds : List Fld) : RegRow := ⟨base, stride, count, name, .single, flds⟩

/-- The low half of pairs written short. -/
def rgLo (base stride count : Nat) (name : String) (flds : List Fld) : RegRow := ⟨base, stride, count, name, .low, flds⟩

/-- The high half of pairs written short. -/
def rgHi (base stride count : Nat) (name : String) (flds : List Fld) : RegRow := ⟨base, stride, count, name, .high, flds⟩

/-- The registers of R44 (01_architecture.md). -/
def glbRows : List RegRow :=
  [rg 0x0 "GLB_IDENT" [fl 31 16 .ro 0x2416, fl 15 0 .ro 0x1d7e],
   rg 0x4 "GLB_STEPPING" [fl 7 4 .ro 1, fl 3 0 .ro 0],
   rg 0x8 "GLB_WELL_AVAIL" [fl 23 0 .ro 0],
   rga 0x10 0x4 4 "GLB_WELL_OWNERn" [fl 29 25 .ro 0x1f, fl 24 20 .ro 0x1f, fl 19 15 .ro 0x1f, fl 14 10 .ro 0x1f, fl 9 5 .ro 0x1f, fl 4 0 .ro 0x1f],
   rg 0x20 "GLB_REFUSE_COUNT" [fl 31 0 .rc 0],
   rg 0x24 "GLB_REFUSE_LAST" [fl 31 16 .ro 0, fl 15 11 .ro 0, fl 10 8 .ro 0, fl 0 0 .w1c 0],
   rgLo 0x28 0x4 1 "GLB_REFUSE_ADDR_LO" [fl 31 0 .ro 0],
   rgHi 0x2c 0x4 1 "GLB_REFUSE_ADDR_HI" [fl 15 0 .ro 0]]

/-- The registers of R85 (02_rounds.md). -/
def rndRows : List RegRow :=
  [rg 0x0 "RND_STATE" [fl 15 8 .ro 0, fl 7 4 .ro 0, fl 3 2 .ro 0],
   rg 0x4 "RND_PHASE" [fl 3 0 .ro 0],
   rgLo 0x8 0x4 1 "RND_ID_LO" [fl 31 0 .ro 0],
   rgHi 0xc 0x4 1 "RND_ID_HI" [fl 31 0 .ro 0],
   rg 0x10 "RND_RATE" [fl 31 0 .rwl 0],
   rg 0x14 "RND_RATE_NOW" [fl 9 0 .ro 0x3e8],
   rg 0x18 "RND_CTRL" [fl 1 1 .wo 0, fl 0 0 .rw 0],
   rg 0x1c "RND_RETRY" [fl 19 0 .rw 0x3e8],
   rg 0x20 "RND_ADMITTED" [fl 31 0 .ro 0],
   rg 0x24 "RND_ACCUMULATED" [fl 31 0 .ro 0],
   rg 0x28 "RND_DROPPED" [fl 31 0 .ro 0],
   rg 0x2c "RND_SLOTS" [fl 31 16 .ro 0, fl 15 0 .ro 0]] ++
  [rg 0x30 "RND_REFUSE_COUNT" [fl 31 0 .rc 0],
   rg 0x34 "RND_CLOSED_COUNT" [fl 31 0 .rc 0],
   rg 0x38 "RND_CKPT" [fl 31 0 .ro 0],
   rgLo 0x40 0x4 1 "RND_CUT_LO" [fl 31 0 .ro 0],
   rgHi 0x44 0x4 1 "RND_CUT_HI" [fl 31 0 .ro 0],
   rg 0x48 "RND_INT_STATUS" [fl 7 7 .w1c 0, fl 6 6 .w1c 0, fl 5 5 .w1c 0, fl 4 4 .w1c 0, fl 3 3 .w1c 0, fl 2 2 .w1c 0, fl 1 1 .w1c 0, fl 0 0 .w1c 0],
   rg 0x4c "RND_INT_ENABLE" [fl 7 7 .rw 0, fl 6 6 .rw 0, fl 5 5 .rw 0, fl 4 4 .rw 0, fl 3 3 .rw 0, fl 2 2 .rw 0, fl 1 1 .rw 0, fl 0 0 .rw 0]]

/-- The registers of R124 (03_masked_aggregation.md). -/
def mskRows : List RegRow :=
  [rg 0x0 "MSK_CONFIG" [fl 13 8 .rwl 0, fl 7 0 .ro 0],
   rg 0x4 "MSK_DEGREE" [fl 23 0 .rwl 0],
   rgLo 0x8 0x4 1 "MSK_SIGMA_LO" [fl 31 0 .rwl 0],
   rgHi 0xc 0x4 1 "MSK_SIGMA_HI" [fl 24 0 .rwl 0],
   rg 0x10 "MSK_SECRETS_NEEDED" [fl 31 0 .ro 0],
   rg 0x14 "MSK_SECRETS_DONE" [fl 31 0 .ro 0],
   rg 0x18 "MSK_MSG_ACCEPTED" [fl 31 0 .ro 0],
   rg 0x1c "MSK_MSG_REFUSED" [fl 31 0 .rc 0],
   rg 0x20 "MSK_SHARES_DISCARDED" [fl 31 0 .rc 0],
   rg 0x24 "MSK_SHARES_SURPLUS" [fl 31 0 .rc 0],
   rg 0x28 "MSK_LAST_REFUSE" [fl 31 24 .ro 0, fl 23 0 .ro 0],
   rg 0x2c "MSK_COMMIT_FAIL" [fl 31 31 .w1c 0, fl 23 0 .ro 0]] ++
  [rg 0x30 "MSK_NOISED" [fl 31 0 .ro 0],
   rg 0x34 "MSK_DECODED" [fl 31 0 .ro 0],
   rg 0x38 "MSK_SLAB" [fl 31 0 .ro 0]]

/-- The registers of R158 (04_ciphertext_engine.md). -/
def ctxRows : List RegRow :=
  [rg 0x0 "CTX_CONFIG" [fl 31 24 .rwl 0, fl 23 16 .rwl 0, fl 15 8 .rwl 0, fl 4 0 .rwl 0],
   rgLo 0x8 0x4 1 "CTX_KEYSET_LO" [fl 31 0 .rwl 0],
   rgHi 0xc 0x4 1 "CTX_KEYSET_HI" [fl 31 0 .rwl 0],
   rg 0x10 "CTX_DECODE" [fl 23 16 .rwl 0, fl 13 8 .rwl 0, fl 1 1 .rwl 0, fl 0 0 .rwl 0],
   rgLo 0x18 0x4 1 "CTX_SIGMA_LO" [fl 31 0 .rwl 0],
   rgHi 0x1c 0x4 1 "CTX_SIGMA_HI" [fl 24 0 .rwl 0],
   rg 0x20 "CTX_HOLDERS" [fl 24 0 .rwl 0],
   rg 0x24 "CTX_PRIMES_CRC" [fl 31 0 .ro 0],
   rg 0x30 "CTX_POISON_COUNT" [fl 31 0 .rc 0],
   rg 0x34 "CTX_KEY_MISMATCH_COUNT" [fl 31 0 .rc 0],
   rg 0x38 "CTX_LEVEL_SPENT_COUNT" [fl 31 0 .rc 0],
   rg 0x3c "CTX_TABLE_FAIL_COUNT" [fl 31 0 .rc 0]] ++
  [rg 0x40 "CTX_EXPORT_REFUSED_COUNT" [fl 31 0 .rc 0],
   rg 0x44 "CTX_LAST_POISON" [fl 31 31 .w1c 0, fl 23 16 .ro 0, fl 9 0 .ro 0],
   rg 0x50 "CTX_DSHARES_ACCEPTED" [fl 31 0 .ro 0],
   rg 0x54 "CTX_DSHARE_REFUSED" [fl 31 0 .rc 0],
   rg 0x58 "CTX_DSHARES_SURPLUS" [fl 31 0 .rc 0],
   rg 0x5c "CTX_LAST_DSHARE_REFUSE" [fl 31 24 .ro 0, fl 23 0 .ro 0],
   rg 0x60 "CTX_COMBINED" [fl 31 0 .ro 0],
   rg 0x64 "CTX_OUTPUTS" [fl 31 0 .ro 0]]

/-- The registers of R183 (05_table_refresh.md). -/
def rfsRows : List RegRow :=
  [rg 0x0 "RFS_CONFIG" [fl 31 21 .rwl 0, fl 18 17 .rwl 0, fl 16 13 .rwl 0, fl 12 9 .rwl 0, fl 6 0 .rwl 0],
   rg 0x4 "RFS_GADGET" [fl 28 26 .rwl 0, fl 25 21 .rwl 0, fl 20 17 .rwl 0, fl 16 13 .rwl 0, fl 12 10 .rwl 0, fl 9 5 .rwl 0],
   rg 0x8 "RFS_TABLES" [fl 8 0 .ro 0],
   rg 0xc "RFS_TABLES_CRC" [fl 31 0 .ro 0],
   rg 0x10 "RFS_REFRESH_COUNT" [fl 31 0 .rc 0],
   rg 0x14 "RFS_REPACK_COUNT" [fl 31 0 .rc 0],
   rg 0x18 "RFS_POISON_COUNT" [fl 31 0 .rc 0],
   rg 0x1c "RFS_KEY_MISMATCH_COUNT" [fl 31 0 .rc 0],
   rg 0x20 "RFS_TABLE_FAIL_COUNT" [fl 31 0 .rc 0],
   rg 0x24 "RFS_LAST_POISON" [fl 31 31 .w1c 0, fl 23 16 .ro 0, fl 9 0 .ro 0]]

/-- The registers of R227 (06_tiles_windlass.md). -/
def tileRows : List RegRow :=
  [rg 0x0 "TILE_STATUS" [fl 26 16 .ro 0, fl 9 5 .ro 0x1f, fl 2 0 .ro 0],
   rg 0x4 "TILE_CTRL" [fl 0 0 .wo 0],
   rg 0x8 "TILE_TRAP" [fl 31 31 .w1c 0, fl 30 27 .ro 0, fl 26 16 .ro 0, fl 15 8 .ro 0],
   rgLo 0x10 0x4 1 "TILE_TRAP_TIME_LO" [fl 31 0 .ro 0],
   rgHi 0x14 0x4 1 "TILE_TRAP_TIME_HI" [fl 31 0 .ro 0],
   rgLo 0x18 0x4 1 "TILE_ISSUED_LO" [fl 31 0 .ro 0],
   rgHi 0x1c 0x4 1 "TILE_ISSUED_HI" [fl 31 0 .ro 0],
   rg 0x20 "TILE_LATE_COUNT" [fl 31 0 .rc 0],
   rg 0x24 "TILE_CONFLICT_COUNT" [fl 31 0 .rc 0],
   rg 0x28 "TILE_CORR_COUNT" [fl 31 0 .rc 0],
   rg 0x2c "TILE_UNARMED_COUNT" [fl 31 0 .rc 0],
   rg 0x30 "TILE_TWIDDLE_FAIL_COUNT" [fl 31 0 .rc 0]] ++
  [rg 0x34 "TILE_FPFLAGS" [fl 3 3 .w1c 0, fl 2 2 .w1c 0, fl 1 1 .w1c 0, fl 0 0 .w1c 0],
   rg 0x38 "TILE_STRETCH" [fl 9 0 .ro 0],
   rg 0x3c "TILE_SELFTEST" [fl 31 31 .ro 0, fl 30 30 .ro 0, fl 7 0 .ro 0]]

/-- The registers of R228 (06_tiles_windlass.md). -/
def substRows : List RegRow :=
  [rga 0x0 0x4 4 "WELL_SUBST_MAPn" [fl 29 25 .ro 0, fl 24 20 .ro 0, fl 19 15 .ro 0, fl 14 10 .ro 0, fl 9 5 .ro 0, fl 4 0 .ro 0],
   rg 0x10 "WELL_TILE_HEALTH" [fl 24 0 .ro 0],
   rg 0x14 "WELL_SUBST_STATUS" [fl 23 16 .ro 0, fl 5 5 .ro 0, fl 4 0 .ro 0x18],
   rg 0x18 "WELL_SUBST_CRC" [fl 31 0 .ro 0]]

/-- The registers of R265 (07_cisterns_pumps.md). -/
def pumpRows : List RegRow :=
  [rg 0x0 "PUMP_STATUS" [fl 15 8 .ro 0, fl 7 4 .ro 0, fl 0 0 .ro 0],
   rgLo 0x8 0x4 1 "PUMP_HALT_ADDR_LO" [fl 31 0 .ro 0],
   rgHi 0xc 0x4 1 "PUMP_HALT_ADDR_HI" [fl 15 0 .ro 0],
   rg 0x10 "PUMP_UNIT_COUNT" [fl 31 0 .rc 0],
   rg 0x14 "PUMP_BUSY_COUNT" [fl 31 0 .rc 0],
   rg 0x18 "PUMP_DISCARD_COUNT" [fl 31 0 .rc 0],
   rga 0x100 0x4 80 "PUMP_PRIMEn" [fl 31 0 .rwl 0]]

/-- The registers of R266 (07_cisterns_pumps.md). -/
def cisRows : List RegRow :=
  [rg 0x0 "CIS_STATUS" [fl 27 16 .ro 0, fl 5 0 .ro 0],
   rg 0x4 "CIS_MERGE_CTRL" [fl 0 0 .wo 0],
   rg 0x8 "CIS_UNCORR_COUNT" [fl 31 0 .rc 0],
   rg 0xc "CIS_RESEND_COUNT" [fl 31 0 .rc 0],
   rg 0x10 "CIS_RMW_COUNT" [fl 31 0 .rc 0],
   rg 0x14 "CIS_BANK_WAIT_COUNT" [fl 31 0 .rc 0],
   rg 0x18 "CIS_UNCORR_LAST" [fl 31 31 .w1c 0, fl 23 21 .ro 0, fl 20 0 .ro 0],
   rga 0x100 0x8 8 "CIS_COEFn_A" [fl 31 0 .rwl 0],
   rga 0x140 0x8 8 "CIS_COEFn_A (8-15)" [fl 31 0 .ro 0],
   rga 0x104 0x8 8 "CIS_COEFn_B" [fl 31 0 .rwl 0],
   rga 0x144 0x8 8 "CIS_COEFn_B (8-15)" [fl 31 0 .ro 0],
   rga 0x200 0x10 8 "CIS_TURNn_BASE" [fl 20 0 .rwl 0]] ++
  [rga 0x204 0x10 8 "CIS_TURNn_COLS" [fl 16 0 .rwl 0],
   rga 0x208 0x10 8 "CIS_TURNn_ROWS" [fl 12 0 .rwl 0],
   rga 0x300 0x20 2 "COPY_STATUSc" [fl 15 8 .ro 0, fl 1 1 .ro 0, fl 0 0 .ro 0],
   rgLo 0x308 0x20 2 "COPY_HALT_ADDR_LO" [fl 31 0 .ro 0],
   rgHi 0x30c 0x20 2 "COPY_HALT_ADDR_HI" [fl 15 0 .ro 0],
   rga 0x310 0x20 2 "COPY_UNIT_COUNT" [fl 31 0 .rc 0],
   rga 0x314 0x20 2 "COPY_DISCARD_COUNT" [fl 31 0 .rc 0]]

/-- The registers of R267 (07_cisterns_pumps.md). -/
def lpxRows : List RegRow :=
  [rg 0x0 "LPX_STATUS" [fl 7 7 .ro 0, fl 2 0 .ro 0],
   rg 0x4 "LPX_LINK_CORR_COUNT" [fl 31 0 .rc 0],
   rg 0x8 "LPX_REREAD_COUNT" [fl 31 0 .rc 0],
   rg 0xc "LPX_UNCORR_COUNT" [fl 31 0 .rc 0],
   rg 0x10 "LPX_RMW_COUNT" [fl 31 0 .rc 0],
   rgLo 0x18 0x4 1 "LPX_UNCORR_ADDR_LO" [fl 31 0 .ro 0],
   rgHi 0x1c 0x4 1 "LPX_UNCORR_ADDR_HI" [fl 15 0 .ro 0]]

/-- The registers of R268 (07_cisterns_pumps.md). -/
def scrubRows : List RegRow :=
  [rg 0x0 "SCRUB_CTRL" [fl 1 1 .wo 0, fl 0 0 .wo 0],
   rg 0x4 "SCRUB_STATUS" [fl 3 3 .ro 0, fl 2 0 .ro 0],
   rgLo 0x8 0x4 1 "SCRUB_FIRST_LO" [fl 31 0 .rw 0],
   rgHi 0xc 0x4 1 "SCRUB_FIRST_HI" [fl 15 0 .rw 0],
   rgLo 0x10 0x4 1 "SCRUB_LAST_LO" [fl 31 0 .rw 0],
   rgHi 0x14 0x4 1 "SCRUB_LAST_HI" [fl 15 0 .rw 0],
   rg 0x18 "SCRUB_SCANNED" [fl 31 0 .ro 0],
   rg 0x1c "SCRUB_CORRECTED" [fl 31 0 .ro 0],
   rg 0x20 "SCRUB_UNCORR" [fl 31 0 .ro 0],
   rgLo 0x28 0x4 1 "SCRUB_FIRST_UNCORR_LO" [fl 31 0 .ro 0],
   rgHi 0x2c 0x4 1 "SCRUB_FIRST_UNCORR_HI" [fl 15 0 .ro 0],
   rgLo 0x30 0x4 1 "SCRUB_LAST_UNCORR_LO" [fl 31 0 .ro 0]] ++
  [rgHi 0x34 0x4 1 "SCRUB_LAST_UNCORR_HI" [fl 15 0 .ro 0]]

/-- The registers of R269 (07_cisterns_pumps.md). -/
def cetRows : List RegRow :=
  [rg 0x0 "CET_STATUS" [fl 31 31 .w1c 0, fl 4 0 .ro 0],
   rg 0x4 "CET_CTRL" [fl 0 0 .wo 0],
   rg 0x8 "CET_OVERFLOW_COUNT" [fl 31 0 .rc 0],
   rgLo 0x100 0x10 16 "CET_ENTRYn_ADDR_LO" [fl 31 0 .ro 0],
   rgHi 0x104 0x10 16 "CET_ENTRYn_ADDR_HI" [fl 15 0 .ro 0],
   rga 0x108 0x10 16 "CET_ENTRYn_INFO" [fl 31 31 .w1c 0, fl 27 24 .ro 0, fl 15 0 .ro 0]]

/-- The registers of R298 (08_structure_images.md). -/
def fplRows : List RegRow :=
  [rg 0x0 "FPL_STATUS" [fl 23 16 .ro 0, fl 15 8 .ro 0, fl 1 0 .ro 0],
   rgLo 0x8 0x4 1 "FPL_SERIAL_LO" [fl 31 0 .ro 0],
   rgHi 0xc 0x4 1 "FPL_SERIAL_HI" [fl 31 0 .ro 0],
   rga 0x10 0x4 8 "FPL_DIGESTn" [fl 31 0 .ro 0],
   rg 0x30 "FPL_REFUSE_COUNT" [fl 31 0 .rc 0]]

/-- The registers of R299 (08_structure_images.md). -/
def imgRows : List RegRow :=
  [rg 0x0 "IMG_STATUS" [fl 23 16 .ro 0, fl 15 8 .ro 0, fl 1 0 .ro 0],
   rgLo 0x8 0x4 1 "IMG_SERIAL_LO" [fl 31 0 .ro 0],
   rgHi 0xc 0x4 1 "IMG_SERIAL_HI" [fl 31 0 .ro 0],
   rga 0x10 0x4 8 "IMG_DIGESTn" [fl 31 0 .ro 0],
   rg 0x30 "IMG_STAGED" [fl 31 0 .ro 0],
   rg 0x34 "IMG_REFUSE_COUNT" [fl 31 0 .rc 0],
   rg 0x38 "IMG_LAST_REFUSE" [fl 31 31 .w1c 0, fl 27 24 .ro 0, fl 23 16 .ro 0, fl 12 0 .ro 0],
   rg 0x3c "IMG_SETS" [fl 6 0 .ro 0]]

/-- The registers of R349 (09_strelul.md). -/
def stlRows : List RegRow :=
  [rg 0x0 "STL_STATUS" [fl 1 1 .ro 0, fl 0 0 .ro 0],
   rg 0x4 "STL_UDP" [fl 15 0 .rwl 0x2f80],
   rgLo 0x10 0x8 2 "STL_MACn_LO" [fl 31 0 .rwl 0],
   rgHi 0x14 0x8 2 "STL_MACn_HI" [fl 15 0 .rwl 0],
   rga 0x20 0x4 2 "STL_PFC_CTRLn" [fl 23 16 .rw 0xff, fl 15 8 .rw 0xff, fl 7 0 .rw 0xff],
   rg 0x28 "STL_PFC_REFRESH" [fl 5 0 .rw 0x10],
   rg 0x30 "STL_RX_DISCARD_COUNT" [fl 31 0 .rc 0],
   rg 0x34 "STL_CSUM_FAIL_COUNT" [fl 31 0 .rc 0]]

/-- The registers of R350 (09_strelul.md). -/
def intkRows : List RegRow :=
  [rg 0x0 "INTK_STATUS" [fl 31 31 .w1c 0, fl 30 30 .ro 0, fl 29 29 .ro 0, fl 7 0 .ro 0],
   rg 0x4 "INTK_WATER" [fl 23 16 .rw 0x40, fl 7 0 .rw 0x20],
   rg 0x8 "INTK_OVERRUN_COUNT" [fl 31 0 .rc 0],
   rg 0xc "INTK_XOFF_COUNT" [fl 31 0 .rc 0],
   rg 0x10 "INTK_REWIND_COUNT" [fl 31 0 .rc 0]]

/-- The registers of R351 (09_strelul.md). -/
def stlpRows : List RegRow :=
  [rg 0x0 "STLP_STATUS" [fl 29 15 .ro 0],
   rgLo 0x8 0x4 1 "STLP_EVQ_BASE_LO" [fl 31 0 .rw 0],
   rgHi 0xc 0x4 1 "STLP_EVQ_BASE_HI" [fl 31 0 .rw 0],
   rg 0x10 "STLP_EVQ_SIZE" [fl 4 0 .rw 0],
   rg 0x14 "STLP_EVQ_PROD" [fl 15 0 .ro 0],
   rg 0x18 "STLP_EVQ_CONS" [fl 15 0 .rw 0],
   rg 0x1c "STLP_EVQ_STATUS" [fl 0 0 .w1c 0],
   rg 0x20 "STLP_AUTH_FAIL_COUNT" [fl 31 0 .rc 0],
   rg 0x24 "STLP_WINDOW_DROP_COUNT" [fl 31 0 .rc 0],
   rg 0x28 "STLP_NAK_SENT_COUNT" [fl 31 0 .rc 0],
   rg 0x2c "STLP_RNR_SENT_COUNT" [fl 31 0 .rc 0],
   rg 0x30 "STLP_RETX_COUNT" [fl 31 0 .rc 0]] ++
  [rg 0x34 "STLP_RECORD_LOST_COUNT" [fl 31 0 .rc 0],
   rg 0x38 "STLP_EVQ_LOST_COUNT" [fl 31 0 .rc 0],
   rg 0x40 "STLP_QP_SELECT" [fl 13 0 .rw 0],
   rg 0x44 "STLP_QP_STATE" [fl 31 24 .ro 0, fl 23 8 .ro 0, fl 5 4 .ro 0, fl 2 0 .ro 0],
   rg 0x48 "STLP_RGN_SELECT" [fl 15 0 .rw 0],
   rg 0x4c "STLP_RGN_STATE" [fl 31 16 .ro 0, fl 15 4 .ro 0, fl 1 0 .ro 0]]

/-- The registers of R385 (10_host_interface.md). -/
def hifRows : List RegRow :=
  [rg 0x0 "HIF_LINK" [fl 16 16 .ro 0, fl 11 8 .ro 0, fl 7 7 .ro 0, fl 3 0 .ro 0],
   rg 0x4 "HIF_SHARE_SCALE" [fl 9 0 .ro 0],
   rg 0x8 "HIF_LINK_DOWN_COUNT" [fl 31 0 .rc 0]]

/-- The registers of R386 (10_host_interface.md). -/
def hqRows : List RegRow :=
  [rg 0x0 "HQ_FN_STATUS" [fl 9 8 .ro 0, fl 5 0 .ro 0],
   rg 0x4 "HQ_DISCARD_COUNT" [fl 31 0 .rc 0],
   rg 0x8 "HQ_DISCARD_LAST" [fl 31 31 .w1c 0, fl 30 28 .ro 0, fl 27 27 .ro 0, fl 25 0 .ro 0],
   rgLo 0x100 0x40 32 "HQ_SQ_BASE_LO" [fl 31 0 .rw 0],
   rgHi 0x104 0x40 32 "HQ_SQ_BASE_HI" [fl 31 0 .rw 0],
   rgLo 0x108 0x40 32 "HQ_CQ_BASE_LO" [fl 31 0 .rw 0],
   rgHi 0x10c 0x40 32 "HQ_CQ_BASE_HI" [fl 31 0 .rw 0],
   rga 0x110 0x40 32 "HQ_CFG" [fl 31 31 .rw 0, fl 24 16 .rw 0, fl 12 8 .rw 0, fl 4 0 .rw 0],
   rga 0x114 0x40 32 "HQ_STATE" [fl 31 24 .ro 0, fl 17 16 .ro 0, fl 15 0 .ro 0],
   rga 0x118 0x40 32 "HQ_CQ_TAIL" [fl 16 16 .ro 1, fl 15 0 .ro 0],
   rga 0x11c 0x40 32 "HQ_INFLIGHT" [fl 8 0 .ro 0]]

/-- The registers of R387 (10_host_interface.md). -/
def vfRows : List RegRow :=
  [rg 0x8 "VF_PARTITION" [fl 20 16 .ro 0, fl 8 8 .ro 0, fl 4 0 .ro 0],
   rg 0xc "VF_WELLS" [fl 23 0 .ro 0]]

/-- The registers of R424 (11_security.md). -/
def lntRows : List RegRow :=
  [rg 0x0 "LNT_MBX_CMD" [fl 31 31 .wo 0, fl 7 0 .rw 0],
   rgLo 0x8 0x4 1 "LNT_MBX_ADDR_LO" [fl 31 0 .rw 0],
   rgHi 0xc 0x4 1 "LNT_MBX_ADDR_HI" [fl 31 0 .rw 0],
   rg 0x10 "LNT_MBX_LEN" [fl 31 0 .rw 0],
   rg 0x14 "LNT_MBX_STATUS" [fl 31 31 .ro 0, fl 30 30 .w1c 0, fl 15 8 .ro 0, fl 7 0 .ro 0],
   rg 0x18 "LNT_STATE" [fl 22 16 .ro 0, fl 9 9 .ro 0, fl 8 8 .ro 0, fl 2 0 .ro 0],
   rgLo 0x20 0x4 1 "LNT_FW_SERIAL_LO" [fl 31 0 .ro 0],
   rgHi 0x24 0x4 1 "LNT_FW_SERIAL_HI" [fl 31 0 .ro 0],
   rg 0x30 "LNT_PAUSE_MAX" [fl 31 0 .ro 0],
   rg 0x34 "LNT_RESTART_COUNT" [fl 31 0 .rc 0],
   rga 0x40 0x4 8 "LNT_FW_DIGESTn" [fl 31 0 .ro 0],
   rga 0x60 0x4 8 "DBG_NONCEn" [fl 31 0 .ro 0]]

/-- The registers of R425 (11_security.md). -/
def keyRows : List RegRow :=
  [rg 0x0 "KEY_SELECT" [fl 5 0 .rw 0],
   rg 0x4 "KEY_ATTR" [fl 31 0 .ro 0],
   rg 0x8 "KEY_STATE" [fl 3 3 .ro 0, fl 2 2 .ro 0, fl 1 0 .ro 0],
   rga 0x10 0x4 4 "KEY_SUMMARYn" [fl 31 0 .ro 0],
   rg 0x20 "ATT_COUNT" [fl 31 0 .rc 0],
   rg 0x24 "ATT_NOENT_COUNT" [fl 31 0 .rc 0],
   rga 0x100 0x4 25 "SES_STATEp" [fl 15 8 .ro 0, fl 1 0 .ro 0]]

/-- The registers of R446 (12_random.md). -/
def rngRows : List RegRow :=
  [rg 0x0 "RNG_STAT" [fl 31 31 .w1c 0, fl 20 16 .ro 0x1f, fl 7 4 .ro 0, fl 3 3 .ro 0, fl 2 0 .ro 0],
   rgLo 0x8 0x4 1 "RNG_DATA_LO" [fl 31 0 .ro 0],
   rgHi 0xc 0x4 1 "RNG_DATA_HI" [fl 31 0 .ro 0],
   rg 0x10 "RNG_GEN_COUNT" [fl 24 0 .ro 0],
   rg 0x14 "RNG_RESEED_COUNT" [fl 31 0 .rc 0],
   rg 0x18 "RNG_EMPTY_COUNT" [fl 31 0 .rc 0],
   rg 0x1c "RNG_STRETCH_COUNT" [fl 31 0 .rc 0]]

/-- The registers of R473 (13_power_clocks.md). -/
def pwrRows : List RegRow :=
  [rg 0x0 "PWR_STATE" [fl 11 10 .ro 0, fl 9 9 .ro 0, fl 1 0 .ro 0],
   rg 0x4 "PWR_LAST_REFUSE" [fl 31 31 .w1c 0, fl 30 29 .ro 0, fl 25 24 .ro 0, fl 4 0 .ro 0],
   rg 0x8 "PWR_WAKE_CAUSE" [fl 3 3 .ro 0, fl 2 2 .ro 0, fl 1 1 .ro 0, fl 0 0 .ro 0],
   rg 0xc "PWR_I3C" [fl 6 0 .rw 0x4d],
   rg 0x10 "PWR_AVS" [fl 31 16 .ro 0, fl 15 0 .ro 0],
   rg 0x14 "PWR_AVS_FAIL_COUNT" [fl 31 0 .rc 0],
   rg 0x1c "PWR_PMBUS_FAIL_COUNT" [fl 31 0 .rc 0],
   rg 0x18 "PWR_TELEM" [fl 31 16 .ro 0, fl 15 0 .ro 0],
   rg 0x20 "PWR_PMBUS_ADDR" [fl 14 8 .rwl 0, fl 6 0 .rwl 0x40],
   rg 0x40 "THM_STATUS" [fl 21 16 .ro 0, fl 11 0 .ro 0],
   rg 0x44 "THM_GOV" [fl 16 16 .ro 0, fl 10 0 .ro 0],
   rg 0x48 "THM_MAX" [fl 11 0 .rc 0]] ++
  [rg 0x4c "THM_ALERT_COUNT" [fl 31 0 .rc 0],
   rg 0x50 "PWR_INT_STATUS" [fl 4 4 .w1c 0, fl 3 3 .w1c 0, fl 2 2 .w1c 0, fl 1 1 .w1c 0, fl 0 0 .w1c 0],
   rg 0x54 "PWR_INT_ENABLE" [fl 4 4 .rw 0, fl 3 3 .rw 0, fl 2 2 .rw 0, fl 1 1 .rw 0, fl 0 0 .rw 0],
   rga 0x100 0x4 24 "THM_PARTp" [fl 25 16 .ro 0x3e8, fl 9 0 .ro 0],
   rga 0x200 0x4 29 "PWR_REFUSE_COUNTn" [fl 31 0 .rc 0],
   rga 0x280 0x4 29 "PWR_ABORT_COUNTn" [fl 31 0 .rc 0]]

/-- The registers of R492 (14_service.md). -/
def logRows : List RegRow :=
  [rg 0x0 "LOG_NEWEST" [fl 27 0 .ro 0],
   rg 0x4 "LOG_WRITER_DROP_COUNT" [fl 31 0 .rc 0],
   rga 0x100 0x20 25 "LOGV_CTRLv" [fl 27 16 .rw 0x400, fl 1 0 .rw 1],
   rga 0x104 0x20 25 "LOGV_DRAINEDv" [fl 27 0 .ro 0],
   rga 0x108 0x20 25 "LOGV_PENDINGv" [fl 12 0 .ro 0],
   rga 0x10c 0x20 25 "LOGV_LOST_COUNTv" [fl 31 0 .rc 0],
   rg 0x800 "SVC_PORT_CTRL" [fl 1 0 .rw 0],
   rg 0x804 "SVC_FAULT" [fl 5 5 .ro 0, fl 4 4 .ro 0, fl 3 3 .ro 0, fl 2 2 .ro 0, fl 1 1 .ro 0, fl 0 0 .ro 0]]

/-- The registers of R447 (12_random.md). -/
def srcRows : List RegRow :=
  [rg 0x0 "RNG_SRC_STATUS" [fl 18 16 .ro 0, fl 15 11 .ro 0x1f, fl 9 8 .ro 0, fl 2 0 .ro 0],
   rg 0x4 "RNG_SRC_FAIL_COUNT" [fl 31 0 .rc 0],
   rg 0x8 "RNG_SRC_BLOCK_COUNT" [fl 31 0 .rc 0],
   rg 0xc "RNG_SRC_DROP_COUNT" [fl 31 0 .rc 0]]

end Sys2Proof.Machine
end

