-- ==== Sys2Proof/Machine/State.lean ====
section
/-! DEFINITION. The state of the block: every register, memory, queue, mode and pin the spec gives Ostuso AQ-2416, as plain data. -/

namespace Sys2Proof.Machine

open Sys2Proof

/-- Memory: (address, byte) pairs, addresses rising, no byte equal to what an unlisted address reads as (zero, R231). -/
abbrev Mem := List Host.Cell

/-- The canonical form of a memory: strictly rising addresses and no zero byte. -/
abbrev Mem.wf (m : Mem) : Prop := List.Pairwise (fun a b => a.1 < b.1) m ∧ ∀ c ∈ m, c.2 ≠ 0

/-- Status codes of R375 (10_host_interface.md), 8 bits. -/
inductive Status where
  | ok | refusedAccess | lengthExceeds | keyMismatch | levelSpent | poisonedInput | revoked | uncorrectable
  | noEntropy | admissionClosed | format | state | aborted | flushed | remoteAccess | notReady
  /-- a code above 0x0F, which only a TRAP step can give (R220, R221) -/
  | other (code : Nat)
  deriving DecidableEq, Repr

/-! ## Rounds (02_rounds.md, 03_masked_aggregation.md, 04_ciphertext_engine.md) -/

/-- Round states of R48. -/
inductive RoundState where
  | idle | intake | closing | settle | noise | combine | decode | step | publish | evaluate | done | failed
  deriving DecidableEq, Repr

/-- Modes of a round, R45: M (masked sum) or H (ciphertexts). -/
inductive Mode where | none | m | h
  deriving DecidableEq, Repr

/-- Round descriptor, R45. -/
structure Descriptor where
  roundId : Nat := 0
  mode : Mode := .none
  ringWidth : Nat := 0
  evaluate : Bool := false
  check : Bool := false
  cohort : Nat := 0
  dropoutLimit : Nat := 0
  threshold : Nat := 0
  coordinates : Nat := 0
  ckptAdmissions : Nat := 0
  ckptIntervalMs : Nat := 0
  intakeClose : Nat := 0
  uploadWindowMs : Nat := 0
  settleWindowMs : Nat := 0
  scheduleSet : Nat := 0
  deriving DecidableEq, Repr

/-- An admitted upload that is neither accumulated nor abandoned (R58, R59, R62). -/
structure Upload where
  client : Nat
  qpn : Nat
  msn : Nat
  slot : Nat
  seq : Nat
  admitTime : Nat
  bytes : Nat
  /-- DEVTIME of the commit of its last packet, once every byte has arrived -/
  lastCommit : Option Nat
  /-- its entry has been posted in the partition's queue (R210) -/
  posted : Bool
  seedCommit : Nat
  /-- the queue pair that carried it has not been freed since (R68, R70) -/
  live : Bool
  /-- number of its mode H batch, once that has closed (R54) -/
  batchNo : Option Nat
  /-- DEVTIME of its last pump write so far (R67) -/
  lastWrite : Nat
  deriving DecidableEq, Repr

/-- An accumulated upload (R67), as SECURED (R68) and the commitment table (R114) need it. -/
structure Accum where
  client : Nat
  qpn : Nat
  time : Nat
  epoch : Nat
  secured : Bool
  seedCommit : Nat
  /-- the queue pair that carried it has not been freed since (R68) -/
  live : Bool
  deriving DecidableEq, Repr

/-- A range moved by COPY descriptors into the checkpoint area (R73, R246). -/
structure CopyRange where
  well : Nat
  src : Nat
  dst : Nat
  count : Nat
  deriving DecidableEq, Repr

/-- Phases of the checkpoint between its cut and its completion (R73, R75), and the last complete one while the area holds it. -/
inductive CkptPhase where | copying | sealing | ready | complete
  deriving DecidableEq, Repr

/-- The checkpoint the area holds (R71 to R76). -/
structure Ckpt where
  number : Nat
  cutTime : Nat
  closing : Bool
  phase : CkptPhase
  /-- client and seed_commit of the uploads the copy holds -/
  clients : List (Nat × Nat)
  ranges : List CopyRange
  /-- wells whose copy has been reported complete (R246) -/
  notified : List Nat
  seqLast : Nat
  admitted : Nat
  accumulated : Nat
  /-- the sealed checkpoint, when ready or complete -/
  sealed : Bytes
  deriving DecidableEq, Repr

/-- A secret of R105: a self seed (`peer = none`) or a pair seed, with the shares accepted for it. -/
structure Secret where
  owner : Nat
  peer : Option Nat
  shares : List (Nat × Nat × Nat)
  /-- reconstructed value and whether its masks are removed -/
  value : Option Nat
  removed : Bool
  /-- commitment mismatch: the secret stays unresolved (R114) -/
  dead : Bool
  deriving DecidableEq, Repr

/-- An entry of a partition queue, R210. -/
structure QEntry where
  source : Nat
  slot : Nat
  client : Nat
  time : Nat
  address : Nat
  length : Nat
  seq : Nat
  /-- logical units that have taken it -/
  takenBy : List Nat
  deriving DecidableEq, Repr

/-- The round of a partition. -/
structure Round where
  state : RoundState := .idle
  status : Status := .ok
  epoch : Nat := 0
  desc : Descriptor := {}
  /-- highest round_id opened since the partition reset (R46) -/
  lastRoundId : Nat := 0
  /-- admission sequence number last issued (R58) -/
  seqLast : Nat := 0
  uploads : List Upload := []
  accums : List Accum := []
  /-- survivors fixed at the end of CLOSING (R80), rising -/
  survivors : List Nat := []
  /-- QPs that carried an admission of the current epoch (R70) -/
  admittedQps : List Nat := []
  /-- DEVTIME from which ckpt_interval_ms counts (R72) -/
  lastCut : Nat := 0
  admissionsSinceCut : Nat := 0
  cutDue : Bool := false
  cutNumber : Nat := 0
  ckpt : Option Ckpt := none
  /-- the last complete checkpoint, from the next cut until its copy begins: the area still holds it (R75) -/
  prev : Option Ckpt := none
  /-- the cohort is complete: intake closes in the next tick (R60) -/
  closeDue : Bool := false
  /-- DEVTIME of the entry of SETTLE or COMBINE (R82) -/
  windowStart : Nat := 0
  /-- first tick at which the windlasses start (R212), with the kind of entry -/
  startAt : Option Nat := none
  startKind : Nat := 0
  /-- a ROUND_ABORT accepted and waiting for its step boundary (R518) -/
  abortPending : Bool := false
  /-- state codes entered in this round (R209) -/
  entered : List Nat := []
  /-- (state code, logical unit) pairs that have issued DONE (R211) -/
  doneUnits : List (Nat × Nat) := []
  secrets : List Secret := []
  /-- holders whose message was accepted in this epoch (R109, R153) -/
  holders : List Nat := []
  /-- the set S of R153, in order of acceptance, and the share polynomials of each as sent, decrypted -/
  dshareSet : List Nat := []
  dshares : List Bytes := []
  /-- FP32 words of the coordinates decoded so far in COMBINE, block by block (R154) -/
  decoded : List (List Nat) := []
  /-- open mode H batch (R54): clients, start of its timer, number of the next batch -/
  batch : List Nat := []
  batchStart : Nat := 0
  batchNumber : Nat := 0
  /-- output blocks whose header was found poisoned on entry of COMBINE, with its cause (R150) -/
  poisonedBlocks : List (Nat × Nat) := []
  firstPoison : Bool := false
  firstLwePoison : Bool := false
  firstLate : Bool := false
  firstUnarmed : Bool := false
  firstConflict : Bool := false
  /-- NOISE, or the DP noise and the publication of COMBINE, waits for the partition's DRBG (R119, R151) -/
  noisePending : Bool := false
  stretchLogged : Bool := false
  /-- status of a recorded fault (R65) -/
  faultStatus : Option Status := none
  deriving DecidableEq, Repr

/-! ## Partitions -/

/-- Load state of a partition image (R283, R299). -/
inductive ImageState where | empty | loading | loaded
  deriving DecidableEq, Repr

/-- Region states of R313. -/
inductive RegionState where | unused | valid | revoking | gone
  deriving DecidableEq, Repr

/-- A registered region (R310 to R314). -/
structure Region where
  state : RegionState := .unused
  generation : Nat := 0
  base : Nat := 0
  length : Nat := 0
  rights : Nat := 0
  /-- REGION_REVOKE that waits for GONE (R313) -/
  revoker : Option CmdRef := none
  deriving DecidableEq, Repr

/-- Session states of R417. -/
inductive SessionState where | none | started | active
  deriving DecidableEq, Repr

/-- A session (R412 to R418). `pendingStart` is a KEX_START waiting for entropy: function, message, DEVTIME. -/
structure Session where
  state : SessionState := .none
  id : Nat := 0
  dk : Bytes := []
  kexStart : Bytes := []
  kexReport : Bytes := []
  startTime : Nat := 0
  pendingStart : Option (Nat × Bytes × Nat) := none
  kLink : Bytes := []
  kIde : Bytes := []
  kMem : Bytes := []
  kShare : Bytes := []
  seqIn : Nat := 0
  seqOut : Nat := 0
  /-- the request last opened from a SEC_MSG: protocol identifier, function and message -/
  inner : Option (Nat × Nat × Bytes) := none
  lastStatus : Status := .ok
  deriving DecidableEq, Repr

/-- A partition record of the floor plan (R276). -/
structure PlanRecord where
  partition : Nat
  wells : Nat
  envelope : Nat
  slotMask : Nat
  eth0 : Nat
  eth1 : Nat
  hostShare : Nat
  priority : Nat
  qpQuota : Nat
  regionQuota : Nat
  minSerial : Nat
  tenantKey : Bytes
  deriving DecidableEq, Repr

/-- A schedule set of a loaded image (R285). -/
structure SchedSet where
  index : Nat
  mode : Mode
  ringWidth : Nat
  coordinates : Nat
  slots : Nat
  batchSize : Nat
  batchTimer : Nat
  logN : Nat
  limbs : Nat
  components : Nat
  scaleLog : Nat
  uploadSize : Nat
  publishOffset : Nat
  publishRegion : Nat
  outputs : Nat
  deriving DecidableEq, Repr

/-- An endpoint of a loaded image (R303). -/
structure Endpoint where
  index : Nat
  kind : Nat
  ports : Nat
  wholeSpace : Bool
  vlan : Nat
  dscp : Nat
  address : Bytes
  rnrUs : Nat
  stagingRegion : Nat
  slotBase : Nat
  slotStride : Nat
  shard : Nat
  rotate : Bool
  deriving DecidableEq, Repr

/-- A route record of a loaded image (R288). -/
structure Route where
  src : Nat
  dst : Nat
  hops : Nat
  start : Nat
  length : Nat
  links : List Nat
  deriving DecidableEq, Repr

/-- What the image fixes for one well, by rank (R287): image area, copy patterns and protected ranges
(target, schedule set, first bucket, last bucket). -/
structure WellRecord where
  areaBase : Nat
  areaBuckets : Nat
  copyPatterns : List Bytes
  ranges : List (Nat × Nat × Nat × Nat)
  deriving DecidableEq, Repr

/-- A power record (R289). -/
structure PowerRecord where
  set : Nat
  state : Nat
  peak : Nat
  slack : Nat
  deriving DecidableEq, Repr

/-- A rank-scoped section of an image as it is kept in the image area of its well (R287, R388): type, index in the section table, rank, tile,
first bucket from the base of the area, bytes, and its CRC-32C, which the check gate holds (R388). -/
structure SectionInfo where
  stype : Nat
  index : Nat
  rank : Nat
  tile : Nat
  bucket : Nat
  size : Nat
  crc : Nat
  deriving DecidableEq, Repr

/-- A container load in progress (R290 to R293): its command, the length it gives, and DEVTIME of its acceptance. -/
structure Loading where
  cmd : CmdRef
  length : Nat
  startTime : Nat
  deriving DecidableEq, Repr

/-- A partition image (R283 to R299). -/
structure Image where
  state : ImageState := .empty
  serial : Nat := 0
  digestCopies : List Bytes := [[], [], []]
  ckptSlot : Nat := 0
  sets : List SchedSet := []
  endpoints : List Endpoint := []
  routes : List Route := []
  primes : List Nat := []
  /-- the root psi of each prime-table entry (R126) -/
  roots : List Nat := []
  sections : List SectionInfo := []
  wellRecords : List WellRecord := []
  power : List PowerRecord := []
  loading : Option Loading := none
  deriving DecidableEq, Repr

/-- A tile's arrival at a rendezvous (R208). -/
structure Arrival where
  unit : Nat
  ident : Nat
  devtime : Nat
  deriving DecidableEq, Repr

/-- What a partition holds. -/
structure Partition where
  round : Round := {}
  /-- admission_hold in effect for decisions (R86), and the floor closure of R63 with the start of recovery -/
  holdNow : Bool := false
  floorClosed : Bool := false
  recoverSince : Option Nat := none
  slotsFree : List Nat := []
  slotsTotal : Nat := 0
  queue : List QEntry := []
  due : List QEntry := []
  arrivals : List Arrival := []
  releaseAt : Option Nat := none
  image : Image := {}
  regions : List (Nat × Region) := []
  /-- staging space of accepted messages, oldest first: address and bytes, and whether the oldest one's queue entry has been taken by every tile (R319) -/
  accepted : List (Nat × Nat) := []
  acceptedTaken : Bool := false
  evqLost : Nat := 0
  session : Session := {}
  armed : Bool := false
  stretch : Nat := 0
  /-- stretch values sent and not yet activated, oldest first: value and activation tick (R205) -/
  stretchNext : List (Nat × Nat) := []
  /-- traps of the current tick that the round has still to take: lowest logical unit and its status (R217, R221) -/
  trapDue : Option (Nat × Nat) := none
  /-- seconds in which events raised at most once a second were last raised: (kind, object, second) -/
  lastLogged : List (Nat × Nat × Nat) := []
  deriving DecidableEq, Repr

/-! ## Wells (06_tiles_windlass.md, 07_cisterns_pumps.md) -/

/-- Windlass states of R218. -/
inductive WindlassState where | off | loaded | running | waiting | stopped | trapped | test | failed
  deriving DecidableEq, Repr

/-- A table of a tile's table directory (R203, R286): index, kind, first row, rows, the CRCs of its read sequences and the
first bucket of its copy in the image area. -/
structure TileTable where
  index : Nat
  kind : Nat
  row : Nat
  rows : Nat
  crcs : List Nat
  area : Nat
  deriving DecidableEq, Repr

/-- Entry steps of a schedule set at a tile (R212, R286). -/
structure TileEntry where
  set : Nat
  opening : Nat
  intake : Nat
  closing : Nat
  deriving DecidableEq, Repr

/-- An access to the tile store that an issued step makes at a cycle still to come (R193, R216): unit, first cycle, cycles, first row, rows, and whether it writes. -/
structure Touch where
  unit : Nat
  cycle : Nat
  span : Nat
  row : Nat
  rows : Nat
  write : Bool
  deriving DecidableEq, Repr

/-- A physical tile and its windlass. Cycles are of 1.6 GHz, four to a tick. -/
structure Tile where
  state : WindlassState := .off
  /-- the step it issues next, the last one issued, and the cycle at which the next one falls due (R205) -/
  next : Nat := 0
  last : Nat := 0
  due : Nat := 0
  loops : List Nat := [0, 0, 0, 0]
  store : Mem := []
  /-- 64-bit words of the tile store that hold a double-error pattern (R194, R233) -/
  storeBad : List Nat := []
  steps : Mem := []
  stepBad : List Nat := []
  accs : List Nat := List.replicate 128 0
  aesKey : Bytes := []
  /-- held overflow estimates of the base converter, and the row, limbs and length of the coefficients they are for (R196) -/
  estimates : List Nat := []
  estimatesOf : Nat × Nat × Nat := (0, 0, 0)
  /-- twiddle register of the NTT network, 128 entries (R184) -/
  twiddles : List Nat := List.replicate 128 0
  patterns : List Bytes := List.replicate 8 (zeros 300)
  tables : List TileTable := []
  /-- tables whose read sequence failed its check and that are reloaded before the next pass (R137, R195) -/
  reload : List Nat := []
  entries : List TileEntry := []
  /-- an armed port: next row, units still to come, row stride (R202) -/
  armed : Option (Nat × Nat × Nat) := none
  /-- cycles until which the lanes, NTT network, base converter, AES and transfer units are busy, and the step-memory halves are being fetched -/
  busy : List Nat := [0, 0, 0, 0, 0]
  halves : List Nat := [0, 0]
  /-- cycle until which the windlass itself is busy with an HDR step (R214) -/
  headerEnd : Nat := 0
  /-- what the windlass waits for: sources 0 to 4 of R209, or 5 for SYNC, with the state, destination row or identifier -/
  waiting : Option (Nat × Nat) := none
  /-- a stop has been called and waits for the step boundary (R219) -/
  stopping : Bool := false
  /-- cycle since which an issued step has made no progress, and its index (R220) -/
  stuckSince : Option (Nat × Nat) := none
  /-- accesses of issued steps that lie in cycles to come (R193, R216) -/
  flight : List Touch := []
  /-- 64-byte blocks that an RNG_READ step still waits for (R199) -/
  rngLeft : Nat := 0
  /-- the last step that moved units (R220) -/
  xfer : Nat := 0
  /-- units on their way to a port that is not armed: cycle of arrival and data (R202) -/
  inbox : List (Nat × Bytes) := []
  /-- constant table of the last BCV_SCALE (R196) -/
  bcvTable : Nat := 0
  /-- findings of the current operation for the next HDR step (R145): reason of a failed key-stream check, and a failed table or uncorrectable read -/
  keyFail : Nat := 0
  dataFail : Bool := false
  /-- a failed table or uncorrectable read that an earlier header of this key-stream pass has taken: it poisons every output of the pass (R143, R174, R178) -/
  passFail : Bool := false
  /-- an EXPORT of a poisoned ciphertext: nothing of it is sent until the next header is settled (R148) -/
  mute : Bool := false
  /-- completion status of the last EXPORT (R148) -/
  exportStatus : Status := .ok
  /-- the queue entry it works on: source 1 or 4 and sequence or batch number (R67) -/
  serving : Option (Nat × Nat) := none
  /-- failed transmissions in a row of its current unit (R235) -/
  checkFails : Nat := 0
  selfTest : Option (Nat × Option CmdRef) := none
  deriving DecidableEq, Repr

/-- A unit in a pump's queue (R241 to R243). -/
structure PumpUnit where
  op : Nat
  aux : Nat
  addr : Nat
  data : Bytes
  tile : Nat
  /-- position in the order in which units and descriptors crossed the cistern interface (R243, R246) -/
  stamp : Nat
  /-- the queue entry that its tile works on (R67) -/
  tag : Option (Nat × Nat)
  deriving DecidableEq, Repr

/-- A pump. -/
structure Pump where
  queue : List PumpUnit := []
  halted : Bool := false
  haltStatus : Status := .ok
  checkFails : Nat := 0
  /-- busy reports in a row of the first unit that its full queue has not taken (R235) -/
  busyRow : Nat := 0
  deriving DecidableEq, Repr

/-- A COPY descriptor (R245, R246). -/
structure CopyDesc where
  src : Nat
  dst : Nat
  count : Nat
  notify : Bool
  direction : Nat
  stamp : Nat
  deriving DecidableEq, Repr

/-- A copy channel. -/
structure CopyChan where
  queue : List CopyDesc := []
  running : Option CopyDesc := none
  /-- DEVTIME by which the running descriptor's units have moved in their slots (R246) -/
  doneAt : Nat := 0
  halted : Bool := false
  haltStatus : Status := .ok
  checkFails : Nat := 0
  deriving DecidableEq, Repr

/-- An entry of the merge buffer (R237). -/
structure MergeEntry where
  bucket : Nat
  data : Bytes
  mask : List Bool
  lastUse : Nat
  deriving DecidableEq, Repr

/-- States of the LPDDR5X tier of a well (R253, R267). -/
inductive LpxState where | untrained | ready | selfRefresh | failed
  deriving DecidableEq, Repr

/-- Scrubber states of R259, R268. -/
inductive ScrubState where | idle | running | done | aborted | refused
  deriving DecidableEq, Repr

/-- An entry of the correctable-error table (R255). -/
structure CetEntry where
  addr : Nat
  kind : Nat
  count : Nat
  deriving DecidableEq, Repr

/-- A well. -/
structure Well where
  cis : Mem := []
  cisValid : List Nat := []
  cisBad : List Nat := []
  retired : List Nat := []
  /-- LPDDR5X buckets whose next read fails after its retries (R252) -/
  lpxBad : List Nat := []
  /-- the bank of each retirement's spare row, in the same order (R257) -/
  spareBanks : List Nat := []
  merge : List MergeEntry := []
  lpx : Mem := []
  lpxWritten : List Nat := []
  lpxMerge : List MergeEntry := []
  lpxState : LpxState := .untrained
  lpxKey : Bytes := []
  /-- DEVTIMEs of the LPDDR5X reads that failed after their retries in the last second (R253) -/
  lpxFails : List Nat := []
  pumps : List Pump := List.replicate 16 {}
  copy : List CopyChan := [{}, {}]
  /-- units and descriptors that have crossed the cistern interface -/
  crossed : Nat := 0
  scrub : ScrubState := .idle
  scrubLpx : Bool := false
  scrubNext : Nat := 0
  scrubLast : Nat := 0
  cet : List (Option CetEntry) := List.replicate 16 none
  tiles : List Tile := List.replicate 25 {}
  subst : List Nat := List.range 24
  failed : List Nat := []
  remaps : Nat := 0
  inService : Bool := false
  deriving DecidableEq, Repr

/-! ## Host interface (10_host_interface.md) -/

/-- Queue states of R368. -/
inductive QueueState where | disabled | active | draining | error
  deriving DecidableEq, Repr

/-- A queue pair (R365 to R368). -/
structure Queue where
  state : QueueState := .disabled
  sqHead : Nat := 0
  sqTail : Nat := 0
  cqHead : Nat := 0
  cqTail : Nat := 0
  phase : Bool := true
  errStatus : Status := .ok
  deriving DecidableEq, Repr

/-- TDI states of R381, R386. -/
inductive TdiState where | unlocked | locked | run | error
  deriving DecidableEq, Repr

/-- An MSI-X table entry (R358, R377). -/
structure MsixEntry where
  addr : Nat := 0
  data : Nat := 0
  masked : Bool := true
  deriving DecidableEq, Repr

/-- A PCIe function. -/
structure Function where
  queues : List Queue := List.replicate 32 {}
  msixEnable : Bool := false
  msix : List (Nat × MsixEntry) := []
  pba : List Nat := []
  tdi : TdiState := .unlocked
  busMaster : Bool := false
  bars : Nat × Nat := (0, 0)
  /-- DEVTIME of the last change of its BARs (R383) -/
  barChange : Option Nat := none
  /-- second of DEVTIME in which event 0x0909 was last logged (R382) -/
  lastDiscard : Option Nat := none
  /-- error bit of the DOE mailbox (R378) -/
  doeError : Bool := false
  deriving DecidableEq, Repr

/-- A host command in progress (R367, R369). -/
structure Cmd where
  fn : Nat
  q : Nat
  id : Nat
  opcode : Nat
  fence : Bool
  part : Nat
  addr : Nat
  length : Nat
  p0 : Nat
  p1 : Nat
  p2 : Nat
  p3 : Nat
  /-- bytes that its host reads have returned, and whether one failed (R354) -/
  data : Bytes
  readFailed : Bool
  fetched : Nat
  started : Bool
  /-- its queue was disabled while it was in progress: no completion entry is written (R355, R362, R363) -/
  orphan : Bool
  /-- DEVTIME at which the work started (reports, self-tests, aborts) -/
  startTime : Nat
  deriving DecidableEq, Repr

/-- An IDE stream (R380): keys of set and direction, the set in use, and Insecure. -/
structure IdeStream where
  keys : List (Nat × Bytes) := []
  keySet : Option Nat := none
  insecure : Bool := false
  deriving DecidableEq, Repr

/-- The link and what belongs to the whole host interface. -/
structure HostIf where
  up : Bool := false
  width : Nat := 0
  rate : Nat := 0
  flit : Bool := false
  inL1 : Bool := false
  aspmL1 : Bool := false
  numVfs : Nat := 0
  lastTlp : Nat := 0
  completionTimeout : Nat := 20000000
  ide : List IdeStream := List.replicate 25 {}
  /-- register accesses that have arrived in P2 or P3 and are served in P0, oldest first; true for a write (R459) -/
  held : List (Bool × RegAccess) := []
  deriving DecidableEq, Repr

/-! ## Strelul (09_strelul.md) -/

/-- A frame held in an intake, with the change count read at parse (R341). -/
structure HeldFrame where
  bytes : Bytes
  truncated : Bool
  /-- DEVTIME at which it arrived -/
  time : Nat
  /-- change count of the region table at parse, once the packet has been parsed (R341) -/
  parsed : Option Nat
  deriving DecidableEq, Repr

/-- An intake (R339 to R343). -/
structure Intake where
  frames : List HeldFrame := []
  xoff : Bool := false
  xoffSince : Nat := 0
  lastPfc : Nat := 0
  xoffLogged : Bool := false
  overrunLogged : Bool := false
  deriving DecidableEq, Repr

/-- An Ethernet port (R300, R338, R489). -/
structure Port where
  up : Bool := false
  admin : Bool := false
  /-- DEVTIME until which each priority is paused by received PFC (R344) -/
  paused : List Nat := List.replicate 8 0
  downSince : Nat := 0
  training : Bool := false
  /-- frames of paused priorities waiting to start (R344) -/
  txq : List (Nat × Bytes) := []
  deriving DecidableEq, Repr

/-- QP states of R307. -/
inductive QpState where | free | active | error | draining
  deriving DecidableEq, Repr

/-- A buffer of an incoming send message (R316 to R319). -/
inductive MsgBuf where
  | posted (region offset length : Nat)
  | slot (k : Nat)
  | staging (address length : Nat)
  | waiting                              -- opening message awaits its decision
  | refused (status : Status)
  deriving DecidableEq, Repr

/-- An open incoming message (R315, R316, R334). -/
structure OpenMsg where
  msn : Nat
  buf : MsgBuf
  length : Nat
  /-- payload length of every packet but the last, once one has arrived -/
  common : Option Nat
  firstPsn : Nat
  lastIndex : Option Nat
  /-- packet indexes answered, rising, and those refused with their status -/
  answered : List Nat
  refusals : List (Nat × Status)
  /-- bytes placed -/
  bytes : Nat
  /-- payload of the opening packet of an upload, until its decision, with its PSN, path and sent_time -/
  opening : Bytes
  openPsn : Nat
  openPath : Nat
  openSent : Nat
  deriving DecidableEq, Repr

/-- An unanswered packet that Ostuso sent (R336). -/
structure SentPkt where
  psn : Nat
  cls : Nat
  attempt : Nat
  /-- retransmissions that count against retry_limit, and RNR retries -/
  retries : Nat
  rnr : Nat
  rnrUntil : Option Nat
  sentTime : Nat
  timer : Nat
  path : Nat
  opcode : Nat
  first : Bool
  last : Bool
  ext : Bytes
  payload : Bytes
  deriving DecidableEq, Repr

/-- An outstanding READ request (R322). -/
structure ReadReq where
  psn : Nat
  count : Nat
  nextIdx : Nat
  rkey : Nat
  addr : Nat
  length : Nat
  reply : Nat × Nat
  deriving DecidableEq, Repr

/-- A path of a QP (R338). -/
structure Path where
  healthy : Bool := true
  expiries : Nat := 0
  downSince : Nat := 0
  /-- class and PSN of the packet that probes it -/
  probing : Option (Nat × Nat) := none
  deriving DecidableEq, Repr

/-- A queue pair of Strelul (R305 to R309, R334, R336). -/
structure Qp where
  state : QpState := .free
  part : Nat := 0
  compat : Bool := false
  endpoint : Nat := 0
  pathCount : Nat := 1
  ports : Nat := 0
  remoteQpn : Nat := 0
  remoteAddr : Bytes := []
  nextHop : Bytes := []
  retryLimit : Nat := 0
  rnrLimit : Nat := 0
  firstMsn : Nat := 0
  txKey : Bytes := []
  rxKey : Bytes := []
  /-- next PSN to send in class 0 and next control sequence of class 2 -/
  txPsn : List Nat := [0, 0, 0]
  /-- MSNs of Ostuso's own sends that no COMPLETE has ended (R330) -/
  sends : List Nat := []
  /-- ePSN and the answered PSNs at or above it, for classes 0 and 1 -/
  ePsn : List Nat := [0, 0]
  seen : List (List Nat) := [[], []]
  ceCount : Nat := 0
  unacked : List Nat := [0, 0]
  unackedSince : List Nat := [0, 0]
  /-- path and sent_time of the last packet received of each class, for the next ACK -/
  ackInfo : List (Nat × Nat) := [(0, 0), (0, 0)]
  msgs : List OpenMsg := []
  /-- numbers of completed incoming messages, counted from firstMsn (R316) -/
  doneMsns : List Nat := []
  /-- posted buffers: number, region, offset, length -/
  posted : List (Nat × Nat × Nat × Nat) := []
  postedCount : Nat := 0
  records : List Bytes := []
  sent : List SentPkt := []
  reads : List ReadReq := []
  paths : List Path := []
  nextPath : Nat := 0
  srtt : Nat := 0
  rttvar : Nat := 0
  rttValid : Bool := false
  nextMsn : Nat := 0
  lastStatus : Status := .ok
  destroyCmd : Option CmdRef := none
  lastLogged : List (Nat × Nat) := []
  deriving DecidableEq, Repr

/-- A packet committed for placement (R314, R342): its QP, region, route rank, bytes and the route slot, counted from DEVTIME 0, that places its last unit. -/
structure Commit where
  part : Nat
  qpn : Nat
  region : Option Nat
  rank : Nat
  bytes : Nat
  done : Nat
  deriving DecidableEq, Repr

/-! ## Lantus (11_security.md, 12_random.md, 13_power_clocks.md) -/

/-- Lantus processor states of R424; `off` before the ROM has reached ROM_WAIT. -/
inductive LantusState where | off | romWait | romVerify | running | updating | restarting
  deriving DecidableEq, Repr

/-- A key slot (R261, R390 to R395): value, its CRC, the three OTP copies of the attribute word, Lantus's shadow copies of them, and unusable until
device reset. -/
structure KeySlot where
  value : Bytes := zeros 32
  crc : Nat := 0
  otp : List Nat := [0, 0, 0]
  attrs : List Nat := [0, 0, 0]
  unusable : Bool := false
  deriving DecidableEq, Repr

/-- A firmware image: serial and digest. -/
structure Firmware where
  serial : Nat
  digest : Bytes
  deriving DecidableEq, Repr

/-- A report waiting for the Lantus DRBG (R410): the command, and DEVTIME of the request. -/
structure ReportReq where
  cmd : CmdRef
  time : Nat
  deriving DecidableEq, Repr

/-- The Lantus processor, key store and mailbox. -/
structure Lantus where
  state : LantusState := .off
  fw : Option Firmware := none
  staged : Option Firmware := none
  fwFloor : Nat := 0
  debugDisabled : Bool := false
  debugArmed : Bool := false
  debugEnabled : Bool := false
  dbgNonce : Bytes := zeros 32
  keys : List KeySlot := List.replicate 64 {}
  identityPk : Bytes := []
  identitySk : Bytes := []
  certChain : Option Bytes := none
  mbxBusy : Bool := false
  mbxOp : Nat := 0
  mbxDone : Bool := false
  mbxStatus : Status := .ok
  reports : List ReportReq := []
  deriving DecidableEq, Repr

/-- Noise source states of R447. -/
inductive SourceState where | off | settle | startup | running | fatal
  deriving DecidableEq, Repr

/-- A noise source (R426 to R433). -/
structure Source where
  state : SourceState := .off
  settleEnd : Nat := 0
  run : Nat := 0
  lastBit : Option Bool := none
  refBit : Bool := false
  refCount : Nat := 0
  inBlock : Nat := 0
  reg : Nat := 0
  samples : Nat := 0
  failures : List Nat := []
  lastTest : Nat := 0
  deriving DecidableEq, Repr

/-- DRBG states of R446. -/
inductive DrbgState where | off | startup | seeded | reseedWait | fatal
  deriving DecidableEq, Repr

/-- Who waits for DRBG output (R436). -/
inductive DrbgReq where
  /-- the one draw of DBG_NONCE after a device reset (R398) -/
  | nonce
  /-- an RNG_READ step of a tile: logical unit, well, physical tile, next row, blocks left (R199) -/
  | tile (unit well tile row left : Nat)
  deriving DecidableEq, Repr

/-- A DRBG (R434 to R440). -/
structure Drbg where
  state : DrbgState := .off
  key : Bytes := []
  v : Nat := 0
  count : Nat := 0
  pool : List (Nat × Bytes) := []
  fatalSource : Nat := 0x1F
  buffers : List (Nat × Bytes) := []
  seedStart : Nat := 0
  requests : List DrbgReq := []
  lastUnit : Nat := 0
  deriving DecidableEq, Repr

/-- Power states of R454. -/
inductive PState where | p0 | p1 | p2 | p3
  deriving DecidableEq, Repr

/-- Phases of a wake (R452, R459, R460). -/
inductive WakePhase where | none | avs | pll | selfRefresh
  deriving DecidableEq, Repr

/-- Power, clocks and thermal state (13_power_clocks.md). -/
structure Power where
  state : PState := .p0
  target : PState := .p0
  /-- the POWER_STATE whose entry has begun and is not committed (R457, R458) -/
  enterCmd : Option CmdRef := none
  wake : WakePhase := .none
  wakeStart : Nat := 0
  vRun : Nat := 720
  avsRequested : Nat := 0
  avsAcked : Nat := 0
  avsWrites : Nat := 0
  avsTime : Nat := 0
  pllLocked : Bool := false
  /-- junction readings in 0.25 degrees (R462), and the highest one taken in the current governor period, none before its first sample (R464) -/
  readings : List Int := List.replicate 49 0
  periodMax : Option Int := none
  g : Nat := 0
  engagedAt : Nat := 0
  vrAlert : Bool := false
  lastPeriod : Nat := 0
  wakeCauses : Nat := 0
  /-- DEVTIME of the last 100 ms step of V_run (R451), and second of DEVTIME in which event 0x0C0E was last logged (R453) -/
  vRunTime : Nat := 0
  lastPmbus : Option Nat := none
  deriving DecidableEq, Repr

/-- Where the device stands between power-on and running (R503, R449, R468, R469). -/
inductive Life where | off | held | rom | running | stopped
  deriving DecidableEq, Repr

/-! ## Floor plan (08_structure_images.md) and access control (01_architecture.md) -/

/-- The floor plan in force (R276 to R282, R298). -/
structure FloorPlan where
  inForce : Bool := false
  serial : Nat := 0
  digestCopies : List Bytes := [[], [], []]
  records : List PlanRecord := []
  /-- runs of FP_SLOTS (R279): link, first slot, slots, partition -/
  slots : List (Nat × Nat × Nat × Nat) := []
  /-- a plan's runs that wait for the next frame boundary, with the tick of that boundary (R281) -/
  slotsNext : Option (Nat × List (Nat × Nat × Nat × Nat)) := none
  /-- the FLOORPLAN_LOAD in progress (R280) -/
  loading : Option Loading := none
  deriving DecidableEq, Repr

/-- Access control: three copies of the owner of each well and of the access-table roots (R39), the tables (R36, R278) as
99 byte strings of 64 bytes, and three copies of the clock divider configuration (R27). -/
structure Access where
  owners : List (List Nat) := List.replicate 3 (List.replicate 24 0x1F)
  roots : List Nat := [0, 0, 0]
  tables : List Bytes := []
  divider : List Nat := [0, 0, 0]
  /-- (master, target, millisecond) of refusals that raised the access-refusal event (R37) -/
  logged : List (Nat × Nat × Nat) := []
  deriving DecidableEq, Repr

/-! ## Trouble log (14_service.md) -/

/-- A trouble-log entry waiting for the writer or held in the ring (R474). -/
structure LogEntry where
  seq : Nat
  time : Nat
  code : Nat
  severity : Nat
  partition : Nat
  source : Nat
  payload : Nat
  deriving DecidableEq, Repr

/-- A view of the trouble log (R480 to R483). -/
structure LogView where
  cursor : Nat := 0
  lost : Nat := 0
  firstLost : Nat := 0
  armed : Bool := true
  deriving DecidableEq, Repr

/-- The trouble log. -/
structure LogState where
  nextSeq : Nat := 1
  ring : List LogEntry := []
  waiting : List LogEntry := []
  /-- DEVTIME of the last entry written: the writer takes one a cycle (R475) -/
  wroteAt : Option Nat := none
  views : List LogView := List.replicate 25 {}
  deriving DecidableEq, Repr

/-! ## Outputs -/

/-- SPDM responses (R379, R411); the bytes are those of the SPDM specification. -/
inductive SpdmReply where
  | versions (vs : List Nat)
  | capabilities
  | algorithms (hash asym : Nat)
  | digests (ds : List Bytes)
  | certificate (part : Bytes) (remainder : Nat)
  | challengeAuth (chainHash nonce signature : Bytes)
  | measurements (count : Nat) (blocks : List (Nat × Bytes))
  | error (code : Nat)
  deriving DecidableEq, Repr

/-- What a TDISP request is answered with (R381): done, an error, or the interface report (function, its non-prefetchable BARs, MSI-X table locked). -/
inductive TdispReply where
  | done
  | error (code : Nat)
  | report (fn : Nat) (bars : List Nat) (msixLocked : Bool)
  deriving DecidableEq, Repr

/-- What the device has sent or written outside itself (the model's own field `out`). -/
inductive Output where
  | hostWrite (fn addr : Nat) (bytes : Bytes)
  | msix (fn vec : Nat)
  | frame (port : Nat) (bytes : Bytes)
  | doe (fn : Nat) (bytes : Bytes)
  | spdm (fn : Nat) (r : SpdmReply)
  | tdisp (fn : Nat) (r : TdispReply)
  | readData (who : Nat) (value : W32)
  | avs (mv : Nat)
  deriving DecidableEq, Repr

/-! ## The whole machine -/

/-- Faults: ends of a run. No rule of the spec ends the block's operation, so no meaning raises one; the type keeps one named reason. -/
inductive Fault where
  /-- raised by no meaning (every event of the spec leaves a next state); safe -/
  | none
  deriving DecidableEq, Repr

/-- Refusals. -/
inductive Refusal where
  /-- a command that has no meaning yet, by its mnemonic; safe: nothing is claimed of its effect -/
  | notModelled (mnemonic : String)
  deriving DecidableEq, Repr

/-- The state of the block. -/
structure State where
  /-- DEVTIME in ticks of 2.5 ns (R19) -/
  devtime : Nat := 0
  life : Life := .held
  /-- pins: RESET_N held low, PWR_FAIL_N low, FAULT_N asserted, THERMTRIP_N asserted -/
  resetLow : Bool := true
  pwrFailLow : Bool := true
  faultN : Bool := false
  thermTrip : Bool := false
  /-- register file: physical offset and word, canonical: rising offsets, none at its reset value -/
  regs : List (Nat × W32) := []
  /-- read latches (R13) and write-staging latches (R14): reader, offset of the _LO register, word -/
  readLatch : List (Nat × Nat × W32) := []
  writeLatch : List (Nat × Nat × W32) := []
  /-- a tick of DEVTIME, and what it set or counted in registers: offset, bits or number, and the word before (R16, R17) -/
  fresh : Nat × List (Nat × Nat × Nat) := (0, [])
  /-- register locks (R18): global, and the partitions whose image has locked theirs -/
  lockGlobal : Bool := false
  lockParts : List Nat := []
  access : Access := {}
  plan : FloorPlan := {}
  parts : List Partition := List.replicate 24 {}
  wells : List Well := List.replicate 24 {}
  fns : List Function := List.replicate 25 {}
  host : HostIf := {}
  cmds : List Cmd := []
  ports : List Port := List.replicate 2 {}
  intakes : List Intake := List.replicate 16 {}
  qps : List (Nat × Qp) := []
  commits : List Commit := []
  regionChanges : Nat := 0
  lantus : Lantus := {}
  opSession : Session := {}
  sources : List Source := List.replicate 25 {}
  drbgs : List Drbg := List.replicate 25 {}
  power : Power := {}
  log : LogState := {}
  /-- the model's own fields: the command queue, what has left the device, and the counter of free values -/
  pending : List Instr := []
  out : List Output := []
  freeCount : Nat := 0
  deriving DecidableEq, Repr

/-- Access table of a register block before any floor plan (R511): row 31 holds 0b11 in columns 0, 4 and 6. -/
def regBlockTable : Bytes := zeros 62 ++ bytesOf [0x03, 0x33]

/-- Access tables from device reset until the first floor plan (R511), in the order of R278: four for each well, then 96, 97, 98. -/
def resetTables : List Bytes :=
  (List.replicate 24 [zeros 64, zeros 64, zeros 64, regBlockTable]).flatten ++ [regBlockTable, regBlockTable, regBlockTable]

/-- A key slot as manufactured (R391): slot 0 identity seed and slot 1 firmware signer, both valid roots with debug_usable; the rest blank.
The values themselves are zero: DESIGN CHOICE (log entry 4), the spec gives none. -/
def factorySlot (n : Nat) : KeySlot :=
  if n = 0 then { otp := List.replicate 3 0x60000002, attrs := List.replicate 3 0x60000002, crc := 0x8A9136AA }
  else if n = 1 then { otp := List.replicate 3 0x60010001, attrs := List.replicate 3 0x60010001, crc := 0x8A9136AA }
  else {}

/-- The machine right after power-on reset, held in reset (R503): the values the spec gives, and for the rest those that
the assumption log names. -/
def State.reset : State :=
  { access := { tables := resetTables },
    lantus := { keys := (List.range 64).map factorySlot } }

end Sys2Proof.Machine
end

