-- ==== Sys2Proof/Machine/Ops.lean ====
section
/-! DEFINITION. The named operations over the state that every meaning uses: records and lists of the state, the register
file, the trouble log, interrupts, ownership, free values and memories. -/

namespace Sys2Proof.Machine

open Sys2Proof

/-- The answer of a command that leaves a next state. -/
abbrev Result := Host.Outcome State Fault Refusal

/-! ## Codes -/

/-- The code of a status (R375). -/
def Status.code : Status → Nat
  | .ok => 0x00 | .refusedAccess => 0x01 | .lengthExceeds => 0x02 | .keyMismatch => 0x03 | .levelSpent => 0x04
  | .poisonedInput => 0x05 | .revoked => 0x06 | .uncorrectable => 0x07 | .noEntropy => 0x08 | .admissionClosed => 0x09
  | .format => 0x0A | .state => 0x0B | .aborted => 0x0C | .flushed => 0x0D | .remoteAccess => 0x0E | .notReady => 0x0F
  | .other code => code % 256

/-- The status of a code; one above 0x0F, which R375 does not use, stands for itself. -/
def statusOf (n : Nat) : Status :=
  [Status.ok, .refusedAccess, .lengthExceeds, .keyMismatch, .levelSpent, .poisonedInput, .revoked, .uncorrectable,
    .noEntropy, .admissionClosed, .format, .state, .aborted, .flushed, .remoteAccess, .notReady].getD n (.other n)

/-- The code of a round state (R48). -/
def RoundState.code : RoundState → Nat
  | .idle => 0 | .intake => 1 | .closing => 2 | .settle => 3 | .noise => 4 | .combine => 5 | .decode => 6 | .step => 7
  | .publish => 8 | .evaluate => 9 | .done => 10 | .failed => 11

/-- The code of a mode in RND_STATE.mode (R85). -/
def Mode.code : Mode → Nat
  | .none => 0 | .m => 1 | .h => 2

/-- The code of a windlass state (R218, R227). -/
def WindlassState.code : WindlassState → Nat
  | .off => 0 | .loaded => 1 | .running => 2 | .waiting => 3 | .stopped => 4 | .trapped => 5 | .test => 6 | .failed => 7

/-! ## Parts of the state -/

/-- A partition. -/
def State.part (s : State) (p : Nat) : Partition := s.parts.getD p {}

/-- Change a partition. -/
def State.modPart (s : State) (p : Nat) (f : Partition → Partition) : State := { s with parts := updAt s.parts p f }

/-- A partition's round. -/
def State.round (s : State) (p : Nat) : Round := (s.part p).round

/-- Change a partition's round. -/
def State.modRound (s : State) (p : Nat) (f : Round → Round) : State := s.modPart p (fun x => { x with round := f x.round })

/-- A well. -/
def State.well (s : State) (w : Nat) : Well := s.wells.getD w {}

/-- Change a well. -/
def State.modWell (s : State) (w : Nat) (f : Well → Well) : State := { s with wells := updAt s.wells w f }

/-- A physical tile. -/
def State.tile (s : State) (t : TileRef) : Tile := (s.well t.well).tiles.getD t.tile {}

/-- Change a physical tile. -/
def State.modTile (s : State) (t : TileRef) (f : Tile → Tile) : State :=
  s.modWell t.well (fun w => { w with tiles := updAt w.tiles t.tile f })

/-- A pump. -/
def State.pump (s : State) (u : PumpRef) : Pump := (s.well u.well).pumps.getD u.pump {}

/-- Change a pump. -/
def State.modPump (s : State) (u : PumpRef) (f : Pump → Pump) : State :=
  s.modWell u.well (fun w => { w with pumps := updAt w.pumps u.pump f })

/-- A copy channel. -/
def State.chan (s : State) (w c : Nat) : CopyChan := (s.well w).copy.getD c {}

/-- Change a copy channel. -/
def State.modChan (s : State) (w c : Nat) (f : CopyChan → CopyChan) : State :=
  s.modWell w (fun x => { x with copy := updAt x.copy c f })

/-- A PCIe function. -/
def State.fn (s : State) (f : Nat) : Function := s.fns.getD f {}

/-- Change a PCIe function. -/
def State.modFn (s : State) (f : Nat) (g : Function → Function) : State := { s with fns := updAt s.fns f g }

/-- A queue pair of a function. -/
def State.queue (s : State) (f q : Nat) : Queue := (s.fn f).queues.getD q {}

/-- Change a queue pair of a function. -/
def State.modQueue (s : State) (f q : Nat) (g : Queue → Queue) : State :=
  s.modFn f (fun x => { x with queues := updAt x.queues q g })

/-- A noise source. -/
def State.source (s : State) (n : Nat) : Source := s.sources.getD n {}

/-- Change a noise source. -/
def State.modSource (s : State) (n : Nat) (f : Source → Source) : State := { s with sources := updAt s.sources n f }

/-- A DRBG. -/
def State.drbg (s : State) (b : Nat) : Drbg := s.drbgs.getD b {}

/-- Change a DRBG. -/
def State.modDrbg (s : State) (b : Nat) (f : Drbg → Drbg) : State := { s with drbgs := updAt s.drbgs b f }

/-- A port. -/
def State.port (s : State) (n : Nat) : Port := s.ports.getD n {}

/-- Change a port. -/
def State.modPort (s : State) (n : Nat) (f : Port → Port) : State := { s with ports := updAt s.ports n f }

/-- The intake of a port and priority (R339). -/
def State.intake (s : State) (port prio : Nat) : Intake := s.intakes.getD (port * 8 + prio) {}

/-- Change an intake. -/
def State.modIntake (s : State) (port prio : Nat) (f : Intake → Intake) : State :=
  { s with intakes := updAt s.intakes (port * 8 + prio) f }

/-- A Strelul queue pair; a QPN never created is FREE (R307). -/
def State.qp (s : State) (n : Nat) : Qp := (look n s.qps).getD {}

/-- Set a Strelul queue pair. -/
def State.setQp (s : State) (n : Nat) (q : Qp) : State := { s with qps := put n q s.qps }

/-- Change a Strelul queue pair. -/
def State.modQp (s : State) (n : Nat) (f : Qp → Qp) : State := s.setQp n (f (s.qp n))

/-- A session: of a partition, or the operator session for 24 (R417). -/
def State.session (s : State) (p : Nat) : Session := if p = 24 then s.opSession else (s.part p).session

/-- Change a session. -/
def State.modSession (s : State) (p : Nat) (f : Session → Session) : State :=
  if p = 24 then { s with opSession := f s.opSession } else s.modPart p (fun x => { x with session := f x.session })

/-- Change Lantus. -/
def State.modLantus (s : State) (f : Lantus → Lantus) : State := { s with lantus := f s.lantus }

/-- Change the power state. -/
def State.modPower (s : State) (f : Power → Power) : State := { s with power := f s.power }

/-- Record something that leaves the device. -/
def State.emit (s : State) (o : Output) : State := { s with out := s.out ++ [o] }

/-- Draw a free value: a number that the spec leaves open (log entry 1). -/
def State.draw (s : State) : Nat × State := (Config.free s.freeCount, { s with freeCount := s.freeCount + 1 })

/-- Do the derived clocks run, so that commands have an effect (R449, R454, R468, R503)? -/
def State.alive (s : State) : Bool := (s.life == .running || s.life == .rom) && (s.power.state == .p0 || s.power.state == .p1)

/-- Fold an operation over a list. -/
def State.each {α : Type} (s : State) (l : List α) (f : State → α → State) : State := l.foldl f s

/-! ## Register blocks (R29, R30, R513) -/

/-- Rows and base of the register block that holds a physical offset; none at a reserved offset. -/
def blockOf (x : Nat) : Option (List RegRow × Nat) :=
  if x < 0x10000 then some (glbRows, 0)
  else if x < 0x18000 then some (lntRows, 0x10000)
  else if x < 0x20000 then some (fplRows, 0x18000)
  else if x < 0x30000 then some (keyRows, 0x20000)
  else if x < 0x31900 then some (rngRows, 0x100 * (x / 0x100))
  else if x < 0x34000 then none
  else if x < 0x34640 then some (srcRows, x / 0x40 * 0x40)
  else if x < 0x40000 then none
  else if x < 0x50000 then some (pwrRows, 0x40000)
  else if x < 0x60000 then some (logRows, 0x50000)
  else if x < 0x100000 then none
  else if x < 0x101000 then some (stlRows, 0x100000)
  else if x < 0x101800 then if x % 0x400 < 0x200 then some (intkRows, x / 0x40 * 0x40) else none
  else if x < 0x110000 then none
  else if x < 0x128000 then some (stlpRows, 0x1000 * (x / 0x1000))
  else if x < 0x200000 then none
  else if x < 0x219000 then some (hqRows, 0x1000 * (x / 0x1000))
  else if x < 0x220000 then none
  else if x < 0x221000 then some (hifRows, 0x220000)
  else if x < 0x280000 then none
  else if x < 0x286000 then some (rndRows, 0x400 * (x / 0x400))
  else if x < 0x287800 then some (mskRows, 0x100 * (x / 0x100))
  else if x < 0x288000 then none
  else if x < 0x289800 then some (ctxRows, 0x100 * (x / 0x100))
  else if x < 0x28A000 then none
  else if x < 0x28B800 then some (rfsRows, 0x100 * (x / 0x100))
  else if x < 0x28C000 then none
  else if x < 0x28D800 then some (imgRows, 0x100 * (x / 0x100))
  else if x < 0x1000000 then none
  else if x < 0x2800000 then
    let y := x % 0x100000
    if y < 0x19000 then some (tileRows, 0x1000 * (x / 0x1000))
    else if y < 0x20000 then none
    else if y < 0x24000 then some (pumpRows, 0x400 * (x / 0x400))
    else if y < 0x30000 then none
    else if y < 0x40000 then some (cisRows, 0x10000 * (x / 0x10000))
    else if y < 0x50000 then some (lpxRows, 0x10000 * (x / 0x10000))
    else if y < 0x60000 then some (scrubRows, 0x10000 * (x / 0x10000))
    else if y < 0x68000 then some (cetRows, 0x8000 * (x / 0x8000))
    else if y < 0x70000 then some (substRows, 0x8000 * (x / 0x8000))
    else none
  else none

/-- Does a row hold a register at an offset of its block? -/
def RegRow.has (r : RegRow) (o : Nat) : Bool :=
  decide (r.base ≤ o) && decide ((o - r.base) % r.stride = 0) && decide ((o - r.base) / r.stride < r.count)

/-- The row of a physical offset; none at a reserved offset (R31). -/
def regRow (x : Nat) : Option RegRow :=
  match blockOf x with
  | some (rows, base) => rows.find? (fun r => r.has (x - base))
  | none => none

/-- Mask of the bits of a row's fields that satisfy a test. -/
def RegRow.mask (r : RegRow) (t : Acc → Bool) : Nat :=
  r.flds.foldl (fun m f => if t f.acc then m ||| ((2 ^ (f.hi + 1 - f.lo) - 1) <<< f.lo) else m) 0

/-- Reset word of a row. -/
def RegRow.resetWord (r : RegRow) : Nat := r.flds.foldl (fun m f => m ||| (f.reset <<< f.lo)) 0

/-- Reset word of the register at a physical offset. -/
def regReset (x : Nat) : W32 :=
  match regRow x with
  | some r => BitVec.ofNat 32 r.resetWord
  | none => 0

/-- A register's word in the register file. -/
def State.regW (s : State) (x : Nat) : W32 := (look x s.regs).getD (regReset x)

/-- A register's word as a number. -/
def State.reg (s : State) (x : Nat) : Nat := (s.regW x).toNat

/-- Set a register's word; a word at its reset value is not listed. -/
def State.setReg (s : State) (x v : Nat) : State :=
  let w : W32 := BitVec.ofNat 32 v
  { s with regs := if w = regReset x then del x s.regs else put x w s.regs }

/-- Bits [hi:lo] of a register. -/
def State.regBits (s : State) (x hi lo : Nat) : Nat := bits (s.reg x) hi lo

/-- What the current tick has set or counted in a register: bits or number, and the word before it (R16, R17). -/
def State.freshAt (s : State) (x : Nat) : Option (Nat × Nat) := if s.fresh.1 = s.devtime then look x s.fresh.2 else none

/-- Note for the current tick what a register has had set or counted, and the word before it. -/
def State.noteFresh (s : State) (x n before : Nat) : State :=
  { s with fresh := (s.devtime, put x (n, before) (if s.fresh.1 = s.devtime then s.fresh.2 else [])) }

/-- Note bits that the device sets in a register in this tick: a write that clears them in the same tick leaves them set (R16). -/
def State.noteSet (s : State) (x b : Nat) : State :=
  let e := (s.freshAt x).getD (0, s.reg x)
  s.noteFresh x (e.1 ||| b) e.2

/-- Note an increment of a counter in this tick: a clear of the same tick leaves it (R17). -/
def State.noteCount (s : State) (x n : Nat) : State :=
  let e := (s.freshAt x).getD (0, s.reg x)
  s.noteFresh x (e.1 + n) e.2

/-- Set bits [hi:lo] of a register. -/
def State.setBits (s : State) (x hi lo v : Nat) : State :=
  let m := (2 ^ (hi + 1 - lo) - 1) <<< lo
  (s.noteSet x ((v <<< lo) &&& m)).setReg x (((s.reg x) &&& (0xFFFFFFFF ^^^ m)) ||| ((v <<< lo) &&& m))

/-- Set a register that records something: its W1C bits are set in this tick (R16). -/
def State.setRecord (s : State) (x v : Nat) : State := (s.noteSet x v).setReg x v

/-- Count `n` in a counter register, saturating (R17). -/
def State.countBy (s : State) (x n : Nat) : State := (s.noteCount x n).setReg x (min (s.reg x + n) 0xFFFFFFFF)

/-- Count one in a counter register, saturating (R17). -/
def State.count (s : State) (x : Nat) : State := s.countBy x 1

/-- A 64-bit pair of the register file. -/
def State.reg64 (s : State) (x : Nat) : Nat := s.reg x + 2 ^ 32 * (s.reg (x + 4))

/-- Set a 64-bit pair. -/
def State.setReg64 (s : State) (x v : Nat) : State := (s.setReg x (v % 2 ^ 32)).setReg (x + 4) (v / 2 ^ 32)

/-- Return every register in a range of offsets to its reset value. -/
def State.clearRegs (s : State) (lo hi : Nat) : State :=
  { s with regs := s.regs.filter (fun e => decide (e.1 < lo) || decide (hi ≤ e.1)) }

/-- Block bases. -/
def rndBase (p : Nat) : Nat := 0x280000 + 0x400 * p
def mskBase (p : Nat) : Nat := 0x286000 + 0x100 * p
def ctxBase (p : Nat) : Nat := 0x288000 + 0x100 * p
def rfsBase (p : Nat) : Nat := 0x28A000 + 0x100 * p
def imgBase (p : Nat) : Nat := 0x28C000 + 0x100 * p
def stlpBase (p : Nat) : Nat := 0x110000 + 0x1000 * p
def intkBase (port prio : Nat) : Nat := 0x101000 + 0x400 * port + prio * 0x40
def hqBase (f : Nat) : Nat := 0x200000 + 0x1000 * f
def hqqBase (f q : Nat) : Nat := 0x200100 + 0x1000 * f + q * 0x40
def wellBase (w : Nat) : Nat := 0x1000000 + 0x100000 * w
def tileBase (t : TileRef) : Nat := wellBase t.well + 0x1000 * t.tile
def pumpBase (u : PumpRef) : Nat := wellBase u.well + 0x20000 + 0x400 * u.pump
def cisBase (w : Nat) : Nat := wellBase w + 0x30000
def lpxBase (w : Nat) : Nat := wellBase w + 0x40000
def scrubBase (w : Nat) : Nat := wellBase w + 0x50000
def cetBase (w : Nat) : Nat := wellBase w + 0x60000
def substBase (w : Nat) : Nat := wellBase w + 0x68000
def rngBase (b : Nat) : Nat := 0x30000 + 0x100 * b
def srcBase (n : Nat) : Nat := 0x34000 + n * 0x40
def lntBase : Nat := 0x10000
def fplBase : Nat := 0x18000
def keyBase : Nat := 0x20000
def pwrBase : Nat := 0x40000
def logBase : Nat := 0x50000
def stlBase : Nat := 0x100000
def hifBase : Nat := 0x220000

/-! ## Ownership (R39, R41) -/

/-- The owner of a well by the 2-of-3 vote; none when all three copies differ (R39). -/
def State.ownerVote (s : State) (w : Nat) : Option Nat :=
  vote ((s.access.owners.getD 0 []).getD w 0x1F) ((s.access.owners.getD 1 []).getD w 0x1F) ((s.access.owners.getD 2 []).getD w 0x1F)

/-- The owner of a well, 0x1F when unassigned or when the vote fails. -/
def State.owner (s : State) (w : Nat) : Nat := (s.ownerVote w).getD 0x1F

/-- The wells of a partition, rising: rank r is element r (R387). -/
def State.wellsOf (s : State) (p : Nat) : List Nat := (List.range 24).filter (fun w => s.owner w == p)

/-- The rank of a well in its partition. -/
def State.rankOf (s : State) (w : Nat) : Nat := ((List.range w).filter (fun v => s.owner v == s.owner w)).length

/-- Does the floor plan in force form a partition? -/
def State.formed (s : State) (p : Nat) : Bool := s.plan.inForce && decide (p < 24) && !(s.wellsOf p).isEmpty

/-- The floor-plan record of a partition. -/
def State.record (s : State) (p : Nat) : Option PlanRecord := s.plan.records.find? (fun r => r.partition == p)

/-- The partition tag of a function (R34): 0x1F for the PF, k - 1 for VF k. -/
def tagOfFn (f : Nat) : Nat := if f = 0 then 0x1F else f - 1

/-- The master ID of a function (R34). -/
def masterOfFn (f : Nat) : Nat := 0x4000 + f

/-- The master ID of a tile, R34. -/
def masterOfTile (t : TileRef) : Nat := 0x1000 + t.well * 32 + t.tile

/-- The master ID of a pump, R34. -/
def masterOfPump (u : PumpRef) : Nat := 0x2000 + u.well * 16 + u.pump

/-! ## Trouble log (R474 to R478) -/

/-- Events of severity warning. -/
def warningEvents : List Nat :=
  [0x0104, 0x010C, 0x0202, 0x0203, 0x0206, 0x0303, 0x0305, 0x0307, 0x030C, 0x0403, 0x0502, 0x0503, 0x0507, 0x0602] ++
  [0x0608, 0x060C, 0x060E, 0x0803, 0x0804, 0x0806, 0x0807, 0x0808, 0x0809, 0x080C, 0x0903, 0x0908, 0x090A, 0x0A06] ++
  [0x0A08, 0x0A0A, 0x0A0B, 0x0B02, 0x0B03, 0x0C05, 0x0C08, 0x0C09, 0x0C0B, 0x0C0E, 0x0D01, 0x0D05]

/-- Events of severity error. -/
def errorEvents : List Nat :=
  [0x0108, 0x010A, 0x010D, 0x010E, 0x0204, 0x0301, 0x0302, 0x0304, 0x0309, 0x0401, 0x0402, 0x0405, 0x0501, 0x0504] ++
  [0x0506, 0x0508, 0x0509, 0x0603, 0x0604, 0x0605, 0x0606, 0x0609, 0x060A, 0x060D, 0x0702, 0x0705, 0x0801, 0x080A] ++
  [0x0902, 0x0904, 0x0906, 0x0907, 0x0A02, 0x0A04, 0x0A0D, 0x0A0E, 0x0B04, 0x0B06, 0x0C06, 0x0C07, 0x0C0C, 0x0C0D] ++
  [0x0D03, 0x0D04]

/-- The severity of an event: 0 info, 1 warning, 2 error (the event tables of the chapters, R476). -/
def eventSeverity (code : Nat) : Nat := if code ∈ errorEvents then 2 else if code ∈ warningEvents then 1 else 0

/-- Pack payload fields (width, value) from bit 0; what passes bit 103 is cut (R478). -/
def packPayload (fs : List (Nat × Nat)) : Nat :=
  (fs.foldl (fun (acc : Nat × Nat) f => (acc.1 + f.1, acc.2 + ((f.2 % 2 ^ f.1) <<< acc.1))) (0, 0)).2 % 2 ^ 104

/-- Raise an event: a pending entry of the writer, or one count in LOG_WRITER_DROP_COUNT when 64 are pending (R475). -/
def State.raise (s : State) (code part src : Nat) (payload : List (Nat × Nat)) : State :=
  if s.log.waiting.length < 64 then
    { s with log := { s.log with waiting := s.log.waiting ++
        [⟨0, s.devtime, code, eventSeverity code, part, src, packPayload payload⟩] } }
  else s.count (logBase + 4)

/-- Assert FAULT_N for a device-fatal cause: its bit of SVC_FAULT and event 0x0D04, once for each cause (R486). -/
def State.assertFault (s : State) (cause : Nat) : State :=
  if s.regBits (logBase + 0x804) cause cause = 1 then s
  else ({ s with faultN := true }.setBits (logBase + 0x804) cause cause 1).raise 0x0D04 0x1F 0 [(8, cause)]

/-! ## Interrupts (R376, R377) -/

/-- Has a function its interrupts enabled: the PF, or a VF below NumVFs, with MSI-X Enable set? -/
def State.msixOn (s : State) (f : Nat) : Bool := (s.fn f).msixEnable && (f == 0 || decide (f ≤ s.host.numVfs))

/-- Is the IDE stream that a function's TLPs need Insecure: its selective stream, or the link stream where it has none (R380)? -/
def State.streamBad (s : State) (f : Nat) : Bool :=
  let own := s.host.ide.getD f {}
  own.insecure || (own.keySet.isNone && (s.host.ide.getD 0 {}).insecure)

/-- Send an interrupt vector: a message, or its PBA bit while it is masked, or nothing while MSI-X is off or over an Insecure stream (R377, R380). -/
def State.msix (s : State) (f v : Nat) : State :=
  if !s.msixOn f || !s.host.up then s
  else if ((look v (s.fn f).msix).getD {}).masked then s.modFn f (fun x => { x with pba := insertNat v x.pba })
  else if s.streamBad f then s
  else s.emit (.msix f v)

/-- Set a bit of RND_INT_STATUS and send the round interrupt of an enabled bit (R85). -/
def State.roundInt (s : State) (p b : Nat) : State :=
  let s1 := s.setBits (rndBase p + 0x48) b b 1
  if s1.regBits (rndBase p + 0x4C) b b = 1 then s1.msix (p + 1) 0 else s1

/-- Set a bit of PWR_INT_STATUS and send PF vector 2 for an enabled bit (R473, R376). -/
def State.powerInt (s : State) (b : Nat) : State :=
  let s1 := s.setBits (pwrBase + 0x50) b b 1
  if s1.regBits (pwrBase + 0x54) b b = 1 then s1.msix 0 2 else s1

/-- Activity that reaches the device in P1 brings it to P0 (R459, R460). -/
def State.activity (s : State) : State :=
  if s.power.state = .p1 then (s.modPower (fun x => { x with state := .p0, wakeCauses := 1 })).powerInt 0 else s

/-! ## Memories in canonical form -/

/-- Little-endian number of the bytes at addresses base to base + len - 1. -/
def memNat (m : Mem) (base len : Nat) : Nat :=
  m.foldl (fun a c => if base ≤ c.1 ∧ c.1 < base + len then a + 256 ^ (c.1 - base) * c.2.toNat else a) 0

/-- One byte of a memory. -/
def memByte (m : Mem) (a : Nat) : Byte := (look a m).getD 0

/-- `len` bytes of a memory from an address. -/
def memRead (m : Mem) (base len : Nat) : Bytes := toLE (memNat m base len) len

/-- The cells of bytes written from an address; a zero byte is not listed. -/
def cellsOf : Nat → Bytes → Mem
  | _, [] => []
  | a, b :: bs => if b = 0 then cellsOf (a + 1) bs else (a, b) :: cellsOf (a + 1) bs

/-- Write bytes at an address, keeping the canonical form. -/
def memWrite (m : Mem) (base : Nat) (bs : Bytes) : Mem :=
  m.filter (fun c => decide (c.1 < base)) ++ cellsOf base bs ++ m.filter (fun c => decide (base + bs.length ≤ c.1))

/-- Clear a range of a memory. -/
def memClear (m : Mem) (base len : Nat) : Mem :=
  m.filter (fun c => decide (c.1 < base)) ++ m.filter (fun c => decide (base + len ≤ c.1))

/-! ## Records sent and rate limits -/

/-- Has an event kind been logged for an object in a period already? If not, note it. -/
def State.firstIn (s : State) (p kind obj period : Nat) : Bool × State :=
  if (kind, obj, period) ∈ (s.part p).lastLogged then (false, s)
  else (true, s.modPart p (fun x => { x with lastLogged := (kind, obj, period) :: x.lastLogged.filter (fun e => !(e.1 == kind && e.2.1 == obj)) }))

/-- The second of DEVTIME, 400,000,000 ticks (R19). -/
def State.second (s : State) : Nat := s.devtime / 400000000

/-- The millisecond of DEVTIME, 400,000 ticks (R19). -/
def State.milli (s : State) : Nat := s.devtime / 400000

end Sys2Proof.Machine
end

