-- ==== Sys2Proof/Machine/Legal.lean ====
section
/-! DEFINITION. Encodings of writable register fields (00_scope.md R12, with the ranges that the register tables state) and writes of 64-bit pairs (R14). -/

namespace Sys2Proof.Machine

open Sys2Proof

/-- Does a number lie in a range? -/
def within (n lo hi : Nat) : Bool := decide (lo ≤ n) && decide (n ≤ hi)

/-- Offset of a register from the base of its block. -/
def blockOffset (x : Nat) : Nat := match blockOf x with | some (_, b) => x - b | none => 0

/-- Is a word a legal encoding of every writable field of a register (R12)? Registers whose own rows test their writes are not named here. -/
def encodingLegal (x v : Nat) : Bool :=
  let o := blockOffset x
  if within x 0x280000 0x285FFF ∧ o = 0x10 then within v 1 4000000
  else if within x 0x288000 0x2897FF ∧ o = 0x20 then within (v % 2 ^ 25) 1 16777216
  else if within x 0x28A000 0x28B7FF ∧ o = 0 then within (bits v 18 17) 1 2
  else if within x 0x100000 0x100FFF ∧ o = 0x28 then within (v % 64) 1 40
  else if within x 0x101000 0x1017FF ∧ o = 4 then
    decide (0 < v % 256) && decide (v % 256 < bits v 23 16) && decide (bits v 23 16 ≤ 128)
  else if within x 0x110000 0x127FFF ∧ o = 8 then v % 32 == 0
  else if within x 0x110000 0x127FFF ∧ o = 0x10 then v % 32 == 0 || within (v % 32) 6 16
  else if x = 0x10008 then v % 64 == 0
  else if 0x1000000 ≤ x ∧ within (x % 0x100000) 0x50000 0x5FFFF ∧ (o = 8 ∨ o = 0x10) then v % 64 == 0
  else true

/-- Mask of the bits of a row that a write of software or a preset changes. -/
def RegRow.writable (r : RegRow) : Nat := r.mask (fun a => a == .rw || a == .rwl)

/-- Place a word in the writable fields of one register. -/
def State.putFields (s : State) (x v : Nat) : State :=
  match regRow x with
  | some r => s.setReg x (((s.reg x) &&& (0xFFFFFFFF ^^^ r.writable)) ||| (v &&& r.writable))
  | none => s

/-- The low half that a writer has staged for the pair whose _LO register is at an offset; zero when it has staged none (R14). -/
def State.staged (s : State) (who lo : Nat) : Nat := ((s.writeLatch.find? (fun e => e.1 == who && e.2.1 == lo)).map (fun e => e.2.2.toNat)).getD 0

/-- Forget a writer's staged half of a pair. -/
def State.unstage (s : State) (who lo : Nat) : State := { s with writeLatch := s.writeLatch.filter (fun e => !(e.1 == who && e.2.1 == lo)) }

/-- Stage the low half of a pair (R14). -/
def State.stage (s : State) (who lo v : Nat) : State :=
  let s1 := s.unstage who lo
  { s1 with writeLatch := s1.writeLatch ++ [(who, lo, BitVec.ofNat 32 v)] }

/-- A legal write of a register by a writer: a low half is staged, a high half writes the pair, and any other register changes at once (R14). -/
def State.regPut (s : State) (who x v : Nat) : State :=
  match (regRow x).map RegRow.half with
  | some .low => s.stage who x v
  | some .high => ((s.putFields (x - 4) (s.staged who (x - 4))).putFields x v).unstage who (x - 4)
  | _ => s.putFields x v

end Sys2Proof.Machine
end

