-- ==== Sys2Proof/Machine/Header.lean ====
section
/-! DEFINITION. The 64-byte header of a ciphertext and the 24-byte tag of an LWE ciphertext (04_ciphertext_engine.md R130; 05_table_refresh.md R162). -/

namespace Sys2Proof.Machine

open Sys2Proof

/-- A ciphertext header. -/
structure CtHeader where
  logN : Nat
  limbs : Nat
  level : Nat
  components : Nat
  special : Nat
  encoding : Nat
  unmetered : Bool
  poisoned : Bool
  form : Bool
  montgomery : Bool
  cause : Nat
  scaleLog : Nat
  origin : Nat
  roundId : Nat
  keyId : Nat
  deriving DecidableEq, Repr

/-- The fields of a 64-byte header. -/
def ctHeader (b : Bytes) : CtHeader :=
  let f := rd b 8 1
  ⟨rd b 2 1, rd b 3 1, rd b 4 1, rd b 5 1, rd b 6 1, rd b 7 1, bit f 0, bit f 1, bit f 2, bit f 3, rd b 9 1, rd b 0xA 1, rd b 0xC 4, rd b 0x10 8, rd b 0x18 8⟩

/-- The bytes of a header. -/
def CtHeader.bytes (h : CtHeader) : Bytes :=
  sealCrc (toLE 0x48 1 ++ toLE 1 1 ++ toLE h.logN 1 ++ toLE h.limbs 1 ++ toLE h.level 1 ++ toLE h.components 1 ++ toLE h.special 1 ++ toLE h.encoding 1 ++
    toLE (b2n h.unmetered + 2 * b2n h.poisoned + 4 * b2n h.form + 8 * b2n h.montgomery) 1 ++ toLE h.cause 1 ++ toLE h.scaleLog 1 ++ zeros 1 ++
    toLE h.origin 4 ++ toLE h.roundId 8 ++ toLE h.keyId 8 ++ toLE (64 + 4 * h.components * h.limbs * 2 ^ h.logN) 4 ++ zeros 24 ++ zeros 4)

/-- An LWE tag (R162). -/
structure LweTag where
  stage : Nat
  poisoned : Bool
  unmetered : Bool
  cause : Nat
  dim : Nat
  keyId : Nat
  origin : Nat
  deriving DecidableEq, Repr

/-- The fields of a 24-byte tag. -/
def lweTag (b : Bytes) : LweTag := ⟨rd b 1 1, bit (rd b 2 1) 0, bit (rd b 2 1) 1, rd b 3 1, rd b 4 4, rd b 8 8, rd b 0x10 4⟩

/-- The bytes of a tag. -/
def LweTag.bytes (h : LweTag) : Bytes :=
  sealCrc (toLE 0x4C 1 ++ toLE h.stage 1 ++ toLE (b2n h.poisoned + 2 * b2n h.unmetered) 1 ++ toLE h.cause 1 ++ toLE h.dim 4 ++ toLE h.keyId 8 ++
    toLE h.origin 4 ++ zeros 4)

end Sys2Proof.Machine
end

