-- ==== Sys2Proof/Machine/Access.lean ====
section
/-! DEFINITION. The access check every request passes (R28 to R39, R254, R294, R511, R512), its record, and discarded register writes (R382). -/

namespace Sys2Proof.Machine

open Sys2Proof

/-- Where a device physical address falls (R28). -/
inductive Place where
  | register (offset : Nat)
  | cistern (well offset : Nat)
  | lpddr (well offset : Nat)
  | unmapped
  deriving DecidableEq, Repr

/-- Decode a device physical address (R28). -/
def placeOf (a : Nat) : Place :=
  if a < 0x4000000 then .register a
  else if 0x10000000000 ≤ a ∧ a < 0x10180000000 then
    let o := a % 0x10000000000
    if o % 0x10000000 < 0x8000000 then .cistern (o / 0x10000000) (o % 0x10000000) else .unmapped
  else if 0x100000000000 ≤ a ∧ a < 0x118000000000 then
    let o := a % 0x100000000000
    if o % 0x1000000000 < 0x800000000 then .lpddr (o / 0x1000000000) (o % 0x1000000000) else .unmapped
  else .unmapped

/-- Device physical address of a cistern byte (R28). -/
def cisAddr (w o : Nat) : Nat := 0x10000000000 + 0x10000000 * w + o

/-- Device physical address of an LPDDR5X byte (R28). -/
def lpxAddr (w o : Nat) : Nat := 0x100000000000 + 0x1000000000 * w + o

/-- Why a request is refused: the reason of GLB_REFUSE_LAST (R44, R512). -/
inductive RefuseReason where
  | table | unmapped | outOfService | voteFailed | noKey
  deriving DecidableEq, Repr

/-- The code of a reason in GLB_REFUSE_LAST.reason (R44). -/
def RefuseReason.code : RefuseReason → Nat
  | .table => 0 | .unmapped => 1 | .outOfService => 2 | .voteFailed => 3 | .noKey => 4

/-- The status of a refusal (R512). -/
def RefuseReason.status : RefuseReason → Status
  | .table => .refusedAccess | .unmapped => .refusedAccess | .outOfService => .notReady | .voteFailed => .refusedAccess | .noKey => .notReady

/-- A master of a request: master ID and partition tag (R34, R35). -/
structure Master where
  id : Nat
  tag : Nat
  deriving DecidableEq, Repr

/-- The class of a master (R34). -/
def Master.cls (m : Master) : Nat := m.id / 0x1000

/-- A function as master (R34, R361). -/
def fnMaster (f : Nat) : Master := ⟨masterOfFn f, tagOfFn f⟩

/-- The Strelul context of a partition as master (R34). -/
def strelulMaster (p : Nat) : Master := ⟨0x3000 + p, p⟩

/-- An access-table entry (R36, R278): row by tag, column by class. -/
def State.entry (s : State) (target tag cls : Nat) : Nat :=
  bits (leNat (s.access.tables.getD target [])) (2 * (8 * tag + cls) + 1) (2 * (8 * tag + cls))

/-- Do the three roots of the access tables agree in two (R39)? -/
def State.rootsOk (s : State) : Bool :=
  (vote (s.access.roots.getD 0 0) (s.access.roots.getD 1 0) (s.access.roots.getD 2 0)).isSome

/-- Test 3 of R512: the entry allows the request; a failed vote takes it as 0b00 (R39). `need` is 1 read, 2 write, 3 both. -/
def State.tableRefuses (s : State) (m : Master) (target : Nat) (well : Option Nat) (need : Nat) : Option RefuseReason :=
  if !s.rootsOk then some .voteFailed
  else if (match well with | some w => (s.ownerVote w).isNone | none => false) then some .voteFailed
  else if (s.entry target m.tag m.cls) &&& need = need then none else some .table

/-- The image area of a well: first bucket and buckets, while its owner's image is LOADING or LOADED (R294). -/
def State.imageArea (s : State) (w : Nat) : Option (Nat × Nat) :=
  let p := s.owner w
  if p < 24 ∧ (s.part p).image.state ≠ .empty then
    ((s.part p).image.wellRecords[s.rankOf w]?).map (fun r => (r.areaBase, r.areaBuckets))
  else none

/-- Armed protected ranges of a well: target (0 cistern, 1 LPDDR5X), first and last bucket (R254). -/
def State.armedRanges (s : State) (w : Nat) : List (Nat × Nat × Nat) :=
  let p := s.owner w
  if p < 24 ∧ (s.part p).armed then
    match (s.part p).image.wellRecords[s.rankOf w]? with
    | some r => (r.ranges.filter (fun e => e.2.1 == (s.round p).desc.scheduleSet)).map (fun e => (e.1, e.2.2.1, e.2.2.2))
    | none => []
  else []

/-- Test 4 of R512: does an armed range or image area refuse a bucket to this master class (R122, R254, R294)? -/
def State.rangeRefuses (s : State) (m : Master) (w tgt bucket : Nat) (writes : Bool) : Bool :=
  ((m.cls == 3 || m.cls == 4 || m.cls == 6) &&
      (s.armedRanges w).any (fun r => r.1 == tgt && decide (r.2.1 ≤ bucket) && decide (bucket ≤ r.2.2))) ||
    (match s.imageArea w with
     | some (b, n) => tgt == 0 && decide (b ≤ bucket) && decide (bucket < b + n) &&
         (m.cls == 3 || m.cls == 4 || m.cls == 6 || (writes && m.cls != 0))
     | none => false)

/-- The target position of a register offset in the order of R278; none for ranges of no target (R29). -/
def regTarget (x : Nat) : Option (Nat × Option Nat) :=
  if x < 0x100000 then some (98, none)
  else if x < 0x200000 then some (96, none)
  else if x < 0x300000 then some (97, none)
  else if 0x1000000 ≤ x ∧ x < 0x2800000 then
    let w := (x - 0x1000000) / 0x100000
    some (4 * w + 3, some w)
  else none

/-- The checks of R512 for one bucket or register, in order: none when the request is allowed. -/
def State.refuses (s : State) (m : Master) (addr need : Nat) : Option RefuseReason :=
  match placeOf addr with
  | .unmapped => some .unmapped
  | .register x =>
    match regTarget x with
    | some (t, w) => s.tableRefuses m t w need
    | none => none
  | .cistern w o =>
    if !(s.well w).inService then some .outOfService
    else match s.tableRefuses m (4 * w) (some w) need with
      | some r => some r
      | none => if s.rangeRefuses m w 0 (o / 64) (need ≠ 1) then some .table else none
  | .lpddr w o =>
    if !(s.well w).inService then some .outOfService
    else match s.tableRefuses m (4 * w + 1) (some w) need with
      | some r => some r
      | none =>
        if s.rangeRefuses m w 1 (o / 64) (need ≠ 1) then some .table
        else if (s.well w).lpxKey.isEmpty then some .noKey else none

/-- The first refusal among `n` buckets from an address, with the address refused. -/
def State.refusesRange (s : State) (m : Master) (need : Nat) : Nat → Nat → Option (RefuseReason × Nat)
  | 0, _ => none
  | n + 1, addr =>
    match s.refuses m addr need with
    | some r => some (r, addr)
    | none => s.refusesRange m need n (addr / 64 * 64 + 64)

/-- Number of buckets that `len` bytes from an address touch. -/
def bucketsOf (addr len : Nat) : Nat := if len = 0 then 0 else (addr + len - 1) / 64 - addr / 64 + 1

/-- The access-refusal event of an address's target (R37). -/
def refusalEvent (addr : Nat) : Nat :=
  match placeOf addr with
  | .register x => if x < 0x100000 then 0x0D05 else if x < 0x200000 then 0x080C else if x < 0x300000 then 0x090A else 0x060E
  | _ => 0x060E

/-- Key of an address's target, for the once-a-millisecond rule of R37. -/
def targetKey (addr : Nat) : Nat :=
  match placeOf addr with
  | .register x => match regTarget x with | some (t, _) => t | none => 99
  | .cistern w _ => 4 * w
  | .lpddr w _ => 4 * w + 1
  | .unmapped => 99

/-- Record a refusal at a target: GLB_REFUSE_LAST, the address pair, GLB_REFUSE_COUNT, and for tests 3 and 4 the event of R37, once per master and target
in each millisecond. -/
def State.refusedAt (s : State) (target : Nat) (m : Master) (addr : Nat) (r : RefuseReason) : State :=
  let s1 := (((s.count 0x20).setRecord 0x24 (0x10000 * m.id + 0x800 * m.tag + 0x100 * r.code + 1)).setReg 0x28 (addr % 2 ^ 32)).setReg 0x2C (addr / 2 ^ 32 % 0x10000)
  if r = .table ∨ r = .voteFailed then
    if (m.id, target, s.milli) ∈ s1.access.logged then s1
    else
      ({ s1 with access := { s1.access with logged := (m.id, target, s.milli) :: s1.access.logged.filter (fun e => e.2.2 == s.milli) } }).raise
        (refusalEvent addr) m.tag m.id [(16, m.id), (8, m.tag), (8, r.code), (48, addr)]
  else s1

/-- Record a refusal at the target of its address. -/
def State.recordRefusal (s : State) (m : Master) (addr : Nat) (r : RefuseReason) : State := s.refusedAt (targetKey addr) m addr r

/-! ## Triplicated words are repaired at their use (R39, R261) -/

/-- Vote on three copies: the copies after repair, the number of a copy that was rewritten, and whether all three differ. -/
def votedCopies {α : Type} [DecidableEq α] (l : List α) (d : α) : List α × Option Nat × Bool :=
  let a := l.getD 0 d
  let b := l.getD 1 d
  let c := l.getD 2 d
  if a = b then (if b = c then ([a, b, c], none, false) else ([a, a, a], some 2, false))
  else if b = c then ([b, b, b], some 0, false)
  else if a = c then ([a, a, a], some 1, false)
  else ([a, b, c], none, true)

/-- Event 0x060C of a repaired copy. -/
def State.tripleEvent (s : State) (part ident : Nat) (fixed : Option Nat) : State :=
  match fixed with
  | some k => s.raise 0x060C part 0 [(8, ident), (8, k)]
  | none => s

/-- Word identities of events 0x060C and 0x060D: key slot n is n (R392); the others are this model's (log entry 15). -/
def identOwner (w : Nat) : Nat := 64 + w
def identRoot : Nat := 88
def identDivider : Nat := 89
def identImage (p : Nat) : Nat := 96 + p
def identPlan : Nat := 120

/-- Do three copies agree, so that a vote has nothing to repair? -/
def agree {α : Type} [DecidableEq α] (l : List α) (d : α) : Bool := decide (l.getD 0 d = l.getD 1 d ∧ l.getD 1 d = l.getD 2 d)

/-- Read the owner of a well through its vote: a copy that two others outvote is rewritten. -/
def State.repairOwner (s : State) (w : Nat) : State :=
  if agree (s.access.owners.map (fun l => l.getD w 0x1F)) 0x1F then s
  else
    let v := votedCopies (s.access.owners.map (fun l => l.getD w 0x1F)) 0x1F
    let owners := (s.access.owners.zip v.1).map (fun (e : List Nat × Nat) => updAt e.1 w (fun _ => e.2))
    ({ s with access := { s.access with owners := owners } } : State).tripleEvent 0x1F (identOwner w) v.2.1

/-- Read the access-table roots through their vote. -/
def State.repairRoots (s : State) : State :=
  if agree s.access.roots 0 then s
  else
    let v := votedCopies s.access.roots 0
    ({ s with access := { s.access with roots := v.1 } } : State).tripleEvent 0x1F identRoot v.2.1

/-- Read the clock divider configuration through its vote; three different copies stop the derived clocks until device reset (R27). -/
def State.voteDivider (s : State) : State :=
  if agree s.access.divider 0 then s
  else
    let v := votedCopies s.access.divider 0
    let s1 := ({ s with access := { s.access with divider := v.1 } } : State).tripleEvent 0x1F identDivider v.2.1
    if v.2.2 then { ((s1.raise 0x060D 0x1F 0 [(8, identDivider)]).assertFault 0) with life := .stopped } else s1

/-- Read the digest of a partition's image through its vote. -/
def State.repairImage (s : State) (p : Nat) : State :=
  let l := (s.part p).image.digestCopies
  if agree l [] then s
  else
    let v := votedCopies l []
    (s.modPart p (fun x => { x with image := { x.image with digestCopies := v.1 } })).tripleEvent p (identImage p) v.2.1

/-- Read the digest of the floor plan through its vote. -/
def State.repairPlan (s : State) : State :=
  if agree s.plan.digestCopies [] then s
  else
    let v := votedCopies s.plan.digestCopies []
    ({ s with plan := { s.plan with digestCopies := v.1 } } : State).tripleEvent 0x1F identPlan v.2.1

/-- Read a key slot's attribute word through the vote of its shadow copies. -/
def State.repairSlot (s : State) (n : Nat) : State :=
  let l := (s.lantus.keys.getD n {}).attrs
  if agree l 0 then s
  else
    let v := votedCopies l 0
    (s.modLantus (fun x => { x with keys := updAt x.keys n (fun k => { k with attrs := v.1 }) })).tripleEvent 0x1F n v.2.1

/-- The words that a command of Lantus for a partition has read are repaired: digests and key slots. -/
def State.repairWords (s : State) (p : Nat) : State :=
  ((if p < 24 then s.repairImage p else s).repairPlan).each (List.range 64) State.repairSlot

/-- The votes that the check of a request reads: the roots, and the owner of the well it addresses. -/
def State.votesFor (s : State) (addr : Nat) : State :=
  match placeOf addr with
  | .register x =>
    match regTarget x with
    | some (_, some w) => s.repairRoots.repairOwner w
    | some (_, none) => s.repairRoots
    | none => s
  | .cistern w _ | .lpddr w _ => s.repairRoots.repairOwner w
  | .unmapped => s

/-- Check a request of `len` bytes at an address and record a refusal: the status when refused. -/
def State.check (s : State) (m : Master) (addr len need : Nat) : Option Status × State :=
  let s1 := s.votesFor addr
  match s1.refusesRange m need (bucketsOf addr len) addr with
  | some (r, a) => (some r.status, s1.recordRefusal m a r)
  | none => (none, s1)

/-- Discard a register or doorbell write (R382): count, record, and the first of a second raises event 0x0909. Lantus is not counted. -/
def State.discard (s : State) (who bar off reason : Nat) : State :=
  if who < 25 then
    let s1 := (s.count (hqBase who + 4)).setRecord (hqBase who + 8) (2 ^ 31 + 2 ^ 28 * reason + (if bar = 2 then 2 ^ 27 else 0) + off % 2 ^ 26)
    if (s1.fn who).lastDiscard = some s.second then s1
    else (s1.modFn who (fun f => { f with lastDiscard := some s.second })).raise 0x0909 (tagOfFn who) (masterOfFn who)
      [(8, who), (8, bar), (32, off), (8, reason)]
  else s

end Sys2Proof.Machine
end

