-- ==== Sys2Proof/Machine/Queues.lean ====
section
/-! DEFINITION. Queue pairs, command entries, completions and the host link (10_host_interface.md: R354 to R377). -/

namespace Sys2Proof.Machine

open Sys2Proof

/-- The host commands' opcodes (R372). -/
def cmdOpcodes : List Nat :=
  [0x00, 0x01, 0x02, 0x03, 0x04, 0x05, 0x06, 0x08, 0x10, 0x11, 0x18, 0x19] ++
  [0x1A, 0x1B, 0x1C, 0x20, 0x21, 0x28, 0x29, 0x2A, 0x30, 0x38, 0x39]

/-- Commands that only the PF may issue (R372). -/
def pfOnly (op : Nat) : Bool := op == 0x21 || op == 0x28 || op == 0x29 || op == 0x2A || op == 0x30

/-- Commands that name a structure at addr (R371, R372): descriptor, QP context, region record. -/
def namesStructure (op : Nat) : Bool := op == 0x01 || op == 0x18 || op == 0x1A

/-- Bytes of host memory a command reads: its structure of 64 bytes, or its length (R372). -/
def readLength (c : Cmd) : Nat :=
  if namesStructure c.opcode then 64
  else if c.opcode = 0x10 ∨ c.opcode = 0x04 ∨ c.opcode = 0x20 ∨ c.opcode = 0x21 then c.length else 0

/-- Commands that act on a partition (R372). -/
def actsOnPartition (op : Nat) : Bool :=
  !(op == 0x00 || pfOnly op || op == 0x10 || op == 0x11 || op == 0x38 || op == 0x39)

/-- Does a command in progress carry a reference? -/
def Cmd.is (c : Cmd) (r : CmdRef) : Bool := c.fn == r.fn && c.q == r.q && c.id == r.id

/-- The reference of a command. -/
def Cmd.ref (c : Cmd) : CmdRef := ⟨c.fn, c.q, c.id⟩

/-- Does the Lantus processor carry out commands and requests now (R389)? -/
def State.serves (s : State) : Bool := s.life == .running && s.alive && (s.lantus.state == .running || s.lantus.state == .updating)

/-- Commands in progress of one queue, in fetch order. -/
def State.queueCmds (s : State) (f q : Nat) : List Cmd := s.cmds.filter (fun c => c.fn == f && c.q == q && !c.orphan)

/-- A command that may start now: in progress with this opcode, not started, every earlier command of its queue started, and
with the fence flag every earlier one completed (R367). -/
def State.ready (s : State) (r : CmdRef) (op : Nat) : Option Cmd :=
  if !s.serves then none
  else match s.cmds.find? (fun c => c.is r) with
  | none => none
  | some c =>
    let earlier := (s.cmds.takeWhile (fun d => !d.is r)).filter (fun d => d.fn == c.fn && d.q == c.q && !d.orphan)
    if c.opcode = op ∧ !c.started ∧ earlier.all (fun d => d.started) ∧ (!c.fence ∨ earlier.isEmpty) then some c else none

/-- Change a command in progress. -/
def State.modCmd (s : State) (r : CmdRef) (f : Cmd → Cmd) : State :=
  { s with cmds := s.cmds.map (fun c => if c.is r then f c else c) }

/-- Note that a command has started and goes on. -/
def State.startCmd (s : State) (r : CmdRef) : State := s.modCmd r (fun c => { c with started := true, startTime := s.devtime })

/-- Base addresses and sizes of a queue (R365). -/
def State.sqBase (s : State) (f q : Nat) : Nat := s.reg64 (hqqBase f q)
def State.cqBase (s : State) (f q : Nat) : Nat := s.reg64 (hqqBase f q + 8)
def State.sqSize (s : State) (f q : Nat) : Nat := 2 ^ s.regBits (hqqBase f q + 0x10) 4 0
def State.cqSize (s : State) (f q : Nat) : Nat := 2 ^ s.regBits (hqqBase f q + 0x10) 12 8

/-- Write host memory; nothing leaves while the link is down, over an Insecure stream, or for a TDI in ERROR (R355, R380, R381). -/
def State.hostWrite (s : State) (f addr : Nat) (bs : Bytes) : State :=
  if !s.host.up || s.streamBad f || (s.fn f).tdi == .error then s else s.emit (.hostWrite f addr bs)

/-- The 32 bytes of a completion entry (R370). -/
def completionEntry (c : Cmd) (st : Status) (phase : Bool) (sqHead result time detail : Nat) : Bytes :=
  sealCrc (toLE c.id 2 ++ toLE st.code 1 ++ toLE (b2n phase) 1 ++ toLE sqHead 2 ++ toLE c.q 2 ++ toLE result 8 ++
    toLE time 8 ++ toLE detail 4 ++ zeros 4)

/-- Complete a command: write its entry into the CQ and send the vector; nothing is written for a queue that is DISABLED (R355, R367, R370). -/
def State.complete (s : State) (c : Cmd) (st : Status) (result detail : Nat) : State :=
  let s1 := { s with cmds := s.cmds.filter (fun d => !d.is c.ref) }
  let q := s.queue c.fn c.q
  if c.orphan || !s.host.up || q.state == .disabled then s1
  else
    let s2 := s1.hostWrite c.fn (s.cqBase c.fn c.q + q.cqTail * 32)
      (completionEntry c st q.phase q.sqHead result s.devtime detail)
    let t := (q.cqTail + 1) % s.cqSize c.fn c.q
    (s2.modQueue c.fn c.q (fun x => { x with cqTail := t, phase := if t = 0 then !x.phase else x.phase })).msix c.fn
      (s.regBits (hqqBase c.fn c.q + 0x10) 24 16)

/-- Put a queue in ERROR with a status, and log event 0x0904 (R366, R368). -/
def State.queueError (s : State) (f q : Nat) (st : Status) : State :=
  (s.modQueue f q (fun x => { x with state := .error, errStatus := st })).raise 0x0904 (tagOfFn f) (masterOfFn f)
    [(8, f), (8, q), (8, st.code)]

/-- CQ entries written and not yet consumed. -/
def State.cqUsed (s : State) (f q : Nat) : Nat :=
  ((s.queue f q).cqTail + s.cqSize f q - (s.queue f q).cqHead) % s.cqSize f q

/-- May a queue fetch now: ACTIVE, its interface not in ERROR (R381), an entry before the tail, a CQ entry to reserve, and fewer than the limit in progress (R366, R367)? -/
def State.mayFetch (s : State) (f q : Nat) : Bool :=
  let x := s.queue f q
  let n := (s.queueCmds f q).length
  s.host.up && s.life == .running && s.alive && x.state == .active && (s.fn f).tdi != .error && x.sqHead != x.sqTail && decide (s.cqUsed f q + n < s.cqSize f q - 1) &&
    decide (n < min (min (s.sqSize f q - 1) (s.cqSize f q - 1)) 256)

/-- The command of a 64-byte entry (R369). A VF acts on its own partition. -/
def cmdOfEntry (f q now : Nat) (e : Bytes) : Cmd :=
  { fn := f, q := q, id := rd e 2 2, opcode := rd e 0 1, fence := bit (rd e 1 1) 0,
    part := if f = 0 then rd e 4 4 % 32 else f - 1,
    addr := rd e 8 8, length := rd e 0x10 4, p0 := rd e 0x14 4, p1 := rd e 0x18 8, p2 := rd e 0x20 8, p3 := rd e 0x28 8,
    data := [], readFailed := false, fetched := now, started := false, orphan := false, startTime := 0 }

/-- Validation of R371, tests 1 to 3. -/
def cmdRefusal (c : Cmd) (e : Bytes) : Option Status :=
  if e.length ≠ 64 ∨ !crcEndsOk e ∨ !cmdOpcodes.contains c.opcode then some .format
  else if c.fn ≠ 0 ∧ pfOnly c.opcode then some .refusedAccess
  else if namesStructure c.opcode ∧ c.addr % 64 ≠ 0 then some .format
  else none

/-- Fetch the command at the head of a queue (R366, R367, R371): the entry read from the SQ, none when the read failed (R354). -/
def State.fetchCommand (s : State) (fn q : Nat) (entry : Option Bytes) : State :=
  match entry with
  | none => s.queueError fn q .uncorrectable
  | some e =>
    let s1 := s.modQueue fn q (fun x => { x with sqHead := (x.sqHead + 1) % s.sqSize fn q })
    let c := cmdOfEntry fn q s.devtime e
    let s2 := { s1 with cmds := s1.cmds ++ [c], host := { s1.host with lastTlp := s.devtime } }
    match cmdRefusal c e with
    | some st => s2.complete c st 0 0
    | none => s2

/-- QUEUE_DRAINED (R368): a DRAINING queue with no command in progress becomes DISABLED. -/
def execQueueDrained (fn q : Nat) (s : State) : Result :=
  if (s.queue fn q).state = .draining ∧ (s.queueCmds fn q).isEmpty then
    .next (s.modQueue fn q (fun x => { x with state := .disabled }))
  else .next s

/-- What a failed host read does to its command (R354, R371, R373): a structure's read completes with UNCORRECTABLE; other commands meet it when they run. -/
def State.readFails (s : State) (c : Cmd) : State :=
  if namesStructure c.opcode then s.complete c .uncorrectable 0 0
  else s.modCmd c.ref (fun x => { x with readFailed := true })

/-- NOP (R372): does nothing and completes at once. -/
def execNop (c : CmdRef) (s : State) : Result :=
  match s.ready c 0x00 with
  | none => .next s
  | some d => .next (s.complete d .ok 0 0)

/-- Mark every command in progress of a function as one whose completion is not written. -/
def State.orphanCmds (s : State) (f : Nat) : State :=
  { s with cmds := s.cmds.map (fun c => if c.fn = f then { c with orphan := true } else c) }

/-- Disable every queue of a function (R355, R362, R363). -/
def State.disableQueues (s : State) (f : Nat) : State :=
  (s.orphanCmds f).modFn f (fun x => { x with queues := x.queues.map (fun q => { q with state := .disabled }) })

/-- Commands that still need host reads fail: what has arrived stands up to a 512-byte boundary (R355, R383). -/
def State.cutReads (s : State) (f : Nat) : State :=
  { s with cmds := s.cmds.map (fun c =>
      if c.fn = f ∧ c.data.length < readLength c then
        { c with readFailed := true, data := c.data.take (512 * (c.data.length / 512)) } else c) }

/-- Configuration space of a function at its reset state (R355, R362). -/
def State.resetConfig (s : State) (f : Nat) : State :=
  s.modFn f (fun x => { x with msixEnable := false, msix := [], pba := [], busMaster := false, bars := (0, 0) })

/-- Move a locked or running TDI to ERROR: its VF's queues are disabled, its DMA stops, and event 0x0907 (R381). A partition reset (cause 3) ends the
VF's commands itself but for an accepted IMAGE_LOAD, which carries on (R363). -/
def State.tdiError (s : State) (f cause : Nat) : State :=
  if (s.fn f).tdi = .locked ∨ (s.fn f).tdi = .run then
    (((if cause = 3 then s else s.cutReads f).modFn f (fun x => { x with tdi := .error })).disableQueues f).raise 0x0907 (tagOfFn f) (masterOfFn f) [(8, f), (8, cause)]
  else s

/-- An entry of a function's MSI-X table. -/
def State.msixEntry (s : State) (fn vec : Nat) : MsixEntry := (look vec (s.fn fn).msix).getD {}

/-- Write an entry of an MSI-X table (R377): a vector whose PBA bit is set sends one message when it is unmasked. A change is answered by R381. -/
def State.setMsix (s : State) (fn vec : Nat) (e : MsixEntry) : State :=
  let s0 := s.modFn fn (fun f => { f with msix := put vec e f.msix })
  let s1 := if e ≠ s.msixEntry fn vec then s0.tdiError fn 0 else s0
  if !e.masked ∧ vec ∈ (s.fn fn).pba then (s1.modFn fn (fun f => { f with pba := f.pba.filter (fun v => v ≠ vec) })).msix fn vec else s1

/-- MSIX_UNMASK (R377). -/
def execMsixUnmask (fn vec : Nat) (s : State) : Result := .next (s.setMsix fn vec { s.msixEntry fn vec with masked := false })

/-- GT/s of HIF_LINK.rate, times 2 (R385). -/
def rateGT2 (r : Nat) : Nat := [0, 5, 10, 16, 32, 64, 128, 256].getD r 0

/-- HIF_SHARE_SCALE.permille: floor(W * G * 1,000 / 1,024) (R364, R385). -/
def State.shareScale (s : State) : Nat := 1000 * (s.host.width * rateGT2 s.host.rate) / 2048

/-- The effective host share of a partition in MB/s (R364). -/
def State.effectiveShare (s : State) (p : Nat) : Nat :=
  match s.record p with
  | some r => r.hostShare * s.host.width * rateGT2 s.host.rate / 2048
  | none => 0

/-- LINK_UP (R352, R384, R385): trained to a supported width and rate; event 0x0901, and 0x0903 below x8 or 128 GT/s. -/
def execLinkUp (width rate : Nat) (flit : Bool) (s : State) : Result :=
  let legal := (width == 1 || width == 2 || width == 4 || width == 8) && decide (1 ≤ rate) && decide (rate ≤ 7) && flit == decide (6 ≤ rate)
  if !s.alive || !legal then .next s
  else
    let s1 := { s with host := { s.host with up := true, width := width, rate := rate, flit := flit, lastTlp := s.devtime } }
    let s2 := s1.raise 0x0901 0x1F 0 [(8, width), (8, rate), (8, b2n flit)]
    .next (if width < 8 ∨ rate < 7 then s2.raise 0x0903 0x1F 0 [(8, width), (8, rate)] else s2)

/-- L1_IDLE_ENTRY (R356): with ASPM L1 enabled, 32 us without a TLP and no command in progress. -/
def execL1IdleEntry (s : State) : Result :=
  if s.host.up && s.host.aspmL1 && s.cmds.isEmpty && decide (s.host.lastTlp + ticksOfUs 32 ≤ s.devtime) then
    .next { s with host := { s.host with inL1 := true } }
  else .next s

/-- The request that a function's DOE mailbox is working on is gone with it (log entry 13). -/
def State.dropDoe (s : State) (f : Nat) : State :=
  let wipe := fun (x : Session) => { x with
    pendingStart := x.pendingStart.filter (fun e => e.1 != f), inner := x.inner.filter (fun e => e.2.1 != f) : Session }
  { s with opSession := wipe s.opSession, parts := s.parts.map (fun x => { x with session := wipe x.session }) }

/-- A function level reset of one VF, or of the PF's own parts (R362). -/
def State.resetFn (s : State) (f : Nat) : State :=
  let s1 := ((((s.tdiError f 1).cutReads f).disableQueues f).resetConfig f).dropDoe f
  (s1.modFn f (fun x => { x with tdi := .unlocked, doeError := false })).raise 0x0905 (tagOfFn f) (masterOfFn f) [(8, f)]

/-- The function a stream is bound to: stream 0 is the link stream, stream k the selective stream of VF k (R380). -/
def ideFn (stream : Nat) : Nat := stream

/-- IDE_INTEGRITY_FAIL (R380, R381): the stream goes Insecure, event 0x0906, and the bound TDI to ERROR. -/
def execIdeIntegrityFail (stream : Nat) (s : State) : Result :=
  match s.host.ide[stream]? with
  | none => .next s
  | some i =>
    if i.keySet.isNone || i.insecure then .next s
    else
      let s1 := { s with host := { s.host with ide := updAt s.host.ide stream (fun x => { x with insecure := true, keySet := none, keys := [] }) } }
      let s2 := s1.raise 0x0906 (tagOfFn (ideFn stream)) (masterOfFn (ideFn stream)) [(8, stream)]
      .next (if stream = 0 then s2 else s2.tdiError (ideFn stream) 2)

/-- TDI_CONFIG_CHANGE (R357, R377, R381): the change is made; in CONFIG_LOCKED or RUN a change of BARs, MSI-X table or
Bus Master Enable moves the TDI to ERROR. -/
def execTdiConfigChange (fn : Nat) (ch : ConfigChange) (s : State) : Result :=
  if !s.host.up then .next s
  else match ch with
  | .bars b0 b2 => .next ((s.modFn fn (fun f => { f with bars := (b0, b2), barChange := some s.devtime })).tdiError fn 0)
  | .msixEntry v a d m => .next (s.setMsix fn v ⟨a, d, m⟩)
  | .msixEnable on => .next ((s.modFn fn (fun f => { f with msixEnable := on })).tdiError fn 0)
  | .busMaster on => .next ((s.modFn fn (fun f => { f with busMaster := on })).tdiError fn 0)
  | .numVfs n => .next (if fn = 0 then { s with host := { s.host with numVfs := min n 24 } } else s)
  | .aspmL1 on => .next { s with host := { s.host with aspmL1 := on } }
  | .completionTimeout t => .next { s with host := { s.host with completionTimeout := t } }

end Sys2Proof.Machine
end

