-- ==== Sys2Proof/Machine/Packets.lean ====
section
/-! DEFINITION. Building and sending Strelul packets, event records and acknowledgement records (09_strelul.md R301, R302, R324 to R332, R338, R347). -/

namespace Sys2Proof.Machine

open Sys2Proof

/-- One's-complement sum of a byte string's 16-bit big-endian words, with a carry folded in at each step. -/
def onesSum (bs : Bytes) : Nat :=
  (chunks 2 bs).foldl (fun a w => let t := a + beNat (fit w 2); if t ≥ 65536 then t - 65535 else t) 0

/-- UDP checksum over the IPv6 pseudo-header; a zero sum is sent as all ones. -/
def udpChecksum (src dst datagram : Bytes) : Nat :=
  let c := 65535 - onesSum (src ++ dst ++ toBE datagram.length 4 ++ bytesOf [0, 0, 0, 17] ++ datagram)
  if c = 0 then 65535 else c

/-- The endpoint record of a QP. -/
def State.endpointOf (s : State) (q : Qp) : Option Endpoint := (s.part q.part).image.endpoints.find? (fun e => e.index == q.endpoint)

/-- The 802.1Q priority of a partition's traffic (R276). -/
def State.prioOf (s : State) (p : Nat) : Nat := match s.record p with | some r => r.priority | none => 0

/-- The port of a path (R338): bit 3 names it when both ports are in use. -/
def portOfPath (ports path : Nat) : Nat := if ports = 3 then path / 8 % 2 else if ports = 2 then 1 else 0

/-- The MAC address of a port, in transmission order (R349). -/
def State.macOf (s : State) (port : Nat) : Bytes :=
  toBE (s.reg (stlBase + 0x14 + 8 * port)) 2 ++ toBE (s.reg (stlBase + 0x10 + 8 * port)) 4

/-- Is a priority of a port paused by received PFC (R344)? -/
def State.txPaused (s : State) (port prio : Nat) : Bool := decide (s.devtime < (s.port port).paused.getD prio 0)

/-- Send a frame on a port: it waits while its priority is paused, and is lost while the port is down (R338, R344). -/
def State.sendFrame (s : State) (port prio : Nat) (frame : Bytes) : State :=
  if !(s.port port).up then s
  else if s.txPaused port prio || (s.port port).txq.any (fun e => e.1 == prio) then s.modPort port (fun x => { x with txq := x.txq ++ [(prio, frame)] })
  else s.emit (.frame port frame)

/-- An IPv6 UDP frame with its MAC header, tag and FCS (R301, R302). -/
def State.frameOf (s : State) (port prio vlan dscp : Nat) (nextHop src dst udpPayload : Bytes) (srcPort : Nat) : Bytes :=
  let udp0 := toBE srcPort 2 ++ toBE (s.reg (stlBase + 4)) 2 ++ toBE (8 + udpPayload.length) 2 ++ toBE 0 2 ++ udpPayload
  let udp := patch udp0 6 (toBE (udpChecksum src dst udp0) 2)
  let tc := dscp * 4 + 2
  let ip := toBE (6 * 2 ^ 28 + 2 ^ 20 * tc) 4 ++ toBE udp.length 2 ++ bytesOf [17, 64] ++ src ++ dst
  let body := nextHop ++ s.macOf port ++ toBE 0x8100 2 ++ toBE (2 ^ 13 * prio + vlan) 2 ++ toBE 0x86DD 2 ++ ip ++ udp
  body ++ toLE (crcEthernet body) 4

/-- The base header of R325. -/
def baseHeader (op : Nat) (first last ackReq : Bool) (path cls attempt dstQpn psn srcQpn len time : Nat) : Bytes :=
  toLE op 1 ++ toLE (1 + 16 * b2n first + 32 * b2n last + 64 * b2n ackReq) 1 ++ toLE (path % 16 + 16 * cls) 1 ++ toLE attempt 1 ++
    toLE dstQpn 4 ++ toLE psn 8 ++ toLE srcQpn 4 ++ toLE len 4 ++ toLE time 8

/-- The initialisation vector of R332. -/
def packetIv (psn attempt cls : Nat) : Bytes := toLE (psn % 2 ^ 48 + 2 ^ 48 * (attempt % 256) + 2 ^ 56 * cls) 12

/-- Send one packet of a QP on a path (R302, R325, R332). -/
def State.sendPacket (s : State) (n op : Nat) (first last ackReq : Bool) (path cls attempt psn : Nat) (ext payload : Bytes) : State :=
  let q := s.qp n
  match s.endpointOf q with
  | none => s
  | some e =>
    let h := baseHeader op first last ackReq path cls attempt q.remoteQpn psn n payload.length s.devtime
    let r := gcmSeal q.txKey (packetIv psn attempt cls) (h ++ ext) payload
    let port := portOfPath q.ports path
    let f := s.frameOf port (s.prioOf q.part) e.vlan e.dscp q.nextHop e.address q.remoteAddr (h ++ ext ++ r.1 ++ r.2)
      (0xC000 ||| ((n % 1024) <<< 4) ||| (path % 16))
    s.sendFrame port (s.prioOf q.part) f

/-- Take the next PSN of a class of a QP. -/
def State.nextPsn (s : State) (n cls : Nat) : Nat × State :=
  let p := (s.qp n).txPsn.getD cls 0
  (p, s.modQp n (fun q => { q with txPsn := updAt q.txPsn cls (fun _ => p + 1) }))

/-- Send a control packet (class 2) on a path of a QP, while its control sequence lasts (R326, R332). -/
def State.controlOut (s : State) (n op path : Nat) (ext payload : Bytes) : State :=
  if 2 ^ 48 - 1 ≤ (s.qp n).txPsn.getD 2 0 then s
  else
    let r := s.nextPsn n 2
    r.2.sendPacket n op true true false path 2 0 r.1 ext payload

/-- The next healthy path after the last one used, round-robin (R338); path 0 when none is healthy. -/
def Qp.pickPath (q : Qp) : Nat :=
  match ((List.range q.pathCount).map (fun i => (q.nextPath + i) % q.pathCount)).find? (fun j => (q.paths.getD j {}).healthy) with
  | some j => j
  | none => q.nextPath % (max q.pathCount 1)

/-- The retransmission timer of a QP in ticks: max(8 us, srtt + 4 rttvar) (R336). -/
def Qp.timerTicks (q : Qp) : Nat := if q.rttValid then max 3200 (q.srtt + 4 * q.rttvar) else 3200

/-- Send a new packet of class 0 or 1 and hold it until it is answered (R336, R338). -/
def State.sendNew (s : State) (n op cls psn : Nat) (first last ackReq : Bool) (ext payload : Bytes) : State :=
  let q := s.qp n
  let path := q.pickPath
  let pkt : SentPkt := ⟨psn, cls, 0, 0, 0, none, s.devtime, q.timerTicks, path, op, first, last, ext, payload⟩
  (s.modQp n (fun x => { x with sent := x.sent ++ [pkt], nextPath := (path + 1) % (max x.pathCount 1) })).sendPacket n op first last
    ackReq path cls 0 psn ext payload

/-- An event record (R331). -/
def eventRecord (kind : Nat) (st : Status) (part object time a b : Nat) : Bytes :=
  sealCrc (bytesOf [0x41] ++ toLE kind 1 ++ toLE st.code 1 ++ toLE part 1 ++ toLE object 4 ++ toLE time 8 ++ toLE a 4 ++ toLE b 4 ++ zeros 8)

/-- Write a record at the producer of a partition's event ring, raising its vector (R347, R376). -/
def State.ringWrite (s : State) (p : Nat) (rec : Bytes) : State :=
  let n := 2 ^ s.reg (stlpBase p + 0x10)
  let prod := s.reg (stlpBase p + 0x14)
  ((s.hostWrite (p + 1) (s.reg64 (stlpBase p + 8) + prod * 32) rec).setReg (stlpBase p + 0x14) ((prod + 1) % n)).msix (p + 1) 1

/-- Is the event ring full: one more record would bring the producer to the consumer? -/
def State.ringFull (s : State) (p : Nat) : Bool :=
  (s.reg (stlpBase p + 0x14) + 1) % 2 ^ s.reg (stlpBase p + 0x10) == s.reg (stlpBase p + 0x18) % 2 ^ s.reg (stlpBase p + 0x10)

/-- Write an event record to a partition's ring, or count it lost when the ring is full (R347). A disabled ring and a host
whose link is down receive nothing. -/
def State.eventRecord (s : State) (p kind : Nat) (st : Status) (object a b : Nat) : State :=
  if s.reg (stlpBase p + 0x10) = 0 ∨ !s.host.up then s
  else if s.ringFull p then
    ((((s.count (stlpBase p + 0x38)).setBits (stlpBase p + 0x1C) 0 0 1).modPart p (fun x => { x with evqLost := x.evqLost + 1 }))).raise
      0x0809 p 0 [(8, p)]
  else s.ringWrite p (Machine.eventRecord kind st p object s.devtime a b)

/-- Note lost outgoing records for a QP number of a partition: counted, the first of each QP in each second raises 0x080A (R517). -/
def State.recordLost (s : State) (p n k : Nat) : State :=
  if k = 0 then s
  else
    let r := (s.countBy (stlpBase p + 0x34) k).firstIn p 0x080A n s.second
    if r.1 then r.2.raise 0x080A p (0x3000 + p) [(8, p), (24, n), (32, k)] else r.2

/-- Bytes of an upload's round that a QP can no longer deliver are abandoned (R59): slot freed, MSN marked refused, event 0x0107. -/
def State.abandonUpload (s : State) (p : Nat) (u : Upload) : State :=
  let s1 := s.modPart p (fun x => { x with
    round := { x.round with uploads := x.round.uploads.filter (fun v => v.client ≠ u.client) },
    slotsFree := insertNat u.slot x.slotsFree })
  let s2 := if u.live then s1.modQp u.qpn (fun q => { q with
      msgs := q.msgs.map (fun m => if m.msn = u.msn then { m with buf := .refused .aborted } else m) }) else s1
  s2.raise 0x0107 p 0 [(24, u.client), (32, u.seq)]

/-- A QP enters ERROR (R307): QP_ERROR to host and peer, posted buffers complete FLUSHED, queued records are lost, and uploads
whose packets can no longer arrive are abandoned. `kind` is 0x01 QP_ERROR or 0x0A REMOTE_CLOSE. -/
def State.qpError (s : State) (n : Nat) (st : Status) (kind : Nat) : State :=
  let q := s.qp n
  if q.state ≠ .active then s
  else
    let p := q.part
    let s1 := s.eventRecord p kind st n 0 0
    let s2 := s1.controlOut n 0x13 (q.nextPath % (max q.pathCount 1)) [] (Machine.eventRecord kind st p n s.devtime 0 0)
    let s3 := s2.each q.posted (fun t b =>
      let msn := (q.firstMsn + b.1) % 2 ^ 32
      t.eventRecord p 0x03 .flushed n msn (match q.msgs.find? (fun m => m.msn == msn) with | some m => m.bytes | none => 0))
    let s4 := s3.recordLost p n q.records.length
    let s5 := s4.modQp n (fun x => { x with state := .error, lastStatus := st, posted := [], records := [], sent := [], reads := [] })
    let s6 := s5.each ((s5.round p).uploads.filter (fun u => u.qpn == n && u.lastCommit.isNone)) (fun t u => t.abandonUpload p u)
    s6.raise 0x0804 p (0x3000 + p) [(8, p), (24, n), (8, st.code)]

/-- Send a control packet on the path and port it answers; the QP ends with STATE once its control sequence reaches 2^48 - 1 (R326, R332, R338). -/
def State.sendControl (s : State) (n op path : Nat) (ext payload : Bytes) : State :=
  let t := s.controlOut n op path ext payload
  if 2 ^ 48 - 1 ≤ (t.qp n).txPsn.getD 2 0 then t.qpError n .state 0x01 else t

/-- Queue an acknowledgement or event record on a QP (R324, R517): lost unless the QP is ACTIVE and of the partition; a full queue ends the QP. -/
def State.queueRecord (s : State) (p n : Nat) (rec : Bytes) : State :=
  let q := s.qp n
  if q.state ≠ .active ∨ q.part ≠ p then s.recordLost p n 1
  else if 1024 ≤ q.records.length then (s.recordLost p n 1).qpError n .notReady 0x01
  else s.modQp n (fun x => { x with records := x.records ++ [rec] })

/-- Queue a record for the queue pair that carried an upload: lost once that has been freed (R68, R70, R517). -/
def State.recordFor (s : State) (p n : Nat) (live : Bool) (rec : Bytes) : State :=
  if live then s.queueRecord p n rec else s.recordLost p n 1

/-- A queue pair is freed: a later one of its number carries nothing of its uploads (R68, R70). -/
def State.forgetQp (s : State) (p n : Nat) : State :=
  s.modRound p (fun r => { r with
    uploads := r.uploads.map (fun u => if u.qpn = n then { u with live := false } else u),
    accums := r.accums.map (fun a => if a.qpn = n then { a with live := false } else a),
    admittedQps := r.admittedQps.filter (fun q => q ≠ n) })

/-- An acknowledgement record (R66). -/
def ackRecord (kind : Nat) (st : Status) (p reason epoch client roundId time seq : Nat) : Bytes :=
  sealCrc (toLE kind 1 ++ toLE st.code 1 ++ toLE p 1 ++ toLE (reason + 16 * epoch) 1 ++ toLE client 4 ++ toLE roundId 8 ++ toLE time 8 ++
    toLE seq 4 ++ zeros 4)

/-- RECORD_SEND (R324): the oldest queued record of a QP leaves as a one-packet send message in class 0. -/
def execRecordSend (qpn : Nat) (s : State) : Result :=
  let q := s.qp qpn
  match q.records with
  | [] => .next s
  | rec :: rest =>
    if !s.alive ∨ q.state ≠ .active ∨ 8192 ≤ (q.sent.filter (fun k => k.cls == 0)).length then .next s
    else if 2 ^ 48 - 1 ≤ q.txPsn.getD 0 0 then .next (s.qpError qpn .state 0x01)
    else
      let r := (s.modQp qpn (fun x => { x with records := rest, sends := x.sends ++ [x.nextMsn], nextMsn := (x.nextMsn + 1) % 2 ^ 32 })).nextPsn qpn 0
      .next (r.2.sendNew qpn 0x01 0 r.1 true true true (toLE q.nextMsn 4 ++ toLE 0 4 ++ toLE rec.length 4 ++ toLE 0 4) rec)

end Sys2Proof.Machine
end

