-- ==== Sys2Proof/Machine/Float.lean ====
section
/-! DEFINITION. Floating-point numbers of the lanes and pumps: binary32, bfloat16 and the two FP8 formats (06_tiles_windlass.md R187, R190;
07_cisterns_pumps.md R242). Operands become exact numbers, the result is computed exactly and rounded once. -/

namespace Sys2Proof.Machine

open Sys2Proof

/-- An operand: a NaN, an infinity with its sign, or (-1)^s * m * 2^e exactly. -/
inductive FVal where
  | nan (signaling : Bool)
  | inf (s : Bool)
  | fin (s : Bool) (m : Nat) (e : Int)
  deriving DecidableEq, Repr

/-- A result with its flags, as TILE_FPFLAGS places them: bit 0 inexact, 1 underflow, 2 overflow, 3 invalid. Bits 4 and 5 mark an underflow and an
invalid flag that IEEE 754 leaves to the implementation (log entry 12). -/
structure FRes where
  val : Nat
  flags : Nat
  deriving DecidableEq, Repr

/-- The NaN a lane produces (R187). -/
def canonNan : Nat := 0x7FC00000

/-- A format with `eb` exponent bits and `mb` fraction bits and IEEE specials. -/
def decodeIeee (eb mb n : Nat) : FVal :=
  let s := bit n (eb + mb)
  let e := bits n (eb + mb - 1) mb
  let m := n % 2 ^ mb
  let bias : Int := (2 ^ (eb - 1) - 1 : Nat)
  if e = 2 ^ eb - 1 then if m = 0 then .inf s else .nan (!bit n (mb - 1))
  else if e = 0 then .fin s m (1 - bias - mb)
  else .fin s (m + 2 ^ mb) (e - bias - mb)

/-- binary32. -/
def decode32 (n : Nat) : FVal := decodeIeee 8 23 n

/-- bfloat16 as a dot-product input: a subnormal is zero of the same sign (R187). -/
def decodeBf16 (n : Nat) : FVal := if bits n 14 7 = 0 then .fin (bit n 15) 0 0 else decodeIeee 8 7 n

/-- FP8E4M3: no infinities, S.1111.111 is NaN (R187). -/
def decodeE4m3 (n : Nat) : FVal :=
  if n % 128 = 127 then .nan false
  else if bits n 6 3 = 0 then .fin (bit n 7) (n % 8) (-9)
  else .fin (bit n 7) (n % 8 + 8) (bits n 6 3 - 10)

/-- FP8E5M2, as binary16 (R187). -/
def decodeE5m2 (n : Nat) : FVal := decodeIeee 5 2 n

/-- m / 2^k rounded to nearest, ties to even, and whether it was exact. -/
def roundShift (m k : Nat) : Nat × Bool :=
  let q := m >>> k
  let r := m % 2 ^ k
  (if 2 * r > 2 ^ k ∨ (2 * r = 2 ^ k ∧ q % 2 = 1) then q + 1 else q, decide (r = 0))

/-- A magnitude m * 2^e rounded to a multiple of 2^l. -/
def roundTo (m : Nat) (e l : Int) : Nat × Bool :=
  if l ≤ e then (m <<< (e - l).toNat, true) else roundShift m (l - e).toNat

/-- Round (-1)^s * m * 2^e once to binary32, to nearest with ties to even (R187). -/
def round32 (s : Bool) (m : Nat) (e : Int) : FRes :=
  let sg := 2 ^ 31 * (b2n s)
  if m = 0 then ⟨sg, 0⟩
  else
    let top : Int := e + bitLen m - 1
    let sub := decide (top < -126)
    let r := roundTo m e (if sub then -149 else top - 23)
    let base : Nat := if sub then r.1 else (2 ^ 23 * ((top + 126).toNat)) + r.1
    if 2 ^ 23 * 255 ≤ base then ⟨sg + 0x7F800000, 5⟩
    else
      let inexact := !r.2
      let after := sub && !(decide (top = -127) && decide ((roundTo m e (top - 23)).1 = 2 ^ 24))
      ⟨sg + base, b2n inexact + 2 * b2n (inexact && after) + 16 * b2n (inexact && sub && !after)⟩

/-- Exact product. The flag is invalid: a signaling operand, or zero times infinity. -/
def mulExact : FVal → FVal → FVal × Bool
  | .nan a, .nan b => (.nan false, a || b)
  | .nan a, _ => (.nan false, a)
  | _, .nan b => (.nan false, b)
  | .inf s, .inf t => (.inf (s != t), false)
  | .inf s, .fin t m _ => if m = 0 then (.nan false, true) else (.inf (s != t), false)
  | .fin s m _, .inf t => if m = 0 then (.nan false, true) else (.inf (s != t), false)
  | .fin s m e, .fin t k f => (.fin (s != t) (m * k) (e + f), false)

/-- Exact signed number at a common exponent. -/
def alignInt (s : Bool) (m : Nat) (e l : Int) : Int :=
  let v : Int := (m <<< (e - l).toNat : Nat)
  if s then -v else v

/-- Round the exact sum of two finite numbers: an exact zero of unlike signs is +0. -/
def sumFin (s : Bool) (m : Nat) (e : Int) (t : Bool) (k : Nat) (f : Int) : FRes :=
  let l := min e f
  let v := alignInt s m e l + alignInt t k f l
  if v = 0 then ⟨2 ^ 31 * (b2n (s && t)), 0⟩ else round32 (decide (v < 0)) v.natAbs l

/-- An exact number plus another, rounded once; `inv` is an invalid flag already raised. -/
def addVals (a b : FVal) (inv : Bool) : FRes :=
  match a, b with
  | .nan p, .nan q => ⟨canonNan, 8 * b2n (inv || p || q)⟩
  | .nan p, _ => ⟨canonNan, 8 * b2n (inv || p)⟩
  | _, .nan q => ⟨canonNan, 8 * b2n (inv || q)⟩
  | .inf s, .inf t => if s = t then ⟨2 ^ 31 * (b2n s) + 0x7F800000, 8 * b2n inv⟩ else ⟨canonNan, 8⟩
  | .inf s, .fin _ _ _ => ⟨2 ^ 31 * (b2n s) + 0x7F800000, 8 * b2n inv⟩
  | .fin _ _ _, .inf t => ⟨2 ^ 31 * (b2n t) + 0x7F800000, 8 * b2n inv⟩
  | .fin s m e, .fin t k f => sumFin s m e t k f

/-- a * b + c rounded once (R187). Zero times infinity plus a quiet NaN raises invalid only as the implementation chooses. -/
def fmaVals (a b c : FVal) : FRes :=
  let p := mulExact a b
  let operandNan := match a, b with | .nan _, _ => true | _, .nan _ => true | _, _ => false
  match c with
  | .nan false => if p.2 && !operandNan then ⟨canonNan, 32⟩ else addVals p.1 c p.2
  | _ => addVals p.1 c p.2

/-- a * b + c of binary32 words. -/
def fma32 (a b c : Nat) : FRes := fmaVals (decode32 a) (decode32 b) (decode32 c)

/-- a + b of binary32 words. -/
def add32 (a b : Nat) : FRes := addVals (decode32 a) (decode32 b) false

/-- a * b of binary32 words, rounded. -/
def mul32 (a b : Nat) : FRes :=
  match mulExact (decode32 a) (decode32 b) with
  | (.nan _, inv) => ⟨canonNan, 8 * b2n inv⟩
  | (.inf s, _) => ⟨2 ^ 31 * (b2n s) + 0x7F800000, 0⟩
  | (.fin s m e, _) => round32 s m e

/-- An integer rounded to binary32 (R190). -/
def intTo32 (i : Int) : FRes := round32 (decide (i < 0)) i.natAbs 0

/-- An integer times 2^-f rounded to binary32 (R120). -/
def fixedTo32 (i : Int) (f : Nat) : FRes := round32 (decide (i < 0)) i.natAbs (-(f : Int))

/-- binary32 to bfloat16, to nearest with ties to even; a NaN becomes 0x7FC0 (R190). -/
def toBf16 (n : Nat) : FRes :=
  match decode32 n with
  | .nan g => ⟨0x7FC0, 8 * b2n g⟩
  | .inf s => ⟨2 ^ 15 * (b2n s) + 0x7F80, 0⟩
  | .fin s _ _ =>
    let r := roundShift (n % 2 ^ 31) 16
    let tiny := decide (n % 2 ^ 31 < 2 ^ 23)
    let after := tiny && decide (r.1 < 2 ^ 7)
    ⟨2 ^ 15 * (b2n s) + r.1, b2n (!r.2) + 4 * b2n (decide (0x7F80 ≤ r.1)) + 2 * b2n (!r.2 && after) + 16 * b2n (!r.2 && tiny && !after)⟩

/-- bfloat16 to binary32, exactly (R190). -/
def fromBf16 (n : Nat) : FRes :=
  match decodeIeee 8 7 n with
  | .nan g => ⟨canonNan, 8 * b2n g⟩
  | _ => ⟨2 ^ 16 * n, 0⟩

/-- round(x * 2^f) to nearest with ties to even, saturated to w-bit two's complement; a NaN becomes 0 (R190). -/
def toRing (w f n : Nat) : FRes :=
  let hi : Int := (2 ^ (w - 1) : Nat) - 1
  let lo : Int := -((2 ^ (w - 1) : Nat) : Int)
  match decode32 n with
  | .nan _ => ⟨0, 8⟩
  | .inf s => ⟨unsgn w (if s then lo else hi), 8⟩
  | .fin s m e =>
    let r := roundTo m (e + f) 0
    let v : Int := if s then -(r.1 : Int) else r.1
    if v < lo then ⟨unsgn w lo, 8⟩ else if hi < v then ⟨unsgn w hi, 8⟩ else ⟨unsgn w v, b2n (!r.2)⟩

/-- FEST of the special operands, whose results are fixed (R190). `fn` is 0 for 1/x and 1 for 1/sqrt(x). -/
def festSpecial (fn n : Nat) : Option FRes :=
  match decode32 n with
  | .nan g => some ⟨canonNan, 8 * b2n g⟩
  | .inf s => if s ∧ fn = 1 then some ⟨canonNan, 8⟩ else some ⟨2 ^ 31 * (b2n s), 0⟩
  | .fin s m _ =>
    if m = 0 then if s then none else some ⟨0x7F800000, 0⟩
    else if s ∧ fn = 1 then some ⟨canonNan, 8⟩ else none

/-- Is a word an estimate of 1/x (`fn` 0) or 1/sqrt(x) (`fn` 1) with relative error at most 2^-12 (R190)? -/
def festGood (fn x y : Nat) : Bool :=
  match decode32 x, decode32 y with
  | .fin s m e, .fin t k f =>
    let g := if fn = 0 then e + f else e + 2 * f
    let d := 2 ^ (-g).toNat
    let z := if fn = 0 then m * k else m * k * k
    decide (g ≤ 0) && s == t && (if fn = 0 then decide (4095 * d ≤ 4096 * z) && decide (4096 * z ≤ 4097 * d)
      else !s && decide (4095 * 4095 * d ≤ 4096 * 4096 * z) && decide (4096 * 4096 * z ≤ 4097 * 4097 * d))
  | _, _ => false

/-- 1/x (`fn` 0) or 1/sqrt(x) (`fn` 1) of a nonzero number to 36 bits or more, rounded to binary32. -/
def festRound (fn x : Nat) : Nat :=
  match decode32 x with
  | .fin s m e =>
    if fn = 0 then (round32 s (2 ^ 60 / m) (-60 - e)).val
    else
      let r := e % 2
      (round32 s (Nat.sqrt (2 ^ 100 / (m * 2 ^ r.toNat))) (-50 - (e - r) / 2)).val
  | _ => canonNan

/-- The order of two signed integers, for SMIN and SMAX (R242). -/
def sminWord (w a b : Nat) : Nat := if sgn w a ≤ sgn w b then a else b
def smaxWord (w a b : Nat) : Nat := if sgn w a ≤ sgn w b then b else a

end Sys2Proof.Machine
end

