-- ==== Sys2Proof/Machine/Poly.lean ====
section
/-! DEFINITION. The exact arithmetic of ciphertexts, table-lookup refresh and threshold combine as functions of words: Montgomery products, transforms,
base conversion, gadget decomposition, LWE key switching, blind rotation, repacking and decoding (04_ciphertext_engine.md R132, R133, R136, R138, R139,
R154; 05_table_refresh.md R163, R164, R168 to R170, R175). -/

namespace Sys2Proof.Machine

open Sys2Proof

/-! ## Words -/

/-- Words of `w` bits of a byte string. -/
def elems (w : Nat) (bs : Bytes) : List Nat := (chunks (w / 8) bs).map leNat

/-- The byte string of words of `w` bits. -/
def elemBytes (w : Nat) (l : List Nat) : Bytes := (l.map (fun x => toLE (x % 2 ^ w) (w / 8))).flatten

/-- Words from a free value, `n` of `w` bits. -/
def freeWords (w n r : Nat) : List Nat := (List.range n).map (fun j => (r >>> (w * j)) % 2 ^ w)

/-! ## Modular arithmetic (R132) -/

/-- -q^(-1) mod 2^32 for odd q, by five Newton steps. -/
def qinvNeg (q : Nat) : Nat :=
  let inv := (List.range 5).foldl (fun (x : Nat) _ => x * (2 ^ 33 + 2 - q * x % 2 ^ 32) % 2 ^ 32) q
  (2 ^ 32 - inv % 2 ^ 32) % 2 ^ 32

/-- redc of R132. -/
def redc (q acc : Nat) : Nat :=
  let m := (acc % 2 ^ 32 * qinvNeg q) % 2 ^ 32
  let t := (acc + m * q) / 2 ^ 32
  if q ≤ t then t - q else t

/-- redc where its result is defined: acc < q * 2^32. -/
def redcOpt (q acc : Nat) : Option Nat := if acc < 2 ^ 32 * q then some (redc q acc) else none

/-- a^e mod q by squaring; the fuel is the number of bits of e. -/
def powMod (q : Nat) : Nat → Nat → Nat → Nat
  | 0, _, _ => 1 % q
  | n + 1, a, e =>
    let h := powMod q n a (e / 2)
    if e % 2 = 1 then h * h % q * a % q else h * h % q

/-- Inverse modulo a prime below 2^32. -/
def invMod (q a : Nat) : Nat := powMod q 32 (a % q) (q - 2)

/-- An integer modulo q. -/
def resid (q : Nat) (z : Int) : Nat := (z % (q : Int)).toNat

/-! ## Transforms (R133, R139) -/

/-- Forward transform of a block at a node of the twiddle tree, whose children are nodes 2k and 2k + 1. -/
def nttFwdAux (q : Nat) (tw : Array Nat) : Nat → Nat → List Nat → List Nat
  | 0, _, a => a
  | d + 1, node, a =>
    let h := a.length / 2
    let v := (a.drop h).map (fun x => redc q (tw.getD node 0 * x))
    nttFwdAux q tw d (2 * node) (List.zipWith (fun (x y : Nat) => (x + y) % q) (a.take h) v) ++
      nttFwdAux q tw d (2 * node + 1) (List.zipWith (fun (x y : Nat) => (x + (q - y % q)) % q) (a.take h) v)

/-- Inverse transform: the butterflies of the forward one undone. -/
def nttInvAux (q : Nat) (tw : Array Nat) : Nat → Nat → List Nat → List Nat
  | 0, _, a => a
  | d + 1, node, a =>
    let h := a.length / 2
    let x := nttInvAux q tw d (2 * node) (a.take h)
    let y := nttInvAux q tw d (2 * node + 1) (a.drop h)
    let half := (q + 1) / 2
    let wi := powMod q 32 (redc q (tw.getD node 0)) (q - 2)
    List.zipWith (fun (u v : Nat) => (u + v) * half % q) x y ++ List.zipWith (fun (u v : Nat) => (u + (q - v % q)) * half % q * wi % q) x y

/-- The automorphism in coefficient form (R139): coefficient j moves to j g mod 2N and changes sign at N and above. -/
def autoCoef (q n g : Nat) (a : List Nat) : List Nat :=
  let put := fun (acc : Array Nat) (e : Nat × Nat) =>
    let k := e.2 * g % (2 * n)
    if k < n then acc.setIfInBounds k e.1 else acc.setIfInBounds (k - n) ((q - e.1 % q) % q)
  ((a.zip (List.range n)).foldl put (Array.replicate n 0)).toList

/-- The automorphism in evaluation form (R139): word k moves to k' with 2 brv(k') + 1 = g (2 brv(k) + 1) mod 2N. -/
def autoEval (logN g : Nat) (a : List Nat) : List Nat :=
  let n := 2 ^ logN
  let put := fun (acc : Array Nat) (e : Nat × Nat) => acc.setIfInBounds (bitRev logN ((g * (2 * bitRev logN e.2 + 1)) % (2 * n) / 2)) e.1
  ((a.zip (List.range n)).foldl put (Array.replicate n 0)).toList

/-- A prime-table entry as transforms use it: the prime, its root psi of order 2 N_max, and log N_max (R126, R127). -/
structure Modulus where
  q : Nat
  psi : Nat
  logMax : Nat
  deriving DecidableEq, Repr

/-- The twiddles of a ring of degree 2^logN, psi_N^brv(i) in Montgomery form (R127, R133). -/
def Modulus.twiddles (m : Modulus) (logN : Nat) : Array Nat :=
  let r := powMod m.q 32 m.psi (2 ^ (m.logMax - logN))
  ((List.range (2 ^ logN)).map (fun i => powMod m.q 32 r (bitRev logN i) * 2 ^ 32 % m.q)).toArray

/-- Evaluation form of a polynomial of 2^logN words. -/
def Modulus.eval (m : Modulus) (logN : Nat) (a : List Nat) : List Nat := nttFwdAux m.q (m.twiddles logN) logN 1 a

/-- Coefficient form of a polynomial of 2^logN words. -/
def Modulus.coef (m : Modulus) (logN : Nat) (a : List Nat) : List Nat := nttInvAux m.q (m.twiddles logN) logN 1 a

/-! ## Residues (R136, R138, R154) -/

/-- The product of the primes. -/
def prodOf (qs : List Nat) : Nat := qs.foldl (fun a q => a * q) 1

/-- The number below the product with these residues. -/
def joinResidues (qs rs : List Nat) : Nat :=
  let m := prodOf qs
  ((qs.zip rs).foldl (fun (a : Nat) e => a + e.2 * invMod e.1 (m / e.1) % e.1 * (m / e.1)) 0) % m

/-- The lift of R136 with the primes as source set: the integer that its overflow estimate yields. -/
def liftResidues (qs rs : List Nat) : Int :=
  let m := prodOf qs
  let ys := (qs.zip rs).map (fun e => (e.1, e.2 * invMod e.1 (m / e.1) % e.1))
  let s := ys.foldl (fun (a : Nat) e => a + e.2 * ((2 ^ 97 + e.1) / (2 * e.1))) 0
  let v := (s + 2 ^ 95) / 2 ^ 96
  (ys.foldl (fun (a : Nat) e => a + e.2 * (m / e.1)) 0 : Nat) - ((v * m : Nat) : Int)

/-- The centred representative modulo q. -/
def centred (q x : Nat) : Int := if x % q ≤ (q - 1) / 2 then ((x % q : Nat) : Int) else ((x % q : Nat) : Int) - q

/-- RESCALE of one coefficient (R138): divide by the last prime and round; the last residue leaves. -/
def rescaleWord (qs rs : List Nat) : List Nat :=
  let l := qs.length - 1
  let ql := qs.getD l 1
  let r := centred ql (rs.getD l 0)
  List.zipWith (fun (q c : Nat) => resid q ((c : Int) - r) * invMod q ql % q) (qs.take l) (rs.take l)

/-- One coefficient reduced to the first prime by successive RESCALEs (R163, R170); the fuel is the number of primes. -/
def rescaleToFirst : Nat → List Nat → List Nat → Nat
  | 0, _, rs => rs.headD 0
  | k + 1, qs, rs => if qs.length ≤ 1 then rs.headD 0 else rescaleToFirst k (qs.take (qs.length - 1)) (rescaleWord qs rs)

/-! ## Base conversion (R136, R196) -/

/-- y of one source limb (R136). -/
def bcvY (q qhatInv : Nat) (x : List Nat) : List Nat := x.map (fun v => redc q (v * qhatInv))

/-- The overflow estimates of R136 from the source limbs' y and their f. -/
def bcvEstimates (ys : List (List Nat × Nat)) (n : Nat) : List Nat :=
  let sums := ys.foldl (fun (acc : List Nat) e => List.zipWith (fun (c y : Nat) => c + y * e.2) acc e.1) (List.replicate n 0)
  sums.map (fun z => (z % 2 ^ 128 + 2 ^ 95) / 2 ^ 96)

/-- z of one destination limb (R136). -/
def bcvZ (p : Nat) (ys : List (List Nat)) (qhats : List Nat) (qj : Nat) (vs : List Nat) : List Nat :=
  let sums := (ys.zip qhats).foldl (fun (acc : List Nat) e => List.zipWith (fun (c y : Nat) => (c + redc p (y % p * e.2)) % p) acc e.1)
    (List.replicate vs.length 0)
  List.zipWith (fun (c v : Nat) => (c + (p - redc p (v * qj) % p)) % p) sums vs

/-! ## Gadgets and LWE ciphertexts (R163, R164) -/

/-- Signed digits from the lowest up; the list ends as digit 0 first. -/
def decomposeAux (b : Nat) : Nat → Nat → List Int → List Int
  | 0, _, ds => ds
  | r + 1, y, ds =>
    if b / 2 ≤ y % b then decomposeAux b r (y / b + 1) ((((y % b : Nat) : Int) - b) :: ds) else decomposeAux b r (y / b) (((y % b : Nat) : Int) :: ds)

/-- decompose(x, M, beta, d) of R164: digits 0 to d - 1, each from -B/2 to B/2 - 1. -/
def decompose (x m beta d : Nat) : List Int :=
  let b := 2 ^ beta
  decomposeAux b d ((x * b ^ d * 2 + m) / (2 * m)) []

/-- The LWE ciphertext of coefficient j of (c0, c1) modulo q (R163): the words of a, then b. -/
def extractWords (q j : Nat) (c0 c1 : List Nat) : List Nat :=
  let n := c1.length
  let a1 := c1.toArray
  (List.range n).map (fun k => if k ≤ j then a1.getD (j - k) 0 else (q - a1.getD (n + j - k) 0) % q) ++ [c0.getD j 0]

/-- Add a digit times a row of an LWE key in Montgomery form (R164). -/
def lweAdd (q : Nat) (acc : List Nat) (digit : Int) (row : List Nat) : List Nat :=
  List.zipWith (fun (c k : Nat) => (c + redc q (resid q digit * k)) % q) acc row

/-- One source coefficient of lwe_ks (R164): its digits times the d_ks rows of n + 1 words of its payload. -/
def lweKsStep (q ksLog dKs n : Nat) (acc : List Nat) (aj : Nat) (payload : List Nat) : List Nat :=
  ((decompose aj q ksLog dKs).zip (chunks (n + 1) payload)).foldl (fun c e => lweAdd q c e.1 e.2) acc

/-- lwe_ks of R164 over the coefficients whose payloads are given, from an accumulator of n + 1 words. -/
def lweKs (q ksLog dKs n : Nat) (acc : List Nat) (as : List Nat) (payloads : List (List Nat)) : List Nat :=
  (as.zip payloads).foldl (fun c e => lweKsStep q ksLog dKs n c e.1 e.2) acc

/-! ## Blind rotation (R168 to R170) -/

/-- The switch of a word to modulus 2 N_b (R168). -/
def modSwitch (nb q0 x : Nat) : Nat := (4 * nb * x + q0) / (2 * q0) % (2 * nb)

/-- a * X^(-k) modulo X^N + 1 and m, for k below 2N. -/
def rotateDown (m k : Nat) (a : List Nat) : List Nat :=
  let n := a.length
  let arr := a.toArray
  (List.range n).map (fun i => let j := (i + k) % (2 * n); if j < n then arr.getD j 0 else (m - arr.getD (j - n) 0 % m) % m)

/-- The digit polynomials of a polynomial modulo m: digit r of every coefficient, for each r. -/
def digitPolys (m beta d : Nat) (a : List Nat) : List (List Int) :=
  let ds := a.map (fun x => decompose x m beta d)
  (List.range d).map (fun r => ds.map (fun l => l.getD r 0))

/-- A pointwise product of an evaluation form with a key limb in Montgomery form, added to a sum. -/
def mulAdd (q : Nat) (acc a key : List Nat) : List Nat :=
  List.zipWith (fun (c p : Nat) => (c + p) % q) acc (List.zipWith (fun (x k : Nat) => redc q (x * k)) a key)

/-- extprod(d, C) of R169, with d modulo the product of the moduli: `segs` are the limbs of the RGSW rows, by row, column and limb. -/
def extprod (ms : List Modulus) (logN bgLog dG : Nat) (d0 d1 : List Nat) (segs : List (List Nat)) : List Nat × List Nat :=
  let qs := ms.map Modulus.q
  let m := prodOf qs
  let digits := digitPolys m bgLog dG d0 ++ digitPolys m bgLog dG d1
  let column := fun (c : Nat) =>
    let limbs := (ms.zip (List.range ms.length)).map (fun (e : Modulus × Nat) =>
      let sum := (digits.zip (List.range digits.length)).foldl (fun (acc : List Nat) (g : List Int × Nat) =>
        mulAdd e.1.q acc (e.1.eval logN (g.1.map (resid e.1.q))) (segs.getD ((2 * g.2 + c) * ms.length + e.2) [])) (List.replicate (2 ^ logN) 0)
      e.1.coef logN sum)
    (List.range (2 ^ logN)).map (fun i => joinResidues qs (limbs.map (fun l => l.getD i 0)))
  (column 0, column 1)

/-- One blind-rotation step (R169): acc + extprod(acc * X^(-at) - acc, bsk). -/
def rotateStep (ms : List Modulus) (logN bgLog dG at_ : Nat) (acc : List Nat × List Nat) (segs : List (List Nat)) : List Nat × List Nat :=
  let m := prodOf (ms.map Modulus.q)
  let diff := fun (c : List Nat) => List.zipWith (fun (x y : Nat) => (x + (m - y % m)) % m) (rotateDown m at_ c) c
  let e := extprod ms logN bgLog dG (diff acc.1) (diff acc.2) segs
  let add := fun (c x : List Nat) => List.zipWith (fun (u v : Nat) => (u + v) % m) c x
  (add acc.1 e.1, add acc.2 e.2)

/-- The initial accumulator of R169: (TV * X^(-bt), 0). -/
def rotateStart (m bt : Nat) (tv : List Nat) : List Nat × List Nat := (rotateDown m bt tv, List.replicate tv.length 0)

/-! ## Repacking (R175) -/

/-- c0 of R175 before the key products: b_j (Q_rp / q0) at coefficient start + j, modulo one prime. -/
def repackStart (q ratio n start : Nat) (bs : List Nat) : List Nat :=
  (List.range n).map (fun i => if start ≤ i ∧ i < start + bs.length then bs.getD (i - start) 0 * (ratio % q) % q else 0)

/-- The digit polynomial A of R175: digit r of the words of one key index at coefficients from start on. -/
def repackDigits (q0 rpLog dRp n start r : Nat) (as : List Nat) : List Int :=
  (List.range n).map (fun i => if start ≤ i ∧ i < start + as.length then (decompose (as.getD (i - start) 0) q0 rpLog dRp).getD r 0 else 0)

/-! ## Threshold combine and decoding (R154) -/

/-- lambda_h of R154 for the holder at a place in S: x = h + 1. -/
def lambdaOf (q : Nat) (hs : List Nat) (k : Nat) : Nat :=
  let x := hs.getD k 0 + 1
  (hs.eraseIdx k).foldl (fun (a : Nat) h => a * (h + 1) % q * invMod q (resid q (((h + 1 : Nat) : Int) - x)) % q) (1 % q)

/-- v of R154 for one limb: c0 plus the shares times their factors. -/
def combineLimb (q : Nat) (hs : List Nat) (c0 : List Nat) (shares : List (List Nat)) : List Nat :=
  (shares.zip (List.range shares.length)).foldl (fun (acc : List Nat) (e : List Nat × Nat) =>
    let l := lambdaOf q hs e.2
    List.zipWith (fun (c d : Nat) => (c + l * d) % q) acc e.1) (c0.map (fun x => x % q))

/-- Exact decoding of a lifted coefficient (R154): the plaintext centred modulo t_p, times 2^(-frac). -/
def decodeExact (q tpLog frac : Nat) (v : Int) : Nat :=
  let t : Int := ((2 ^ tpLog : Nat) : Int)
  let m := ((2 * t * v + q) / (2 * q)) % t
  (fixedTo32 (if 2 * m < t then m else m - t) frac).val

/-- Approximate decoding in coefficient packing (R154): v times 2^(-scale_log). -/
def decodeApprox (scaleLog : Nat) (v : Int) : Nat := (fixedTo32 v scaleLog).val

end Sys2Proof.Machine
end

