-- ==== Sys2Proof/Machine/Keys.lean ====
section
/-! DEFINITION. The key store: votes, usability, derivation (11_security.md R390 to R397, R262). -/

namespace Sys2Proof.Machine

open Sys2Proof

/-- A key slot of the store. -/
def State.slot (s : State) (n : Nat) : KeySlot := s.lantus.keys.getD n {}

/-- Attribute word of a slot by the vote; none when all three copies differ (R262). -/
def KeySlot.attr (k : KeySlot) : Option Nat := vote (k.attrs.getD 0 0) (k.attrs.getD 1 0) (k.attrs.getD 2 0)

/-- Attribute word as KEY_ATTR shows it (R425). -/
def KeySlot.attrWord (k : KeySlot) : Nat := k.attr.getD 0xC0000000

/-- State field of an attribute word: 0 blank, 1 valid, 2 invalidated; 0b10 is taken as invalidated (R390). -/
def attrState (a : Nat) : Nat := match bits a 31 30 with | 0 => 0 | 1 => 1 | _ => 2

/-- Parent of an attribute word (R390). -/
def attrParent (a : Nat) : Nat := bits a 21 16

/-- The slot and its ancestors, nearest first; a root is its own parent (R390). -/
def State.slotPath (s : State) : Nat → Nat → List Nat
  | 0, n => [n]
  | fuel + 1, n =>
    let p := attrParent (s.slot n).attrWord
    if p = n then [n] else n :: s.slotPath fuel p

/-- The parent path of a slot (R392). -/
def State.keyPath (s : State) (n : Nat) : List Nat := s.slotPath 64 n

/-- Vote or value CRC failure of a slot, which lasts until device reset (R392). -/
def KeySlot.broken (k : KeySlot) : Bool := k.attr.isNone || k.unusable || crc32c k.value != k.crc

/-- Is a slot usable (R392)? -/
def State.usable (s : State) (n : Nat) : Bool :=
  (s.keyPath n).all (fun m =>
    let k := s.slot m
    !k.broken && attrState k.attrWord == 1 && (!s.lantus.debugEnabled || bit k.attrWord 29))

/-- Is a valid slot orphaned: an invalidated slot on its path (R392)? -/
def State.orphaned (s : State) (n : Nat) : Bool :=
  attrState (s.slot n).attrWord == 1 && (s.keyPath n).any (fun m => attrState (s.slot m).attrWord == 2)

/-- The test root (R396). -/
def testRoot : Bytes := sha3 (ascii "OSTUSO TEST ROOT")

/-- Effective key along a path, root last (R396). -/
def State.effPath (s : State) : List Nat → Bytes
  | [] => []
  | [r] => if s.lantus.debugEnabled then testRoot else (s.slot r).value
  | n :: rest => kmac256 (s.effPath rest) (toLE n 1 ++ (s.slot n).value) 32 (ascii "OSTUSO SLOT")

/-- The effective key of a slot (R396). -/
def State.eff (s : State) (n : Nat) : Bytes := s.effPath (s.keyPath n)

/-- Lowest usable slot with an engine bit (R397). -/
def State.lowestWith (s : State) (b : Nat) : Option Nat :=
  (List.range 64).find? (fun n => s.usable n && bit (s.slot n).attrWord b)

/-- DRBG personalisation of a partition (R397); 0x1F for Lantus. -/
def State.personalisation (s : State) (p : Nat) : Bytes :=
  match s.lowestWith 3 with
  | some n => kmac256 (s.eff n) (toLE p 1) 32 (ascii "OSTUSO DRBG")
  | none => []

/-- Binding B_e of an engine bit (4 strelul, 5 ide, 6 xts) for a partition (R397). -/
def State.binding (s : State) (b p : Nat) : Bytes :=
  match s.lowestWith b with
  | some n => kmac256 (s.eff n) (toLE p 1) 32 (ascii "OSTUSO BIND")
  | none => zeros 32

/-- Identity key pair of slot 0 (R397): public and private key. -/
def State.identityKeys (s : State) : Bytes × Bytes :=
  if s.usable 0 then Config.mldsaKeyGen (kmac256 (s.eff 0) [] 32 (ascii "OSTUSO IDENTITY")) else ([], [])

/-- The checkpoint key of a slot and round (R419). -/
def State.ckptKey (s : State) (slot roundId : Nat) : Bytes := kmac256 (s.eff slot) (toLE roundId 8) 32 (ascii "OSTUSO CHECKPOINT")

/-- slot_states code of a slot (R408): 0 blank, 1 usable, 2 invalidated or orphaned, 3 unusable for another reason. -/
def State.slotCode (s : State) (n : Nat) : Nat :=
  if (s.slot n).attr.isNone then 3
  else match attrState (s.slot n).attrWord with
  | 0 => 0
  | 2 => 2
  | _ => if s.usable n then 1 else if s.orphaned n then 2 else 3

/-- slot_states of R408, 128 bits. -/
def State.slotStates (s : State) : Nat := (List.range 64).foldl (fun a n => a + s.slotCode n * 4 ^ n) 0

end Sys2Proof.Machine
end

