-- ==== Sys2Proof/Machine/Rng.lean ====
section
/-! DEFINITION. Noise sources and DRBGs (12_random.md R426 to R444). -/

namespace Sys2Proof.Machine

open Sys2Proof

/-- The DRBG that a source feeds (R426): its well's owner, or 24 for source 24; none while the well has no formed owner. -/
def State.drbgOf (s : State) (n : Nat) : Option Nat :=
  if n = 24 then some 24 else if s.owner n < 24 then some (s.owner n) else none

/-- The sources of a DRBG. -/
def State.sourcesOf (s : State) (b : Nat) : List Nat := if b = 24 then [24] else s.wellsOf b

/-- The partition field of a DRBG's events: 0x1F for Lantus. -/
def drbgPart (b : Nat) : Nat := if b = 24 then 0x1F else b

/-- Start a source: both tests reset, no sample until its settle ends (R427, R431). -/
def Source.start (x : Source) (now len : Nat) : Source :=
  { x with
    state := .settle, settleEnd := now + len, run := 0, lastBit := none, refCount := 0, inBlock := 0, reg := 0 }

/-- The feedback shift register of R433, one sample. -/
def condStep (r : Nat) (raw : Bool) : Nat :=
  let r1 := (r * 2) % 2 ^ 256
  (if bit r 255 then r1 ^^^ 0x425 else r1) ^^^ b2n raw

/-- A DRBG's state changes: its read buffers are emptied (R436). -/
def Drbg.goto (d : Drbg) (st : DrbgState) : Drbg := if d.state = st then d else { d with state := st, buffers := [] }

/-- The pool's two oldest blocks as one string (R434). -/
def Drbg.seedMaterial (d : Drbg) : Bytes := ((d.pool.take 2).map (fun e => e.2)).flatten

/-- Instantiate a DRBG whose pool holds two blocks (R435); event 0x0B01. The Lantus DRBG then draws DBG_NONCE (R398). -/
def State.instantiate (s : State) (b : Nat) : State :=
  let d := s.drbg b
  let kv := drbgInstantiate (d.seedMaterial ++ toLE s.devtime 8 ++ toLE (drbgPart b) 1 ++ s.personalisation (drbgPart b))
  let s1 := s.modDrbg b (fun x => { x.goto .seeded with
    key := kv.1, v := kv.2, count := 0, pool := x.pool.drop 2, requests := if b = 24 then x.requests ++ [.nonce] else x.requests })
  s1.raise 0x0B01 (drbgPart b) 0 [(8, drbgPart b), (48, s.devtime - d.seedStart)]

/-- Is a partition's round between INTAKE and EVALUATE (R53, R437)? -/
def RoundState.busy (st : RoundState) : Bool :=
  !(st == .idle || st == .done || st == .failed)

/-- Reseed a DRBG from the two oldest blocks (R435, R437): a reseed above 2^16 is counted, and the first of a round's epoch raises 0x0B05. -/
def State.reseed (s : State) (b : Nat) : State :=
  let d := s.drbg b
  let kv := drbgReseed d.key d.v d.seedMaterial
  let s1 := (s.modDrbg b (fun x => { x.goto .seeded with key := kv.1, v := kv.2, count := 0, pool := x.pool.drop 2 })).count (rngBase b + 0x14)
  if 65536 < d.count then
    let s2 := s1.count (rngBase b + 0x1C)
    if b < 24 ∧ (s.round b).state.busy ∧ !(s.round b).stretchLogged then
      (s2.modRound b (fun r => { r with stretchLogged := true })).raise 0x0B05 b 0 [(8, b), (32, d.count)]
    else s2
  else s1

/-- The limit of R438 after a request: 2^24 requests without a reseed (R438, R444). -/
def State.atLimit (s : State) (b : Nat) : State :=
  if (s.drbg b).count < 2 ^ 24 then s
  else if 2 ≤ (s.drbg b).pool.length then s.reseed b
  else (s.modDrbg b (fun x => x.goto .reseedWait)).raise 0x0B06 (drbgPart b) 0 [(8, drbgPart b)]

/-- One generate request (R436 to R440): 64 bytes, or none when the DRBG has no output. -/
def State.generate (s : State) (b : Nat) : Option Bytes × State :=
  if (s.drbg b).state ≠ .seeded then (none, s)
  else
    let s1 := if 65536 ≤ (s.drbg b).count ∧ 2 ≤ (s.drbg b).pool.length then s.reseed b else s
    let d := s1.drbg b
    let r := drbgGenerate d.key d.v 64
    (some r.1, (s1.modDrbg b (fun x => { x with key := r.2.1, v := r.2.2, count := x.count + 1 })).atLimit b)

/-- A conditioned block enters the pool of its DRBG, FATAL or not, or is dropped when the pool is full (R434, R435, R438, R440). -/
def State.pool (s : State) (n : Nat) (blk : Bytes) : State :=
  match s.drbgOf n with
  | none => s
  | some b =>
    let d := s.drbg b
    if d.state = .off then s
    else if 8 ≤ d.pool.length then s.count (srcBase n + 0xC)
    else
      let s1 := s.modDrbg b (fun x => { x with pool := x.pool ++ [(n, blk)] })
      if 2 ≤ (s1.drbg b).pool.length then
        if d.state = .startup then s1.instantiate b else if d.state = .reseedWait then s1.reseed b else s1
      else s1

/-- Zeroise a DRBG: Key, V, counter, pool and buffers (R440, R441). -/
def Drbg.zeroise (d : Drbg) : Drbg :=
  { d with key := [], v := 0, count := 0, pool := [], buffers := [], requests := [] }

/-- Failures of a source in the span that ends at its current sample, at most four (R432). -/
def Source.inSpan (x : Source) : Nat := (x.failures.filter (fun f => decide (x.samples < f + 2 ^ 20))).length

/-- SOURCE_SETTLE_END (R427, R430): the source starts to sample its startup block. -/
def execSourceSettleEnd (n : Nat) (s : State) : Result :=
  if s.alive ∧ (s.source n).state = .settle ∧ (s.source n).settleEnd ≤ s.devtime then
    .next (s.modSource n (fun x => { x with state := .startup }))
  else .next s

/-- A source's tests and shift register after one raw bit (R428, R429, R433). -/
def Source.sample (x : Source) (raw : Bool) : Source :=
  { x with
    samples := x.samples + 1,
    run := if x.lastBit = some raw then x.run + 1 else 1, lastBit := some raw,
    refBit := if x.inBlock = 0 then raw else x.refBit,
    refCount := if x.inBlock = 0 then 1 else x.refCount + b2n (raw == x.refBit),
    inBlock := x.inBlock + 1, reg := condStep x.reg raw }

/-- The failed tests at a sample: 0 none, 1 repetition, 2 proportion, 3 both (R428, R429, R431). -/
def Source.failedTest (x : Source) : Nat := b2n (decide (81 ≤ x.run)) + 2 * b2n (decide (840 ≤ x.refCount))

/-- Does a failure at the current sample come less than 2^20 samples after the third failure before it (R432)? -/
def Source.fourth (x : Source) : Bool :=
  match x.failures[2]? with
  | some f => decide (x.samples < f + 2 ^ 20)
  | none => false

/-- A failed test at a sample (R431): count, record, event and restart; the alarm itself follows where `fourth` holds. -/
def State.healthFail (s : State) (n t : Nat) : State :=
  let x := s.source n
  let y : Source := { x with failures := (x.samples :: x.failures).take 4, lastTest := t }
  let s1 := (s.modSource n (fun _ => y.start s.devtime (ticksOfUs 100))).count (srcBase n + 4)
  s1.raise (if x.state = .startup then 0x0B03 else 0x0B02) ((s.drbgOf n).elim 0x1F drbgPart) 0
    [(8, n), (8, t), (32, y.inSpan)]

/-- An accepted block (R430, R433): conditioned, counted and pooled. -/
def State.blockAccepted (s : State) (n : Nat) : State :=
  let x := s.source n
  ((s.modSource n (fun y => { y with state := .running, inBlock := 0, reg := 0, refCount := 0 })).count (srcBase n + 8)).pool n (toLE x.reg 32)

/-- Start seed formation of a DRBG from its sources' settle (R435, R442). -/
def State.formSeed (s : State) (b : Nat) : State :=
  s.modDrbg b (fun d => { d.zeroise with state := .startup, fatalSource := 0x1F, seedStart := s.devtime, buffers := [] })

/-- Re-arm a source through a settle of 100 us; a re-arm that ends FATAL clears its history (R427, R432). -/
def Source.rearm (x : Source) (now : Nat) : Source :=
  let y := if x.state = .fatal then { x with failures := [], samples := 0 } else x
  y.start now (ticksOfUs 100)

/-- Re-arm the sources of a partition and re-form its DRBG's seed (R43, R440): event 0x0B07. -/
def State.rearmSources (s : State) (p : Nat) : State :=
  let ws := s.wellsOf p
  let s1 := s.each ws (fun t w => t.modSource w (fun x => x.rearm s.devtime))
  (s1.formSeed p).raise 0x0B07 p 0 [(8, p), (32, ws.length)]

/-- Take bytes from a reader's buffer, with a generate request when it is empty (R436, R443). -/
def State.readRandom (s : State) (b who : Nat) : Option Nat × State :=
  let d := s.drbg b
  if d.state ≠ .seeded then (none, s)
  else
    let buf := (look who d.buffers).getD []
    if 4 ≤ buf.length then
      (some (rd buf 0 4), s.modDrbg b (fun x => { x with buffers := put who (buf.drop 4) x.buffers }))
    else match s.generate b with
    | (some out, s1) =>
      (some (rd out 0 4), if (s1.drbg b).state = .seeded then s1.modDrbg b (fun x => { x with buffers := put who (out.drop 4) x.buffers }) else s1)
    | (none, s1) => (none, s1)

end Sys2Proof.Machine
end

