-- ==== Sys2Proof/Machine/Cistern.lean ====
section
/-! DEFINITION. Buckets of the cisterns and the LPDDR5X devices: valid bits, marks, merge buffers, errors and the correctable-error table
(07_cisterns_pumps.md R231 to R237, R250 to R256, R260). -/

namespace Sys2Proof.Machine

open Sys2Proof

/-! ## Correctable errors and uncorrectable buckets (R255, R256) -/

/-- Add one to the entry of an address and kind. -/
def cetBump (addr kind : Nat) (e : Option CetEntry) : Option CetEntry :=
  e.map (fun x => if x.addr = addr ∧ x.kind = kind then { x with count := min (x.count + 1) 0xFFFF } else x)

/-- Record a corrected error of a well (R255). -/
def State.cetAdd (s : State) (w addr kind : Nat) : State :=
  let t := (s.well w).cet
  if t.any (fun e => e.any (fun x => x.addr == addr && x.kind == kind)) then
    s.modWell w (fun x => { x with cet := x.cet.map (cetBump addr kind) })
  else match t.findIdx? (fun e => e.isNone) with
  | some i =>
    ((s.modWell w (fun x => { x with cet := updAt x.cet i (fun _ => some ⟨addr, kind, 1⟩) })).noteSet (cetBase w + 0x108 + 0x10 * i) (2 ^ 31)).raise 0x0601 (s.owner w) 0
      [(8, w), (8, kind), (48, addr)]
  | none =>
    let s1 := (s.count (cetBase w + 8)).setBits (cetBase w) 31 31 1
    if s.regBits (cetBase w) 31 31 = 1 then s1 else s1.raise 0x0602 (s.owner w) 0 [(8, w)]

/-- An uncorrectable cistern bucket found by a reader: 0 interface, 1 pump, 2 copy channel, 3 merge, 4 scrubber (R256, R266). -/
def State.cisUncorrectable (s : State) (w b kind : Nat) : State :=
  ((s.count (cisBase w + 8)).setRecord (cisBase w + 0x18) (2 ^ 31 + 2 ^ 21 * kind + b)).raise 0x0603 (s.owner w) 0 [(8, w), (8, kind), (32, b)]

/-- An LPDDR5X read that fails after its retries (R252, R256). -/
def State.lpxUncorrectable (s : State) (w b : Nat) : State :=
  ((s.count (lpxBase w + 0xC)).setReg64 (lpxBase w + 0x18) (lpxAddr w (b * 64))).raise 0x0609 (s.owner w) 0 [(8, w), (32, b)]

/-! ## Whole buckets -/

/-- Write a whole cistern bucket: valid bit set, mark and merge entry gone (R231, R232, R237). -/
def Well.putCis (x : Well) (b : Nat) (data : Bytes) : Well :=
  { x with
    cis := memWrite x.cis (b * 64) (fit data 64), cisValid := insertNat b x.cisValid,
    cisBad := x.cisBad.filter (fun c => c ≠ b), merge := x.merge.filter (fun e => e.bucket ≠ b) }

/-- Write a whole LPDDR5X bucket (R250, R237). -/
def Well.putLpx (x : Well) (b : Nat) (data : Bytes) : Well :=
  { x with
    lpx := memWrite x.lpx (b * 64) (fit data 64), lpxWritten := insertNat b x.lpxWritten,
    lpxMerge := x.lpxMerge.filter (fun e => e.bucket ≠ b) }

/-- Write a whole bucket of a well. -/
def State.putBucket (s : State) (lp : Bool) (w b : Nat) (data : Bytes) : State :=
  s.modWell w (fun x => if lp then x.putLpx b data else x.putCis b data)

/-- Contents of a bucket in its bank: an LPDDR5X bucket not written since the key was installed holds a free value (R251). -/
def State.bankRead (s : State) (lp : Bool) (w b : Nat) : Bytes × State :=
  if !lp then (memRead (s.well w).cis (b * 64) 64, s)
  else if b ∈ (s.well w).lpxWritten then (memRead (s.well w).lpx (b * 64) 64, s)
  else let r := s.draw; (toLE r.1 64, r.2)

/-! ## Merge buffers (R237) -/

/-- New bytes over old ones under a byte mask. -/
def overlay : Bytes → Bytes → List Bool → Bytes
  | o :: os, n :: ns, m :: ms => (if m then n else o) :: overlay os ns ms
  | _, _, _ => []

/-- Entries of a merge buffer, least recently used first. -/
def Well.entriesOf (x : Well) (lp : Bool) : List MergeEntry := if lp then x.lpxMerge else x.merge

/-- Replace the entries of a merge buffer. -/
def Well.setEntries (x : Well) (lp : Bool) (l : List MergeEntry) : Well := if lp then { x with lpxMerge := l } else { x with merge := l }

/-- Write an entry as a read-modify-write; an uncorrectable bucket takes the new bytes and stays marked (R237). -/
def State.writeBack (s : State) (lp : Bool) (w : Nat) (e : MergeEntry) : State :=
  let r := s.bankRead lp w e.bucket
  let s1 := r.2.count (if lp then lpxBase w + 0x10 else cisBase w + 0x10)
  let data := overlay r.1 e.data e.mask
  if !lp ∧ e.bucket ∈ (s.well w).cisBad then
    ((s1.cisUncorrectable w e.bucket 3).putBucket lp w e.bucket data).modWell w (fun x => { x with cisBad := insertNat e.bucket x.cisBad })
  else s1.putBucket lp w e.bucket data

/-- Write the entry of a bucket, if there is one. -/
def State.settleEntry (s : State) (lp : Bool) (w b : Nat) : State :=
  match ((s.well w).entriesOf lp).find? (fun e => e.bucket == b) with
  | some e => s.writeBack lp w e
  | none => s

/-- Write every entry of a merge buffer. -/
def State.flushMerge (s : State) (lp : Bool) (w : Nat) : State := s.each ((s.well w).entriesOf lp) (fun t e => t.writeBack lp w e)

/-- Put bytes at an offset of an entry. -/
def MergeEntry.add (e : MergeEntry) (off : Nat) (bs : Bytes) (now : Nat) : MergeEntry :=
  { e with
    data := patch e.data off bs, mask := e.mask.take off ++ List.replicate bs.length true ++ e.mask.drop (off + bs.length), lastUse := now }

/-- A write of part of a bucket (R237). -/
def State.partialWrite (s : State) (lp : Bool) (w b off : Nat) (bs : Bytes) : State :=
  let es := (s.well w).entriesOf lp
  match es.find? (fun e => e.bucket == b) with
  | some e =>
    let e1 := e.add off bs s.devtime
    if e1.mask.all (fun m => m) then s.putBucket lp w b e1.data
    else s.modWell w (fun x => x.setEntries lp (es.filter (fun d => d.bucket ≠ b) ++ [e1]))
  | none =>
    let e1 := (MergeEntry.mk b (zeros 64) (List.replicate 64 false) 0).add off bs s.devtime
    let s1 := match es with
      | e0 :: _ => if 32 ≤ es.length then s.writeBack lp w e0 else s
      | [] => s
    s1.modWell w (fun x => x.setEntries lp (x.entriesOf lp ++ [e1]))

/-! ## Reads and writes of masters -/

/-- A read of an LPDDR5X bucket that fails after its third retry: counted, logged, and kept for the limit of R253; the retries of a later read start anew
(R252). -/
def State.lpxReadFails (s : State) (w b : Nat) : State :=
  (s.lpxUncorrectable w b).modWell w (fun x => { x with
    lpxBad := x.lpxBad.filter (fun c => c ≠ b), lpxFails := (x.lpxFails.filter (fun t => decide (s.devtime < t + 400000000))) ++ [s.devtime] })

/-- Read a bucket: its merge entry is written first, and a bucket whose code or link fails is found uncorrectable (R232, R237, R252). -/
def State.bucketRead (s : State) (lp : Bool) (w b kind : Nat) : Bytes × Bool × State :=
  let s1 := s.settleEntry lp w b
  let r := s1.bankRead lp w b
  if lp then if b ∈ (s1.well w).lpxBad then (r.1, true, r.2.lpxReadFails w b) else (r.1, false, r.2)
  else if b ∈ (s1.well w).cisBad then (r.1, true, r.2.cisUncorrectable w b kind)
  else (r.1, false, r.2)

/-- Write bytes inside one bucket: a whole bucket at once, part of one through the merge buffer. -/
def State.bucketWrite (s : State) (lp : Bool) (w b off : Nat) (bs : Bytes) : State :=
  if off = 0 ∧ 64 ≤ bs.length then s.putBucket lp w b bs else if bs.isEmpty then s else s.partialWrite lp w b off bs

/-- The memory, well and offset of a device address in a cistern or LPDDR5X device. -/
def memoryAt (addr : Nat) : Option (Bool × Nat × Nat) :=
  match placeOf addr with
  | .cistern w o => some (false, w, o)
  | .lpddr w o => some (true, w, o)
  | _ => none

/-- Read `n` whole buckets from a bucket-aligned address: bytes, whether one was uncorrectable, and the state. -/
def State.readBuckets (s : State) (kind : Nat) : Nat → Nat → Bytes × Bool × State
  | 0, _ => ([], false, s)
  | n + 1, addr =>
    match memoryAt addr with
    | some (lp, w, o) =>
      let r := s.bucketRead lp w (o / 64) kind
      let q := r.2.2.readBuckets kind n (addr + 64)
      (r.1 ++ q.1, r.2.1 || q.2.1, q.2.2)
    | none =>
      let q := s.readBuckets kind n (addr + 64)
      (zeros 64 ++ q.1, q.2.1, q.2.2)

/-- Read bytes of device memory from any address. -/
def State.devRead (s : State) (kind addr len : Nat) : Bytes × Bool × State :=
  let r := s.readBuckets kind (bucketsOf addr len) (addr / 64 * 64)
  (slice r.1 (addr % 64) len, r.2)

/-- Write bytes to device memory from any address; the fuel is the number of buckets touched. -/
def State.devWriteAux (s : State) : Nat → Nat → Bytes → State
  | 0, _, _ => s
  | n + 1, addr, bs =>
    let k := 64 - addr % 64
    let s1 := match memoryAt addr with
      | some (lp, w, o) => s.bucketWrite lp w (o / 64) (o % 64) (bs.take k)
      | none => s
    s1.devWriteAux n (addr + k) (bs.drop k)

/-- Write bytes to device memory. -/
def State.devWrite (s : State) (addr : Nat) (bs : Bytes) : State := s.devWriteAux (bucketsOf addr bs.length) addr bs

/-- Clear the valid bits of a range of cistern buckets: it reads as zero (R231). -/
def Well.zeroRange (x : Well) (b n : Nat) : Well :=
  let out := fun c => decide (c < b) || decide (b + n ≤ c)
  { x with
    cis := memClear x.cis (b * 64) (n * 64), cisValid := x.cisValid.filter out, cisBad := x.cisBad.filter out,
    merge := x.merge.filter (fun e => out e.bucket) }

/-! ## Rows -/

/-- MERGE_IDLE_TIMEOUT (R237): an entry idle for 1,024 pump cycles, 512 ticks, is written back; `bucket` 2^21 and above names an LPDDR5X bucket. -/
def execMergeIdleTimeout (well bucket : Nat) (s : State) : Result :=
  let lp := decide (2 ^ 21 ≤ bucket)
  let b := if lp then bucket - 2 ^ 21 else bucket
  match ((s.well well).entriesOf lp).find? (fun e => e.bucket == b) with
  | some e => if s.alive ∧ e.lastUse + 512 ≤ s.devtime then .next (s.writeBack lp well e) else .next s
  | none => .next s

/-- Record an error of the protected arrays or of the read link of a well in service: a corrected one is counted where it belongs, and a double-bit error
stands where the next read of it meets it (R194, R232, R252, R255; log entry 74). -/
def State.arrayError (s : State) (b k : Nat) : ArrayError → State
  | .cistern w => if b ∈ (s.well w).cisBad then s else s.cetAdd w (cisAddr w (b * 64)) (if k = 8 then 5 else 1)
  | .store t => s.count (tileBase t + 0x28)
  | .link w => (s.count (lpxBase w + 4)).cetAdd w (lpxAddr w (b * 64)) 3
  | .reread w => (s.count (lpxBase w + 8)).cetAdd w (lpxAddr w (b * 64)) 4
  | .doubleCistern w => s.modWell w (fun x => { x with cisBad := insertNat b x.cisBad })
  | .doubleStore t => s.modTile t (fun x => { x with storeBad := insertNat k x.storeBad })
  | .doubleStep t => s.modTile t (fun x => { x with stepBad := insertNat k x.stepBad })
  | .doubleLpx w => s.modWell w (fun x => { x with lpxBad := insertNat b x.lpxBad })

/-- The well of an array error. -/
def errorWell : ArrayError → Nat
  | .cistern w | .link w | .reread w | .doubleCistern w | .doubleLpx w => w
  | .store t | .doubleStore t | .doubleStep t => t.well

/-- CORRECTED_WORD_WRITEBACK (R232, R255): a corrected word is written back, the contents stand, and the error is recorded. -/
def execCorrectedWordWriteback (e : ArrayError) (bucket word : Nat) (s : State) : Result :=
  if !s.alive ∨ (s.well (errorWell e)).inService = false then .next s else .next (s.arrayError bucket word e)

/-! ## The LPDDR5X device (R250) -/

/-- The tweak of the next 16-byte block of a data unit (IEEE 1619). -/
def xtsNext (t : Nat) : Nat := if 2 ^ 127 ≤ t then (t * 2 % 2 ^ 128) ^^^ 0x87 else t * 2

/-- AES-256-XTS of the 16-byte blocks of a data unit, from a tweak on. -/
def xtsBlocks (rks : List (List Nat)) : Nat → List Bytes → Bytes
  | _, [] => []
  | t, b :: bs => toLE (leNat (aesBlock rks (toLE (leNat b ^^^ t) 16)) ^^^ t) 16 ++ xtsBlocks rks (xtsNext t) bs

/-- What the device holds of a bucket (R250): AES-256-XTS of its contents, data unit number its address shifted right by 6 as 128 bits. State keeps the
contents; no command reads the device's own bytes (log entry 53). -/
def Well.lpxStored (x : Well) (w b : Nat) : Bytes :=
  xtsBlocks (aesRoundKeys (x.lpxKey.take 32)) (leNat (aes256 ((x.lpxKey.drop 32).take 32) (toLE (lpxAddr w (b * 64) / 64) 16)))
    (chunks 16 (memRead x.lpx (b * 64) 64))

end Sys2Proof.Machine
end

