-- ==== Sys2Proof/Machine/Windlass.lean ====
section
/-! DEFINITION. Windlasses seen from outside a step: logical tiles, tile stores, partition queues, stops and zeroing
(06_tiles_windlass.md R191, R194, R208 to R212, R217 to R219, R223). -/

namespace Sys2Proof.Machine

open Sys2Proof

/-! ## Logical and physical tiles (R222 to R224, R227) -/

/-- The physical tile that carries a logical tile. -/
def State.physOf (s : State) (w lt : Nat) : Nat := (s.well w).subst.getD lt 31

/-- The logical tile that a physical tile carries; 0x1F when unmapped. -/
def State.logicalOf (s : State) (t : TileRef) : Nat := ((s.well t.well).subst.findIdx? (fun x => x == t.tile)).getD 0x1F

/-- The physical tiles that carry a partition's logical tiles, in unit order. -/
def State.tilesOf (s : State) (p : Nat) : List TileRef :=
  (s.wellsOf p).flatMap (fun w => (s.well w).subst.map (fun pt => ⟨w, pt⟩))

/-- Logical unit of a tile: well rank times 24 plus logical tile. -/
def State.unitOf (s : State) (t : TileRef) : Nat := s.rankOf t.well * 24 + s.logicalOf t

/-- The current tile cycle: four to a tick (R26). -/
def State.cycle (s : State) : Nat := s.devtime * 4

/-! ## Slots (R200) -/

/-- The slots of a pattern, rising. -/
def patternSlots (b : Bytes) : List Nat :=
  ((b.zip (List.range b.length)).flatMap (fun e => (List.range 8).filterMap (fun k => if bit e.1.toNat k then some (8 * e.2 + k) else none))).filter
    (fun n => decide (n < 2400))

/-- Tile cycle of unit `j` of a step issued at a cycle: the slots of the pattern at or after it, one after another. Three fabric cycles pass in two tile
cycles, and the frame starts at DEVTIME 0. -/
def slotCycle (ps : Array Nat) (at_ j : Nat) : Nat :=
  let f0 := ceilDiv (at_ * 3) 2
  let k := (ps.filter (fun n => decide (n < f0 % 2400))).size + j
  ceilDiv ((2400 * (f0 / 2400 + k / ps.size) + ps.getD (k % ps.size) 0) * 2) 3

/-- Tile cycles at which `n` units of a step issued at a cycle move; none where the pattern is empty. -/
def slotCycles (pat : Bytes) (at_ n : Nat) : List Nat :=
  let ps := (patternSlots pat).toArray
  if ps.size = 0 then [] else (List.range n).map (slotCycle ps at_)

/-- Slot number of a tile cycle's fabric cycle. -/
def slotOf (c : Nat) : Nat := (c * 3 / 2) % 2400

/-- Is a slot of a link assigned to a partition (R21)? -/
def slotOwned (runs : List (Nat × Nat × Nat × Nat)) (p link slot : Nat) : Bool :=
  runs.any (fun r => r.1 == link && r.2.2.2 == p && decide (r.2.1 ≤ slot) && decide (slot < r.2.1 + r.2.2.1))

/-- Does a route carry a unit that takes a slot of its first link: the slot is one of the route's, and on every hop the partition owns the slot in which the
router forwards the unit (R21, R24, R288)? -/
def Route.carries (r : Route) (runs : List (Nat × Nat × Nat × Nat)) (p slot : Nat) : Bool :=
  decide ((slot + 2400 - r.start) % 2400 < r.length) &&
    ((r.links.take r.hops).zip (List.range r.hops)).all (fun e => slotOwned runs p e.1 ((slot + e.2) % 2400))

/-! ## Tile stores (R191, R194) -/

/-- Bytes of a tile store from a row. -/
def Tile.rowsAt (x : Tile) (row len : Nat) : Bytes := memRead x.store (row * 64) len

/-- Do any of `len` bytes from a row hold a double-error pattern? -/
def Tile.badAt (x : Tile) (row len : Nat) : Bool := x.storeBad.any (fun k => decide (row * 8 ≤ k) && decide (k * 8 < row * 64 + len))

/-- Write bytes from a row; words written whole lose their double-error pattern. -/
def Tile.putRows (x : Tile) (row : Nat) (bs : Bytes) : Tile :=
  { x with
    store := memWrite x.store (row * 64) bs,
    storeBad := x.storeBad.filter (fun k => decide (k < row * 8) || decide (row * 64 + bs.length < k * 8 + 8)) }

/-- Write bytes with a double-error check pattern (R233). -/
def Tile.putBad (x : Tile) (row : Nat) (bs : Bytes) : Tile :=
  let y := x.putRows row bs
  { y with storeBad := ((List.range (bs.length / 8)).map (fun i => row * 8 + i)).foldl (fun l k => insertNat k l) y.storeBad }

/-- Is a byte address of the tile store inside a table of the directory (R203)? -/
def Tile.inTable (x : Tile) (a : Nat) : Bool := x.tables.any (fun e => decide (e.row * 64 ≤ a) && decide (a < (e.row + e.rows) * 64))

/-- Zero what R219 names: rows outside the table directory, accumulators, AES key and estimates. -/
def Tile.zeroise (x : Tile) : Tile :=
  { x with
    store := x.store.filter (fun c => x.inTable c.1), storeBad := x.storeBad.filter (fun k => x.inTable (k * 8)),
    accs := List.replicate 128 0, aesKey := [], estimates := [], estimatesOf := (0, 0, 0), twiddles := List.replicate 128 0, keyFail := 0, dataFail := false,
    passFail := false, armed := none, stuckSince := none, flight := [], rngLeft := 0, bcvTable := 0, mute := false, serving := none, inbox := [] }

/-- Zero what a finished round state leaves in a running tile: rows outside the table directory, accumulators and the AES key (R116, R119, R155; log entry
72). -/
def Tile.wipe (x : Tile) : Tile :=
  if x.state = .running ∨ x.state = .waiting then
    { x with
      store := x.store.filter (fun c => x.inTable c.1), storeBad := x.storeBad.filter (fun k => x.inTable (k * 8)),
      accs := List.replicate 128 0, aesKey := [] }
  else x

/-- Is a windlass issuing steps or waiting? -/
def Tile.active (x : Tile) : Bool := x.state == .running || x.state == .waiting

/-- Stop a windlass at its step boundary and zero it (R218, R219); what a trapped tile holds of the round is zeroed too (R116, R155, R179). -/
def Tile.stop (x : Tile) : Tile :=
  if x.active then { x.zeroise with state := .stopped, waiting := none, stopping := false } else if x.state = .trapped then x.zeroise else x

/-- Stop every windlass of a partition and empty its queue and rendezvous (R217, R218). -/
def State.stopWindlasses (s : State) (p : Nat) : State :=
  (s.each (s.tilesOf p) (fun t r => t.modTile r Tile.stop)).modPart p (fun x => { x with queue := [], due := [], arrivals := [], releaseAt := none })

/-- Call a stop of every windlass of a partition; each stops at its next step boundary (R219). -/
def State.callStop (s : State) (p : Nat) : State :=
  (s.each (s.tilesOf p) (fun t r => t.modTile r (fun x => if x.active then { x with stopping := true } else x))).modPart p
    (fun x => { x with queue := [], due := [] })

/-- Is every windlass of a partition at rest? -/
def State.atRest (s : State) (p : Nat) : Bool := (s.tilesOf p).all (fun r => !(s.tile r).active)

/-- A waiting windlass goes on: it issues its next step at a cycle, but not before its gap has passed (R205, R208, R209). -/
def Tile.resume (x : Tile) (cyc : Nat) : Tile := { x with state := .running, waiting := none, due := max x.due cyc }

/-! ## Partition queues (R209, R210) -/

/-- The 64 bytes of a queue entry (R210). -/
def QEntry.bytes (e : QEntry) : Bytes :=
  sealCrc (toLE e.source 1 ++ zeros 1 ++ toLE e.slot 2 ++ toLE e.client 4 ++ toLE e.time 8 ++ toLE e.address 8 ++ toLE e.length 4 ++
    toLE e.seq 4 ++ zeros 28 ++ zeros 4)

/-- Call an entry: it is posted in order when its queue has room (R209). -/
def State.callEntry (s : State) (p : Nat) (e : QEntry) : State := s.modPart p (fun x => { x with due := x.due ++ [e] })

/-- The first entry of a source that a unit has not taken. -/
def State.nextEntry (s : State) (p source unit : Nat) : Option QEntry :=
  (s.part p).queue.find? (fun e => e.source == source && !e.takenBy.contains unit)

/-- An entry of source 2 has been taken by every tile: the message accepted before it gives up its staging space (R319). -/
def Partition.messageTaken (x : Partition) : Partition :=
  if x.acceptedTaken then { x with accepted := x.accepted.drop 1 } else { x with acceptedTaken := true }

/-- A tile takes an entry into row `dst`; it leaves the queue with the last logical tile (R209). -/
def State.takeEntry (s : State) (p : Nat) (t : TileRef) (e : QEntry) (dst : Nat) : State :=
  let u := s.unitOf t
  let e1 := { e with takenBy := u :: e.takenBy }
  let q := (s.part p).queue.map (fun d => if d = e then e1 else d)
  let all := decide ((s.tilesOf p).length ≤ e1.takenBy.length)
  let q1 := if all then q.filter (fun d => d ≠ e1) else q
  (s.modPart p (fun x => let y := { x with queue := q1 }; if all && e.source == 2 then y.messageTaken else y)).modTile t
    (fun x => { (x.putRows dst e.bytes) with serving := if e.source = 1 ∨ e.source = 4 then some (e.source, e.seq) else none })

/-- Give waiting windlasses of a partition what they wait for: a round state entered, or a queue entry (R209). -/
def State.serveWaits (s : State) (p : Nat) : State :=
  s.each (s.tilesOf p) (fun t r =>
    match (t.tile r).waiting with
    | some (0, code) => if code ∈ (t.round p).entered then t.modTile r (fun x => x.resume t.cycle) else t
    | some (k, dst) =>
      if k ≤ 4 then
        match t.nextEntry p k (t.unitOf r) with
        | some e => (t.takeEntry p r e dst).modTile r (fun x => x.resume t.cycle)
        | none => t
      else t
    | none => t)

/-- Start the windlasses of a partition (R212, R218): entry steps of the set, loop counters, accumulators and flags clear. -/
def Tile.start (x : Tile) (set kind cyc : Nat) : Tile :=
  match x.entries.find? (fun e => e.set == set) with
  | none => x
  | some e =>
    if x.state = .loaded ∨ x.state = .stopped ∨ x.state = .trapped then
      { x with
        state := .running, next := if kind = 0 then e.opening else if kind = 1 then e.intake else e.closing,
        due := cyc, loops := [0, 0, 0, 0], accs := List.replicate 128 0, keyFail := 0, dataFail := false,
        busy := [0, 0, 0, 0, 0], halves := [0, 0], headerEnd := 0, waiting := none, stopping := false, stuckSince := none, armed := none, flight := [],
        rngLeft := 0, bcvTable := 0, mute := false, passFail := false, serving := none, aesKey := [], estimates := [], estimatesOf := (0, 0, 0) }
    else x

/-- WINDLASS_ENTRY (R212): every windlass of the partition issues its entry step. -/
def execWindlassEntry (p : Nat) (s : State) : Result :=
  match (s.round p).startAt with
  | some t =>
    if !s.alive ∨ s.devtime < t then .next s
    else
      let s1 := s.modRound p (fun r => { r with startAt := none })
      .next (s1.each (s.tilesOf p) (fun u r =>
        let u1 := u.modTile r (fun x => x.start (s.round p).desc.scheduleSet (s.round p).startKind (t * 4))
        u1.setReg64 (tileBase r + 0x18) 0))
  | none => .next s

end Sys2Proof.Machine
end

