-- ==== Sys2Proof/Machine/Round.lean ====
section
/-! DEFINITION. Rounds: descriptor, states, survivors, failure, completion of a state's work, ROUND_OPEN, ROUND_CLOSE_INTAKE, ROUND_ABORT
(02_rounds.md, 03_masked_aggregation.md R96 to R105, R119 to R122, 04_ciphertext_engine.md R149 to R155). -/

namespace Sys2Proof.Machine

open Sys2Proof

/-! ## Commands that act on a partition (R372) -/

/-- Run a command that acts on a partition once it may start: with partition 0x1F or an unformed one it completes with NOT_READY. -/
def State.partCmd (s : State) (r : CmdRef) (op : Nat) (k : Cmd → Result) : Result :=
  match s.ready r op with
  | none => .next s
  | some c => if s.formed c.part then k c else .next (s.complete c .notReady 0 0)

/-- Run a command once the host bytes it reads are there; a failed read completes it with UNCORRECTABLE (R354, R371). -/
def State.withData (s : State) (c : Cmd) (k : Bytes → Result) : Result :=
  if c.readFailed then .next (s.complete c .uncorrectable 0 0)
  else if c.data.length < readLength c then .next s else k c.data

/-- Has a partition host DMA (R514)? -/
def State.hasDma (s : State) (p : Nat) : Bool := s.effectiveShare p != 0

/-! ## The descriptor (R45, R46) -/

/-- Fields of a descriptor. -/
def descriptorOf (b : Bytes) : Descriptor :=
  { roundId := rd b 0 8,
    mode := if rd b 8 1 = 1 then .m else if rd b 8 1 = 2 then .h else .none,
    ringWidth := rd b 9 1, evaluate := bit (rd b 0xA 2) 0, check := bit (rd b 0xA 2) 1,
    cohort := rd b 0xC 4, dropoutLimit := rd b 0x10 4, threshold := rd b 0x14 4, coordinates := rd b 0x18 4,
    ckptAdmissions := if rd b 0x1C 2 = 0 then 16384 else rd b 0x1C 2,
    ckptIntervalMs := if rd b 0x1E 2 = 0 then 5000 else rd b 0x1E 2,
    intakeClose := rd b 0x20 8, uploadWindowMs := rd b 0x28 4, settleWindowMs := rd b 0x2C 4, scheduleSet := rd b 0x30 2 }

/-- The schedule set of a descriptor in a partition's loaded image. -/
def State.setOf (s : State) (p : Nat) (d : Descriptor) : Option SchedSet :=
  if (s.part p).image.state = .loaded then (s.part p).image.sets.find? (fun x => x.index == d.scheduleSet && x.mode == d.mode) else none

/-- The schedule set of the round in progress. -/
def State.roundSet (s : State) (p : Nat) : Option SchedSet := s.setOf p (s.round p).desc

/-- A legal ring width (R45, R89). -/
def legalWidth (w : Nat) : Bool := w == 32 || w == 40 || w == 48 || w == 64

/-- First test of R46: FORMAT. -/
def State.descFormatBad (s : State) (p : Nat) (b : Bytes) : Bool :=
  let d := descriptorOf b
  !crcEndsOk b || d.roundId == 0 || d.mode == .none ||
    (d.mode == .m && (!legalWidth d.ringWidth || d.check)) || (d.mode == .h && d.ringWidth != 0) ||
    (match s.setOf p d with
     | none => true
     | some x => d.mode == .m && x.ringWidth != d.ringWidth)

/-- A number from 1 to a limit. -/
def inRange (n hi : Nat) : Bool := decide (1 ≤ n) && decide (n ≤ hi)

/-- Second test of R46: LENGTH_EXCEEDS, with the test of CTX_HOLDERS in mode H (R153). -/
def State.descLengthBad (s : State) (p : Nat) (d : Descriptor) : Bool :=
  let cap := match s.setOf p d with | some x => x.coordinates | none => 0
  !(inRange d.cohort 16777216 && decide (d.dropoutLimit ≤ 1048576) && inRange d.threshold d.cohort && inRange d.coordinates cap &&
    inRange d.uploadWindowMs 600000 && inRange d.settleWindowMs 600000) ||
    (d.mode == .h && decide (s.reg (ctxBase p + 0x20) < d.threshold))

/-- Third test of R46: STATE. -/
def State.descStateBad (s : State) (p : Nat) (d : Descriptor) : Bool :=
  (s.round p).state.busy || decide (d.roundId ≤ (s.round p).lastRoundId) || decide (d.intakeClose ≤ s.devtime)

/-- The status of a descriptor (R46). -/
def State.descStatus (s : State) (p : Nat) (b : Bytes) : Status :=
  if s.descFormatBad p b then .format
  else if s.descLengthBad p (descriptorOf b) then .lengthExceeds
  else if s.descStateBad p (descriptorOf b) then .state
  else .ok

/-! ## Packing (R89, R96) -/

/-- Ring words of a bucket at width w (R89). -/
def wordsPerBucket (w : Nat) : Nat := if w = 0 then 1 else if w = 32 then 16 else if w = 40 then 12 else if w = 48 then 10 else 8

/-- Buckets of a vector of C coordinates at width w (R90). -/
def bucketCount (c w : Nat) : Nat := ceilDiv c (wordsPerBucket w)

/-- Buckets per unit S of R96 for `k` wells. -/
def slabOf (c w k : Nat) : Nat := ceilDiv (bucketCount c w) (24 * k)

/-! ## Stretch and effective rate (R205, R463) -/

/-- The stretch value of a tick: a change counts from its activation tick on (R205, R217). -/
def State.stretchAt (s : State) (p now : Nat) : Nat :=
  match ((s.part p).stretchNext.filter (fun e => decide (e.2 ≤ now))).getLast? with
  | some e => e.1
  | none => (s.part p).stretch

/-- The stretch value in force. -/
def State.stretchOf (s : State) (p : Nat) : Nat := s.stretchAt p s.devtime

/-- Slack, in thousandths, of the power record for a partition's schedule set and state; none outside INTAKE to EVALUATE. -/
def State.slackOf (s : State) (p : Nat) : Option Nat :=
  let r := s.round p
  if r.state.busy then
    some ((((s.part p).image.power.find? (fun x => x.set == r.desc.scheduleSet && x.state == r.state.code)).map PowerRecord.slack).getD 0)
  else none

/-- permille of a slack and a stretch. -/
def permilleAt (k x : Nat) : Nat := min 1000 (1024 * (1000 + k) / (1024 + x))

/-- permille of a partition, from the stretch in force. -/
def State.permille (s : State) (p : Nat) : Nat := permilleAt ((s.slackOf p).getD 0) (s.stretchOf p)

/-! ## Entering states (R48, R49, R84, R85) -/

/-- A round state shows: RND_PHASE, its interrupt bit and event 0x0102 (R84, R85). -/
def State.showState (s : State) (p : Nat) (st : RoundState) : State :=
  let s0 := if (s.round p).state = .settle ∨ (s.round p).state = .combine then s.modPart p (fun x => { x with accepted := [], acceptedTaken := false }) else s
  let s1 := s0.modRound p (fun r => { r with state := st })
  (s1.roundInt p 0).raise 0x0102 p 0 [(64, (s.round p).desc.roundId), (8, st.code)]

/-- The work of the round state begins: windlasses waiting for it go on (R209). -/
def State.releaseState (s : State) (p : Nat) : State :=
  (s.modRound p (fun r => { r with entered := insertNat r.state.code r.entered })).serveWaits p

/-- Enter a round state. -/
def State.enterState (s : State) (p : Nat) (st : RoundState) : State := (s.showState p st).releaseState p

/-- The operation of a unit, op2[7:4] (R242). -/
def PumpUnit.kind (u : PumpUnit) : Nat := u.op / 16 % 16

/-- Is a unit one that a pump applies to its banks, and not a coefficient or COPY unit? -/
def PumpUnit.applies (u : PumpUnit) : Bool := u.kind != 9 && u.kind != 10

/-- Drop the units that still wait in a well's pumps for accumulators in a range (R83). -/
def Well.dropUnits (x : Well) (first last : Nat) : Well :=
  { x with pumps := x.pumps.map (fun m => { m with queue := m.queue.filter (fun e => e.kind == 8 || e.kind == 9 || e.kind == 10 || decide (e.addr + 1 < first) || decide (last < e.addr)) }) }

/-- End the cistern ranges that the schedule set protects: zeroed and no longer armed, with nothing left in the pumps for them (R83, R116, R121, R155,
R254). -/
def State.wipeRanges (s : State) (p : Nat) : State :=
  let s1 := s.each (s.wellsOf p) (fun t w =>
    t.modWell w (fun x => ((s.armedRanges w).filter (fun e => e.1 == 0)).foldl (fun y e => (y.dropUnits e.2.1 e.2.2).zeroRange e.2.1 (e.2.2 + 1 - e.2.1)) x))
  s1.modPart p (fun x => { x with armed := false })

/-- Zero what a finished round state leaves in the running tiles of a partition (R116, R119, R155). -/
def State.wipeTiles (s : State) (p : Nat) : State := s.each (s.tilesOf p) (fun t r => t.modTile r Tile.wipe)

/-- Nothing of the shares of a round stays: entries and values of its secrets, and decryption shares (R116, R155). -/
def Round.dropShares (r : Round) : Round :=
  { r with secrets := r.secrets.map (fun x => { x with shares := [], value := none }), dshares := [], decoded := [] }

/-- Uploads in flight end with their round: slots are free, and their MSNs are refused with ABORTED (R59). -/
def State.dropUploads (s : State) (p : Nat) : State :=
  let s1 := s.each ((s.round p).uploads.filter (fun u => u.live)) (fun t u => t.modQp u.qpn (fun q =>
    { q with msgs := q.msgs.map (fun m => if m.msn = u.msn then { m with buf := .refused .aborted } else m) }))
  s1.modPart p (fun x => { x with
    slotsFree := List.range x.slotsTotal,
    round := { x.round with
      uploads := [], batch := [], cutDue := false, closeDue := false, startAt := none, abortPending := false,
      noisePending := false, ckpt := (x.round.ckpt.filter (fun c => c.phase == .complete)).or x.round.prev, prev := none },
    trapDue := none })

/-- Every ROUND_ABORT of a partition that waits completes with OK (R518). -/
def State.completeAborts (s : State) (p : Nat) : State :=
  s.each (s.cmds.filter (fun c => c.opcode == 0x03 && c.started && c.part == p)) (fun t c => t.complete c .ok 0 0)

/-- The round enters FAILED (R49, R70, R82, R83). -/
def State.failNow (s : State) (p : Nat) (st : Status) : State :=
  let r := s.round p
  let s1 := (((s.stopWindlasses p).wipeRanges p).dropUploads p).modRound p (fun x => { x.dropShares with status := st })
  let s2 := ((s1.enterState p .failed).roundInt p 4).raise 0x010A p 0 [(64, r.desc.roundId), (8, st.code), (8, r.state.code)]
  let msg := ackRecord 0x05 st p 0 r.epoch 0 r.desc.roundId s.devtime 0
  let s3 := s2.each (r.admittedQps.filter (fun n => (s.qp n).state == .active && (s.qp n).part == p)) (fun t n => t.queueRecord p n msg)
  s3.completeAborts p

/-- The round enters DONE with the status of its evaluation (R49, R51). -/
def State.finishRound (s : State) (p : Nat) (st : Status) : State :=
  let s1 := (((s.stopWindlasses p).wipeRanges p).dropUploads p).modRound p (fun x => { x.dropShares with status := st })
  ((((s1.enterState p .done).roundInt p 3).raise 0x0109 p 0 [(64, (s.round p).desc.roundId), (8, st.code)])).completeAborts p

/-- Is a round in a state from INTAKE to PUBLISH? -/
def RoundState.failable (st : RoundState) : Bool := st.busy && st != .evaluate

/-- A failure cause (R51, R82, R518): it fails a round from INTAKE to PUBLISH, ends an evaluation, and is no matter outside a round.
A round whose ROUND_ABORT waits in EVALUATE fails with ABORTED. -/
def State.failRound (s : State) (p : Nat) (st : Status) : State :=
  let r := s.round p
  if r.state.failable then s.failNow p st
  else if r.state = .evaluate then if r.abortPending then s.failNow p .aborted else s.finishRound p st
  else s

/-- What a trap does to its partition: the round fails with the status, and the other windlasses are stopped (R221). -/
def State.trapAct (s : State) (p status : Nat) : State :=
  let st := statusOf status
  if 24 ≤ p then s
  else if (s.round p).state.busy then (s.modRound p (fun r => { r with faultStatus := some (r.faultStatus.getD st) })).failRound p st
  else s.callStop p

/-- Note a trap for its partition: the round takes the status of the lowest unit that traps in the tick (R217). -/
def State.noteTrap (s : State) (p unit status : Nat) : State :=
  s.modPart p (fun x => { x with trapDue := match x.trapDue with
    | some (u, st) => if unit < u then some (unit, status) else some (u, st)
    | none => some (unit, status) })

/-- Take the traps of a tick (R217, R221). -/
def State.settleTrap (s : State) (p : Nat) : State :=
  match (s.part p).trapDue with
  | some (_, st) => (s.modPart p (fun x => { x with trapDue := none })).trapAct p st
  | none => s

/-- A halt or fault of one of the partition's wells fails its round and is recorded for its promises (R65, R82). -/
def State.faultCause (s : State) (p : Nat) (st : Status) : State :=
  if p < 24 then (s.modRound p (fun r => { r with faultStatus := some (r.faultStatus.getD st) })).failRound p st else s

/-! ## The substitution table, and a well that leaves service (R223, R228, R486) -/

/-- Owner of a well in a list of records; 0x1F when unassigned. -/
def recordOwner (rs : List PlanRecord) (w : Nat) : Nat := ((rs.find? (fun r => bit r.wells w)).map PlanRecord.partition).getD 0x1F

/-- Word n of WELL_SUBST_MAPn. -/
def Well.substWord (x : Well) (n : Nat) : Nat := (List.range 6).foldl (fun a i => a + (x.subst.getD (6 * n + i) 0x1F % 32) * 2 ^ (5 * i)) 0

/-- CRC-32C of the substitution table, as its four map words hold it (log entry 12). -/
def Well.substCrc (x : Well) : Nat := crc32c ((List.range 4).flatMap (fun n => toLE (x.substWord n) 4))

/-- Lantus stores the CRC with the table. -/
def State.storeSubstCrc (s : State) (w : Nat) : State := s.setReg (substBase w + 0x18) (s.well w).substCrc

/-- Does the table agree with its CRC? -/
def State.substGood (s : State) (w : Nat) : Bool := s.reg (substBase w + 0x18) == (s.well w).substCrc

/-- The partition whose record names a well; 0x1F when none does. -/
def State.planOwner (s : State) (w : Nat) : Nat := recordOwner s.plan.records w

/-- Lantus takes a well out of service: causes 1 owner vote, 2 substitution check, 3 LPDDR5X failed, 4 retired. -/
def State.wellOut (s : State) (w cause : Nat) : State :=
  if (s.well w).inService then
    ((s.modWell w (fun x => { x with inService := false })).raise 0x0D03 (s.planOwner w) 0 [(8, w), (8, cause)]).faultCause (s.planOwner w) .uncorrectable
  else s

/-- A use of the substitution table: a mismatch takes the well out of service with event 0x0508 (R223). -/
def State.checkSubst (s : State) (w : Nat) : State :=
  if (s.well w).inService && !s.substGood w then (s.raise 0x0508 (s.planOwner w) 0 [(8, w)]).wellOut w 2 else s

/-! ## Survivors and secrets (R80, R100, R105) -/

/-- Are two clients neighbours (R100)? -/
def neighbour (n h i j : Nat) : Bool :=
  i != j && decide (i < n) && decide (j < n) && (h == 0 || decide (n ≤ 2 * h + 1) || decide ((j + n - i) % n ≤ h) || decide ((i + n - j) % n ≤ h))

/-- The clients outside a survivor set. -/
def dropouts (n : Nat) (surv : List Nat) : List Nat := (List.range n).filter (fun i => !surv.contains i)

/-- The secrets SETTLE needs (R105). -/
def secretsOf (n h : Nat) (surv : List Nat) : List Secret :=
  surv.map (fun i => ⟨i, none, [], none, false, false⟩) ++
    (dropouts n surv).flatMap (fun d => (surv.filter (fun j => neighbour n h d j)).map (fun j => ⟨d, some j, [], none, false, false⟩))

/-- The survivor bitmap (R104): bit i of the little-endian string is client i. -/
def bitmapOf (n : Nat) (surv : List Nat) : Bytes := toLE (surv.foldl (fun a i => a + 2 ^ i) 0) (ceilDiv n 8)

/-- Write bytes into the publication region of the round's set. -/
def State.publish (s : State) (p : Nat) (bs : Bytes) : State :=
  match s.roundSet p with
  | none => s
  | some x =>
    match look x.publishRegion (s.part p).regions with
    | some g => s.devWrite (g.base + x.publishOffset) bs
    | none => s

/-- K_share goes into row 16,383 of every tile of the partition (R418). -/
def State.writeShareKey (s : State) (p : Nat) : State :=
  s.each (s.tilesOf p) (fun t r => t.modTile r (fun x => x.putRows 16383 (fit (s.part p).session.kShare 32 ++ zeros 32)))

/-- Enter SETTLE (R81, R104, R105, R124, R418). -/
def State.enterSettle (s : State) (p : Nat) : State :=
  let r := s.round p
  let n := r.desc.cohort
  let secs := secretsOf n (s.regBits (mskBase p + 4) 23 0) r.survivors
  let s1 := s.modRound p (fun x => { x with secrets := secs, holders := [], windowStart := s.devtime })
  let s2 := (((((s1.setReg (mskBase p + 0x10) secs.length).setReg (mskBase p + 0x14) 0).setReg (mskBase p + 0x18) 0).setReg
    (mskBase p + 0x30) 0).setReg (mskBase p + 0x34) 0)
  let s3 := ((s2.writeShareKey p).enterState p .settle).publish p (bitmapOf n r.survivors)
  s3.raise 0x0201 p 0 [(32, r.survivors.length), (32, n - r.survivors.length), (32, secs.length)]

/-- Is the partition's DRBG seeded? -/
def State.seeded (s : State) (p : Nat) : Bool := (s.drbg p).state == .seeded

/-- Code of a DRBG's state in RNG_STAT.state (R446). -/
def DrbgState.code : DrbgState → Nat
  | .off => 0 | .startup => 1 | .seeded => 2 | .reseedWait => 3 | .fatal => 4

/-- The prime a step names in its partition's prime table; 0 where there is none. -/
def State.primeOf (s : State) (p k : Nat) : Nat := (s.part p).image.primes.getD k 0

/-- A prime-table entry of a partition as transforms use it (R126, R127). -/
def State.modulus (s : State) (p k : Nat) : Modulus := ⟨s.primeOf p k, (s.part p).image.roots.getD k 0, s.regBits (ctxBase p) 4 0⟩

/-! ## Output blocks (R149, R150, R154)

The schedule set names where its output blocks stand; no image record carries the place. The model takes the first protected cistern range of the set in
each well: block b lies in the well of rank b mod k of k wells, header first, one after another (log entry 71). -/

/-- Buckets that one output block of a set takes. -/
def SchedSet.blockBuckets (x : SchedSet) : Nat := ceilDiv (64 + 8 * x.limbs * 2 ^ x.logN) 64

/-- Well and first bucket of an output block of the round; none where its set protects no cistern range there. -/
def State.blockAt (s : State) (p b : Nat) : Option (Nat × Nat) :=
  let k := max (s.wellsOf p).length 1
  match s.roundSet p, (s.part p).image.wellRecords[b % k]? with
  | some x, some r =>
    match r.ranges.find? (fun e => e.1 == 0 && e.2.1 == x.index), (s.wellsOf p)[b % k]? with
    | some e, some w => some (w, e.2.2.1 + b / k * x.blockBuckets)
    | _, _ => none
  | _, _ => none

/-- The header of an output block as it stands in its cistern. -/
def State.blockHeader (s : State) (p b : Nat) : CtHeader :=
  match s.blockAt p b with
  | some (w, k) => ctHeader (memRead (s.well w).cis (k * 64) 64)
  | none => ctHeader []

/-- Limbs and log_n of the output blocks: those of block 0, or of the upload shape where no header stands there. -/
def State.blockShape (s : State) (p : Nat) (x : SchedSet) : Nat × Nat :=
  let h := s.blockHeader p 0
  if h.limbs = 0 then (x.limbs, x.logN) else (h.limbs, h.logN)

/-- The output blocks that are poisoned or hold an uncorrectable header, with their causes (R150). -/
def State.poisonedOutputs (s : State) (p m : Nat) : List (Nat × Nat) :=
  (List.range m).filterMap (fun b =>
    let h := s.blockHeader p b
    if (s.blockAt p b).any (fun e => decide (e.2 ∈ (s.well e.1).cisBad)) then some (b, Status.uncorrectable.code)
    else if h.poisoned then some (b, h.cause) else none)

/-- Mark an output block poisoned with the cause of what was folded into it; a mark that stands stays (R146). -/
def State.poisonBlock (s : State) (p b cause : Nat) : State :=
  match s.blockAt p b with
  | some (w, k) =>
    let h := memRead (s.well w).cis (k * 64) 64
    if bit (rd h 8 1) 1 then s
    else s.devWrite (cisAddr w (k * 64)) (sealCrc (patch h 8 (toLE (rd h 8 1 + 2) 1 ++ toLE cause 1)))
  | none => s

/-- The limbs of one component of an output block, in coefficient form and standard form (R150, R154). -/
def State.blockComponent (s : State) (p b c : Nat) : List (List Nat) × State :=
  match s.blockAt p b with
  | some (w, k) =>
    let h := s.blockHeader p b
    let n := 2 ^ h.logN
    let d := s.devRead 0 (cisAddr w (k * 64 + 64 + 4 * n * h.limbs * c)) (4 * n * h.limbs)
    let limbs := chunks n (elems 32 d.1)
    ((limbs.zip (List.range limbs.length)).map (fun e =>
      let m := s.modulus p e.2
      let std := if h.montgomery then e.1.map (redc m.q) else e.1
      if h.form then m.coef h.logN std else std), d.2.2)
  | none => ([], s)

/-- Write bytes into the publication region of the round's set from an offset on. -/
def State.publishAt (s : State) (p off : Nat) (bs : Bytes) : State :=
  match s.roundSet p with
  | none => s
  | some x =>
    match look x.publishRegion (s.part p).regions with
    | some g => s.devWrite (g.base + x.publishOffset + off) bs
    | none => s

/-- Component 1 of every output block goes into the publication region, block after block (R150). -/
def State.writeComponents (s : State) (p m size : Nat) : State :=
  s.each (List.range m) (fun t b =>
    let r := t.blockComponent p b 1
    if r.1.isEmpty then r.2 else r.2.publishAt p (b * size) (r.1.flatMap (elemBytes 32)))

/-- The publication of component 1 on entry of COMBINE, once the DRBG is seeded (R150); the schedule's SAMPLE and MOD_ADD steps add the DP noise of R151
to component 0. -/
def State.publishComponents (s : State) (p : Nat) : State :=
  match s.roundSet p with
  | none => s
  | some x =>
    let z := s.blockShape p x
    let s1 := (s.modRound p (fun r => { r with noisePending := false })).raise 0x030B p 0 [(32, x.outputs * 2 ^ z.2), (64, s.reg64 (ctxBase p + 0x18))]
    (s1.writeComponents p x.outputs (4 * z.1 * 2 ^ z.2)).raise 0x0306 p 0 [(32, x.outputs), (32, z.1)]

/-- Enter COMBINE (R150, R151, R158, R418): a poisoned output block fails the round. -/
def State.enterCombine (s : State) (p : Nat) : State :=
  let bad := s.poisonedOutputs p (s.reg (ctxBase p + 0x64))
  let s1 := s.modRound p (fun x => { x with holders := [], dshareSet := [], dshares := [], decoded := [], poisonedBlocks := bad, windowStart := s.devtime })
  let s2 := (((s1.setReg (ctxBase p + 0x50) 0).setReg (ctxBase p + 0x60) 0).writeShareKey p).showState p .combine
  match bad with
  | (b, cause) :: _ => (s2.raise 0x0309 p 0 [(16, b), (8, cause)]).failRound p .poisonedInput
  | [] =>
    if s.seeded p then (s2.publishComponents p).releaseState p
    else (s2.modRound p (fun r => { r with noisePending := true })).raise 0x030C p 0 [(8, (s.drbg p).state.code)]

/-- The FP32 words of an output block decoded from its lifted coefficients (R154); slot packing gives free words, since no order of its FP32 sums is
stated (log entry 71). -/
def State.decodeBlock (s : State) (p b : Nat) (vs : List Int) (q : Nat) : List Nat × State :=
  let d := s.reg (ctxBase p + 0x10)
  if bit d 0 then
    if bit d 1 then let r := s.draw; (freeWords 32 (vs.length / 2) r.1, r.2) else (vs.map (decodeApprox (s.blockHeader p b).scaleLog), s)
  else (vs.map (decodeExact q (bits d 23 16) (bits d 13 8)), s)

/-- Combine and decode one output block from the shares of S (R154). -/
def State.combineBlock (s : State) (p b : Nat) : State :=
  let r := s.round p
  let c := s.blockComponent p b 0
  let l := c.1.length
  let n := (c.1.headD []).length
  let qs := (List.range l).map (s.primeOf p)
  let limbs := (c.1.zip (List.range l)).map (fun e =>
    combineLimb (s.primeOf p e.2) r.dshareSet e.1 (r.dshares.map (fun d => elems 32 (slice d (4 * n * (b * l + e.2)) (4 * n)))))
  let vs := (List.range n).map (fun j => liftResidues qs (limbs.map (fun w => w.getD j 0)))
  let d := c.2.decodeBlock p b vs (prodOf qs)
  d.2.modRound p (fun x => { x with decoded := x.decoded ++ [d.1] })

/-- A tally rises towards what has been resolved so far; how fast is not stated (log entry 72). -/
def State.raiseTally (s : State) (a hi : Nat) : State :=
  if s.reg a < hi then let r := s.draw; r.2.setReg a (s.reg a + r.1 % (hi + 1 - s.reg a)) else s

/-- Secrets resolved so far: MSK_SECRETS_DONE rises as their masks are removed (R124). -/
def State.secretsDone (s : State) (p : Nat) : State :=
  s.raiseTally (mskBase p + 0x14) ((s.round p).secrets.filter (fun x => x.value.isSome)).length

/-- The end of CLOSING: survivors are fixed and the dropout tests applied (R80). -/
def State.fixSurvivors (s : State) (p : Nat) : State :=
  let r := s.round p
  let surv := r.accums.foldl (fun l a => insertNat a.client l) []
  let dropped := r.desc.cohort - surv.length
  let s1 := (s.setReg (rndBase p + 0x28) dropped).modRound p (fun x => { x with survivors := surv })
  if r.desc.dropoutLimit < dropped ∨ (r.desc.mode = .m ∧ surv.length < r.desc.threshold) then
    (s1.raise 0x010D p 0 [(32, surv.length), (32, dropped)]).failRound p .state
  else if r.desc.mode = .m then s1.enterSettle p else s1.enterCombine p

/-- Call the closing cut once no upload is in flight (R72). -/
def State.checkClosing (s : State) (p : Nat) : State :=
  let r := s.round p
  if r.state = .closing ∧ r.uploads.isEmpty ∧ !(r.ckpt.any (fun c => c.closing)) then s.modRound p (fun x => { x with cutDue := true }) else s

/-- INTAKE closes (R49): event 0x0103 with the trigger, 0 command, 1 time, 2 cohort complete; a round that waits for its ROUND_ABORT keeps its state
(R518). -/
def State.closeIntake (s : State) (p trigger : Nat) : State :=
  if (s.round p).state = .intake ∧ !(s.round p).abortPending then
    let s1 := (s.modRound p (fun x => { x with closeDue := false, cutDue := false })).enterState p .closing
    (s1.raise 0x0103 p 0 [(64, (s.round p).desc.roundId), (32, s.reg (rndBase p + 0x20)), (8, trigger)]).checkClosing p
  else s

/-! ## Completion of a state's work (R49, R211) -/

/-- Has every logical tile issued DONE for a state? -/
def State.allDone (s : State) (p code : Nat) : Bool :=
  (s.tilesOf p).all (fun t => (s.round p).doneUnits.contains (code, s.unitOf t))

/-- Does a transfer of the model still have to leave (R49): a Strelul read or a host DMA of the partition? -/
def State.leaving (s : State) (p : Nat) : Bool :=
  s.qps.any (fun e => e.2.part == p && !e.2.reads.isEmpty) || s.cmds.any (fun c => c.opcode == 0x11 && c.part == p && c.started)

/-- Enter NOISE: shares, values and what the tiles hold of them are zeroed (R116); its work waits for the DRBG where that is not seeded (R119). -/
def State.enterNoise (s : State) (p : Nat) : State :=
  let n := (s.round p).secrets.length
  let s1 := ((s.setReg (mskBase p + 0x14) n).raise 0x0205 p 0 [(32, n)]).modRound p
    (fun r => { r with secrets := r.secrets.map (fun x => { x with removed := true, value := none, shares := [] }) })
  let s2 := (s1.wipeTiles p).showState p .noise
  if s.seeded p then s2.releaseState p
  else (s2.modRound p (fun r => { r with noisePending := true })).raise 0x0206 p 0 [(8, (s.drbg p).state.code)]

/-- Take the event that completes a state's work, if it is complete (R49, R115, R119, R121, R154, R211). -/
def State.advance (s : State) (p : Nat) : State :=
  let r := s.round p
  if !s.allDone p r.state.code ∨ r.abortPending ∨ (s.part p).trapDue.isSome then s
  else match r.state with
  | .settle => if r.secrets.all (fun x => x.value.isSome) then s.enterNoise p else s
  | .noise =>
    if r.noisePending then s
    else
    let s1 := ((s.wipeTiles p).setReg (mskBase p + 0x30) r.desc.coordinates).raise 0x0207 p 0 [(32, r.desc.coordinates), (64, s.reg64 (mskBase p + 8))]
    s1.enterState p .decode
  | .decode =>
    let s1 := (s.setReg (mskBase p + 0x34) r.desc.coordinates).wipeRanges p
    (s1.raise 0x0208 p 0 [(32, r.desc.coordinates), (8, s.regBits (mskBase p) 13 8)]).enterState p .step
  | .combine =>
    if r.desc.threshold ≤ r.dshareSet.length ∧ !r.noisePending then
      let m := s.reg (ctxBase p + 0x64)
      let s1 := (s.each (List.range m) (fun t b => t.combineBlock p b)).modRound p (fun x => { x with dshares := [] })
      let s2 := (((s1.setReg (ctxBase p + 0x60) m).wipeRanges p).wipeTiles p).raise 0x0308 p 0 [(32, m), (32, r.dshareSet.length)]
      s2.enterState p .step
    else s
  | .step => s.enterState p .publish
  | .publish => if s.leaving p then s else if r.desc.evaluate then s.enterState p .evaluate else s.finishRound p .ok
  | .evaluate => if s.leaving p then s else s.finishRound p .ok
  | _ => s

/-! ## Commands -/

/-- Halts of a well's pumps and copy channels end at a round start (R248). -/
def Well.endHalts (x : Well) : Well :=
  { x with
    pumps := x.pumps.map (fun u => { u with halted := false, haltStatus := .ok }),
    copy := x.copy.map (fun c => { c with halted := false, haltStatus := .ok }) }

/-- What the start of any round does: the substitution tables are checked, halts end, floating-point flags clear, ranges are armed, and the windlasses start 64 ticks
later (R187, R212, R223, R248, R254). -/
def State.startRound (s : State) (p kind : Nat) : State :=
  let s0 := s.each (s.wellsOf p) State.checkSubst
  let s1 := s0.each (s.wellsOf p) (fun t w => t.modWell w Well.endHalts)
  let s2 := s1.each (s.tilesOf p) (fun t r => t.setReg (tileBase r + 0x34) 0)
  let s3 := { s2 with intakes := s2.intakes.map (fun (i : Intake) => { i with overrunLogged := false }) }
  (s3.modPart p (fun x => { x with armed := true, queue := [], due := [], arrivals := [], releaseAt := none })).modRound p
    (fun r => { r with startAt := some (s.devtime + 64), startKind := kind, doneUnits := [], entered := [] })

/-- The registers that a round's opening sets: tallies zero, ring width, slab (R49, R85, R96, R124, R158). -/
def State.openRegs (s : State) (p : Nat) (d : Descriptor) (x : SchedSet) : State :=
  let s1 := [rndBase p + 0x20, rndBase p + 0x24, rndBase p + 0x28, mskBase p + 0x10, mskBase p + 0x14, mskBase p + 0x18, mskBase p + 0x30,
    mskBase p + 0x34, ctxBase p + 0x50, ctxBase p + 0x60].foldl (fun t a => t.setReg a 0) s
  let s2 := s1.setReg (ctxBase p + 0x64) x.outputs
  if d.mode = .m then
    (s2.setBits (mskBase p) 7 0 d.ringWidth).setReg (mskBase p + 0x38) (slabOf d.coordinates d.ringWidth (s.wellsOf p).length)
  else s2

/-- A valid descriptor opens a round (R49, R58, R96, R212, R254). -/
def State.openRound (s : State) (p : Nat) (d : Descriptor) (x : SchedSet) : State :=
  let s1 := s.openRegs p d x
  let r0 : Round := { desc := d, lastRoundId := d.roundId, lastCut := s.devtime, cutNumber := 0 }
  let s2 := s1.modPart p (fun y => { y with round := r0, slotsTotal := x.slots, slotsFree := List.range x.slots })
  let s3 := s2.startRound p 0
  (s3.raise 0x0101 p 0 [(64, d.roundId)]).enterState p .intake

/-- ROUND_OPEN (R46, R49). -/
def execRoundOpen (c : CmdRef) (s : State) : Result :=
  s.partCmd c 0x01 (fun k => s.withData k (fun b =>
    match s.descStatus k.part b, s.setOf k.part (descriptorOf b) with
    | .ok, some x => .next ((s.openRound k.part (descriptorOf b) x).complete k .ok 0 0)
    | st, _ => .next (s.complete k st 0 0)))

/-- ROUND_CLOSE_INTAKE (R49). -/
def execRoundCloseIntake (c : CmdRef) (s : State) : Result :=
  s.partCmd c 0x02 (fun k =>
    if (s.round k.part).state = .intake then .next ((s.closeIntake k.part 0).complete k .ok 0 0)
    else .next (s.complete k .state 0 0))

/-- The abort that waits is carried out once every windlass is at rest (R49, R518); a trap of the same tick comes first (R217). -/
def State.finishAbort (s : State) (p : Nat) : State :=
  if (s.round p).abortPending ∧ (s.round p).state.busy ∧ s.atRest p then
    if (s.part p).trapDue.isSome then s.settleTrap p else s.failNow p .aborted
  else s

/-- ROUND_ABORT (R49, R518): windlasses stop at their next step boundary; the command completes when the round enters FAILED. One that comes while another
waits changes nothing. -/
def execRoundAbort (c : CmdRef) (s : State) : Result :=
  s.partCmd c 0x03 (fun k =>
    if (s.round k.part).state.busy ∧ (s.round k.part).abortPending then .next (s.startCmd c)
    else if (s.round k.part).state.busy then
      let s1 := (s.startCmd c).modRound k.part (fun r => { r with abortPending := true, startAt := none })
      .next ((s1.callStop k.part).finishAbort k.part)
    else .next (s.complete k .state 0 0))

/-- INTAKE_CLOSE_TIME (R49). -/
def execIntakeCloseTime (p : Nat) (s : State) : Result :=
  if s.alive ∧ (s.round p).state = .intake ∧ (s.round p).desc.intakeClose ≤ s.devtime then .next (s.closeIntake p 1) else .next s

/-- SETTLE_WINDOW_EXPIRY (R82): event 0x010E and failure with STATE. The message of the last tick in the window is in time. -/
def execSettleWindowExpiry (p : Nat) (s : State) : Result :=
  let r := s.round p
  if s.alive ∧ (r.state = .settle ∨ r.state = .combine) ∧ r.windowStart + ticksOfMs r.desc.settleWindowMs ≤ s.devtime then
    .next ((s.raise 0x010E p 0 [(64, r.desc.roundId), (8, r.state.code)]).failRound p .state)
  else .next s

/-- Is a step boundary reached before a cycle: no unit holds an issued step, its results written (R219)? A step that makes no progress holds none back. -/
def Tile.atBoundary (x : Tile) (c : Nat) : Bool :=
  decide (x.headerEnd ≤ c) && ((x.busy.zip (List.range 5)).all (fun e => decide (e.1 < c) || (e.2 == 4 && x.stuckSince.isSome))) && x.flight.all (fun f => decide (f.cycle + f.span ≤ c))

/-- WINDLASS_STOP (R219): a windlass whose stop has been called stops at its step boundary; the last one lets a waiting ROUND_ABORT
take effect (R518). -/
def execWindlassStop (t : TileRef) (s : State) : Result :=
  let x := s.tile t
  if !s.alive ∨ !x.stopping ∨ !x.active ∨ (x.state = .running ∧ !x.atBoundary (s.cycle + 4)) then .next s
  else .next ((s.modTile t Tile.stop).finishAbort (s.owner t.well))

end Sys2Proof.Machine
end

