-- ==== Sys2Proof/Machine/Operands.lean ====
section
/-! DEFINITION. Windlass steps: the 32-byte format, issue and its timing, traps, accesses to the tile store with bank conflicts and hazards, and the
operand forms of R213 (06_tiles_windlass.md R186, R191 to R194, R205, R206, R213 to R216, R219 to R221). -/

namespace Sys2Proof.Machine

open Sys2Proof

/-! ## The step format (R213) -/

/-- A decoded step. -/
structure StepWord where
  opcode : Nat
  mode : Nat
  accClear : Bool
  accWrite : Bool
  count : Nat
  dst : Nat
  dstSpace : Nat
  srcA : Nat
  aSpace : Nat
  srcB : Nat
  bSpace : Nat
  strideD : Int
  strideA : Int
  strideB : Int
  prime : Nat
  aux : Nat
  ext : Nat
  pattern : Nat
  peerWell : Nat
  peerTile : Nat
  op2 : Nat
  gap : Nat
  target : Nat
  level : Nat
  deriving DecidableEq, Repr

/-- The fields of 32 bytes. -/
def stepWord (b : Bytes) : StepWord :=
  { opcode := rd b 0 1, mode := rd b 1 1 % 16, accClear := bit (rd b 1 1) 4, accWrite := bit (rd b 1 1) 5, count := rd b 2 2,
    dst := rd b 4 2 % 16384, dstSpace := rd b 4 2 / 16384, srcA := rd b 6 2 % 16384, aSpace := rd b 6 2 / 16384,
    srcB := rd b 8 2 % 16384, bSpace := rd b 8 2 / 16384,
    strideD := sgn 8 (rd b 0xA 1), strideA := sgn 8 (rd b 0xB 1), strideB := sgn 8 (rd b 0xC 1),
    prime := rd b 0xD 1 % 128, aux := rd b 0xE 2, ext := rd b 0x10 4, pattern := rd b 0x14 1 % 8,
    peerWell := rd b 0x15 1 % 32, peerTile := rd b 0x16 1 % 32, op2 := rd b 0x17 1,
    gap := rd b 0x18 2, target := rd b 0x1A 2 % 2048, level := bits (rd b 0x1A 2) 12 11 }

/-- The opcodes of R214. -/
def definedOpcodes : List Nat :=
  [0x00, 0x01, 0x02, 0x03, 0x04, 0x05, 0x06, 0x07, 0x08, 0x09, 0x10, 0x11, 0x12, 0x13, 0x14, 0x18, 0x19, 0x1A, 0x1C, 0x1D] ++
  [0x1E, 0x1F, 0x20, 0x21, 0x22, 0x23, 0x24, 0x28, 0x29, 0x2A, 0x30, 0x31, 0x38, 0x39, 0x3A] ++
  [0x40, 0x41, 0x42, 0x43, 0x44, 0x45, 0x46, 0x47, 0x48]

/-- Row index of an operand in iteration `i`. -/
def rowOf (base : Nat) (stride : Int) (i : Nat) : Nat := unsgn 14 ((base : Int) + stride * (i : Int))

/-- Limb length N of a step (R214). -/
def StepWord.limbWords (w : StepWord) : Nat := 2 ^ (w.aux % 32)

/-- What an issued step is: its word, its index, the cycle of its issue, the partition of its tile, and the tile store as it found it. -/
structure Issue where
  w : StepWord
  idx : Nat
  at_ : Nat
  part : Nat
  old : Mem
  deriving DecidableEq, Repr

/-! ## Units of a tile (R184, R185): 0 lanes, 1 NTT network, 2 base converter, 3 AES, 4 transfer -/

/-- The units an opcode occupies; none for windlass steps. -/
def unitsOf (w : StepWord) : List Nat :=
  let o := w.opcode
  if o = 0x09 then [4] else if o < 0x10 then [] else if o < 0x28 then [0] else if o < 0x30 then [1] else if o < 0x38 then [2]
  else if o = 0x39 ∧ w.dstSpace = 2 then [3, 4] else if o = 0x3A then [3, 0] else if o < 0x40 then [3] else [4]

/-- The cycle until which the units of a step are busy. -/
def Tile.unitsFree (x : Tile) (us : List Nat) : Nat := us.foldl (fun a u => max a (x.busy.getD u 0)) 0

/-- Keep units busy until a cycle. -/
def Tile.occupy (x : Tile) (us : List Nat) (till : Nat) : Tile :=
  { x with busy := us.foldl (fun (l : List Nat) u => updAt l u (fun b => max b till)) x.busy }

/-! ## Traps (R220, R221) -/

/-- A tile records its trap: TILE_TRAP, TILE_TRAP_TIME and event 0x0501 (R220). -/
def State.trapMark (s : State) (t : TileRef) (p cause status idx : Nat) : State :=
  let s1 := s.modTile t (fun x => { x with state := .trapped, waiting := none, aesKey := [], serving := none })
  let s2 := (s1.setRecord (tileBase t + 8) (2 ^ 31 + 2 ^ 27 * cause + 2 ^ 16 * (idx % 2048) + 2 ^ 8 * (status % 256))).setReg64 (tileBase t + 0x10) s.devtime
  s2.raise 0x0501 p (masterOfTile t) [(16, s.unitOf t), (8, t.tile), (8, cause), (16, idx), (8, status)]

/-- A tile traps with a cause and status at a step; the round takes it at the end of the tick (R217). -/
def State.trap (s : State) (t : TileRef) (p cause status idx : Nat) : State := (s.trapMark t p cause status idx).noteTrap p (s.unitOf t) status

/-! ## Accesses to the tile store (R191 to R193, R216) -/

/-- Order of the units at a bank: transfer, NTT network, base converter, AES unit, lanes (R193). -/
def unitRank (u : Nat) : Nat := if u = 4 then 0 else if u = 0 then 4 else u

/-- Do two touches meet in one bank in one cycle? -/
def Touch.meets (a b : Touch) : Bool :=
  decide (a.cycle < b.cycle + b.span) && decide (b.cycle < a.cycle + a.span) &&
    (decide (32 ≤ a.rows) || decide (32 ≤ b.rows) || decide ((b.row + 16384 - a.row) % 32 < a.rows) || decide ((a.row + 16384 - b.row) % 32 < b.rows))

/-- Place a touch delayed by `d` cycles among those of other units: an earlier unit of the order makes it wait, a later one waits for it. Answers the
delay, the stalls counted and the touches of the others. The fuel is the number of others and one. -/
def placeTouch : Nat → Touch → Nat → Nat → List Touch → Nat × Nat × List Touch
  | 0, _, d, n, others => (d, n, others)
  | fuel + 1, t, d, n, others =>
    let u := { t with cycle := t.cycle + d }
    match others.find? (fun o => o.meets u) with
    | none => (d, n, others)
    | some o =>
      if unitRank o.unit < unitRank t.unit then placeTouch fuel t (o.cycle + o.span - t.cycle) (n + (o.cycle + o.span - u.cycle)) others
      else placeTouch fuel t d (n + 1) (others.map (fun v => if v.unit = o.unit ∧ u.cycle ≤ v.cycle + v.span then { v with cycle := v.cycle + 1 } else v))

/-- Place a step's touches in order. -/
def placeTouches : List Touch → Nat → Nat → List Touch → List Touch → Nat × Nat × List Touch
  | [], d, n, others, own => (d, n, others ++ own)
  | t :: ts, d, n, others, own =>
    let r := placeTouch (others.length + 1) t d n others
    placeTouches ts r.1 r.2.1 r.2.2 (own ++ [{ t with cycle := t.cycle + r.1 }])

/-- Do two writes fall in one cycle and on a word of both, with the first of them by the unit that comes later in the order (R193)? -/
def Touch.losesTo (q f : Touch) : Bool :=
  q.write && f.write && decide (unitRank f.unit < unitRank q.unit) && decide (q.cycle < f.cycle + f.span) && decide (f.cycle < q.cycle + q.span) &&
    decide (q.row < f.row + f.rows) && decide (f.row < q.row + q.rows)

/-- Rows that keep what an earlier unit writes in the same cycle: this step's write of them is discarded (R193). -/
def Tile.keepRows (x : Tile) (old : Mem) (q f : Touch) : Tile :=
  let a := max q.row f.row
  { x with store := memWrite x.store (a * 64) (memRead old (a * 64) (64 * (min (q.row + q.rows) (f.row + f.rows) - a))) }

/-- The cycles by which a unit's accesses have been moved. -/
def movedBy (u : Nat) (l : List (Touch × Touch)) : Nat := l.foldl (fun a e => if e.1.unit = u then max a (e.2.cycle - e.1.cycle) else a) 0

/-- Enter a step's accesses: touches that are past leave, conflicts stall and are counted, and the first in a round raises event 0x0503; a unit that is
made to wait is busy for longer (R193). The answer holds the cycles by which the step's unit is delayed. -/
def State.touch (s : State) (t : TileRef) (i : Issue) (all : List Touch) : Nat × State :=
  let x := s.tile t
  let plan := all.filter (fun q => q.rows != 0)
  let live := x.flight.filter (fun f => decide (i.at_ ≤ f.cycle + f.span))
  let mine := live.filter (fun f => plan.any (fun q => q.unit == f.unit))
  let others := live.filter (fun f => !plan.any (fun q => q.unit == f.unit))
  let r := placeTouches plan 0 0 others []
  let lost := plan.flatMap (fun q => (others.filter (fun f => q.losesTo f)).map (fun f => (q, f)))
  let moved := others.zip r.2.2
  let s1 := (s.modTile t (fun y =>
    let z := { y with
      flight := mine ++ r.2.2,
      busy := (y.busy.zip (List.range 5)).map (fun (e : Nat × Nat) => if e.1 ≤ i.at_ then e.1 else e.1 + movedBy e.2 moved) }
    lost.foldl (fun v e => v.keepRows i.old e.1 e.2) z)).countBy (tileBase t + 0x24) r.2.1
  let s2 := if r.2.1 = 0 ∨ 24 ≤ i.part ∨ (s.round i.part).firstConflict then s1
    else (s1.modRound i.part (fun q => { q with firstConflict := true })).raise 0x0503 i.part (masterOfTile t) [(16, s.unitOf t), (16, i.idx)]
  (r.1, s2)

/-- Does another issued step still write any of `n` rows from `row` in cycle `c` or later (R216)? -/
def Tile.pendingWrite (x : Tile) (c row n : Nat) : Bool :=
  x.flight.any (fun f => f.write && decide (c ≤ f.cycle) && decide (f.row < row + n) && decide (row < f.row + f.rows))

/-- Read `n` rows in a cycle: a row that an earlier step writes in the same or a later cycle gives a free value (R216). -/
def State.rowsRead (s : State) (t : TileRef) (c row n : Nat) : Bytes × State :=
  if (s.tile t).pendingWrite c row n then let r := s.draw; (toLE r.1 (64 * n), r.2) else ((s.tile t).rowsAt row (64 * n), s)

/-- Write whole rows. -/
def State.rowsWrite (s : State) (t : TileRef) (row : Nat) (bs : Bytes) : State := s.modTile t (fun x => x.putRows row bs)

/-! ## Issue (R205, R206, R215, R220) -/

/-- Cycles from an issue to the next (R205). -/
def gapOf (gap stretch : Nat) : Nat := gap + ceilDiv (gap * stretch) 1024

/-- The 32 bytes of a step. -/
def Tile.stepBytes (x : Tile) (k : Nat) : Bytes := memRead x.steps (k * 32) 32

/-- Is a step readable, with a good CRC: none, or the trap cause (R194, R215, R220). -/
def Tile.stepFault (x : Tile) (k : Nat) : Option Nat :=
  if x.stepBad.any (fun b => b / 4 == k) then some 1
  else if !crcEndsOk (x.stepBytes k) then some 2
  else if !definedOpcodes.contains (stepWord (x.stepBytes k)).opcode then some 3 else none

/-- Note an issue: TILE_ISSUED, the index of the last step issued, and when the next falls due. -/
def State.issued (s : State) (t : TileRef) (k at_ gap stretch : Nat) : State :=
  (s.setReg64 (tileBase t + 0x18) (s.reg64 (tileBase t + 0x18) + 1)).modTile t
    (fun x => { x with last := k, next := (k + 1) % 2048, due := at_ + gapOf gap stretch })

/-- First cycle after the current tick. -/
def State.tickEnd (s : State) : Nat := s.cycle + 4

/-- Count a late issue; the first in a round raises event 0x0502 (R206). -/
def State.noteLate (s : State) (t : TileRef) (p k late : Nat) : State :=
  if late = 0 then s
  else
    let s1 := s.count (tileBase t + 0x20)
    if (s.round p).firstLate then s1
    else (s1.modRound p (fun r => { r with firstLate := true })).raise 0x0502 p (masterOfTile t) [(16, s.unitOf t), (16, k), (32, late)]

/-- The cycle at which the next step issues: when it is due, its units are free, the windlass has settled its last header, and its step-memory half is there
(R205, R206, R214). -/
def Tile.issueAt (x : Tile) (us : List Nat) : Nat := max (max (max x.due x.headerEnd) (x.unitsFree us)) (x.halves.getD (x.next / 1024) 0)

/-- Issue the NOP steps that are due (R214): they have no row of their own, and only the gap passes. One whose step-memory half is still being fetched
issues once it is there, late (R204, R206). -/
def State.skipNops (s : State) (t : TileRef) (p : Nat) : Nat → State
  | 0 => s
  | fuel + 1 =>
    let x := s.tile t
    let at_ := x.issueAt []
    if at_ < s.tickEnd ∧ (x.stepFault x.next).isNone ∧ (stepWord (x.stepBytes x.next)).opcode = 0 then
      ((s.noteLate t p x.next (at_ - x.due)).issued t x.next at_ (stepWord (x.stepBytes x.next)).gap (s.stretchAt p (at_ / 4))).skipNops t p fuel
    else s

/-- May the transfer unit take a step: no armed port, stuck step or pending random blocks before it? -/
def Tile.transferFree (x : Tile) (us : List Nat) : Bool := !us.contains 4 || (x.armed.isNone && x.stuckSince.isNone && x.rngLeft == 0)

/-- The next step of a tile, once it is due, is of an opcode, and its unit and step-memory half are free: it issues, and `run` is its operation. A bad
step traps in any row (R215, R220); a windlass that is stopped, or a step of another opcode, is left alone. -/
def State.execStep (s : State) (t : TileRef) (op : Nat) (run : TileRef → Issue → State → State) : Result :=
  let p := s.owner t.well
  let x0 := s.tile t
  if !s.alive ∨ 24 ≤ p ∨ x0.state ≠ .running ∨ x0.stopping then .next s
  else
    let s1 := s.skipNops t p 2048
    let x := s1.tile t
    if s1.tickEnd ≤ x.due then .next s
    else match x.stepFault x.next with
    | some c => .next (s1.trap t p c (if c = 3 then Status.format.code else Status.uncorrectable.code) x.next)
    | none =>
      let w := stepWord (x.stepBytes x.next)
      let us := unitsOf w
      let at_ := x.issueAt us
      if w.opcode ≠ op ∨ s1.tickEnd ≤ at_ ∨ !x.transferFree us then .next s
      else
        let s2 := (s1.noteLate t p x.next (at_ - x.due)).issued t x.next at_ w.gap (s1.stretchAt p (at_ / 4))
        .next (run t ⟨w, x.next, at_, p, x.store⟩ s2)

/-- Trap an issued step on a double-bit error in what it reads (R194). -/
def State.storeTrap (s : State) (t : TileRef) (i : Issue) : State := s.trap t i.part 4 Status.uncorrectable.code i.idx

/-! ## Vectors (R186, R191) -/

/-- Bits of an element of a lane mode. -/
def elemBits (mode : Nat) : Nat :=
  if mode = 0 ∨ mode = 2 then 32 else if mode = 3 then 16 else if mode = 4 ∨ mode = 5 ∨ mode = 6 ∨ mode = 7 then 8 else 64

/-- Rows of a vector of 128 words of `w` bits. -/
def vecRows (w : Nat) : Nat := w / 4

/-- Read one vector operand of a step: space 0 the tile store, 1 the lane accumulators, else a space that gives no value (free). -/
def State.operand (s : State) (t : TileRef) (space c row bits n : Nat) : List Nat × State :=
  if space = 0 then let r := s.rowsRead t c row (n * bits / 512); (elems bits r.1, r.2)
  else if space = 1 then ((s.tile t).accs.map (fun a => a % 2 ^ bits), s)
  else let r := s.draw; (freeWords bits n r.1, r.2)

/-- Replace the undefined words of a result by free values. -/
def State.fillFree (s : State) (bits : Nat) (l : List (Option Nat)) : List Nat × State :=
  if l.all Option.isSome then (l.map (fun o => o.getD 0), s)
  else
    let r := s.draw
    ((l.zip (freeWords bits l.length r.1)).map (fun (e : Option Nat × Nat) => e.1.getD e.2), r.2)

/-- Write one vector result to the destination of a step: the tile store, the lane accumulators, or nowhere. -/
def State.result (s : State) (t : TileRef) (space row bits : Nat) (l : List Nat) : State :=
  if space = 0 then s.rowsWrite t row (elemBytes bits l)
  else if space = 1 then s.modTile t (fun x => { x with accs := List.zipWith (fun (_ v : Nat) => v) x.accs (l.take 128) ++ x.accs.drop l.length })
  else s

end Sys2Proof.Machine
end

