-- ==== Sys2Proof/Machine/Noise.lean ====
section
/-! DEFINITION. NOISE_SAMPLE and DRBG_GENERATE (12_random.md R428 to R440; 06_tiles_windlass.md R199; 11_security.md R398). -/

namespace Sys2Proof.Machine

open Sys2Proof

/-- The fatal alarm of a source (R432, R440): the source stops, its DRBG is zeroised and FATAL, and the partition's round fails with NO_ENTROPY. -/
def State.fatalAlarm (s : State) (n : Nat) : State :=
  let s1 := s.modSource n (fun x => { x with state := .fatal })
  match s.drbgOf n with
  | none => s1.raise 0x0B04 0x1F 0 [(8, n), (8, 0x1F)]
  | some b =>
    let s2 := s1.raise 0x0B04 (drbgPart b) 0 [(8, n), (8, drbgPart b)]
    let s3 := s2.modDrbg b (fun d => { d.zeroise with state := .fatal, fatalSource := n })
    if b < 24 then s3.failRound b .noEntropy else s3

/-- A round that waits for its DRBG goes on once that is seeded: COMBINE publishes, and the work of the state begins (R119, R151). -/
def State.seededNow (s : State) (n : Nat) : State :=
  match s.drbgOf n with
  | some b =>
    if b < 24 ∧ s.seeded b ∧ (s.round b).noisePending then
      if (s.round b).state = .combine then ((s.publishComponents b).releaseState b).advance b
      else ((s.modRound b (fun r => { r with noisePending := false })).releaseState b).advance b
    else s
  | none => s

/-- NOISE_SAMPLE (R428 to R435): one raw bit of a source that samples. -/
def execNoiseSample (n : Nat) (raw : Bool) (s : State) : Result :=
  let x := s.source n
  if !s.alive ∨ (x.state ≠ .startup ∧ x.state ≠ .running) then .next s
  else
    let y := x.sample raw
    let s1 := s.modSource n (fun _ => y)
    if y.failedTest ≠ 0 then
      let s2 := s1.healthFail n y.failedTest
      .next (if y.fourth then s2.fatalAlarm n else s2)
    else if y.inBlock = 1024 then .next ((s1.blockAccepted n).seededNow n)
    else .next s1

/-- The request of a DRBG that is served next (R436): Lantus, then the tiles round-robin in ascending logical unit after the last one served. -/
def Drbg.nextReq (d : Drbg) : Option DrbgReq :=
  match d.requests.find? (fun r => r == .nonce) with
  | some r => some r
  | none =>
    let unit := fun (r : DrbgReq) => match r with | .tile u _ _ _ _ => u | .nonce => 0
    let least := fun (l : List DrbgReq) => l.foldl (fun (m : Option DrbgReq) r => match m with
      | none => some r
      | some k => if unit r < unit k then some r else some k) none
    match least (d.requests.filter (fun r => decide (d.lastUnit < unit r))) with
    | some r => some r
    | none => least d.requests

/-- Requests of tiles that no longer wait are void (R219). -/
def State.liveRequests (s : State) (d : Drbg) : List DrbgReq :=
  d.requests.filter (fun r => match r with | .tile _ w t _ _ => (s.tile ⟨w, t⟩).rngLeft != 0 | .nonce => true)

/-- One block of 64 bytes for a tile (R199): the step ends with its last block. -/
def State.serveTile (s : State) (b unit w t row left : Nat) (out : Bytes) : State :=
  let r : DrbgReq := .tile unit w t row left
  let s1 := (s.rowsWrite ⟨w, t⟩ row out).modTile ⟨w, t⟩ (fun x =>
    let y := { x with rngLeft := left - 1 }
    if left ≤ 1 then y.occupy [4] (s.cycle + 8) else y)
  s1.modDrbg b (fun d => { d with
    lastUnit := unit,
    requests := if left ≤ 1 then d.requests.filter (fun q => q ≠ r) else d.requests.map (fun q => if q = r then .tile unit w t ((row + 1) % 16384) (left - 1) else q) })

/-- DRBG_GENERATE (R436 to R439): the next waiting request of a DRBG, while it has output. -/
def execDrbgGenerate (b : Nat) (s : State) : Result :=
  let s0 := s.modDrbg b (fun d => { d with requests := s.liveRequests d })
  if !s.alive then .next s
  else match (s0.drbg b).nextReq with
  | none => .next s0
  | some r =>
    match s0.generate b with
    | (none, _) => .next s0
    | (some out, s1) =>
      match r with
      | .nonce => .next ((s1.modLantus (fun l => { l with dbgNonce := out.take 32 })).modDrbg b (fun d => { d with requests := d.requests.filter (fun q => q ≠ r) }))
      | .tile u w t row left => .next (s1.serveTile b u w t row left out)

end Sys2Proof.Machine
end

