-- ==== Sys2Proof/Machine/Strelul.lean ====
section
/-! DEFINITION. Strelul reception: frames, intakes, parsing, windows, answers, placement (09_strelul.md R300 to R302, R314 to R323, R325 to R345). -/

namespace Sys2Proof.Machine

open Sys2Proof

/-! ## Intakes and flow control (R339, R340, R343) -/

/-- Stages a frame takes in its intake. -/
def HeldFrame.stages (f : HeldFrame) : Nat := ceilDiv f.bytes.length 64

/-- Stages held. -/
def Intake.occupancy (i : Intake) : Nat := (i.frames.map HeldFrame.stages).foldl (· + ·) 0

/-- A PFC frame of one priority (R343): MAC control opcode 0x0101. -/
def State.pfcFrame (s : State) (port prio quanta : Nat) : Bytes :=
  let times := (List.range 8).flatMap (fun i => toBE (if i = prio then quanta else 0) 2)
  let body := fit (bytesOf [0x01, 0x80, 0xC2, 0, 0, 1] ++ s.macOf port ++ bytesOf [0x88, 0x08, 0x01, 0x01] ++ toBE (2 ^ prio) 2 ++ times) 60
  body ++ toLE (crcEthernet body) 4

/-- Is PFC sent for a priority (STL_PFC_CTRLn.enable)? -/
def State.pfcOn (s : State) (port prio : Nat) : Bool := bit (s.reg (stlBase + 0x20 + 4 * port)) (8 + prio)

/-- Output PFC_XOFF0 or PFC_XOFF1: high while a priority of the port that drives it (STL_PFC_CTRLn.pin_mask) has xoff set; low while RESET_N is low
(R345, R503). -/
def State.pfcXoffPin (s : State) (port : Nat) : Bool :=
  s.life != .off && s.life != .held &&
    (List.range 8).any (fun prio => bit (s.reg (stlBase + 0x20 + 4 * port)) (16 + prio) && (s.intake port prio).xoff)

/-- Is a priority's received PFC honoured (STL_PFC_CTRLn.honor)? -/
def State.pfcHonoured (s : State) (port prio : Nat) : Bool := bit (s.reg (stlBase + 0x20 + 4 * port)) prio

/-- Watermarks of an intake. -/
def State.waterHigh (s : State) (port prio : Nat) : Nat := s.regBits (intkBase port prio + 4) 23 16
def State.waterLow (s : State) (port prio : Nat) : Nat := s.regBits (intkBase port prio + 4) 7 0

/-- Send a PFC frame on a port that is up: it is a MAC control frame of no priority. -/
def State.sendPfc (s : State) (port prio quanta : Nat) : State :=
  if (s.port port).up then s.emit (.frame port (s.pfcFrame port prio quanta)) else s

/-- PFC after an intake's occupancy has risen: XOFF at the high watermark (R343). -/
def State.pfcRise (s : State) (port prio : Nat) : State :=
  let i := s.intake port prio
  if !i.xoff && s.pfcOn port prio && decide (s.waterHigh port prio ≤ i.occupancy) then
    ((s.modIntake port prio (fun x => { x with xoff := true, xoffSince := s.devtime, lastPfc := s.devtime, xoffLogged := false })).count
      (intkBase port prio + 0xC)).sendPfc port prio 0xFFFF
  else s

/-- PFC after an intake's occupancy has fallen: XON at the low watermark (R343). -/
def State.pfcFall (s : State) (port prio : Nat) : State :=
  let i := s.intake port prio
  if i.xoff && decide (i.occupancy ≤ s.waterLow port prio) then
    (s.modIntake port prio (fun x => { x with xoff := false, xoffLogged := false })).sendPfc port prio 0
  else s

/-- Release the oldest frame of an intake (R341). -/
def State.release (s : State) (port prio : Nat) : State :=
  (s.modIntake port prio (fun x => { x with frames := x.frames.drop 1 })).pfcFall port prio

/-- A frame is written into its intake; what does not fit is lost and the frame is truncated (R340). -/
def State.intakeWrite (s : State) (port prio : Nat) (bytes : Bytes) : State :=
  let i := s.intake port prio
  let room := 128 - i.occupancy
  let f : HeldFrame := ⟨bytes, false, s.devtime, none⟩
  if f.stages ≤ room then
    (s.modIntake port prio (fun x => { x with frames := x.frames ++ [f] })).pfcRise port prio
  else
    let cut : HeldFrame := ⟨bytes.take (room * 64), true, s.devtime, none⟩
    let s1 := s.modIntake port prio (fun x => { x with frames := if room = 0 then x.frames else x.frames ++ [cut], overrunLogged := true })
    let s2 := ((s1.count (intkBase port prio + 8)).setBits (intkBase port prio) 31 31 1).pfcRise port prio
    if i.overrunLogged then s2 else s2.raise 0x0807 0x1F 0 [(8, port), (8, prio)]

/-! ## Packets -/

/-- A Strelul packet of a held frame (R302, R325). -/
structure Packet where
  src : Bytes
  dst : Bytes
  ce : Bool
  header : Bytes
  ext : Bytes
  body : Bytes
  tag : Bytes
  deriving DecidableEq, Repr

def Packet.op (k : Packet) : Nat := rd k.header 0 1
def Packet.version (k : Packet) : Nat := bits (rd k.header 1 1) 3 0
def Packet.last (k : Packet) : Bool := bit (rd k.header 1 1) 5
def Packet.ackReq (k : Packet) : Bool := bit (rd k.header 1 1) 6
def Packet.path (k : Packet) : Nat := bits (rd k.header 2 1) 3 0
def Packet.cls (k : Packet) : Nat := bits (rd k.header 2 1) 5 4
def Packet.attempt (k : Packet) : Nat := rd k.header 3 1
def Packet.dstQpn (k : Packet) : Nat := rd k.header 4 3
def Packet.psn (k : Packet) : Nat := rd k.header 8 6
def Packet.srcQpn (k : Packet) : Nat := rd k.header 0x10 3
def Packet.payloadLength (k : Packet) : Nat := rd k.header 0x14 4
def Packet.sentTime (k : Packet) : Nat := rd k.header 0x18 8

/-- Extension bytes of an opcode, with its class (R326); none for an undefined opcode. -/
def opcodeForm (op : Nat) : Option (Nat × Nat) :=
  match op with
  | 0x01 => some (0, 16) | 0x02 => some (0, 24) | 0x03 => some (0, 24) | 0x04 => some (1, 8) | 0x10 => some (2, 48)
  | 0x11 => some (2, 24) | 0x12 => some (2, 16) | 0x13 => some (2, 0) | 0x14 => some (2, 0) | _ => none

/-- The packet in a frame's bytes, which end with the GCM tag. -/
def packetOf (f : Bytes) : Packet :=
  let e := match opcodeForm (rd f 66 1) with | some (_, n) => n | none => 0
  { src := slice f 26 16, dst := slice f 42 16, ce := bits (rdBE f 18 4) 21 20 == 3, header := slice f 66 32, ext := slice f 98 e,
    body := (f.drop (98 + e)).take (f.length - 16 - (98 + e)), tag := f.drop (f.length - 16) }

/-- The partition and endpoint of an address, while its partition is formed and holds a loaded image (R333 step 2). -/
def State.endpointAt (s : State) (addr : Bytes) : Option (Nat × Endpoint) :=
  (List.range 24).findSome? (fun p =>
    if s.formed p && (s.part p).image.state == .loaded then ((s.part p).image.endpoints.find? (fun e => e.address == addr)).map (fun e => (p, e))
    else none)

/-- Steps 2 to 4 of R333: the QP a packet belongs to. -/
def State.packetQp (s : State) (k : Packet) : Option Nat :=
  match s.endpointAt k.dst, opcodeForm k.op with
  | some (p, e), some (cls, n) =>
    let q := s.qp k.dstQpn
    let clsOk := k.cls == cls || (k.cls == 1 && k.op == 0x10)
    if q.state != .free && q.part == p && q.endpoint == e.index && q.remoteAddr == k.src && q.remoteQpn == k.srcQpn && k.version == 1 && clsOk &&
        k.ext.length == n && k.header.length == 32 && k.tag.length == 16 && k.body.length == k.payloadLength && decide (k.body.length ≤ 4096)
    then some k.dstQpn else none
  | _, _ => none

/-- Step 5 of R333: the plaintext, if the tag verifies. -/
def State.openPacket (s : State) (n : Nat) (k : Packet) : Option Bytes :=
  gcmOpen (s.qp n).rxKey (packetIv k.psn k.attempt k.cls) (k.header ++ k.ext) k.body k.tag

/-- An authentication failure (R333): counted; the first of each QP in each second raises event 0x0806. -/
def State.authFail (s : State) (n : Nat) : State :=
  let q := s.qp n
  let s1 := s.count (stlpBase q.part + 0x20)
  if look 0x0806 q.lastLogged = some s.second then s1
  else (s1.modQp n (fun x => { x with lastLogged := put 0x0806 s.second x.lastLogged })).raise 0x0806 q.part (0x3000 + q.part)
    [(8, q.part), (24, n), (32, 1)]

/-! ## Answers (R328, R329, R334, R335) -/

/-- Runs of consecutive numbers in a rising list: start and count. -/
def runsOf : List Nat → List (Nat × Nat)
  | [] => []
  | x :: xs =>
    match runsOf xs with
    | (a, n) :: rest => if x + 1 = a then (x, n + 1) :: rest else (x, 1) :: (a, n) :: rest
    | [] => [(x, 1)]

/-- The ACK extension (R328). -/
def Qp.ackExt (q : Qp) (cls sentTime : Nat) : Bytes :=
  let blocks := (runsOf (q.seen.getD cls [])).take 4
  toLE (q.ePsn.getD cls 0) 6 ++ toLE (min q.ceCount 65535) 2 ++ toLE sentTime 8 ++
    fit (blocks.flatMap (fun b => toLE b.1 6 ++ toLE b.2 2)) 32

/-- Send an ACK for a class on a path (R335). -/
def State.sendAck (s : State) (n cls path sentTime : Nat) : State :=
  let q := s.qp n
  (s.modQp n (fun x => { x with unacked := updAt x.unacked cls (fun _ => 0), ceCount := 0 })).sendControl n 0x10 path (q.ackExt cls sentTime) []

/-- Advance the lowest unanswered PSN past a run of answered ones. -/
def slideWindow : Nat → Nat → List Nat → Nat × List Nat
  | 0, e, l => (e, l)
  | fuel + 1, e, l => if e ∈ l then slideWindow fuel (e + 1) (l.filter (fun x => x ≠ e)) else (e, l)

/-- Mark a PSN of a class answered (R334); one below ePSN is answered already. -/
def Qp.answer (q : Qp) (cls psn : Nat) : Qp :=
  if psn < q.ePsn.getD cls 0 then q else
  let l := insertNat psn (q.seen.getD cls [])
  let r := slideWindow (l.length + 1) (q.ePsn.getD cls 0) l
  { q with ePsn := updAt q.ePsn cls (fun _ => r.1), seen := updAt q.seen cls (fun _ => r.2) }

/-- Acknowledge an answered packet as R335 says. -/
def State.acknowledge (s : State) (n : Nat) (k : Packet) : State :=
  let s1 := s.modQp n (fun x => { x with
    unacked := updAt x.unacked k.cls (· + 1), ackInfo := updAt x.ackInfo k.cls (fun _ => (k.path, k.sentTime)),
    unackedSince := if x.unacked.getD k.cls 0 = 0 then updAt x.unackedSince k.cls (fun _ => s.devtime) else x.unackedSince })
  let q := s1.qp n
  if k.ackReq || !(q.seen.getD k.cls []).isEmpty || decide (16 ≤ q.unacked.getD k.cls 0) then s1.sendAck n k.cls k.path k.sentTime else s1

/-- Note a refusal of a QP: the first of each second raises event 0x080B (R348). -/
def State.noteRefusal (s : State) (n : Nat) (st : Status) : State :=
  let q := s.qp n
  if look 0x080B q.lastLogged = some s.second then s
  else (s.modQp n (fun x => { x with lastLogged := put 0x080B s.second x.lastLogged })).raise 0x080B q.part (0x3000 + q.part)
    [(8, q.part), (24, n), (8, st.code)]

/-- The NAK extension (R329). -/
def nakExt (psn cls : Nat) (st : Status) (kind msn us : Nat) : Bytes :=
  toLE psn 6 ++ toLE cls 1 ++ zeros 1 ++ toLE st.code 1 ++ toLE kind 1 ++ zeros 2 ++ toLE msn 4 ++ toLE us 4 ++ zeros 4

/-- A receiver-not-ready NAK: the PSN stays unanswered (R316, R329). -/
def State.sendRnr (s : State) (n path psn cls msn : Nat) : State :=
  let q := s.qp n
  let us := match s.endpointOf q with | some e => e.rnrUs | none => 0
  (s.count (stlpBase q.part + 0x2C)).sendControl n 0x11 path (nakExt psn cls .notReady 1 msn us) []

/-- A NAK that answers its PSN; in compatibility mode it ends the QP (R308, R329, R334). -/
def State.sendNak (s : State) (n path psn cls : Nat) (st : Status) (kind msn : Nat) : State :=
  let q := s.qp n
  let s1 := ((s.count (stlpBase q.part + 0x28)).modQp n (fun x => x.answer cls psn)).sendControl n 0x11 path (nakExt psn cls st kind msn 0) []
  let s2 := s1.noteRefusal n st
  if q.compat ∧ kind ≠ 4 then s2.qpError n st 0x01 else s2

/-! ## Placement (R318 to R323) -/

/-- Where the bytes of an upload from message offset `o` go (R318): rank and bucket of a message bucket. -/
def uploadPlace (shard slotBase slotStride ranks k : Nat) (rotate : Bool) (m : Nat) : Nat × Nat :=
  if m = 0 then (0, slotBase + k * slotStride)
  else
    let b := m - 1
    ((b / (max shard 1) + k * b2n rotate) % (max ranks 1), slotBase + k * slotStride + b % (max shard 1) + 1)

/-- Pieces of an upload's payload from a message offset: device address and bytes of each bucket. -/
def State.uploadPieces (s : State) (p : Nat) (e : Endpoint) (k off : Nat) (bs : Bytes) : List (Nat × Bytes) :=
  let ws := s.wellsOf p
  let modeM := (s.round p).desc.mode == .m
  let shard := if modeM then 24 * s.reg (mskBase p + 0x38) else e.shard
  (chunks 64 bs).zipIdx.map (fun c =>
    let r := uploadPlace shard e.slotBase e.slotStride ws.length k (e.rotate && !modeM) (off / 64 + c.2)
    (cisAddr (ws.getD r.1 0) (r.2 * 64), c.1))

/-- Tests 5 and 6 of R323 over the pieces of a placement. -/
def State.checkPieces (s : State) (p : Nat) : List (Nat × Bytes) → Option Status × State
  | [] => (none, s)
  | (a, bs) :: rest =>
    match s.check (strelulMaster p) a bs.length 2 with
    | (some st, t) => (some st, t)
    | (none, t) => t.checkPieces p rest

/-- Write the pieces of a placement. -/
def State.writePieces (s : State) (l : List (Nat × Bytes)) : State := s.each l (fun t e => t.devWrite e.1 e.2)

/-- Tests 1 to 4 of R323 under a remote key for a range; the answer is the status, or the device address of offset 0. -/
def State.regionCheck (s : State) (p : Nat) (whole : Bool) (rkey addr len rights : Nat) : Option Status × Nat :=
  if rkey = 0xFFFFFFFF then
    if !whole then (some .refusedAccess, 0)
    else
      let inWells := match memoryAt addr with
        | some (lp, w, o) => s.owner w == p && decide (o + len ≤ (if lp then 2 ^ 35 else 2 ^ 27))
        | none => false
      (if inWells then none else some .lengthExceeds, addr)
  else
    let quota := match s.record p with | some r => r.regionQuota | none => 0
    let g := (look (rkey % 65536) (s.part p).regions).getD {}
    if quota ≤ rkey % 65536 ∨ g.state = .unused then (some .refusedAccess, 0)
    else if g.state ≠ .valid ∨ g.generation ≠ rkey / 65536 then (some .revoked, 0)
    else if g.rights &&& rights ≠ rights then (some .refusedAccess, 0)
    else if g.length < addr + len then (some .lengthExceeds, 0)
    else (none, g.base + addr)

/-- Route slots of a placement route that have passed by a tick (R288, R342). -/
def Route.passed (r : Route) (tick : Nat) : Nat :=
  let ph := tick * 6 % 2400
  r.length * (tick * 6 / 2400) + min (ph - r.start) (min r.length (2400 - r.start)) + min ph (r.start + r.length - 2400)

/-- The placement route of a rank. -/
def State.routeTo (s : State) (p rank : Nat) : Option Route := (s.part p).image.routes.find? (fun r => r.src == 0xFE && r.dst == rank)

/-- Has a commit's last unit been placed? -/
def State.placed (s : State) (c : Commit) : Bool :=
  match s.routeTo c.part c.rank with
  | some r => decide (c.done ≤ r.passed s.devtime)
  | none => true

/-- Forget the commits whose packets have been placed. -/
def State.prune (s : State) : State := { s with commits := s.commits.filter (fun c => !s.placed c) }

/-- Does a packet fit the backlog rule of R342 on the route to a rank? -/
def State.backlogFits (s : State) (p rank bytes : Nat) : Bool :=
  match s.routeTo p rank with
  | none => true
  | some r =>
    let b := ((s.commits.filter (fun c => c.part == p && c.rank == rank && !s.placed c)).map (fun c => c.bytes)).foldl (· + ·) 0
    decide (b + bytes ≤ 128 * r.length / 2)

/-- Note a committed packet on its route. -/
def State.commit (s : State) (p n : Nat) (region : Option Nat) (rank bytes : Nat) : State :=
  let base := match s.routeTo p rank with | some r => r.passed s.devtime | none => 0
  let last := (s.commits.filter (fun c => c.part == p && c.rank == rank)).foldl (fun a c => max a c.done) base
  { s.prune with commits := s.prune.commits ++ [⟨p, n, region, rank, bytes, last + ceilDiv bytes 128⟩] }

/-- Note a committed packet on each route its pieces take. -/
def State.commitLoads (s : State) (p n : Nat) (region : Option Nat) (loads : List (Nat × Nat)) : State :=
  s.each loads (fun t e => t.commit p n region e.1 e.2)

/-- Rank of the well of a device address. -/
def State.rankAt (s : State) (addr : Nat) : Nat := match memoryAt addr with | some (_, w, _) => s.rankOf w | none => 0

/-- Bytes that the pieces of a placement put on the route of each rank (R318, R342). -/
def State.loadsOf (s : State) (l : List (Nat × Bytes)) : List (Nat × Nat) :=
  l.foldl (fun m e => put (s.rankAt e.1) ((look (s.rankAt e.1) m).getD 0 + e.2.length) m) []

end Sys2Proof.Machine
end

