-- ==== Sys2Proof/Machine/Receive.lean ====
section
/-! DEFINITION. Strelul rows of reception: frames, SEND, WRITE, READ_REQ, commits, messages and admission decisions
(09_strelul.md R300 to R345, R516; 02_rounds.md R54 to R66, R92, R93; 04_ciphertext_engine.md R131). -/

namespace Sys2Proof.Machine

open Sys2Proof

/-! ## FRAME_RECEIVE -/

/-- One's-complement check value of an upper-layer datagram over the IPv6 pseudo-header; 0xFFFF when it verifies. -/
def ipSum (f : Bytes) (proto : Nat) (data : Bytes) : Nat := onesSum (slice f 26 32 ++ toBE data.length 4 ++ bytesOf [0, 0, 0, proto] ++ data)

/-- The Neighbor Advertisement that answers a solicitation for an endpoint address (R301). -/
def State.neighborReply (s : State) (port : Nat) (f : Bytes) : Option Bytes :=
  let d := f.drop 58
  let target := slice d 8 16
  if rd d 0 1 == 135 && rd d 1 1 == 0 && rd f 25 1 == 255 && decide (24 ≤ d.length) && ipSum f 58 d == 65535 && (s.endpointAt target).isSome then
    let src := slice f 26 16
    let unspec := src == zeros 16
    let dst := if unspec then bytesOf [0xFF, 2] ++ zeros 13 ++ bytesOf [1] else src
    let na0 := bytesOf [136, 0, 0, 0, if unspec then 0x20 else 0x60, 0, 0, 0] ++ target ++ bytesOf [2, 1] ++ s.macOf port
    let sum := 65535 - onesSum (target ++ dst ++ toBE na0.length 4 ++ bytesOf [0, 0, 0, 58] ++ na0)
    let na := patch na0 2 (toBE sum 2)
    let body := slice f 6 6 ++ s.macOf port ++ slice f 12 6 ++ toBE (6 * 2 ^ 28) 4 ++ toBE na.length 2 ++ bytesOf [58, 255] ++ target ++ dst ++ na
    some (body ++ toLE (crcEthernet body) 4)
  else none

/-- What R301 makes of an IPv6 frame: keep it, answer it, discard it, or count a checksum failure. -/
inductive IpVerdict where
  | keep
  | answer (frame : Bytes)
  | discard
  | badChecksum
  deriving DecidableEq, Repr

/-- The tests of R301 on a frame without its FCS. -/
def State.ipVerdict (s : State) (port : Nat) (f : Bytes) : IpVerdict :=
  if rdBE f 16 2 ≠ 0x86DD ∨ bits (rd f 18 1) 7 4 ≠ 6 ∨ f.length < 58 + rdBE f 22 2 then .discard
  else if rd f 24 1 = 58 then match s.neighborReply port f with | some r => .answer r | none => .discard
  else if rd f 24 1 ≠ 17 ∨ rdBE f 60 2 ≠ s.regBits (stlBase + 4) 15 0 ∨ rdBE f 62 2 ≠ rdBE f 22 2 ∨ rdBE f 62 2 < 8 then .discard
  else if rdBE f 64 2 = 0 ∨ ipSum f 17 (slice f 58 (rdBE f 62 2)) ≠ 65535 then .badChecksum
  else .keep

/-- FRAME_RECEIVE (R300, R301, R339): after the MAC checks a frame enters the intake of its priority. -/
def execFrameReceive (port : Nat) (frame : Bytes) (s0 : State) : Result :=
  if !s0.alive ∨ !(s0.port port).up then .next s0
  else
    let s := s0.activity
    let f := frame.take (frame.length - 4)
    if frame.length < 64 ∨ 4238 < frame.length ∨ rd frame (frame.length - 4) 4 ≠ crcEthernet f ∨ rdBE f 12 2 ≠ 0x8100 then
      .next (s.count (stlBase + 0x30))
    else
      let prio := bits (rdBE f 14 2) 15 13
      match s.ipVerdict port f with
      | .discard => .next (s.count (stlBase + 0x30))
      | .badChecksum => .next (s.count (stlBase + 0x34))
      | .answer r => .next (s.sendFrame port prio r)
      | .keep => .next (s.intakeWrite port prio (f.take (58 + rdBE f 62 2)))

/-! ## The head of an intake -/

/-- The authenticated packet at the head of an intake. -/
structure Head where
  n : Nat
  k : Packet
  data : Bytes
  deriving DecidableEq, Repr

/-- Run a row on the head packet of an intake if it carries the row's opcode (R333): packets that fail steps 2 to 5, truncated frames and
packets of no row are discarded and released. -/
def State.onHead (s : State) (port prio op : Nat) (run : Head → State → State) : Result :=
  match (s.intake port prio).frames with
  | [] => .next s
  | f :: _ =>
    if !s.alive then .next s
    else if f.truncated then .next (s.release port prio)
    else
      let k := packetOf f.bytes
      if [1, 2, 3, 0x10, 0x11, 0x12, 0x14].contains k.op && k.op != op then .next s
      else match s.packetQp k with
      | none => .next (s.release port prio)
      | some n =>
        match s.openPacket n k with
        | none => .next ((s.authFail n).release port prio)
        | some data =>
          let s1 := if k.ce then s.modQp n (fun q => { q with ceCount := q.ceCount + 1 }) else s
          if k.op = op then .next (run ⟨n, k, data⟩ s1) else .next (s1.release port prio)

/-- The outcome of the window tests of R334 for class 0. -/
inductive Window where | duplicate | beyond | fresh
  deriving DecidableEq, Repr

/-- The window tests of R334. -/
def Qp.window (q : Qp) (psn : Nat) : Window :=
  let e := q.ePsn.getD 0 0
  if psn < e ∨ psn ∈ q.seen.getD 0 [] then .duplicate else if e + 8192 ≤ psn then .beyond else .fresh

/-- Steps 6 of R333: duplicates and window drops are acknowledged at once, packets of a QP that is not ACTIVE are flushed (R307), others go on. -/
def State.windowed (s : State) (port prio : Nat) (h : Head) (msn : Nat) (go : State → State) : State :=
  match (s.qp h.n).window h.k.psn with
  | .duplicate => (s.sendAck h.n 0 h.k.path h.k.sentTime).release port prio
  | .beyond => ((s.count (stlpBase (s.qp h.n).part + 0x24)).sendAck h.n 0 h.k.path h.k.sentTime).release port prio
  | .fresh =>
    if (s.qp h.n).state ≠ .active then (s.sendNak h.n h.k.path h.k.psn 0 .flushed 4 msn).release port prio else go s

/-- Mark the head packet parsed with the region table's change count: it waits for its commit (R341). -/
def State.markParsed (s : State) (port prio : Nat) : State :=
  s.modIntake port prio (fun x => { x with frames := updAt x.frames 0 (fun f => { f with parsed := some s.regionChanges }) })

/-! ## Incoming messages (R315 to R317, R319, R516) -/

/-- Is the message complete: every packet answered (R334)? -/
def OpenMsg.complete (m : OpenMsg) : Bool :=
  match m.lastIndex with
  | some l => (List.range (l + 1)).all (fun i => m.answered.contains i)
  | none => false

/-- Status of the refused packet with the lowest PSN (R516). -/
def OpenMsg.refusal (m : OpenMsg) : Option Status :=
  (m.refusals.foldl (fun (b : Option (Nat × Status)) e => match b with | some x => if e.1 < x.1 then some e else some x | none => some e) none).map
    (fun e => e.2)

/-- Find an open message. -/
def Qp.msg (q : Qp) (msn : Nat) : Option OpenMsg := q.msgs.find? (fun m => m.msn == msn)

/-- Change an open message. -/
def State.modMsg (s : State) (n msn : Nat) (f : OpenMsg → OpenMsg) : State :=
  s.modQp n (fun q => { q with msgs := q.msgs.map (fun m => if m.msn = msn then f m else m) })

/-- Close an open message: its number has completed (R316). -/
def State.closeMsg (s : State) (n msn : Nat) : State :=
  s.modQp n (fun q => { q with
    msgs := q.msgs.filter (fun m => m.msn ≠ msn), doneMsns := insertNat ((msn + 2 ^ 32 - q.firstMsn) % 2 ^ 32) q.doneMsns })

/-- Send COMPLETE for an incoming send (R330). -/
def State.sendComplete (s : State) (n msn : Nat) (st : Status) (bytes : Nat) : State :=
  s.sendControl n 0x12 ((s.qp n).ackInfo.getD 0 (0, 0)).1 (toLE msn 4 ++ toLE st.code 1 ++ zeros 3 ++ toLE bytes 4 ++ zeros 4) []

/-- The status of a completed message that is not oversize (R320, R516). -/
def OpenMsg.status (m : OpenMsg) (room : Nat) : Status :=
  match m.refusal with | some st => st | none => if room < m.length then .lengthExceeds else .ok

/-- Device address of an upload's admission slot: that of its first bucket (R95, R210). -/
def State.slotAddr (s : State) (p : Nat) (u : Upload) : Nat :=
  let base := match (s.part p).image.endpoints.find? (fun e => e.kind == 2) with
    | some e => (e.slotBase + u.slot * e.slotStride) * 64
    | none => 0
  let r := s.round p
  let rank := match (s.part p).image.endpoints.find? (fun e => e.kind == 2) with
    | some e => if e.rotate ∧ r.desc.mode = .h then u.slot % (max (s.wellsOf p).length 1) else 0
    | none => 0
  cisAddr ((s.wellsOf p).getD (if r.desc.mode = .h then rank else 0) 0) base

/-- An admitted upload's last byte has arrived: it is queued for accumulation (R59, R209, R210). -/
def State.uploadComplete (s : State) (p : Nat) (u : Upload) : State :=
  let r := s.round p
  let addr := s.slotAddr p u
  let s1 := s.modRound p (fun x => { x with
    uploads := x.uploads.map (fun v => if v.client = u.client then { v with lastCommit := some s.devtime } else v) })
  let s2 := s1.callEntry p ⟨1, u.slot, u.client, s.devtime, addr, u.bytes, u.seq, []⟩
  if r.desc.mode = .h then
    s2.modRound p (fun x => { x with batch := x.batch ++ [u.client], batchStart := if x.batch.isEmpty then s.devtime else x.batchStart })
  else s2

/-- A batch closes (R54): an entry of source 4, with the slot of its first ciphertext and the bytes of all of them (R210). -/
def State.closeBatch (s : State) (p : Nat) : State :=
  let r := s.round p
  if r.batch.isEmpty then s
  else
    let ups := r.uploads.filter (fun u => r.batch.contains u.client && u.batchNo.isNone)
    let addr := match ups.find? (fun u => some u.client == r.batch.head?) with | some u => s.slotAddr p u | none => 0
    (s.callEntry p ⟨4, r.batchNumber % 65536, 0, s.devtime, addr, (ups.map Upload.bytes).sum, r.batchNumber + 1, []⟩).modRound p (fun x => { x with
      batch := [], batchNumber := x.batchNumber + 1,
      uploads := x.uploads.map (fun u => if r.batch.contains u.client && u.batchNo.isNone then { u with batchNo := some (r.batchNumber + 1) } else u) })

/-- Close the batch when it is full (R54). -/
def State.fillBatch (s : State) (p : Nat) : State :=
  match s.roundSet p with
  | some x => if x.mode = .h ∧ 0 < x.batchSize ∧ x.batchSize ≤ (s.round p).batch.length then s.closeBatch p else s
  | none => s

/-- A message all of whose packets are answered ends as its endpoint says (R316, R320, R330, R516). -/
def State.messageDone (s : State) (n msn : Nat) : State :=
  let q := s.qp n
  match q.msg msn with
  | none => s
  | some m =>
    if !m.complete then s
    else match m.buf with
    | .posted _ _ len =>
      let st := m.status len
      if q.compat ∧ st = .lengthExceeds then s.qpError n .lengthExceeds 0x01
      else
        let s1 := (s.closeMsg n msn).modQp n (fun x => { x with posted := x.posted.filter (fun b => b.1 ≠ (msn + 2 ^ 32 - x.firstMsn) % 2 ^ 32) })
        (s1.eventRecord q.part 0x03 st n msn m.bytes).sendComplete n msn st m.bytes
    | .slot _ =>
      match (s.round q.part).uploads.find? (fun u => u.qpn == n && u.msn == msn) with
      | some u => (((s.closeMsg n msn).sendComplete n msn .ok m.bytes).uploadComplete q.part u).fillBatch q.part
      | none => s.closeMsg n msn
    | .staging _ _ =>
      match m.refusal with
      | some st => (s.closeMsg n msn).sendComplete n msn st m.bytes
      | none => s
    | .waiting => s
    | .refused _ => s.closeMsg n msn

/-- A packet of an open message is answered with a NAK (R516): an upload is abandoned with its first refused packet. -/
def State.refusePacket (s : State) (n : Nat) (k : Packet) (msn idx : Nat) (st : Status) : State :=
  let q := s.qp n
  let s1 := s.sendNak n k.path k.psn 0 st 3 msn
  match q.msg msn with
  | none => s1
  | some m =>
    let s2 := s1.modMsg n msn (fun x => { x with
      answered := insertNat idx x.answered, refusals := (idx, st) :: x.refusals, lastIndex := if k.last then some idx else x.lastIndex })
    match m.buf with
    | .slot _ =>
      match (s.round q.part).uploads.find? (fun u => u.qpn == n && u.msn == msn) with
      | some u => ((s2.abandonUpload q.part u).checkClosing q.part).messageDone n msn
      | none => s2.messageDone n msn
    | _ => s2.messageDone n msn

/-- The format tests of R315 and R94 for a packet of a message: none when it passes. -/
def packetFormat (k : Packet) (len off idx P : Nat) (common : Option Nat) : Option Status :=
  if len = 0 then some .format
  else if 2147483648 < len then some .lengthExceeds
  else if P = 0 ∨ len < off + P ∨ (k.last ∧ off + P ≠ len) ∨ (!k.last ∧ (P % 64 ≠ 0 ∨ off ≠ idx * P ∨ common.any (fun c => c != P))) ∨
      (k.last ∧ idx = 0 ∧ off ≠ 0) ∨ (k.last ∧ common.any (fun c => off != idx * c || decide (c < P))) then some .format
  else none

/-- First free address of `need` bytes in a range beside allocated ones, which are sorted by address (R319). -/
def firstFit (base top need : Nat) : List (Nat × Nat) → Option Nat
  | [] => if base + need ≤ top then some base else none
  | (a, l) :: rest => if base + need ≤ a then some base else firstFit (max base (a + l)) top need rest

/-- Staging space in use in a partition, sorted. -/
def State.stagingUsed (s : State) (p : Nat) : List (Nat × Nat) :=
  let open1 := s.qps.flatMap (fun e => if e.2.part = p ∧ e.2.state ≠ .free then
    e.2.msgs.filterMap (fun m => match m.buf with | .staging a l => some (a, ceilDiv l 64 * 64) | _ => none) else [])
  (open1 ++ (s.part p).accepted).foldl (fun l e => put e.1 e.2 l) []

/-- The buffer of a new incoming message (R316, R317, R319); none: not ready. -/
def State.bufferFor (s : State) (n : Nat) (e : Endpoint) (msn off len : Nat) : Option MsgBuf :=
  let q := s.qp n
  if e.kind = 2 then if off = 0 then some .waiting else none
  else if e.kind = 3 ∨ e.kind = 4 then
    match look e.stagingRegion (s.part q.part).regions with
    | some g => (firstFit g.base (g.base + g.length / 64 * 64) (ceilDiv len 64 * 64) (s.stagingUsed q.part)).map (fun a => .staging a len)
    | none => none
  else (q.posted.find? (fun b => b.1 == (msn + 2 ^ 32 - q.firstMsn) % 2 ^ 32)).map (fun b => .posted b.2.1 b.2.2.1 b.2.2.2)

/-- Does an endpoint take uploads, so that R94 binds its packets? -/
def uploadRule (e : Endpoint) (off P : Nat) : Bool := e.kind != 2 || (off % 64 == 0 && P % 64 == 0)

/-- SEND (R315 to R320, R333, R334): the packet finds its message and buffer and waits for its commit, or is refused. -/
def State.sendPacketIn (s : State) (port prio : Nat) (h : Head) : State :=
  let k := h.k
  let n := h.n
  let q := s.qp n
  let msn := rd k.ext 0 4
  let off := rd k.ext 4 4
  let len := rd k.ext 8 4
  let idx := rd k.ext 12 4
  s.windowed port prio h msn (fun (s : State) =>
    match s.endpointOf q with
    | none => s.release port prio
    | some e =>
      let num := (msn + 2 ^ 32 - q.firstMsn) % 2 ^ 32
      let m : Option OpenMsg := q.msg msn
      let fmt := match packetFormat k len off idx h.data.length (m.bind (fun (x : OpenMsg) => x.common)) with
        | some st => some st
        | none => if !uploadRule e off h.data.length ∨ k.psn < idx ∨ m.any (fun (x : OpenMsg) => x.length != len || x.firstPsn + idx != k.psn) then some .format else none
      let rnr := (s.sendRnr n k.path k.psn 0 msn).release port prio
      match fmt with
      | some st => (s.refusePacket n k msn idx st).release port prio
      | none =>
        if num ∈ q.doneMsns ∨ 2 ^ 31 ≤ num then (s.sendNak n k.path k.psn 0 .format 3 msn).release port prio
        else match m with
        | some x =>
          match x.buf with
          | .refused st =>
            ((s.sendNak n k.path k.psn 0 st 2 msn).modMsg n msn (fun y => { y with
              answered := insertNat idx y.answered, lastIndex := if k.last then some idx else y.lastIndex })).messageDone n msn |>.release port prio
          | .waiting => if off = 0 ∧ x.opening.isEmpty then s.markParsed port prio else rnr
          | _ => s.markParsed port prio
        | none =>
          if 64 ≤ q.msgs.length then rnr
          else match s.bufferFor n e msn off len with
          | none => rnr
          | some b =>
            (s.modQp n (fun x => { x with msgs := x.msgs ++
              [OpenMsg.mk msn b len none (k.psn - idx) none [] [] 0 [] k.psn k.path k.sentTime] })).markParsed port prio)

/-- SEND row. -/
def execSend (port prio : Nat) (s : State) : Result := s.onHead port prio 0x01 (fun h t => t.sendPacketIn port prio h)

/-- WRITE (R315, R321, R334): format and window tests, then the packet waits for its commit. -/
def execWrite (port prio : Nat) (s : State) : Result :=
  s.onHead port prio 0x02 (fun h t =>
    let k := h.k
    t.windowed port prio h 0 (fun t =>
      match packetFormat k (rd k.ext 8 4) (rd k.ext 12 4) (rd k.ext 4 4) h.data.length none with
      | some st => (t.sendNak h.n k.path k.psn 0 st 3 0).release port prio
      | none => t.markParsed port prio))

/-- READ_REQ (R315, R322): up to 16 outstanding reads of a QP, a 17th is not ready; it takes one PSN for each response. -/
def execReadReq (port prio : Nat) (s : State) : Result :=
  s.onHead port prio 0x03 (fun h t =>
    let k := h.k
    let len := rd k.ext 8 4
    t.windowed port prio h 0 (fun t =>
      if len = 0 then (t.sendNak h.n k.path k.psn 0 .format 3 0).release port prio
      else if 2147483648 < len then (t.sendNak h.n k.path k.psn 0 .lengthExceeds 3 0).release port prio
      else if 16 ≤ (t.qp h.n).reads.length then (t.sendRnr h.n k.path k.psn 0 0).release port prio
      else
        let cnt := ceilDiv len 4096
        let t1 := t.modQp h.n (fun q => { q with
          reads := q.reads ++ [⟨k.psn, cnt, 0, rd k.ext 0 4, rd k.ext 0x10 8, len, (k.path, k.sentTime)⟩] })
        let t2 := (List.range cnt).foldl (fun u i => u.modQp h.n (fun q => q.answer 0 (k.psn + i))) t1
        (t2.acknowledge h.n k).release port prio))

/-! ## PACKET_COMMIT (R314, R323, R341, R342) -/

/-- A placed packet of a message: bytes and index noted, acknowledged, and the message ended if it was the last (R334). -/
def State.placedPacket (s : State) (n : Nat) (k : Packet) (msn idx plen bytes : Nat) : State :=
  let s1 := (s.modQp n (fun q => q.answer 0 k.psn)).modMsg n msn (fun m => { m with
    answered := insertNat idx m.answered, bytes := m.bytes + bytes, lastIndex := if k.last then some idx else m.lastIndex,
    common := if k.last then m.common else some plen })
  (s1.acknowledge n k).messageDone n msn

/-- Commit a SEND packet whose message is open. -/
def State.commitSend (s : State) (h : Head) (m : OpenMsg) : State :=
  let k := h.k
  let n := h.n
  let q := s.qp n
  let p := q.part
  let off := rd k.ext 4 4
  let idx := rd k.ext 12 4
  let place := fun (t : State) (region : Option Nat) (l : List (Nat × Bytes)) =>
    match t.checkPieces p l with
    | (some st, u) => u.refusePacket n k m.msn idx st
    | (none, u) =>
      ((u.writePieces l).commitLoads p n region (u.loadsOf l)).placedPacket n k m.msn idx h.data.length
        ((l.map (fun e => e.2.length)).foldl (· + ·) 0)
  match m.buf, s.endpointOf q with
  | .waiting, _ => s.modMsg n m.msn (fun x => { x with opening := h.data, openPsn := k.psn, openPath := k.path, openSent := k.sentTime })
  | .slot sl, some e => place s none (s.uploadPieces p e sl off h.data)
  | .staging a len, _ => place s none [(a + off, h.data.take (len - off))]
  | .posted rg ro len, _ =>
    let g := (look rg (s.part p).regions).getD {}
    match s.regionCheck p false (65536 * g.generation + rg) (ro + off) 0 2 with
    | (some st, _) => s.refusePacket n k m.msn idx st
    | (none, a) => place s (some rg) (if off < len then [(a, h.data.take (len - off))] else [])
  | .refused st, _ => (s.sendNak n k.path k.psn 0 st 2 m.msn).modMsg n m.msn (fun y => { y with answered := insertNat idx y.answered })
  | _, _ => s

/-- Commit a WRITE packet (R321, R323). -/
def State.commitWrite (s : State) (h : Head) : State :=
  let k := h.k
  let n := h.n
  let q := s.qp n
  let p := q.part
  let rkey := rd k.ext 0 4
  let off := rd k.ext 12 4
  let addr := rd k.ext 0x10 8
  let whole := match s.endpointOf q with | some e => e.wholeSpace | none => false
  let nak := fun (t : State) (st : Status) => t.sendNak n k.path k.psn 0 st 3 0
  if addr < off then nak s .lengthExceeds
  else match s.regionCheck p whole rkey (addr - off) (rd k.ext 8 4) 2 with
  | (some st, _) => nak s st
  | (none, a) =>
    match s.check (strelulMaster p) (a + off) h.data.length 2 with
    | (some st, t) => nak t st
    | (none, t) =>
      let t1 := (t.devWrite (a + off) h.data).commit p n (if rkey = 0xFFFFFFFF then none else some (rkey % 65536)) (t.rankAt a) h.data.length
      (t1.modQp n (fun x => x.answer 0 k.psn)).acknowledge n k

/-- What a parsed packet's placement puts on each route, for the backlog rule (R342); an opening message is placed at its admission. -/
def State.headLoads (s : State) (h : Head) : List (Nat × Nat) :=
  let q := s.qp h.n
  let one := fun (a : Nat) => [(s.rankAt a, h.data.length)]
  if h.k.op = 2 then
    let rkey := rd h.k.ext 0 4
    if rkey = 0xFFFFFFFF then one (rd h.k.ext 0x10 8) else one ((look (rkey % 65536) (s.part q.part).regions).getD {}).base
  else match ((q.msg (rd h.k.ext 0 4)).map (fun (m : OpenMsg) => m.buf) : Option MsgBuf), s.endpointOf q with
    | some (.slot sl), some e => s.loadsOf (s.uploadPieces q.part e sl (rd h.k.ext 4 4) h.data)
    | some (.staging a _), _ => one a
    | some (.posted rg _ _), _ => one ((look rg (s.part q.part).regions).getD {}).base
    | _, _ => []

/-- PACKET_COMMIT (R341, R342): the parsed head packet commits once its route's backlog allows; a region table changed since the parse rewinds it. -/
def execPacketCommit (port prio : Nat) (s : State) : Result :=
  match (s.intake port prio).frames with
  | f :: _ =>
    match (if s.alive then f.parsed else none) with
    | none => .next s
    | some cnt =>
      let k := packetOf f.bytes
      match s.packetQp k with
      | none => .next (s.release port prio)
      | some n =>
        match s.openPacket n k with
        | none => .next (s.release port prio)
        | some data =>
          let h : Head := ⟨n, k, data⟩
          if cnt ≠ s.regionChanges then
            .next ((s.count (intkBase port prio + 0x10)).modIntake port prio (fun x => { x with frames := updAt x.frames 0 (fun g => { g with parsed := none }) }))
          else if !(s.headLoads h).all (fun e => s.backlogFits (s.qp n).part e.1 e.2) then .next s
          else if (s.qp n).state ≠ .active then .next ((s.sendNak n k.path k.psn 0 .flushed 4 (if k.op = 1 then rd k.ext 0 4 else 0)).release port prio)
          else if k.op = 2 then .next ((s.commitWrite h).release port prio)
          else match (s.qp n).msg (rd k.ext 0 4) with
          | some m => .next ((s.commitSend h m).release port prio)
          | none => .next (s.release port prio)
  | [] => .next s

/-! ## Admission (R56 to R64, R91 to R95, R131) -/

/-- The outcome of the admission tests of R56: the failing status and refuse_reason, or admitted. -/
def State.admissionTest (s : State) (p : Nat) (hd : Bytes) (len : Nat) : Status × Nat :=
  let r := s.round p
  let live := r.state == .intake
  let modeH := if live then r.desc.mode == .h else rd hd 0 1 == 0x48
  let client := if modeH then rd hd 0xC 3 else rd hd 4 3
  let roundId := if modeH then rd hd 0x10 8 else rd hd 8 8
  let declared := if modeH then rd hd 0x20 4 else rd hd 0x10 4
  let set := s.roundSet p
  let okM := crcEndsOk hd && hd.length == 64 && rd hd 0 1 == 0x4D && rd hd 1 1 == 1 && rd hd 3 1 == s.regBits (mskBase p) 13 8 &&
    rd hd 0x20 3 == s.regBits (mskBase p + 4) 23 0 && rd hd 7 1 == 0 && declared == len &&
    (!live || (rd hd 2 1 == r.desc.ringWidth && rd hd 0x14 4 == r.desc.coordinates))
  let okH := crcEndsOk hd && hd.length == 64 && rd hd 0 1 == 0x48 && rd hd 1 1 == 1 && rd hd 4 1 + 1 == rd hd 3 1 && rd hd 6 1 == 0 && rd hd 9 1 == 0 &&
    rd hd 0xF 1 == 0 && bits (rd hd 8 1) 1 0 == 0 && !(bit (rd hd 8 1) 3) && rd hd 0x18 8 == s.reg64 (ctxBase p + 8) && declared == len &&
    (!live || (match set with
      | some x => rd hd 2 1 == x.logN && rd hd 3 1 == x.limbs && rd hd 5 1 == x.components && rd hd 0xA 1 == x.scaleLog &&
          rd hd 7 1 == s.regBits (ctxBase p + 0x10) 0 0 && !(bit (rd hd 8 1) 2)
      | none => false))
  let size := if r.desc.mode = .m then 64 + 64 * bucketCount r.desc.coordinates r.desc.ringWidth else (match set with | some x => x.uploadSize | none => 0)
  if !(if modeH then okH else okM) then (.format, 4)
  else if !live ∨ roundId ≠ r.desc.roundId then (.state, 1)
  else if r.desc.cohort ≤ client then (.format, 3)
  else if r.accums.any (fun a => a.client == client) ∨ r.uploads.any (fun u => u.client == client) then (.state, 2)
  else if size < declared then (.lengthExceeds, 5)
  else if declared < size then (.format, 5)
  else if (s.part p).holdNow then (.admissionClosed, 8)
  else if (s.part p).floorClosed then (.admissionClosed, 7)
  else if (s.part p).slotsFree.isEmpty then (.notReady, 6)
  else (.ok, 0)

/-- The promise span of an upload of B bytes (R62). -/
def State.promiseSpan (s : State) (p b : Nat) : Nat := ceilDiv (4000 * b) (7 * s.reg (rndBase p + 0x10)) + 200000

/-- Client index and round_id that an opening header carries. -/
def headerClient (hd : Bytes) : Nat := if rd hd 0 1 = 0x48 then rd hd 0xC 3 else rd hd 4 3
def headerRound (hd : Bytes) : Nat := if rd hd 0 1 = 0x48 then rd hd 0x10 8 else rd hd 8 8

/-- Refuse an opening message (R56, R64, R66, R317): REFUSE record, counters, and the MSN is marked refused. -/
def State.refuseUpload (s : State) (n : Nat) (m : OpenMsg) (st : Status) (reason : Nat) : State :=
  let p := (s.qp n).part
  let later := if st = .admissionClosed ∨ st = .notReady then s.devtime + ticksOfUs (s.regBits (rndBase p + 0x1C) 19 0) else 0
  let s1 := s.count (rndBase p + 0x30)
  let s2 := if st = .admissionClosed then s1.count (rndBase p + 0x34) else s1
  let idx := m.openPsn - m.firstPsn
  let s3 := s2.queueRecord p n (ackRecord 0x02 st p reason (s.round p).epoch (headerClient m.opening) (headerRound m.opening) later 0)
  let s4 := s3.modMsg n m.msn (fun x => { x with buf := .refused st, opening := [], answered := insertNat idx x.answered })
  (s4.sendNak n m.openPath m.openPsn 0 st 2 m.msn).messageDone n m.msn

/-- Admit an upload (R57, R58, R60, R62, R66, R72, R95, R317): the lowest free slot, the next sequence number, ADMIT, and the opening packet placed. -/
def State.admitUpload (s : State) (n : Nat) (m : OpenMsg) (e : Endpoint) : State :=
  let p := (s.qp n).part
  let r := s.round p
  let slot := (s.part p).slotsFree.headD 0
  let client := headerClient m.opening
  let seq := r.seqLast + 1
  let u : Upload := ⟨client, n, m.msn, slot, seq, s.devtime, m.length, none, false, if r.desc.mode = .m then rd m.opening 0x18 8 else 0, true, none, s.devtime⟩
  let s1 := s.modPart p (fun x => { x with
    slotsFree := x.slotsFree.filter (fun k => k ≠ slot),
    round := { x.round with
      seqLast := seq, uploads := x.round.uploads ++ [u], admittedQps := insertNat n x.round.admittedQps,
      admissionsSinceCut := x.round.admissionsSinceCut + 1,
      cutDue := x.round.cutDue || decide (r.desc.ckptAdmissions ≤ x.round.admissionsSinceCut + 1) } })
  let s2 := s1.setReg (rndBase p + 0x20) (s.reg (rndBase p + 0x20) + 1)
  let s3 := if s2.reg (rndBase p + 0x20) = r.desc.cohort then s2.modRound p (fun x => { x with closeDue := true }) else s2
  let s4 := s3.queueRecord p n (ackRecord 0x01 .ok p 0 r.epoch client r.desc.roundId (s.promiseSpan p m.length) seq)
  let s5 := s4.modMsg n m.msn (fun x => { x with buf := .slot slot, opening := [] })
  let l := s5.uploadPieces p e slot 0 m.opening
  let k : Packet := { src := [], dst := [], ce := false, body := [], tag := [], ext := [],
                      header := toLE 1 1 ++ toLE (1 + 16 + (if m.length ≤ m.opening.length then 32 else 0)) 1 ++ toLE m.openPath 1 ++ zeros 1 ++ toLE n 4 ++
                        toLE m.openPsn 8 ++ zeros 8 ++ toLE m.openSent 8 }
  match s5.checkPieces p l with
  | (some st, t) => t.refusePacket n k m.msn 0 st
  | (none, t) => ((t.writePieces l).commitLoads p n none (t.loadsOf l)).placedPacket n k m.msn 0 m.opening.length m.opening.length

/-- ADMISSION_DECISION (R56): the opening message of an MSN that waits for its decision. -/
def execAdmissionDecision (qpn msn : Nat) (s : State) : Result :=
  match (s.qp qpn).msg msn, s.endpointOf (s.qp qpn) with
  | some m, some e =>
    if s.alive ∧ m.buf = .waiting ∧ !m.opening.isEmpty ∧ (s.qp qpn).state = .active then
      match s.admissionTest (s.qp qpn).part (m.opening.take 64) m.length with
      | (.ok, _) => .next (s.admitUpload qpn m e)
      | (st, reason) => .next (s.refuseUpload qpn m st reason)
    else .next s
  | _, _ => .next s

/-- UPLOAD_WINDOW_EXPIRY (R59): the last byte has not arrived by admission time plus the window. -/
def execUploadWindowExpiry (p client : Nat) (s : State) : Result :=
  match (s.round p).uploads.find? (fun u => u.client == client) with
  | some u =>
    if s.alive ∧ u.lastCommit.isNone ∧ u.admitTime + ticksOfMs (s.round p).desc.uploadWindowMs < s.devtime then
      .next ((s.abandonUpload p u).checkClosing p)
    else .next s
  | none => .next s

/-- BATCH_TIMER_EXPIRY (R54). -/
def execBatchTimerExpiry (p : Nat) (s : State) : Result :=
  match s.roundSet p with
  | some x =>
    let r := s.round p
    if s.alive ∧ !r.batch.isEmpty ∧ r.batchStart + x.batchTimer ≤ s.devtime then .next (s.closeBatch p) else .next s
  | none => .next s

/-- QUEUE_ENTRY_POSTED (R73, R209): the oldest entry that may go enters the queue of its source if that holds fewer than 4,096; while a cut that
nothing delays is due, or its copy runs, no accumulation starts: no upload's entry in mode M, no batch's in mode H (R54, R73). -/
def execQueueEntryPosted (p : Nat) (s : State) : Result :=
  let x := s.part p
  let r := x.round
  let held := (r.cutDue && r.ckpt.all (fun c => c.phase == .complete)) || r.ckpt.any (fun c => c.phase == .copying)
  let starts := fun (e : QEntry) => e.source == (if r.desc.mode = .h then 4 else 1)
  let room := fun (e : QEntry) => decide ((x.queue.filter (fun d => d.source == e.source)).length < 4096) && !(held && starts e)
  match x.due.find? room with
  | none => .next s
  | some e =>
    if !s.alive then .next s
    else
      let s1 := s.modPart p (fun y => { y with
        due := y.due.erase e, queue := y.queue ++ [e],
        round := { y.round with uploads := y.round.uploads.map (fun u =>
          if starts e && (if r.desc.mode = .h then u.batchNo == some e.seq else u.client == e.client && u.seq == e.seq)
          then { u with posted := true, lastWrite := s.devtime } else u) } })
      .next (s1.serveWaits p)

end Sys2Proof.Machine
end

