-- ==== Sys2Proof/Machine/Transmit.lean ====
section
/-! DEFINITION. Strelul rows of transmission and of its own events: responses, acknowledgements received, timers, paths, ports, flow control, and the
commands on queue pairs and regions (09_strelul.md R305 to R314, R322, R328 to R330, R335 to R348, R515; 10_host_interface.md R374; 14_service.md R489). -/

namespace Sys2Proof.Machine

open Sys2Proof

/-! ## Paths and retransmission (R336, R338) -/

/-- A path becomes unhealthy: a PATH_DOWN record and event 0x0803 (R338). -/
def State.pathDown (s : State) (n j : Nat) : State :=
  let q := s.qp n
  if !(q.paths.getD j {}).healthy then s
  else
    let s1 := s.modQp n (fun x => { x with paths := updAt x.paths j (fun a => { a with healthy := false, downSince := s.devtime, probing := none }) })
    (s1.eventRecord q.part 0x05 .ok n j 0).raise 0x0803 q.part (0x3000 + q.part) [(8, q.part), (24, n), (8, j)]

/-- A packet sent on a path has been answered: its run of expiries ends, and the answer of its probe makes it healthy again with a PATH_UP record (R338). -/
def State.pathAnswered (s : State) (n : Nat) (k : SentPkt) : State :=
  let q := s.qp n
  let s1 := s.modQp n (fun x => { x with paths := updAt x.paths k.path (fun a => { a with expiries := 0 }) })
  s1.each ((List.range q.paths.length).filter (fun j => (q.paths.getD j {}).probing == some (k.cls, k.psn))) (fun t j =>
    (t.modQp n (fun x => { x with paths := updAt x.paths j (fun a => { a with healthy := true, probing := none, expiries := 0 }) })).eventRecord
      q.part 0x06 .ok n j 0)

/-- Change an unanswered packet. -/
def State.modSent (s : State) (n cls psn : Nat) (f : SentPkt → SentPkt) : State :=
  s.modQp n (fun q => { q with sent := q.sent.map (fun k => if k.cls = cls ∧ k.psn = psn then f k else k) })

/-- Send an unanswered packet again on a path, its attempt raised by one (R336). -/
def State.resendOn (s : State) (n : Nat) (k : SentPkt) (path : Nat) : State :=
  let s1 := s.modSent n k.cls k.psn (fun x => { x with attempt := k.attempt + 1, sentTime := s.devtime, path := path, rnrUntil := none })
  (s1.count (stlpBase (s.qp n).part + 0x30)).sendPacket n k.opcode k.first k.last true path k.cls (k.attempt + 1) k.psn k.ext k.payload

/-- Send an unanswered packet again on the next healthy path. -/
def State.resend (s : State) (n : Nat) (k : SentPkt) : State :=
  let path := (s.qp n).pickPath
  (s.modQp n (fun x => { x with nextPath := (path + 1) % (max x.pathCount 1) })).resendOn n k path

/-- A packet is declared lost (R336): sent again, or the QP ends with ABORTED beyond retry_limit, or once attempt would pass its 8 bits. -/
def State.declareLost (s : State) (n : Nat) (k : SentPkt) : State :=
  let q := s.qp n
  if q.state ≠ .active then s
  else if q.retryLimit ≤ k.retries ∨ 255 ≤ k.attempt then s.qpError n .aborted 0x01
  else (s.modSent n k.cls k.psn (fun x => { x with retries := k.retries + 1 })).resend n k

/-- Take answered packets out of the unanswered ones. -/
def State.answered (s : State) (n : Nat) (ks : List SentPkt) : State :=
  (s.modQp n (fun q => { q with sent := q.sent.filter (fun k => !ks.contains k) })).each ks (fun t k => t.pathAnswered n k)

/-- A round-trip sample, as in RFC 6298 (R336). -/
def Qp.rtt (q : Qp) (r : Nat) : Qp :=
  if q.rttValid then
    let d := if q.srtt < r then r - q.srtt else q.srtt - r
    { q with rttvar := (3 * q.rttvar + d) / 4, srtt := (7 * q.srtt + r) / 8 }
  else { q with rttValid := true, srtt := r, rttvar := r / 2 }

/-- Does an ACK extension answer a PSN (R328)? -/
def ackCovers (ext : Bytes) (psn : Nat) : Bool :=
  decide (psn < rd ext 0 6) || (List.range 4).any (fun i =>
    decide (rd ext (16 + 8 * i) 6 ≤ psn) && decide (psn < rd ext (16 + 8 * i) 6 + rd ext (22 + 8 * i) 2))

/-- An ACK for a class (R328, R336). -/
def State.ackIn (s : State) (n : Nat) (k : Packet) : State :=
  let c := if k.cls = 1 then 1 else 0
  let mine := (s.qp n).sent.filter (fun x => x.cls == c)
  let done := mine.filter (fun x => ackCovers k.ext x.psn)
  let latest := done.foldl (fun a x => max a x.sentTime) 0
  let lost := mine.filter (fun x => !ackCovers k.ext x.psn && x.rnrUntil.isNone && decide (x.sentTime + 800 ≤ latest))
  let echo := rd k.ext 8 8
  let s1 := (if echo ≤ s.devtime then s.modQp n (fun q => q.rtt (s.devtime - echo)) else s).answered n done
  s1.each lost (fun t x => t.declareLost n x)

/-- ACK (R328, R336). -/
def execAck (port prio : Nat) (s : State) : Result :=
  s.onHead port prio 0x10 (fun h t => (t.ackIn h.n h.k).release port prio)

/-- The status with which a NAK ends its message (R337): REVOKED and REFUSED_ACCESS of a packet become REMOTE_ACCESS. -/
def nakStatus (kind : Nat) (st : Status) : Status :=
  if kind = 4 then .flushed else if kind = 3 ∧ (st = .revoked ∨ st = .refusedAccess) then .remoteAccess else st

/-- A NAK (R329, R336, R337, R308). -/
def State.nakIn (s : State) (n : Nat) (k : Packet) : State :=
  let kind := rd k.ext 9 1
  match (s.qp n).sent.find? (fun x => x.cls == rd k.ext 6 1 && x.psn == rd k.ext 0 6) with
  | none => s
  | some x =>
    if kind = 1 then
      if (s.qp n).rnrLimit < 7 ∧ (s.qp n).rnrLimit ≤ x.rnr then s.qpError n .notReady 0x01
      else s.modSent n x.cls x.psn (fun y => { y with rnr := y.rnr + 1, rnrUntil := some (s.devtime + ticksOfUs (rd k.ext 0x10 4)) })
    else
      let s1 := (s.answered n [x]).modQp n (fun q => { q with sends := q.sends.filter (fun m => m ≠ rd k.ext 0xC 4) })
      if kind = 4 ∨ (s.qp n).compat then s1.qpError n (nakStatus kind (statusOf (rd k.ext 8 1))) 0x01 else s1

/-- NAK (R329, R337). -/
def execNak (port prio : Nat) (s : State) : Result :=
  s.onHead port prio 0x11 (fun h t => (t.nakIn h.n h.k).release port prio)

/-- COMPLETE (R330): the end of a send of Ostuso's. -/
def execComplete (port prio : Nat) (s : State) : Result :=
  s.onHead port prio 0x12 (fun h t => (t.modQp h.n (fun q => { q with sends := q.sends.filter (fun m => m ≠ rd h.k.ext 0 4) })).release port prio)

/-- CLOSE (R307): the peer destroys its end. -/
def execClose (port prio : Nat) (s : State) : Result :=
  s.onHead port prio 0x14 (fun h t => (t.qpError h.n .ok 0x0A).release port prio)

/-- READ_RESPONSE_SEND (R314, R322, R323, R233): the next response of the oldest outstanding READ, or the NAK that answers its PSN. -/
def execReadResponseSend (qpn : Nat) (s : State) : Result :=
  let q := s.qp qpn
  match q.reads with
  | [] => .next s
  | r :: rest =>
    if !s.alive ∨ q.state ≠ .active ∨ 8192 ≤ (q.sent.filter (fun k => k.cls == 1)).length then .next s
    else
      let off := 4096 * r.nextIdx
      let len := min 4096 (r.length - off)
      let psn := r.psn + r.nextIdx
      let whole := match s.endpointOf q with | some e => e.wholeSpace | none => false
      let next := if r.nextIdx + 1 < r.count then { r with nextIdx := r.nextIdx + 1 } :: rest else rest
      let nak := fun (t : State) (st : Status) (l : List ReadReq) =>
        (((t.modQp qpn (fun x => { x with reads := l })).sendNak qpn r.reply.1 psn 0 st 3 0).advance q.part)
      if 2 ^ 48 - 1 ≤ psn then .next (s.qpError qpn .state 0x01)
      else match s.regionCheck q.part whole r.rkey r.addr r.length 1 with
      | (some st, _) => .next (nak s st next)
      | (none, a) =>
        match s.check (strelulMaster q.part) (a + off) len 1 with
        | (some st, t) => .next (nak t st next)
        | (none, t) =>
          let d := t.devRead 0 (a + off) len
          if d.2.1 then .next (nak d.2.2 .uncorrectable rest)
          else
            let t1 := d.2.2.modQp qpn (fun x => { x with reads := next })
            .next ((t1.sendNew qpn 0x04 1 psn (r.nextIdx == 0) (r.nextIdx + 1 == r.count) (r.nextIdx + 1 == r.count)
              (toLE off 4 ++ toLE r.nextIdx 4) d.1).advance q.part)

/-- ACK_TIMER (R335): unacknowledged packets of a class wait 400 ticks at most. -/
def execAckTimer (qpn cls : Nat) (s : State) : Result :=
  let q := s.qp qpn
  if s.alive ∧ q.state ≠ .free ∧ 0 < q.unacked.getD cls 0 ∧ q.unackedSince.getD cls 0 + 400 ≤ s.devtime then
    .next (s.sendAck qpn cls (q.ackInfo.getD cls (0, 0)).1 (q.ackInfo.getD cls (0, 0)).2)
  else .next s

/-- RETRANSMIT_TIMER (R336, R338): the timer of an unanswered packet expires and doubles, up to 4 ms; three expiries in a row end a path's health. -/
def execRetransmitTimer (qpn cls psn : Nat) (s : State) : Result :=
  let q := s.qp qpn
  match q.sent.find? (fun k => k.cls == cls && k.psn == psn) with
  | none => .next s
  | some k =>
    if !s.alive ∨ q.state ≠ .active ∨ k.rnrUntil.isSome ∨ s.devtime < k.sentTime + k.timer then .next s
    else
      let s1 := s.modQp qpn (fun x => { x with paths := updAt x.paths k.path (fun a => { a with expiries := a.expiries + 1 }) })
      let s2 := if 3 ≤ ((s1.qp qpn).paths.getD k.path {}).expiries then s1.pathDown qpn k.path else s1
      let k1 := { k with timer := min (2 * k.timer) 1600000 }
      .next ((s2.modSent qpn cls psn (fun _ => k1)).declareLost qpn k1)

/-- RNR_DELAY_EXPIRY (R336): the wait of a receiver-not-ready NAK ends; the packet is sent again and does not count against retry_limit. -/
def execRnrDelayExpiry (qpn psn : Nat) (s : State) : Result :=
  let q := s.qp qpn
  match q.sent.find? (fun k => k.psn == psn && k.rnrUntil.any (fun t => decide (t ≤ s.devtime))) with
  | none => .next s
  | some k =>
    if !s.alive ∨ q.state ≠ .active then .next s
    else if 255 ≤ k.attempt then .next (s.qpError qpn .aborted 0x01)
    else .next (s.resend qpn k)

/-- PATH_PROBE (R338): 1 ms after a path became unhealthy, one unanswered packet is sent on it again. -/
def execPathProbe (qpn path : Nat) (s : State) : Result :=
  let q := s.qp qpn
  match q.paths[path]?, q.sent.find? (fun k => k.rnrUntil.isNone && decide (k.retries < q.retryLimit) && decide (k.attempt < 255)) with
  | some a, some k =>
    if !s.alive ∨ q.state ≠ .active ∨ a.healthy ∨ s.devtime < a.downSince + 400000 then .next s
    else
      let s1 := s.modQp qpn (fun x => { x with paths := updAt x.paths path (fun b => { b with probing := some (k.cls, k.psn), downSince := s.devtime }) })
      .next ((s1.modSent qpn k.cls k.psn (fun x => { x with retries := k.retries + 1 })).resendOn qpn k path)
  | _, _ => .next s

/-! ## Flow control (R343, R344, R348) -/

/-- PFC_REFRESH (R343). -/
def execPfcRefresh (port prio : Nat) (s : State) : Result :=
  let i := s.intake port prio
  if s.alive ∧ i.xoff ∧ i.lastPfc + ticksOfUs (s.regBits (stlBase + 0x28) 5 0) ≤ s.devtime then
    .next ((s.modIntake port prio (fun x => { x with lastPfc := s.devtime })).sendPfc port prio 0xFFFF)
  else .next s

/-- XOFF_LONG (R348): xoff held for 1 ms. -/
def execXoffLong (port prio : Nat) (s : State) : Result :=
  let i := s.intake port prio
  if s.alive ∧ i.xoff ∧ !i.xoffLogged ∧ i.xoffSince + 400000 ≤ s.devtime then
    .next ((s.modIntake port prio (fun x => { x with xoffLogged := true })).raise 0x0808 0x1F 0 [(8, port), (8, prio)])
  else .next s

/-- Start the frames of a priority that waited for the end of a pause (R344). -/
def State.resumePrio (s : State) (port prio : Nat) : State :=
  let w := (s.port port).txq.filter (fun e => e.1 == prio)
  (s.modPort port (fun x => { x with txq := x.txq.filter (fun e => e.1 ≠ prio) })).each w (fun t e => t.emit (.frame port e.2))

/-- Ticks of a pause time in quanta of 512 bit times at 800 Gb/s: 0.256 tick each (R343, R344). -/
def pauseTicks (quanta : Nat) : Nat := ceilDiv (256 * quanta) 1000

/-- PFC_FRAME_RECEIVE (R344): the enabled priorities whose PFC is honoured pause; pause time 0 resumes. -/
def execPfcFrameReceive (port enables : Nat) (quanta : List Nat) (s : State) : Result :=
  if !s.alive ∨ !(s.port port).up then .next s
  else
    .next (s.each ((List.range 8).filter (fun i => bit enables i && s.pfcHonoured port i)) (fun t i =>
      let q := quanta.getD i 0
      let t1 := t.modPort port (fun x => { x with paused := updAt x.paused i (fun _ => s.devtime + pauseTicks q) })
      if q = 0 then t1.resumePrio port i else t1))

/-- PFC_PAUSE_EXPIRY (R344). -/
def execPfcPauseExpiry (port prio : Nat) (s : State) : Result :=
  if !s.alive ∨ !(s.port port).up ∨ s.txPaused port prio then .next s else .next (s.resumePrio port prio)

/-! ## Ports (R300, R338, R346, R489) -/

/-- Partitions with an endpoint on a port. -/
def State.partsOnPort (s : State) (port : Nat) : List Nat :=
  (List.range 24).filter (fun p => s.formed p && (s.part p).image.state == .loaded && (s.part p).image.endpoints.any (fun e => bit e.ports port))

/-- A QP loses a port: the paths on it become unhealthy, and unanswered packets sent on it are lost (R338). -/
def State.qpPortDown (s : State) (port n : Nat) : State :=
  let q := s.qp n
  if q.state ≠ .active then s
  else
    let on := (List.range q.pathCount).filter (fun j => portOfPath q.ports j == port)
    let s1 := s.each on (fun t j => t.pathDown n j)
    s1.each (q.sent.filter (fun k => on.contains k.path && k.rnrUntil.isNone)) (fun t k => t.declareLost n k)

/-- A port goes down (R338, R346): uncommitted frames of its intakes are discarded, waiting frames are lost. -/
def State.dropPort (s : State) (port : Nat) : State :=
  if !(s.port port).up then s
  else
    let s1 := s.modPort port (fun x => { x with up := false, downSince := s.devtime, training := false, txq := [], paused := List.replicate 8 0 })
    let s2 := s1.each (List.range 8) (fun t i => t.modIntake port i (fun x => { x with frames := [], xoff := false, xoffLogged := false }))
    let s3 := s2.each (s2.partsOnPort port) (fun t p => t.eventRecord p 0x07 .ok port 0 0)
    s3.each (s3.qps.map (fun e => e.1)) (fun t n => t.qpPortDown port n)

/-- PORT_DOWN (R338, R346). -/
def execPortDown (port _cause : Nat) (s : State) : Result :=
  if !s.alive ∨ !(s.port port).up then .next s else .next ((s.dropPort port).raise 0x0801 0x1F 0 [(8, port)])

/-- PORT_UP (R300, R489): training has succeeded. -/
def execPortUp (port : Nat) (s : State) : Result :=
  if !s.alive ∨ (s.port port).up ∨ (s.port port).admin ∨ !(s.port port).training then .next s
  else
    let s1 := (s.modPort port (fun x => { x with up := true, training := false })).raise 0x0802 0x1F 0 [(8, port)]
    .next (s1.each (s1.partsOnPort port) (fun t p => t.eventRecord p 0x08 .ok port 0 0))

/-- PORT_RETRAIN (R489): a port down for another cause than admin_down is retrained every 100 ms. -/
def execPortRetrain (port : Nat) (s : State) : Result :=
  let x := s.port port
  if s.alive ∧ !x.up ∧ !x.admin ∧ x.downSince + ticksOfMs 100 ≤ s.devtime then
    .next (s.modPort port (fun y => { y with training := true, downSince := s.devtime }))
  else .next s

/-! ## Queue pairs (R305 to R309, R515) -/

/-- First test of R306: the context's own format. -/
def contextBad (b : Bytes) : Bool :=
  !crcEndsOk b || rd b 0 1 != 0x51 || !(rd b 1 1 == 1 || rd b 1 1 == 2) || !inRange (bits (rd b 3 1) 4 0) 16 || bits (rd b 3 1) 6 5 == 0 ||
    bits (rd b 0x2E 2) 2 0 == 0

/-- Queue pairs of a partition that are not FREE. -/
def State.qpsOf (s : State) (p : Nat) : List Nat := (s.qps.filter (fun e => e.2.part == p && e.2.state != .free)).map (fun e => e.1)

/-- Second and third tests of R306. -/
def State.contextStatus (s : State) (p : Nat) (b : Bytes) : Status :=
  if contextBad b then .format
  else if (s.part p).image.state ≠ .loaded ∨ (s.session p).state ≠ .active ∨ (match s.record p with | some r => r.qpQuota | none => 0) ≤ (s.qpsOf p).length then
    .notReady
  else match (s.part p).image.endpoints.find? (fun e => e.index == bits (rd b 2 1) 3 0) with
  | none => .format
  | some e =>
    let ports := bits (rd b 3 1) 6 5
    if e.ports &&& ports ≠ ports ∨ (rd b 1 1 = 2 ∧ e.kind ≠ 1) then .format else .ok

/-- The keys of a QP (R309). -/
def qpKeys (kLink : Bytes) (qpn remoteQpn : Nat) (remote : Bytes) : Bytes :=
  kmac256 kLink (toLE qpn 4 ++ toLE remoteQpn 4 ++ remote) 64 (ascii "OSTUSO QP")

/-- The queue pair of a context (R305, R307). -/
def qpOfContext (p n : Nat) (kLink b : Bytes) : Qp :=
  let keys := qpKeys kLink n (rd b 4 3) (slice b 0x18 16)
  { state := .active, part := p, compat := rd b 1 1 == 2, endpoint := bits (rd b 2 1) 3 0, pathCount := bits (rd b 3 1) 4 0,
    ports := bits (rd b 3 1) 6 5, remoteQpn := rd b 4 3, remoteAddr := slice b 0x18 16, nextHop := slice b 0x28 6,
    retryLimit := bits (rd b 0x2E 2) 2 0, rnrLimit := bits (rd b 0x2E 2) 5 3, firstMsn := rd b 0x30 4,
    txKey := keys.take 32, rxKey := keys.drop 32, txPsn := [rd b 8 6, 0, 0], ePsn := [rd b 0x10 6, 0],
    paths := List.replicate (bits (rd b 3 1) 4 0) {} }

/-- The lowest FREE queue pair. -/
def State.freeQpn (s : State) : Option Nat := (List.range 16384).find? (fun n => (look n s.qps).isNone)

/-- QP_CREATE (R305 to R307, R309). -/
def execQpCreate (c : CmdRef) (s : State) : Result :=
  s.partCmd c 0x18 (fun k => s.withData k (fun b =>
    match s.contextStatus k.part b, s.freeQpn with
    | .ok, some n => .next ((s.setQp n (qpOfContext k.part n (s.session k.part).kLink b)).complete k .ok n 0)
    | .ok, none => .next (s.complete k .notReady 0 0)
    | st, _ => .next (s.complete k st 0 0)))

/-- QP_DESTROY (R307, R515): CLOSE is sent from ACTIVE, nothing more commits, and the command completes when the QP is FREE. -/
def execQpDestroy (c : CmdRef) (s : State) : Result :=
  s.partCmd c 0x19 (fun k =>
    let n := k.p0
    let q := s.qp n
    if 16383 < n then .next (s.complete k .format 0 0)
    else if q.part ≠ k.part ∨ !(q.state == .active || q.state == .error) then .next (s.complete k .state 0 0)
    else
      let s1 := if q.state = .active then s.controlOut n 0x14 (q.nextPath % (max q.pathCount 1)) [] [] else s
      let s2 := s1.recordLost k.part n q.records.length
      let s3 := s2.modQp n (fun x => { x with state := .draining, records := [], sent := [], reads := [], posted := [], destroyCmd := some c })
      let s4 := s3.each ((s3.round k.part).uploads.filter (fun u => u.qpn == n && u.lastCommit.isNone)) (fun t u => t.abandonUpload k.part u)
      .next (((s4.checkClosing k.part).startCmd c).advance k.part))

/-- Is a QP's in-flight placement over? -/
def State.qpQuiet (s : State) (n : Nat) : Bool := s.commits.all (fun c => c.qpn != n || s.placed c)

/-- Complete a command in progress by its reference, if there is one. -/
def State.completeRef (s : State) (r : Option CmdRef) (st : Status) (result : Nat) : State :=
  match r with
  | some x => match s.cmds.find? (fun d => d.is x) with | some d => s.complete d st result 0 | none => s
  | none => s

/-- QP_DRAIN_COMPLETE (R307): keys are zeroed, the QP is FREE, and QP_DESTROY completes. -/
def execQpDrainComplete (qpn : Nat) (s : State) : Result :=
  let q := s.qp qpn
  if s.alive ∧ q.state = .draining ∧ s.qpQuiet qpn then
    let s1 := ({ s with qps := del qpn s.qps } : State).forgetQp q.part qpn
    .next ((s1.eventRecord q.part 0x02 .ok qpn 0 0).completeRef q.destroyCmd .ok 0)
  else .next s

/-! ## Regions (R310 to R314, R374) -/

/-- A region of a partition. -/
def State.region (s : State) (p r : Nat) : Region := (look r (s.part p).regions).getD {}

/-- Set a region: the region table changes (R341). -/
def State.setRegion (s : State) (p r : Nat) (g : Region) : State :=
  { s.modPart p (fun x => { x with regions := put r g x.regions }) with regionChanges := s.regionChanges + 1 }

/-- Does a range lie within one cistern or LPDDR5X device of a well of the partition (R310)? -/
def State.rangeFits (s : State) (p base len : Nat) : Bool :=
  match memoryAt base with
  | some (lp, w, o) => s.owner w == p && decide (1 ≤ len) && decide (o + len ≤ (if lp then 2 ^ 35 else 2 ^ 27))
  | none => false

/-- Tests of R312 on a region record. -/
def State.regionStatus (s : State) (p : Nat) (b : Bytes) : Status :=
  let id := rd b 2 2
  let base := rd b 8 8
  let len := rd b 0x10 8
  let rights := bits (rd b 1 1) 1 0
  if !crcEndsOk b ∨ rd b 0 1 ≠ 0x52 ∨ base % 64 ≠ 0 ∨ !s.rangeFits p base len ∨ (match s.record p with | some r => r.regionQuota | none => 0) ≤ id then .format
  else
    let pins := fun (g : Region) => g.state == .valid || g.state == .revoking
    if pins (s.region p id) ∨ (s.part p).regions.any (fun e => e.1 != id && pins e.2 && decide (e.2.base < base + len) &&
        decide (base < e.2.base + e.2.length) && (bit rights 1 || bit e.2.rights 1)) then .state
    else .ok

/-- Register a region (R312, R313): its generation goes on. -/
def State.registerRegion (s : State) (p : Nat) (b : Bytes) : State :=
  s.setRegion p (rd b 2 2)
    { state := .valid, generation := (s.region p (rd b 2 2)).generation, base := rd b 8 8, length := rd b 0x10 8, rights := bits (rd b 1 1) 1 0 }

/-- REGION_REGISTER (R310, R312, R313). -/
def execRegionRegister (c : CmdRef) (s : State) : Result :=
  s.partCmd c 0x1A (fun k => s.withData k (fun b =>
    match s.regionStatus k.part b with
    | .ok => .next ((s.registerRegion k.part b).complete k .ok 0 0)
    | st => .next (s.complete k st 0 0)))

/-- REGION_REVOKE (R313): the state changes in the tick of acceptance. -/
def execRegionRevoke (c : CmdRef) (s : State) : Result :=
  s.partCmd c 0x1B (fun k =>
    let g := s.region k.part k.p0
    if g.state ≠ .valid then .next (s.complete k .state 0 0)
    else .next ((s.setRegion k.part k.p0 { g with state := .revoking, revoker := some c }).startCmd c))

/-- The next generation of a region (R311): 0xFFFF is never one. -/
def nextGeneration (g : Nat) : Nat := if 0xFFFE ≤ g then 0 else g + 1

/-- REGION_INFLIGHT_ZERO (R313, R314). -/
def execRegionInflightZero (p region : Nat) (s : State) : Result :=
  let g := s.region p region
  if s.alive ∧ g.state = .revoking ∧ s.commits.all (fun c => !(c.part == p && c.region == some region) || s.placed c) then
    let gen := nextGeneration g.generation
    let s1 := s.setRegion p region { g with state := .gone, generation := gen, revoker := none }
    .next (((s1.eventRecord p 0x04 .ok region 0 0).raise 0x0805 p (0x3000 + p) [(8, p), (16, region), (16, gen)]).completeRef g.revoker .ok 0)
  else .next s

/-- The status of RECV_POST (R374). -/
def State.postStatus (s : State) (p : Nat) (k : Cmd) : Status :=
  let q := s.qp k.p0
  let g := s.region p (k.p2 % 65536)
  let general := match s.endpointOf q with | some e => e.kind == 1 | none => false
  if q.state ≠ .active ∨ q.part ≠ p ∨ !general ∨ g.state ≠ .valid then .state
  else if k.length = 0 ∨ 2147483648 < k.length ∨ g.length < k.p1 + k.length then .lengthExceeds
  else if 4096 ≤ q.posted.length then .notReady
  else .ok

/-- RECV_POST (R374). -/
def execRecvPost (c : CmdRef) (s : State) : Result :=
  s.partCmd c 0x1C (fun k =>
    match s.postStatus k.part k with
    | .ok =>
      let s1 := s.modQp k.p0 (fun q => { q with
        posted := q.posted ++ [(q.postedCount % 2 ^ 32, k.p2 % 65536, k.p1, k.length)], postedCount := q.postedCount + 1 })
      .next (s1.complete k .ok 0 0)
    | st => .next (s.complete k st 0 0))

end Sys2Proof.Machine
end

