-- ==== Sys2Proof/Machine/Checkpoint.lean ====
section
/-! DEFINITION. Accumulation, promises, checkpoints and resumption (02_rounds.md R62 to R80; 11_security.md R419; 10_host_interface.md R514). -/

namespace Sys2Proof.Machine

open Sys2Proof

/-! ## Accumulation and promises (R63, R65, R67) -/

/-- The queue entry by which an upload is accumulated: its own, or in mode H that of its batch (R54, R209). -/
def Upload.tag (u : Upload) (mode : Mode) : Option (Nat × Nat) := if mode = .h then u.batchNo.map (fun b => (4, b)) else some (1, u.seq)

/-- Is an upload's accumulation over: its entry posted and taken by every tile, no tile at work on it, and every unit sent for it applied (R67, R209)? -/
def State.accumulated (s : State) (p : Nat) (u : Upload) : Bool :=
  let x := s.part p
  match u.tag x.round.desc.mode with
  | none => false
  | some g =>
    u.lastCommit.isSome && u.posted && !(x.queue ++ x.due).any (fun e => e.source == g.1 && e.seq == g.2) &&
      (s.tilesOf p).all (fun r => (s.tile r).serving != some g) && (s.wellsOf p).all (fun w => (s.well w).pumps.all (fun m => m.queue.all (fun e => e.tag != some g)))

/-- UPLOAD_ACCUMULATED (R67): the accumulation time is the tick of the upload's last pump write; records leave in the order of those times, the slot is
free, and the seed_commit enters the commitment table (R114), which the model keeps with the accumulated uploads (log entry 73). -/
def execUploadAccumulated (p client : Nat) (s : State) : Result :=
  match (s.round p).uploads.find? (fun u => u.client == client) with
  | none => .next s
  | some u =>
    if !s.alive ∨ !s.accumulated p u ∨ (s.round p).uploads.any (fun v => s.accumulated p v && decide (v.lastWrite < u.lastWrite)) then .next s
    else
      let r := s.round p
      let s1 := s.modPart p (fun x => { x with
        slotsFree := insertNat u.slot x.slotsFree,
        round := { x.round with
          uploads := x.round.uploads.filter (fun v => v.client ≠ client),
          accums := x.round.accums ++ [⟨client, u.qpn, u.lastWrite, r.epoch, false, u.seedCommit, u.live⟩] } })
      let s2 := s1.setReg (rndBase p + 0x24) (s.reg (rndBase p + 0x24) + 1)
      let s3 := s2.recordFor p u.qpn u.live (ackRecord 0x03 .ok p 0 r.epoch client r.desc.roundId u.lastWrite u.seq)
      .next (s3.checkClosing p)

/-- PROMISE_DEADLINE (R62, R65): the deadline has passed without accumulation. -/
def execPromiseDeadline (p client : Nat) (s : State) : Result :=
  match (s.round p).uploads.find? (fun u => u.client == client) with
  | none => .next s
  | some u =>
    match u.lastCommit with
    | none => .next s
    | some t =>
      let deadline := t + s.promiseSpan p u.bytes
      if !s.alive ∨ s.devtime ≤ deadline then .next s
      else
        let s1 := (s.roundInt p 7).raise 0x0108 p 0 [(24, client), (32, u.seq), (48, deadline)]
        .next (s1.failRound p ((s.round p).faultStatus.getD .state))

/-- ADMISSION_REOPEN (R63): the effective rate has stayed at 75 % of nominal or above for 1 ms. -/
def execAdmissionReopen (p : Nat) (s : State) : Result :=
  let x := s.part p
  if s.alive ∧ x.floorClosed ∧ x.recoverSince.any (fun t => decide (t + 400000 ≤ s.devtime)) then
    .next (((s.modPart p (fun y => { y with floorClosed := false, recoverSince := none })).roundInt p 6).raise 0x0105 p 0
      [(16, s.permille p)])
  else .next s

/-! ## Cuts (R71 to R73) -/

/-- Is the way free for a cut: no checkpoint lies between its cut and its completion (R71, R72)? -/
def Round.areaFree (r : Round) : Bool := r.ckpt.all (fun c => c.phase == .complete)

/-- CHECKPOINT_INTERVAL (R72). -/
def execCheckpointInterval (p : Nat) (s : State) : Result :=
  let r := s.round p
  if s.alive ∧ r.state = .intake ∧ r.lastCut + ticksOfMs r.desc.ckptIntervalMs ≤ s.devtime then
    .next (s.modRound p (fun x => { x with cutDue := true }))
  else .next s

/-- May the cut be taken: called, in INTAKE or at the end of CLOSING, the way free, and every accumulation in progress completed before this tick (R72, R73)? -/
def Round.mayCut (r : Round) (now : Nat) : Bool :=
  r.areaFree && r.accums.all (fun a => decide (a.time < now) || decide (a.epoch ≠ r.epoch)) && r.uploads.all (fun u => !u.posted) &&
    ((r.state == .intake && r.cutDue) || (r.state == .closing && r.uploads.isEmpty && !r.ckpt.any (fun c => c.closing)))

/-- CHECKPOINT_CUT (R71 to R73): the copy holds exactly the uploads accumulated before this tick. -/
def execCheckpointCut (p : Nat) (s : State) : Result :=
  let r := s.round p
  if !s.alive ∨ r.abortPending ∨ !r.mayCut s.devtime then .next s
  else
    let n := r.cutNumber + 1
    let c : Ckpt :=
      { number := n, cutTime := s.devtime, closing := r.state == .closing, phase := .copying,
        clients := r.accums.map (fun a => (a.client, a.seedCommit)), ranges := [], notified := [], seqLast := r.seqLast,
        admitted := s.reg (rndBase p + 0x20), accumulated := s.reg (rndBase p + 0x24), sealed := [] }
    let s1 := s.modRound p (fun x => { x with ckpt := some c, prev := x.ckpt, cutNumber := n, cutDue := false, admissionsSinceCut := 0, lastCut := s.devtime })
    .next (s1.callEntry p ⟨3, 0, 0, s.devtime, 0, 0, n, []⟩)

/-! ## Sealing (R73, R76, R419) -/

/-- The bytes of a descriptor (R45). -/
def Descriptor.bytes (d : Descriptor) : Bytes :=
  sealCrc (toLE d.roundId 8 ++ toLE d.mode.code 1 ++ toLE d.ringWidth 1 ++ toLE (b2n d.evaluate + 2 * b2n d.check) 2 ++ toLE d.cohort 4 ++
    toLE d.dropoutLimit 4 ++ toLE d.threshold 4 ++ toLE d.coordinates 4 ++ toLE d.ckptAdmissions 2 ++ toLE d.ckptIntervalMs 2 ++
    toLE d.intakeClose 8 ++ toLE d.uploadWindowMs 4 ++ toLE d.settleWindowMs 4 ++ toLE d.scheduleSet 2 ++ zeros 10 ++ zeros 4)

/-- The digest of the loaded image by its vote (R261). -/
def Image.digest (i : Image) : Bytes := (vote (i.digestCopies.getD 0 []) (i.digestCopies.getD 1 []) (i.digestCopies.getD 2 [])).getD []

/-- The initialisation vector of a seal (R419). -/
def sealIv (number epoch p : Nat) : Bytes := toLE number 4 ++ toLE epoch 1 ++ toLE p 1 ++ zeros 6

/-- The sealed checkpoint header of R76, in the model's own layout (log entry 11): 164 bytes, the copied ranges by rank, and for the closing
checkpoint the survivor bitmap. -/
def State.ckptHeader (s : State) (p : Nat) (c : Ckpt) : Bytes :=
  let r := s.round p
  let surv := c.clients.foldl (fun l a => insertNat a.1 l) []
  let dir := c.ranges.flatMap (fun g => toLE (s.rankOf g.well) 4 ++ toLE g.src 4 ++ toLE g.count 4)
  toLE r.desc.roundId 8 ++ r.desc.bytes ++ fit (s.part p).image.digest 32 ++ toLE c.number 4 ++ toLE r.epoch 1 ++ toLE p 1 ++ toLE (b2n c.closing) 1 ++
    zeros 1 ++ toLE c.cutTime 8 ++ toLE c.seqLast 4 ++ toLE c.admitted 4 ++ toLE c.accumulated 4 ++
    toLE (if c.closing then r.desc.cohort - surv.length else 0) 4 ++ toLE c.ranges.length 4 ++ toLE c.clients.length 4 ++ zeros 20 ++ dir ++
    (if c.closing then bitmapOf r.desc.cohort surv else [])

/-- The copied ranges as they stand in the checkpoint area. -/
def State.ckptCopy (s : State) (c : Ckpt) : Bytes × State :=
  c.ranges.foldl (fun (acc : Bytes × State) g =>
    let d := acc.2.devRead 0 (lpxAddr g.well (g.dst * 64)) (g.count * 64)
    (acc.1 ++ d.1, d.2.2)) ([], s)

/-- CHECKPOINT_SEALED (R73, R419): the copy is sealed and the checkpoint ready; an unusable slot fails the round. -/
def execCheckpointSealed (p : Nat) (s : State) : Result :=
  let r := s.round p
  match r.ckpt with
  | none => .next s
  | some c =>
    let slot := (s.part p).image.ckptSlot
    if !s.serves ∨ c.phase ≠ .sealing then .next s
    else if !s.usable slot ∨ !(bit (s.slot slot).attrWord 2) then
      .next (((s.modRound p (fun x => { x with ckpt := none })).raise 0x0A0E p 0 [(8, p), (16, slot)]).failRound p .refusedAccess)
    else
      let d := s.ckptCopy c
      let hd := s.ckptHeader p c
      let body := d.1 ++ c.clients.flatMap (fun a => toLE a.1 4 ++ toLE a.2 8)
      let g := gcmSeal (s.ckptKey slot r.desc.roundId) (sealIv c.number r.epoch p) hd body
      let out := toLE hd.length 4 ++ hd ++ g.1 ++ g.2
      .next ((d.2.modRound p (fun x => { x with ckpt := some { c with phase := .ready, sealed := out } })).roundInt p 1 |>.repairWords p)

/-! ## CHECKPOINT_READ and CHECKPOINT_STORED (R75) -/

/-- The checkpoint of a number that the area still holds sealed: the ready or complete one, or the last complete one until the next copy begins (R75). -/
def Round.readable (r : Round) (n : Nat) : Option Ckpt :=
  (r.ckpt.toList ++ r.prev.toList).find? (fun x => x.number == n && (x.phase == .ready || x.phase == .complete))

/-- CHECKPOINT_READ (R75, R514). -/
def execCheckpointRead (c : CmdRef) (s : State) : Result :=
  s.partCmd c 0x05 (fun k =>
    if !s.hasDma k.part then .next (s.complete k .notReady 0 0)
    else match (s.round k.part).readable k.p0 with
    | some x =>
      if k.length < x.sealed.length then .next (s.complete k .lengthExceeds 0 0)
      else .next ((s.hostWrite k.fn k.addr x.sealed).complete k .ok x.sealed.length 0)
    | none => .next (s.complete k .state 0 0))

/-- The uploads a completed checkpoint secures anew: of the current epoch, accumulated before its cut (R68). -/
def Round.newlySecured (r : Round) (c : Ckpt) : List Accum :=
  r.accums.filter (fun a => a.epoch == r.epoch && decide (a.time < c.cutTime) && !a.secured)

/-- A checkpoint is complete (R68, R75): SECURED goes to every queue pair of an upload newly secured. -/
def State.completeCkpt (s : State) (p : Nat) (c : Ckpt) : State :=
  let r := s.round p
  let news := r.newlySecured c
  let qpns := (news.filter (fun a => a.live)).foldl (fun l a => insertNat a.qpn l) []
  let s1 := s.modRound p (fun x => { x with
    ckpt := some { c with phase := .complete }, accums := x.accums.map (fun a => if news.contains a then { a with secured := true } else a) })
  let s2 := ((s1.setReg (rndBase p + 0x38) c.number).setReg64 (rndBase p + 0x40) c.cutTime).roundInt p 2
  (s2.raise 0x0106 p 0 [(32, c.number), (48, c.cutTime)]).each qpns (fun t n =>
    t.queueRecord p n (ackRecord 0x04 .ok p 0 r.epoch 0 r.desc.roundId c.cutTime c.number))

/-- CHECKPOINT_STORED (R49, R75, R80): the ready checkpoint is complete; the closing one ends CLOSING. -/
def execCheckpointStored (c : CmdRef) (s : State) : Result :=
  s.partCmd c 0x06 (fun k =>
    let p := k.part
    match (s.round p).ckpt with
    | some x =>
      if x.number = k.p0 ∧ x.phase = .ready then
        let s1 := s.completeCkpt p x
        let s2 := if x.closing ∧ (s.round p).state = .closing ∧ (s.round p).uploads.isEmpty ∧ !(s.round p).abortPending then s1.fixSurvivors p else s1
        .next (s2.complete k .ok 0 0)
      else .next (s.complete k .state 0 0)
    | none => .next (s.complete k .state 0 0))

/-! ## ROUND_RESUME (R76 to R78) -/

/-- What a sealed checkpoint holds once its header has been split off. -/
structure SealedParts where
  header : Bytes
  body : Bytes
  tag : Bytes
  deriving DecidableEq, Repr

/-- Split a sealed checkpoint. -/
def sealedParts (b : Bytes) : SealedParts :=
  let n := rd b 0 4
  ⟨slice b 4 n, (b.drop (4 + n)).take (b.length - 4 - n - 16), b.drop (b.length - 16)⟩

/-- Refuse a resumption: event 0x010C, and the round stays IDLE (R76). -/
def State.refuseResume (s : State) (k : Cmd) (roundId : Nat) (st : Status) : State :=
  (s.raise 0x010C k.part 0 [(64, roundId), (8, st.code)]).complete k st 0 0

/-- Tests 1 to 3 of R76: those that need no byte of the checkpoint. -/
def State.resumeFirst (s : State) (p : Nat) : Status :=
  let slot := (s.part p).image.ckptSlot
  if !s.hasDma p then .notReady
  else if (s.part p).image.state ≠ .loaded ∨ (s.round p).state ≠ .idle then .state
  else if !s.usable slot ∨ !(bit (s.slot slot).attrWord 2) then .refusedAccess
  else .ok

/-- Write the copied ranges back where they came from: rank, first bucket, count and bytes of each (R77, R99). -/
def State.restoreRanges (s : State) (p : Nat) : List (Nat × Nat × Nat) → Bytes → State
  | [], _ => s
  | (rank, src, n) :: rest, bs =>
    (s.devWrite (cisAddr ((s.wellsOf p).getD rank 0) (src * 64)) (bs.take (n * 64))).restoreRanges p rest (bs.drop (n * 64))

/-- Resume from an opened checkpoint (R49, R71, R77, R85). -/
def State.resumeRound (s : State) (p intakeClose : Nat) (d : Descriptor) (x : SchedSet) (hd body : Bytes) : State :=
  let epoch := rd hd 108 1
  let closing := rd hd 110 1 == 1
  let nr := rd hd 136 4
  let nc := rd hd 140 4
  let dir := (List.range nr).map (fun i => (rd hd (164 + 12 * i) 4, rd hd (168 + 12 * i) 4, rd hd (172 + 12 * i) 4))
  let size := (dir.map (fun e => e.2.2 * 64)).foldl (· + ·) 0
  let accs := (List.range nc).map (fun i =>
    Accum.mk (rd body (size + 12 * i) 4) 0 0 epoch true (rd body (size + 12 * i + 4) 8) false)
  let s1 := s.openRegs p d x
  let s2 := (((((s1.setReg (rndBase p + 0x20) (rd hd 124 4)).setReg (rndBase p + 0x24) (rd hd 128 4)).setReg (rndBase p + 0x28) (rd hd 132 4)).setReg
    (rndBase p + 0x38) (rd hd 104 4)).setReg64 (rndBase p + 0x40) (rd hd 112 8))
  let r0 : Round :=
    { desc := if closing then d else { d with intakeClose := intakeClose }, lastRoundId := d.roundId, lastCut := s.devtime, epoch := epoch + 1,
      cutNumber := rd hd 104 4, seqLast := rd hd 120 4, accums := accs,
      survivors := if closing then accs.foldl (fun l a => insertNat a.client l) [] else [] }
  let s3 := s2.modPart p (fun y => { y with round := r0, slotsTotal := x.slots, slotsFree := List.range x.slots })
  let s4 := (s3.startRound p (if closing then 2 else 1)).restoreRanges p dir body
  let s5 := s4.raise 0x010B p 0 [(64, d.roundId), (8, epoch + 1), (32, rd hd 104 4)]
  if closing then (if d.mode = .m then s5.enterSettle p else s5.enterCombine p) else s5.enterState p .intake

/-- ROUND_RESUME (R76 to R78). -/
def execRoundResume (c : CmdRef) (s : State) : Result :=
  s.partCmd c 0x04 (fun k =>
    let p := k.part
    match s.resumeFirst p with
    | .ok => s.withData k (fun b =>
      let x := sealedParts b
      let roundId := rd x.header 0 8
      let key := s.ckptKey (s.part p).image.ckptSlot roundId
      match gcmOpen key (sealIv (rd x.header 104 4) (rd x.header 108 1) (rd x.header 109 1)) x.header x.body x.tag with
      | none => .next (s.refuseResume k roundId .format)
      | some body =>
        let d := descriptorOf (slice x.header 8 64)
        if slice x.header 72 32 ≠ fit (s.part p).image.digest 32 ∨ rd x.header 108 1 = 15 ∨ (rd x.header 110 1 = 0 ∧ k.p1 ≤ s.devtime) then
          .next (s.refuseResume k roundId .state)
        else match s.setOf p d with
        | none => .next (s.refuseResume k roundId .state)
        | some y => .next (((s.resumeRound p k.p1 d y x.header body).repairWords p).complete k .ok 0 0))
    | st => .next (s.refuseResume k 0 st))

end Sys2Proof.Machine
end

