-- ==== Sys2Proof/Machine/Masked.lean ====
section
/-! DEFINITION. Unmask and decryption-share messages, Shamir reconstruction in GF(2^128) (03_masked_aggregation.md R106 to R114;
04_ciphertext_engine.md R152, R153). -/

namespace Sys2Proof.Machine

open Sys2Proof

/-! ## GF(2^128) of R112 -/

/-- Carry-less product reduced by x^128 + x^7 + x^2 + x + 1: the bits of `b` from the lowest, `a` multiplied by x at each. -/
def gmulAux : Nat → Nat → Nat → Nat → Nat
  | 0, _, _, r => r
  | k + 1, a, b, r =>
    gmulAux k (if 2 ^ 127 ≤ a then (a * 2 % 2 ^ 128) ^^^ 0x87 else a * 2) (b / 2) (if b % 2 = 1 then r ^^^ a else r)

/-- Product in the field of R112. -/
def gmul (a b : Nat) : Nat := gmulAux 128 a b 0

/-- a^(2^128 - 2) by 127 squarings and products: `s` runs through the powers a^(2^i). -/
def ginvAux : Nat → Nat → Nat → Nat
  | 0, _, r => r
  | k + 1, s, r => let t := gmul s s; ginvAux k t (gmul r t)

/-- Inverse in the field of R112. -/
def ginv (a : Nat) : Nat := ginvAux 127 a 1

/-- Lagrange factor at zero of the point at place k of xs (R113). -/
def lagrange (xs : List Nat) (k : Nat) : Nat :=
  let x := xs.getD k 0
  gmul (xs.foldl gmul 1) (ginv ((xs.eraseIdx k).foldl (fun d m => gmul d (m ^^^ x)) x))

/-- Value at zero of the polynomial through the points (x, y) (R113). -/
def interpolate (pts : List (Nat × Nat)) : Nat :=
  (pts.zip (List.range pts.length)).foldl (fun s e => s ^^^ gmul e.1.2 (lagrange (pts.map (fun q => q.1)) e.2)) 0

/-! ## Messages -/

/-- The key of a holder (R108, R152). -/
def holderKey (kShare : Bytes) (h : Nat) (label : String) : Bytes := kmac256 kShare (toLE h 4) 32 (ascii label)

/-- Test 2 of R109 and R153: the round's state, identifier and epoch. -/
def State.messageState (s : State) (p : Nat) (want : RoundState) (hd : Bytes) : Option Status :=
  let r := s.round p
  if r.state = .intake ∨ r.state = .closing then some .notReady
  else if r.state ≠ want ∨ rd hd 8 8 ≠ r.desc.roundId ∨ bits (rd hd 2 1) 3 0 ≠ r.epoch then some .state
  else none

/-- The header of a message and its sealed part. -/
def messageParts (b : Bytes) : Bytes × Bytes × Bytes := (b.take 64, (b.drop 64).take (b.length - 80), b.drop (b.length - 16))

/-- Test 4: open a message under its holder's key (R108). While no session has given a K_share there is no key, and no tag verifies (log entry 31). -/
def openMessage (kShare b : Bytes) (label : String) : Option Bytes :=
  let m := messageParts b
  if kShare.isEmpty then none else gcmOpen (holderKey kShare (rd m.1 4 3) label) (slice m.1 0x18 12) m.1 m.2.1 m.2.2

/-- The tests of R109 on an unmask message: the plaintext entries, or status and test number. -/
def State.unmaskTests (s : State) (p : Nat) (b : Bytes) : Except (Status × Nat) Bytes :=
  let hd := b.take 64
  let n := rd hd 0x10 4
  let r := s.round p
  if b.length < 64 ∨ !crcEndsOk hd ∨ rd hd 0 1 ≠ 0x55 ∨ rd hd 1 1 ≠ 1 ∨ rd hd 7 1 ≠ 0 ∨ !inRange n 44739241 ∨ rd hd 0x14 4 ≠ 80 + 48 * n ∨
      b.length ≠ 80 + 48 * n then .error (.format, 1)
  else match s.messageState p .settle hd with
  | some st => .error (st, 2)
  | none =>
    if !r.survivors.contains (rd hd 4 3) ∨ r.holders.contains (rd hd 4 3) then .error (.state, 3)
    else match openMessage (s.part p).session.kShare b "OSTUSO SHARE" with
    | some pt => .ok pt
    | none => .error (.format, 4)

/-- An entry of an unmask message (R107). -/
structure ShareEntry where
  owner : Nat
  kind : Nat
  peer : Nat
  lo : Nat
  hi : Nat
  deriving DecidableEq, Repr

/-- The entry in 48 bytes; an entry of kind 1 names no peer (log entry 31). -/
def shareEntry (b : Bytes) : ShareEntry := ⟨rd b 0 4, rd b 4 1, if rd b 4 1 = 1 then 0 else rd b 8 3, rd b 0x10 16, rd b 0x20 16⟩

/-- The first check of R110 an entry fails, if one does. -/
def entryReason (n degree : Nat) (surv : List Nat) (holder : Nat) (earlier : List ShareEntry) (e : ShareEntry) : Option Nat :=
  let s := surv.contains e.owner
  if n ≤ e.owner then some 1
  else if !(e.kind == 1 || e.kind == 2) then some 2
  else if e.kind = 1 ∧ !s then some 3
  else if e.kind = 2 ∧ s then some 4
  else if e.kind = 2 ∧ !(surv.contains e.peer && neighbour n degree e.owner e.peer) then some 5
  else if !neighbour n degree e.owner holder then some 6
  else if earlier.any (fun f => f.owner == e.owner && f.kind == e.kind && f.peer == e.peer) then some 7
  else if e.kind = 2 ∧ holder = e.peer then some 8
  else none

/-- Does a secret have these names? -/
def Secret.named (x : Secret) (owner : Nat) (peer : Option Nat) : Bool := x.owner == owner && x.peer == peer

/-- Change a secret of a round. -/
def State.modSecret (s : State) (p owner : Nat) (peer : Option Nat) (f : Secret → Secret) : State :=
  s.modRound p (fun r => { r with secrets := r.secrets.map (fun x => if x.named owner peer then f x else x) })

/-- A reconstructed self seed differs from its commitment (R114). -/
def State.commitMismatch (s : State) (p owner : Nat) : State :=
  let s1 := (s.raise 0x0204 p 0 [(24, owner)]).modSecret p owner none (fun x => { x with dead := true, shares := [] })
  if s1.regBits (mskBase p + 0x2C) 31 31 = 0 then s1.setRecord (mskBase p + 0x2C) (2 ^ 31 + owner) else s1

/-- The commitment of a self seed (R114). -/
def seedCommit (seed roundId : Nat) : Nat := leNat (kmac256 (toLE seed 32) (toLE roundId 8) 8 (ascii "OSTUSO COMMIT"))

/-- Reconstruct a secret from its t shares (R113, R114). -/
def State.reconstruct (s : State) (p : Nat) (x : Secret) : State :=
  let lo := interpolate (x.shares.map (fun e => (e.1, e.2.1)))
  let hi := interpolate (x.shares.map (fun e => (e.1, e.2.2)))
  let v := lo + 2 ^ 128 * hi
  let r := s.round p
  let good : Bool := match x.peer with
    | some _ => true
    | none => (r.accums.find? (fun a => a.client == x.owner)).any (fun a => seedCommit v r.desc.roundId == a.seedCommit)
  if good then (s.modSecret p x.owner x.peer (fun y => { y with value := some v })).secretsDone p else s.commitMismatch p x.owner

/-- Accept or discard one share that passed the checks of R110 (R111, R113). -/
def State.acceptShare (s : State) (p holder : Nat) (e : ShareEntry) : State :=
  let t := (s.round p).desc.threshold
  let peer := if e.kind = 2 then some e.peer else none
  match (s.round p).secrets.find? (fun x => x.named e.owner peer) with
  | none => s
  | some x =>
    if x.value.isSome ∨ x.dead ∨ x.removed ∨ t ≤ x.shares.length then s.count (mskBase p + 0x24)
    else
      let y := { x with shares := x.shares ++ [(holder + 1, e.lo, e.hi)] }
      let s1 := s.modSecret p e.owner peer (fun _ => y)
      if y.shares.length = t then s1.reconstruct p y else s1

/-- Take the entries of an accepted message in order; gathered are the earlier entries and the discarded ones with their reasons. -/
def State.takeEntries (s : State) (p holder : Nat) : List ShareEntry → List ShareEntry → List (Nat × Nat) → State × List (Nat × Nat)
  | [], _, bad => (s, bad)
  | e :: rest, earlier, bad =>
    match entryReason (s.round p).desc.cohort (s.regBits (mskBase p + 4) 23 0) (s.round p).survivors holder earlier e with
    | some why => (s.count (mskBase p + 0x20)).takeEntries p holder rest (earlier ++ [e]) (bad ++ [(e.owner, why)])
    | none => (s.acceptShare p holder e).takeEntries p holder rest (earlier ++ [e]) bad

/-- The shares of an accepted message (R110, R111). -/
def State.takeShares (s : State) (p holder : Nat) (pt : Bytes) : State :=
  let r := s.takeEntries p holder ((chunks 48 pt).map shareEntry) [] []
  match r.2 with
  | [] => r.1
  | (owner, why) :: _ => r.1.raise 0x0203 p 0 [(24, holder), (32, r.2.length), (24, owner), (8, why)]

/-- An accepted message's staging space is held and its entry called (R209, R319). -/
def State.messageAccepted (s : State) (p holder addr len msn : Nat) : State :=
  (s.modPart p (fun x => { x with accepted := x.accepted ++ [(addr, ceilDiv len 64 * 64)] })).callEntry p
    ⟨2, 0, holder, s.devtime, addr, len, msn, []⟩

/-- A complete message that no refused packet ended, in the staging region of an endpoint of one kind (R319, R516): its message, address and bytes. -/
def State.stagedMessage (s : State) (n msn kind : Nat) : Option (OpenMsg × Nat × Nat) :=
  match (s.qp n).msg msn, s.endpointOf (s.qp n) with
  | some m, some e =>
    match m.buf with
    | .staging a len => if s.alive && e.kind == kind && m.complete && m.refusal.isNone && (s.qp n).state != .free then some (m, a, len) else none
    | _ => none
  | _, _ => none

/-- End a staged message with its status (R319, R330). -/
def State.endMessage (s : State) (n : Nat) (m : OpenMsg) (st : Status) : State := (s.closeMsg n m.msn).sendComplete n m.msn st m.bytes

/-- Refuse an unmask message (R109). -/
def State.refuseUnmask (s : State) (p holder test : Nat) (st : Status) : State :=
  ((s.count (mskBase p + 0x1C)).setReg (mskBase p + 0x28) (2 ^ 24 * st.code + holder)).raise 0x0202 p 0 [(24, holder), (8, st.code), (8, test)]

/-- UNMASK_MESSAGE (R109 to R114, R319): the complete message is validated whole, and its entries become shares. -/
def execUnmaskMessage (qpn msn : Nat) (s : State) : Result :=
  match s.stagedMessage qpn msn 3 with
  | none => .next s
  | some (m, a, len) =>
    let p := (s.qp qpn).part
    let d := s.devRead 0 a len
    let holder := rd d.1 4 3
    let s1 := d.2.2
    if d.2.1 then .next ((s1.refuseUnmask p holder 4 .uncorrectable).endMessage qpn m .uncorrectable)
    else match s1.unmaskTests p d.1 with
    | .error (st, test) => .next ((s1.refuseUnmask p holder test st).endMessage qpn m st)
    | .ok pt =>
      let s2 := (s1.setReg (mskBase p + 0x18) (s1.reg (mskBase p + 0x18) + 1)).modRound p (fun r => { r with holders := insertNat holder r.holders })
      let s3 := ((s2.takeShares p holder pt).endMessage qpn m .ok).messageAccepted p holder a len msn
      .next (s3.advance p)

/-- The tests of R153 on a decryption-share message; L and log_n are those of the output blocks (R152). -/
def State.dshareTests (s : State) (p : Nat) (b : Bytes) : Except (Status × Nat) Bytes :=
  let hd := b.take 64
  let r := s.round p
  let shape := s.roundSet p
  let z := match shape with | some x => s.blockShape p x | none => (0, 0)
  let len := 80 + 4 * s.reg (ctxBase p + 0x64) * z.1 * 2 ^ z.2
  let shapeOk := shape.isSome && rd hd 3 1 == z.1 && rd hd 0x24 1 == z.2 && rd hd 0x10 4 == s.reg (ctxBase p + 0x64)
  if b.length < 80 ∨ !crcEndsOk hd ∨ rd hd 0 1 ≠ 0x44 ∨ rd hd 1 1 ≠ 1 ∨ rd hd 7 1 ≠ 0 ∨ (r.state.busy ∧ (!shapeOk ∨ rd hd 0x14 4 ≠ len)) ∨
      rd hd 0x14 4 ≠ b.length then .error (.format, 1)
  else match s.messageState p .combine hd with
  | some st => .error (st, 2)
  | none =>
    if s.regBits (ctxBase p + 0x20) 24 0 ≤ rd hd 4 3 ∨ r.holders.contains (rd hd 4 3) then .error (.state, 3)
    else match openMessage (s.part p).session.kShare b "OSTUSO DSHARE" with
    | some pt => .ok pt
    | none => .error (.format, 4)

/-- Refuse a decryption-share message (R153). -/
def State.refuseDshare (s : State) (p holder test : Nat) (st : Status) : State :=
  ((s.count (ctxBase p + 0x54)).setReg (ctxBase p + 0x5C) (2 ^ 24 * st.code + holder)).raise 0x0307 p 0 [(24, holder), (8, st.code), (8, test)]

/-- DSHARE_MESSAGE (R152, R153, R319): the first `threshold` accepted messages form the set S; later ones are counted as surplus and otherwise ignored. -/
def execDshareMessage (qpn msn : Nat) (s : State) : Result :=
  match s.stagedMessage qpn msn 4 with
  | none => .next s
  | some (m, a, len) =>
    let p := (s.qp qpn).part
    let d := s.devRead 0 a len
    let holder := rd d.1 4 3
    let s1 := d.2.2
    if d.2.1 then .next ((s1.refuseDshare p holder 4 .uncorrectable).endMessage qpn m .uncorrectable)
    else match s1.dshareTests p d.1 with
    | .error (st, test) => .next ((s1.refuseDshare p holder test st).endMessage qpn m st)
    | .ok pt =>
      let r := s1.round p
      let s2 := (s1.setReg (ctxBase p + 0x50) (s1.reg (ctxBase p + 0x50) + 1)).modRound p (fun x => { x with holders := insertNat holder x.holders })
      if r.dshareSet.length < r.desc.threshold then
        let s3 := s2.modRound p (fun x => { x with dshareSet := x.dshareSet ++ [holder], dshares := x.dshares ++ [pt] })
        .next (((s3.endMessage qpn m .ok).messageAccepted p holder a len msn).advance p)
      else .next ((s2.count (ctxBase p + 0x58)).endMessage qpn m .ok)

end Sys2Proof.Machine
end

