-- ==== Sys2Proof/Machine/Pumps.lean ====
section
/-! DEFINITION. Pumps, copy channels, scrubbers and retirement (07_cisterns_pumps.md R230, R238, R239, R241 to R248, R251, R252, R257 to R260). -/

namespace Sys2Proof.Machine

open Sys2Proof

/-! ## Banks (R230, R239) -/

/-- The turn descriptor of a well that covers a bucket: base, columns, rows (R238, R239). -/
def State.turnAt (s : State) (w b : Nat) : Option (Nat × Nat × Nat) :=
  ((List.range 8).map (fun i => (s.reg (cisBase w + 0x200 + 0x10 * i), s.reg (cisBase w + 0x204 + 0x10 * i), s.reg (cisBase w + 0x208 + 0x10 * i)))).find?
    (fun t => decide (t.1 ≤ b) && decide (b < t.1 + t.2.1 * t.2.2))

/-- The bank of a bucket. -/
def State.bankOf (s : State) (w b : Nat) : Nat :=
  match s.turnAt w b with
  | some (base, nc, _) => ((b - base) % nc + (b - base) / nc) % 32
  | none => bits b 4 0 ^^^ bits b 9 5

/-- The pump of a bucket: banks 2k and 2k + 1 belong to pump k. -/
def State.pumpOf (s : State) (w b : Nat) : Nat := s.bankOf w b / 2

/-! ## Halts (R248) -/

/-- A pump halts: status, address, event 0x0604; the units behind are discarded, and the owner's round fails with UNCORRECTABLE (R82). -/
def State.pumpHalt (s : State) (u : PumpRef) (st : Status) (bucket : Nat) : State :=
  let x := s.pump u
  if x.halted then s
  else
    let s1 := s.modPump u (fun y => { y with halted := true, haltStatus := st, queue := y.queue.filter (fun e => !e.applies) })
    let s2 := (s1.countBy (pumpBase u + 0x18) (x.queue.filter PumpUnit.applies).length).setReg64 (pumpBase u + 8) (cisAddr u.well (bucket * 64))
    (s2.raise 0x0604 (s.owner u.well) (masterOfPump u) [(8, u.well), (8, u.pump), (8, st.code), (32, bucket)]).faultCause (s.owner u.well) .uncorrectable

/-- A copy channel halts; the owner's round fails with UNCORRECTABLE (R82). -/
def State.copyHalt (s : State) (w c : Nat) (st : Status) (addr : Nat) : State :=
  let x := s.chan w c
  if x.halted then s
  else
    let s1 := s.modChan w c (fun y => { y with halted := true, haltStatus := st, queue := [], running := none })
    let s2 := (s1.countBy (cisBase w + 0x314 + 0x20 * c) x.queue.length).setReg64 (cisBase w + 0x308 + 0x20 * c) addr
    (s2.raise 0x0605 (s.owner w) (0x2000 + w * 16 + c) [(8, w), (8, c), (8, st.code), (32, ((memoryAt addr).elim 0 (fun e => e.2.2)) / 64)]).faultCause (s.owner w) .uncorrectable

/-! ## Descriptors of ZERO and COPY units (R245) -/

/-- Is a descriptor of 32 bytes bad for the kind of its unit (1 ZERO, 2 COPY)? -/
def descriptorBad (want : Nat) (b : Bytes) : Bool :=
  let dir := rd b 1 1
  let count := rd b 4 4
  let src := rd b 8 4
  let dst := rd b 0xC 4
  let top := fun (lp : Bool) => if lp then 2 ^ 29 else 2 ^ 21
  !crcEndsOk b || rd b 0 1 != want || rd b 2 2 / 2 != 0 || rd b 0x10 12 != 0 || !inRange count 2097152 ||
    (if want = 1 then dir != 0 || src != 0 || decide (2 ^ 21 < dst + count)
     else decide (2 < dir) || decide (top (dir == 1) < src + count) || decide (top (dir == 0) < dst + count) ||
       (dir == 2 && decide (src < dst + count) && decide (dst < src + count)))

/-- The descriptors of a unit that are not empty. -/
def unitDescriptors (data : Bytes) : List Bytes := (chunks 32 (fit data 128)).filter (fun b => rd b 0 1 != 0)

/-! ## Units cross the cistern interface (R241, R243) -/

/-- Put a unit in the queue of a pump; a halted pump discards it (R248). The first eight units are the pump's queue (R243); a unit behind them still waits
at its sender, which the pump reports as busy (R235). -/
def State.enqueue (s : State) (u : PumpRef) (e : PumpUnit) : State :=
  if (s.pump u).halted && e.applies then s.count (pumpBase u + 0x18) else s.modPump u (fun x => { x with queue := x.queue ++ [e] })

/-- A unit crosses the interface: a ZERO unit is checked and goes to every pump, any other goes to the pump of its accumulator bucket. -/
def State.cross (s : State) (w op aux addr tile : Nat) (data : Bytes) : State :=
  let e : PumpUnit := ⟨op, aux, addr, data, tile, (s.well w).crossed, (s.tile ⟨w, tile⟩).serving⟩
  let s1 := s.modWell w (fun x => { x with crossed := x.crossed + 1 })
  if e.kind = 8 then
    if (unitDescriptors data).any (descriptorBad 1) then (List.range 16).foldl (fun (t : State) k => t.pumpHalt ⟨w, k⟩ .format addr) s1
    else (List.range 16).foldl (fun (t : State) k => t.enqueue ⟨w, k⟩ e) s1
  else s1.enqueue ⟨w, s1.pumpOf w addr⟩ e

/-! ## Pump operations (R242 to R244) -/

/-- Words of `w` bits in a number, from the lowest. -/
def wordsOf (w : Nat) : Nat → Nat → List Nat
  | 0, _ => []
  | k + 1, n => (n % 2 ^ w) :: wordsOf w k (n / 2 ^ w)

/-- The number that holds words of `w` bits. -/
def joinWords (w : Nat) : List Nat → Nat
  | [] => 0
  | x :: xs => x % 2 ^ w + 2 ^ w * joinWords w xs

/-- Apply an operation to the `k` words of `w` bits of two buckets; what is left of the bucket is zero (R89, R242). -/
def mapWords (w k : Nat) (f : Nat → Nat → Nat) (a x : Bytes) : Bytes :=
  toLE (joinWords w (List.zipWith f (wordsOf w k (leNat a)) (wordsOf w k (leNat x)))) 64

/-- A modular sum or difference of residues; a word that is not below q makes its result a free value (R242). -/
def State.modWords (s : State) (sub : Bool) (q : Nat) : List Nat → List Nat → List Nat × State
  | a :: as, x :: xs =>
    let r := s.modWords sub q as xs
    if a < q ∧ x < q then ((if sub then (a + (q - x)) % q else (a + x) % q) :: r.1, r.2)
    else let d := r.2.draw; (d.1 % 2 ^ 32 :: r.1, d.2)
  | _, _ => ([], s)

/-- AXPY on one word: fma(a, X, round(b * A)) (R242). -/
def axpyWord (a b A x : Nat) : Nat := (fma32 a x (mul32 b A).val).val

/-- The result of a unit's operation on one accumulator bucket. -/
def State.pumpWord (s : State) (w : Nat) (u : PumpUnit) (a x : Bytes) : Bytes × State :=
  let k := u.op % 16
  match u.kind with
  | 1 => (mapWords (8 * k) (wordsPerBucket (8 * k)) (fun p q => (p + q) % 2 ^ (8 * k)) a x, s)
  | 2 => (mapWords (8 * k) (wordsPerBucket (8 * k)) (fun p q => (p + 2 ^ (8 * k) - q) % 2 ^ (8 * k)) a x, s)
  | 3 | 4 =>
    let q := s.reg (pumpBase ⟨w, s.pumpOf w u.addr⟩ + 0x100 + 4 * u.aux)
    let r := s.modWords (u.kind == 4) q (wordsOf 32 16 (leNat a)) (wordsOf 32 16 (leNat x))
    (toLE (joinWords 32 r.1) 64, r.2)
  | 5 =>
    let p := s.reg (cisBase w + 0x100 + 8 * k)
    let q := s.reg (cisBase w + 0x104 + 8 * k)
    (mapWords 32 16 (axpyWord p q) a x, s)
  | 6 => (mapWords (8 * k) (64 / (max k 1)) (sminWord (8 * k)) a x, s)
  | 7 => (mapWords (8 * k) (64 / (max k 1)) (smaxWord (8 * k)) a x, s)
  | _ => (a, s)

/-- The next unit of a pump, if its operation is the one asked for. -/
def State.nextUnit (s : State) (u : PumpRef) (kind : Nat) : Option PumpUnit :=
  match (s.pump u).queue with
  | e :: _ => if s.alive && e.kind == kind then some e else none
  | [] => none

/-- Take the next unit off a pump's queue. -/
def State.dropUnit (s : State) (u : PumpRef) : State := s.modPump u (fun x => { x with queue := x.queue.drop 1, busyRow := 0 })

/-- The arithmetic of a unit on accumulator buckets a and a + 1 (R241, R242); an uncorrectable accumulator halts the pump (R248). -/
def State.applyPair (s : State) (u : PumpRef) (e : PumpUnit) : State :=
  let a := s.bucketRead false u.well e.addr 1
  if a.2.1 then a.2.2.pumpHalt u .uncorrectable e.addr
  else
    let b := a.2.2.bucketRead false u.well (e.addr + 1) 1
    if b.2.1 then b.2.2.pumpHalt u .uncorrectable (e.addr + 1)
    else
      let r1 := b.2.2.pumpWord u.well e a.1 (e.data.take 64)
      let r2 := r1.2.pumpWord u.well e b.1 (e.data.drop 64)
      (((r2.2.putBucket false u.well e.addr r1.1).putBucket false u.well (e.addr + 1) r2.1).count (pumpBase u + 0x10))

/-- The uploads of the entry that a unit belongs to take this tick as that of their last pump write so far (R67). -/
def State.noteWrite (s : State) (p : Nat) (tag : Option (Nat × Nat)) : State :=
  if p < 24 ∧ tag.isSome then
    s.modRound p (fun r => { r with uploads := r.uploads.map (fun x => if x.tag r.desc.mode = tag then { x with lastWrite := s.devtime } else x) })
  else s

/-- Apply the next unit: its two operand buckets on accumulator buckets a and a + 1 (R241, R242); a refused access changes nothing (R32). -/
def State.applyUnit (s : State) (u : PumpRef) (e : PumpUnit) : State :=
  let c := (s.dropUnit u).check ⟨masterOfPump u, s.owner u.well⟩ (cisAddr u.well (e.addr * 64)) 128 3
  if c.1.isSome then c.2 else (c.2.applyPair u e).noteWrite (s.owner u.well) e.tag

/-- A pump operation row: the next unit must carry it. -/
def State.pumpRow (s : State) (u : PumpRef) (kind : Nat) : Result :=
  match s.nextUnit u kind with
  | some e => .next (s.applyUnit u e)
  | none => .next s

/-- RING_ADD (R242). -/
def execRingAdd (u : PumpRef) (s : State) : Result := s.pumpRow u 1

/-- RING_SUB (R242). -/
def execRingSub (u : PumpRef) (s : State) : Result := s.pumpRow u 2

/-- MOD_ADD (R242). -/
def execModAdd (u : PumpRef) (s : State) : Result := s.pumpRow u 3

/-- MOD_SUB (R242). -/
def execModSub (u : PumpRef) (s : State) : Result := s.pumpRow u 4

/-- Is a coefficient pair still to be loaded by a unit that crossed before this one, or still to be used by one (R244)? -/
def State.pairBusy (s : State) (w kind pair stamp : Nat) : Bool :=
  (s.well w).pumps.any (fun m => m.queue.any (fun e => e.kind == kind && e.op % 16 == pair && decide (e.stamp < stamp)))

/-- AXPY (R242, R244): a SET_COEF of its pair that crossed before it takes effect first. -/
def execAxpy (u : PumpRef) (s : State) : Result :=
  match s.nextUnit u 5 with
  | some e => if s.pairBusy u.well 10 (e.op % 16) e.stamp then .next s else .next (s.applyUnit u e)
  | none => .next s

/-- SMIN (R242). -/
def execSmin (u : PumpRef) (s : State) : Result := s.pumpRow u 6

/-- SMAX (R242). -/
def execSmax (u : PumpRef) (s : State) : Result := s.pumpRow u 7

/-- SET_COEF (R244): a_j and b_j for every unit that crossed after it; units that crossed before it use the old pair first. -/
def execSetCoef (u : PumpRef) (s : State) : Result :=
  match s.nextUnit u 10 with
  | some e =>
    let j := e.op % 16
    if s.pairBusy u.well 5 j e.stamp then .next s
    else
      .next ((((s.dropUnit u).setReg (cisBase u.well + 0x100 + 8 * j) (rd e.data 0 4)).setReg (cisBase u.well + 0x104 + 8 * j) (rd e.data 4 4)).count
        (pumpBase u + 0x10))
  | none => .next s

/-- Clear the valid bits of the buckets of a range that satisfy a test (R243). -/
def Well.zeroWhere (x : Well) (b n : Nat) (t : Nat → Bool) : Well :=
  let hit := fun c => decide (b ≤ c) && decide (c < b + n) && t c
  { x with
    cis := x.cis.filter (fun c => !hit (c.1 / 64)), cisValid := x.cisValid.filter (fun c => !hit c), cisBad := x.cisBad.filter (fun c => !hit c),
    merge := x.merge.filter (fun e => !hit e.bucket) }

/-- Clear the part of a range that lies in a pump's own banks, as a request of the pump's master that needs 0b11 (R36, R37, R241); a refused one changes
nothing (R32). -/
def State.zeroPart (s : State) (u : PumpRef) (b n : Nat) : State :=
  let m : Master := ⟨masterOfPump u, s.owner u.well⟩
  let own := ((List.range n).map (fun k => b + k)).filter (fun c => s.pumpOf u.well c == u.pump)
  if own.isEmpty then s
  else
    let s1 := s.votesFor (cisAddr u.well (b * 64))
    match own.findSome? (fun c => (s1.refuses m (cisAddr u.well (c * 64)) 3).map (fun r => (r, c))) with
    | some (r, c) => s1.recordRefusal m (cisAddr u.well (c * 64)) r
    | none => s1.modWell u.well (fun x => x.zeroWhere b n (fun c => s.pumpOf u.well c == u.pump))

/-- ZERO (R243, R245): the pump clears the valid bits of the part of each range that lies in its own banks. -/
def execZeroOp (u : PumpRef) (s : State) : Result :=
  match s.nextUnit u 8 with
  | some e =>
    .next (((s.dropUnit u).each (unitDescriptors e.data) (fun t d => t.zeroPart u (rd d 0xC 4) (rd d 4 4))).count (pumpBase u + 0x10))
  | none => .next s

/-- COPY (R245, R246): the unit's descriptors enter the queue of the channel, or a bad one halts it. The unit waits while the 64 places do not hold them
(log entry 75). -/
def execCopyOp (u : PumpRef) (s : State) : Result :=
  match s.nextUnit u 9 with
  | some e =>
    let c := e.op % 2
    if !(s.chan u.well c).halted ∧ 64 < (s.chan u.well c).queue.length + (unitDescriptors e.data).length then .next s
    else .next ((unitDescriptors e.data).foldl (fun (t : State) d =>
      if (t.chan u.well c).halted then t.count (cisBase u.well + 0x314 + 0x20 * c)
      else if descriptorBad 2 d then t.copyHalt u.well c .format (cisAddr u.well (rd d 8 4 * 64))
      else t.modChan u.well c (fun x => { x with queue := x.queue ++
        [CopyDesc.mk (rd d 8 4) (rd d 0xC 4) (rd d 4 4) (bit (rd d 2 2) 0) (rd d 1 1) e.stamp] })) (s.dropUnit u))
  | none => .next s

/-! ## Copy channels (R246) -/

/-- Device addresses of a descriptor's source and destination. -/
def CopyDesc.srcAddr (d : CopyDesc) (w : Nat) : Nat := if d.direction = 1 then lpxAddr w (d.src * 64) else cisAddr w (d.src * 64)
def CopyDesc.dstAddr (d : CopyDesc) (w : Nat) : Nat := if d.direction = 0 then lpxAddr w (d.dst * 64) else cisAddr w (d.dst * 64)

/-- Copy `n` buckets from index `i` on; an uncorrectable source halts the channel (R248). The answer says whether the copy reached its end. -/
def State.copyBuckets (s : State) (w c : Nat) (d : CopyDesc) : Nat → Nat → Bool × State
  | 0, _ => (true, s)
  | n + 1, i =>
    let r := s.bucketRead (d.direction == 1) w (d.src + i) 2
    if r.2.1 then (false, r.2.2.copyHalt w c .uncorrectable (d.srcAddr w + i * 64))
    else
      let t := if d.direction = 2 ∧ (d.src + i) ∉ (r.2.2.well w).cisValid then r.2.2.modWell w (fun x => x.zeroRange (d.dst + i) 1)
        else r.2.2.putBucket (d.direction == 0) w (d.dst + i) r.1
      t.copyBuckets w c d n (i + 1)

/-- Has every pump unit that crossed before a descriptor completed its write (R246)? -/
def State.pumpsPast (s : State) (w stamp : Nat) : Bool :=
  (s.well w).pumps.all (fun m => m.queue.all (fun e => !e.applies || decide (stamp < e.stamp)))

/-- Note a range copied into the checkpoint area while a cut's copy runs; what the area held before is gone with the first one (R73, R75). -/
def State.noteRange (s : State) (w : Nat) (d : CopyDesc) : State :=
  let p := s.owner w
  if d.direction = 0 ∧ p < 24 then
    s.modRound p (fun r => { r with
      prev := none,
      ckpt := r.ckpt.map (fun c => if c.phase = .copying then { c with ranges := c.ranges ++ [⟨w, d.src, d.dst, d.count⟩] } else c) })
  else s

/-- The slots of a copy channel's pattern (R246, R287). -/
def State.copySlots (s : State) (w chan : Nat) : Array Nat :=
  match (s.part (s.owner w)).image.wellRecords[s.rankOf w]? with
  | some r => (patternSlots (r.copyPatterns.getD chan [])).toArray
  | none => #[]

/-- DEVTIME by which a copy's units have moved: one in each slot of the channel's pattern and 24 pump cycles more, or four buckets per pump cycle and 12
within the cistern (R246, R247); none where the pattern is empty, so that nothing moves. -/
def State.copyEnd (s : State) (w chan : Nat) (d : CopyDesc) : Option Nat :=
  if d.direction = 2 then some (s.devtime + ceilDiv (ceilDiv d.count 4 + 12) 2)
  else
    let ps := s.copySlots w chan
    if ps.size = 0 then none else some (ceilDiv (slotCycle ps s.cycle (ceilDiv d.count 2 - 1)) 4 + 12)

/-- COPY_DESCRIPTOR_START (R246): the next descriptor starts once earlier pump writes are done; entries that cover its source are written first (R237). -/
def execCopyDescriptorStart (well chan : Nat) (s : State) : Result :=
  let x := s.chan well chan
  match x.queue with
  | [] => .next s
  | d :: rest =>
    if !s.alive ∨ x.halted ∨ x.running.isSome ∨ !s.pumpsPast well d.stamp then .next s
    else
      let m : Master := ⟨0x2000 + well * 16 + chan, s.owner well⟩
      let s0 := s.modChan well chan (fun y => { y with queue := rest, running := some d, doneAt := (s.copyEnd well chan d).getD (2 ^ 64) })
      if (s.copyEnd well chan d).isNone then .next s0
      else
      let s1 := (s0.votesFor (d.srcAddr well)).votesFor (d.dstAddr well)
      match s1.refusesRange m 1 d.count (d.srcAddr well), s1.refusesRange m 2 d.count (d.dstAddr well) with
      | some (r, a), _ => .next (s1.recordRefusal m a r)
      | none, some (r, a) => .next (s1.recordRefusal m a r)
      | none, none =>
        let r := s1.copyBuckets well chan d d.count 0
        if r.1 then .next ((r.2.countBy (cisBase well + 0x310 + 0x20 * chan) (ceilDiv d.count 2)).noteRange well d) else .next r.2

/-- Every well of the partition has reported its copy: sealing begins (R73, R246). -/
def State.copyReported (s : State) (w : Nat) : State :=
  let p := s.owner w
  if 24 ≤ p then s
  else
    s.modRound p (fun r => { r with ckpt := r.ckpt.map (fun c =>
      if c.phase = .copying then
        let n := insertNat w c.notified
        { c with notified := n, phase := if (s.wellsOf p).all (fun v => n.contains v) then .sealing else .copying }
      else c) })

/-- COPY_DESCRIPTOR_DONE (R246): the running descriptor ends once its units have moved; with notify it is reported to Lantus. -/
def execCopyDescriptorDone (well chan : Nat) (s : State) : Result :=
  match (s.chan well chan).running with
  | some d =>
    if !s.alive ∨ s.devtime < (s.chan well chan).doneAt then .next s
    else
      let s1 := s.modChan well chan (fun y => { y with running := none })
      .next (if d.notify then s1.copyReported well else s1)
  | none => .next s

/-! ## Scrubbing (R259, R260, R268) -/

/-- SCRUB_READ (R232, R252, R259): the pass reads its next bucket, with what the code finds there. A read of an LPDDR5X device without a key is refused and
recorded for Lantus, which is no master of its own (R251; log entry 53). -/
def execScrubRead (well : Nat) (found : EccFound) (s : State) : Result :=
  let x := s.well well
  if !s.alive ∨ x.scrub ≠ .running then .next s
  else
    let b := x.scrubNext
    let base := scrubBase well
    let addr := if x.scrubLpx then lpxAddr well (b * 64) else cisAddr well (b * 64)
    let barred := x.scrubLpx && x.lpxKey.isEmpty
    let s0 := (if barred then s.recordRefusal ⟨0, 0x1F⟩ addr .noKey else s.settleEntry x.scrubLpx well b).setReg (base + 0x18) (s.reg (base + 0x18) + 1)
    let bad := found == .uncorrectable || (if x.scrubLpx then x.lpxBad.contains b else x.cisBad.contains b)
    let note := fun (t : State) =>
      let t1 := t.setReg (base + 0x20) (t.reg (base + 0x20) + 1)
      (if t1.reg (base + 0x20) = 1 then t1.setReg64 (base + 0x28) addr else t1).setReg64 (base + 0x30) addr
    let s1 :=
      if barred then s0
      else if bad then
        if x.scrubLpx then note (s0.lpxReadFails well b)
        else note ((s0.modWell well (fun y => { y with cisBad := insertNat b y.cisBad })).cisUncorrectable well b 4)
      else match found with
      | .corrected k =>
        if x.scrubLpx then ((s0.count (lpxBase well + 4)).cetAdd well addr 3).setReg (base + 0x1C) (s0.reg (base + 0x1C) + 1)
        else (s0.cetAdd well addr (if k = 8 then 5 else 1)).setReg (base + 0x1C) (s0.reg (base + 0x1C) + 1)
      | _ => s0
    if b < x.scrubLast then .next (s1.modWell well (fun y => { y with scrubNext := b + 1 }))
    else
      .next ((s1.modWell well (fun y => { y with scrub := .done })).raise 0x060B (s.owner well) 0
        [(8, well), (32, s1.reg (base + 0x18)), (32, s1.reg (base + 0x1C)), (32, s1.reg (base + 0x20))])

/-! ## BUCKET_RETIRE (R257, R258) -/

/-- Spare rows of a bank already used. -/
def State.sparesUsed (s : State) (w bank : Nat) : Nat := ((s.well w).spareBanks.filter (fun b => b == bank)).length

/-- Retire a bucket to the next spare row of its bank: event 0x0607, and 0x0608 with the last row. -/
def State.retire (s : State) (w b : Nat) : State :=
  let bank := s.bankOf w b
  let row := s.sparesUsed w bank
  let s1 := (s.modWell w (fun x => { x with retired := x.retired ++ [b], spareBanks := x.spareBanks ++ [bank] })).raise 0x0607 (s.owner w) 0 [(8, w), (32, b), (8, row)]
  if row + 1 = 64 then s1.raise 0x0608 (s.owner w) 0 [(8, w), (8, bank)] else s1

/-- BUCKET_RETIRE (R257): the contents, valid bit and mark move with the bucket. -/
def execBucketRetire (c : CmdRef) (s : State) : Result :=
  match s.ready c 0x2A with
  | none => .next s
  | some k =>
    let w := k.p0 % 256
    if 23 < w ∨ 2097151 < k.p1 then .next (s.complete k .format 0 0)
    else if s.owner w < 24 ∧ (s.round (s.owner w)).state.busy then .next (s.complete k .state 0 0)
    else if !(s.well w).inService ∨ 64 ≤ s.sparesUsed w (s.bankOf w k.p1) then .next (s.complete k .notReady 0 0)
    else .next ((s.retire w k.p1).complete k .ok 0 0)

/-! ## Host DMA (R373) -/

/-- The partition whose host share a DMA uses: the owner of the well its range lies in. -/
def State.dmaOwner (s : State) (k : Cmd) : Nat :=
  match memoryAt k.p1 with
  | some (_, w, _) => s.owner w
  | none => tagOfFn k.fn

end Sys2Proof.Machine
end

