-- ==== Sys2Proof/Machine/Partition.lean ====
section
/-! DEFINITION. Partition reset as one shared operation, and the failure, unloading and record of a partition image that it needs
(01_architecture.md R43; 02_rounds.md R49, R70; 06_tiles_windlass.md R218; 07_cisterns_pumps.md R251, R263; 08_structure_images.md R290, R293, R295;
09_strelul.md R307, R313; 10_host_interface.md R363; 11_security.md R417; 12_random.md R440). -/

namespace Sys2Proof.Machine

open Sys2Proof

/-! ## Image records (R293, R299) -/

/-- Record a refused or failed IMAGE_LOAD: IMG_STATUS, IMG_LAST_REFUSE, IMG_REFUSE_COUNT and event 0x0705 (R290, R293, R299). -/
def State.imageRecord (s : State) (p : Nat) (st : Status) (check sec : Nat) : State :=
  let b := imgBase p
  let s1 := ((s.setBits b 23 16 check).setBits b 15 8 st.code).count (b + 0x34)
  (s1.setRecord (b + 0x38) (2 ^ 31 + 2 ^ 24 * check + 2 ^ 16 * st.code + sec)).raise 0x0705 p 0 [(8, p), (8, st.code), (8, check), (16, sec)]

/-- Clear the valid bits of a partition's image areas (R293). -/
def State.clearAreas (s : State) (p : Nat) : State :=
  s.each (s.wellsOf p) (fun t w =>
    match s.imageArea w with
    | some (b, n) => t.modWell w (fun x => x.zeroRange b n)
    | none => t)

/-- Registers that describe a loaded image read zero while none is loaded (R299). -/
def State.clearImageRegs (s : State) (p : Nat) : State := (s.clearRegs (imgBase p + 8) (imgBase p + 0x30)).setReg (imgBase p + 0x3C) 0

/-- The image of a partition is gone and nothing of it stays installed (R293, R295); its fields stay locked until the next load or reset (R18). -/
def State.dropImage (s : State) (p : Nat) : State := (s.clearImageRegs p).modPart p (fun x => { x with image := {}, armed := false })

/-- A load fails after acceptance: the areas are cleared, the failure is recorded, and the command completes with its status and check (R293). -/
def State.imageFail (s : State) (p : Nat) (st : Status) (check sec : Nat) : State :=
  match (s.part p).image.loading with
  | none => s
  | some l =>
    let s1 := (((s.clearAreas p).dropImage p).imageRecord p st check sec)
    match s1.cmds.find? (fun c => c.is l.cmd) with
    | some c => s1.complete c st 0 check
    | none => s1

/-- The image leaves with a cause of event 0x0706: 0 partition reset, 1 digest vote, 2 new load (R295, R297). -/
def State.imageUnload (s : State) (p cause : Nat) : State := ((s.clearAreas p).dropImage p).raise 0x0706 p 0 [(8, p), (8, cause)]

/-! ## Commands (R363) -/

/-- Does a command in progress belong to a partition: one of its VF, or one of the PF that is aimed at it? -/
def State.belongs (s : State) (p : Nat) (c : Cmd) : Bool :=
  c.fn == p + 1 || (c.fn == 0 && ((actsOnPartition c.opcode && c.part == p) || ((c.opcode == 0x10 || c.opcode == 0x11) && s.dmaOwner c == p)))

/-- Complete the partition's commands in progress: OK for the PARTITION_RESET that causes the reset, ABORTED for each other; an accepted IMAGE_LOAD that
causes it stays, and a load in progress ends with the image. -/
def State.abortCmds (s : State) (p : Nat) (keep reset : Option CmdRef) : State :=
  let stays := fun (c : Cmd) => some c.ref == keep || some c.ref == (s.part p).image.loading.map Loading.cmd
  s.each (s.cmds.filter (fun c => s.belongs p c && !stays c)) (fun t c => t.complete c (if some c.ref == reset then .ok else .aborted) 0 0)

/-- Disable the VF's queues but the one that carries an accepted IMAGE_LOAD. -/
def State.disableVf (s : State) (p : Nat) (keep : Option CmdRef) : State :=
  let off := fun (q : Nat) => keep.all (fun k => k.fn != p + 1 || k.q != q)
  let s1 := { s with cmds := s.cmds.map (fun (c : Cmd) => if c.fn = p + 1 ∧ off c.q then { c with orphan := true } else c) }
  s1.modFn (p + 1) (fun x => { x with
    queues := (x.queues.zip (List.range 32)).map (fun (e : Queue × Nat) => if off e.2 then { e.1 with state := .disabled } else e.1) })

/-! ## What a partition reset clears -/

/-- A physical tile at partition reset: the whole tile store, step memory and registers are zeroed (R218). -/
def Tile.reset (x : Tile) : Tile := if x.state = .failed ∨ x.state = .test then x else { selfTest := x.selfTest }

/-- A well at partition reset (R251, R263): retirements, the correctable-error table, the substitution table and the state of its devices stay. -/
def Well.reset (x : Well) : Well :=
  { x with
    cis := [], cisValid := [], cisBad := [], merge := [], lpxMerge := [], lpxKey := [], lpxWritten := [], lpx := [],
    pumps := List.replicate 16 {}, copy := [{}, {}], tiles := x.tiles.map Tile.reset,
    scrub := if x.scrub = .running then .aborted else x.scrub }

/-- The registers of a well that a partition reset clears: tile registers, coefficient pairs, turn descriptors and prime tables. -/
def State.resetWellRegs (s : State) (w : Nat) : State :=
  let live := (List.range 25).filter (fun k => !((s.tile ⟨w, k⟩).state == .failed || (s.tile ⟨w, k⟩).state == .test))
  let s1 := s.each live (fun t k => t.clearRegs (tileBase ⟨w, k⟩) (tileBase ⟨w, k⟩ + 0x1000))
  let s2 := s1.clearRegs (cisBase w + 0x100) (cisBase w + 0x300)
  s2.each (List.range 16) (fun t k => t.clearRegs (pumpBase ⟨w, k⟩ + 0x100) (pumpBase ⟨w, k⟩ + 0x240))

/-- The session of a partition ends: every session key is zeroed, and event 0x0A09 when it was STARTED or ACTIVE (R417). -/
def State.endSession (s : State) (p cause : Nat) : State :=
  let was := (s.session p).state
  let s1 := s.modSession p (fun x => { lastStatus := x.lastStatus, pendingStart := x.pendingStart })
  if was = .none then s1 else s1.raise 0x0A09 (drbgPart p) 0 [(8, drbgPart p), (8, cause)]

/-- Every QP of a partition is FREE, with its keys zeroed and nothing sent; regions in use lose their generation (R307, R313). -/
def State.resetStrelul (s : State) (p : Nat) : State :=
  let wipe := fun (e : Nat × Region) =>
    if e.2.state = .valid ∨ e.2.state = .revoking then (e.1, { state := .unused, generation := nextGeneration e.2.generation : Region }) else e
  { s.modPart p (fun x => { x with regions := x.regions.map wipe, accepted := [], acceptedTaken := false, evqLost := 0 }) with
    qps := s.qps.filter (fun e => e.2.part ≠ p), commits := s.commits.filter (fun c => c.part ≠ p), regionChanges := s.regionChanges + 1 }

/-- The registers of a partition's round, masked aggregation, ciphertext engine, refresh and Strelul blocks (R43). -/
def State.resetPartRegs (s : State) (p : Nat) : State :=
  ((((s.clearRegs (rndBase p) (rndBase p + 0x400)).clearRegs (mskBase p) (mskBase p + 0x100)).clearRegs (ctxBase p) (ctxBase p + 0x100)).clearRegs
    (rfsBase p) (rfsBase p + 0x100)).clearRegs (stlpBase p) (stlpBase p + 0x1000)

/-- Zero the keys of a selective IDE stream (R363, R380). -/
def State.zeroIde (s : State) (k : Nat) : State :=
  { s with host := { s.host with ide := updAt s.host.ide k (fun i => { i with keys := [], keySet := none }) } }

/-- What a partition holds after its reset: no round, no queue, an open admission floor; the image is dealt with before. -/
def Partition.reset (x : Partition) : Partition :=
  { image := x.image, regions := x.regions, session := x.session, lastLogged := x.lastLogged }

/-- A load ends with check 14, or a loaded image is unloaded (R293, R295). -/
def State.resetImage (s : State) (p cause : Nat) : State :=
  match (s.part p).image.state with
  | .empty => s
  | .loading => s.imageFail p .aborted 14 0x1FFF
  | .loaded => s.imageUnload p cause

/-- Partition reset (R43). `keep` is the accepted IMAGE_LOAD that causes it, `reset` the PARTITION_RESET that does; `cause` is the cause of event 0x0706
(0 reset, 1 digest vote, 2 new load) and `ended` that of event 0x0A09 (0 END_SESSION, 1 reset, 2 image load). -/
def State.partitionReset (s : State) (p cause ended : Nat) (keep reset : Option CmdRef) : State :=
  let s1 := ((s.abortCmds p keep reset).resetImage p cause).disableVf p keep
  let s2 := ((s1.zeroIde (p + 1)).tdiError (p + 1) 3).endSession p ended
  let s3 := s2.each (s.wellsOf p) (fun t w => (t.resetWellRegs w).modWell w Well.reset)
  let s4 := ((s3.resetStrelul p).resetPartRegs p).modPart p Partition.reset
  let s5 := s4.rearmSources p
  { s5 with lockParts := s5.lockParts.filter (fun q => q ≠ p) }

/-- PARTITION_RESET (R43, R363, R372). -/
def execPartitionReset (c : CmdRef) (s : State) : Result :=
  s.partCmd c 0x08 (fun k => .next (s.partitionReset k.part 0 1 none (some k.ref)))

end Sys2Proof.Machine
end

