-- ==== Sys2Proof/Machine/Container.lean ====
section
/-! DEFINITION. Containers of floor plans, partition images and firmware: header, section table, signature block and their checks
(08_structure_images.md R270 to R275, R283, R296 checks 1 to 5). -/

namespace Sys2Proof.Machine

open Sys2Proof

/-- A failed check of R296: status, check and section index (0x1FFF when none). -/
abbrev Verdict := Except (Status × Nat × Nat) Unit

/-- Fail a check unless a condition holds. -/
def need (c : Bool) (st : Status) (check : Nat) (sec : Nat := 0x1FFF) : Verdict := if c then .ok () else .error (st, check, sec)

/-- The verdict of checks made in order: the first that fails decides (R296). -/
def checkAll : List Verdict → Verdict
  | [] => .ok ()
  | .ok _ :: vs => checkAll vs
  | .error e :: _ => .error e

/-- Are `len` bytes from an offset zero? -/
def zeroAt (b : Bytes) (off len : Nat) : Bool := rd b off len == 0

/-! ## The header (R270) -/

/-- Fields of a container header. -/
structure Header where
  magic : Nat
  version : Nat
  kind : Nat
  count : Nat
  length : Nat
  target : Nat
  wells : Nat
  ckptSlot : Nat
  minStepping : Nat
  serial : Nat
  partNumber : Nat
  deriving DecidableEq, Repr

/-- The fields of 64 bytes. -/
def headerOf (b : Bytes) : Header :=
  { magic := rd b 0 4, version := rd b 4 1, kind := rd b 5 1, count := rd b 6 2, length := rd b 8 4, target := rd b 0xC 1, wells := rd b 0xD 1,
    ckptSlot := rd b 0xE 1, minStepping := rd b 0xF 1, serial := rd b 0x10 8, partNumber := rd b 0x18 2 }

/-- Largest length of a kind: 262,144 for a floor plan and 1,073,741,824 for a partition image (R270); 131,072 for firmware (R401). -/
def largestLength (kind : Nat) : Nat := if kind = 1 then 262144 else if kind = 2 then 1073741824 else 131072

/-- The header of a kind with its target, wells and checkpoint slot as that kind requires. -/
def headerGood (h : Header) (b : Bytes) (kind stepping : Nat) (target : Nat → Bool) (wells : Nat) : Bool :=
  crcEndsOk (b.take 64) && h.magic == 0x4F585950 && h.version == 1 && h.kind == kind && inRange h.count 4096 && h.length % 64 == 0 &&
    target h.target && h.wells == wells && (if kind = 2 then decide (8 ≤ h.ckptSlot) && decide (h.ckptSlot ≤ 63) else h.ckptSlot == 0) &&
    decide (h.minStepping ≤ stepping) && h.serial != 0 && h.partNumber == 0x2416

/-- Check 1 as far as the header decides it: its own rules, then its length against the command's (R270). -/
def headerVerdict (b : Bytes) (len kind stepping : Nat) (target : Nat → Bool) (wells : Nat) : Verdict :=
  let h := headerOf b
  checkAll [
    need (len != 0) .format 1,
    need (decide (len ≤ largestLength kind)) .lengthExceeds 1,
    need (headerGood h b kind stepping target wells) .format 1,
    need (decide (h.length ≤ len)) .lengthExceeds 1,
    need (h.length == len) .format 1]

/-! ## The signature block (R272 to R274) -/

/-- The last 3,840 bytes. -/
def sigBlock (b : Bytes) : Bytes := b.drop (b.length - 3840)

/-- The header of the signature block holds what R272 states; the key slot as its kind requires. Reserved fields are ignored (R9). -/
def sigHeaderGood (g : Bytes) (slot : Nat → Bool) : Bool :=
  rd g 0 1 == 1 && slot (rd g 1 1) && rd g 4 4 == 3840 && crcEndsOk (g.take 64)

/-- Public key, key digest and signature of a block. -/
def sigKey (g : Bytes) : Bytes := slice g 0x40 1312
def sigDigest (g : Bytes) : Bytes := slice g 8 32
def sigValue (g : Bytes) : Bytes := slice g 0x560 2420

/-- The image digest: SHA3-256 of all but the signature block (R273). -/
def imageDigest (b : Bytes) : Bytes := sha3 (b.take (b.length - 3840))

/-- The signature verifies with ML-DSA-44 in its pure form (R273). -/
def signatureGood (b : Bytes) : Bool :=
  Config.mldsaVerify (sigKey (sigBlock b)) (imageDigest b) (ascii "OSTUSO PYRXO") (sigValue (sigBlock b))

/-! ## The section table (R271) -/

/-- An entry of the section table. -/
structure Section where
  index : Nat
  stype : Nat
  rank : Nat
  tile : Nat
  off : Nat
  size : Nat
  crc : Nat
  deriving DecidableEq, Repr

/-- The entry at an index. -/
def sectionAt (b : Bytes) (k : Nat) : Section :=
  let e := slice b (0x40 + 16 * k) 16
  ⟨k, rd e 0 2, rd e 2 1, rd e 3 1, rd e 4 4, rd e 8 4, rd e 0xC 4⟩

/-- All entries. -/
def sectionsIn (b : Bytes) : List Section := (List.range (headerOf b).count).map (sectionAt b)

/-- The body of a section. -/
def Section.body (x : Section) (b : Bytes) : Bytes := slice b x.off x.size

/-- Entries stand in ascending offset order from a first free offset on, without overlap, and the bytes between them are zero. -/
def tableGood (b : Bytes) (stop : Nat) : Nat → List Section → Option Nat
  | at_, [] => if at_ ≤ stop ∧ zeroAt b at_ (stop - at_) then none else some 0x1FFF
  | at_, x :: xs =>
    if x.off % 64 = 0 ∧ 1 ≤ x.size ∧ at_ ≤ x.off ∧ x.off + x.size ≤ stop ∧ zeroAt b at_ (x.off - at_) then tableGood b stop (x.off + x.size) xs
    else some x.index

/-- The section table as R271 states it: none, or the index of the first bad entry. -/
def tableFault (b : Bytes) : Option Nat :=
  let h := headerOf b
  if b.length < 64 + 16 * h.count + 3840 then some 0x1FFF else tableGood b (b.length - 3840) (64 + 16 * h.count) (sectionsIn b)

/-- The first section whose CRC fails (check 4). -/
def crcFault (b : Bytes) : Option Nat := ((sectionsIn b).find? (fun x => crc32c (x.body b) != x.crc)).map Section.index

/-- The first section of a type. -/
def sectionOf (b : Bytes) (t : Nat) : Option Section := (sectionsIn b).find? (fun x => x.stype == t)

/-- Its body, empty when there is none, and its index. -/
def bodyOf (b : Bytes) (t : Nat) : Bytes := match sectionOf b t with | some x => x.body b | none => []
def indexOf (b : Bytes) (t : Nat) : Nat := match sectionOf b t with | some x => x.index | none => 0x1FFF

/-- The sections of a rank and tile with a type. -/
def sectionsAt (b : Bytes) (t rank tile : Nat) : List Section := (sectionsIn b).filter (fun x => x.stype == t && x.rank == rank && x.tile == tile)

/-! ## Partition image sections (R283) -/

/-- Does the scope of a section suit its type? Ranks lie below the header's wells. -/
def scopeGood (wells : Nat) (x : Section) : Bool :=
  if x.stype = 0x105 ∨ x.stype = 0x106 ∨ x.stype = 0x107 then decide (x.rank < wells) && decide (x.tile < 24)
  else if x.stype = 0x108 then decide (x.rank < wells) && x.tile == 0xFF
  else x.rank == 0xFF && x.tile == 0xFF

/-- The WELL section of a rank stands before every other section of that rank. -/
def wellFirst (l : List Section) : Bool :=
  (List.range 24).all (fun r => match l.find? (fun x => x.rank == r) with | some x => x.stype == 0x108 | none => true)

/-- Number of sections of a type. -/
def countOf (l : List Section) (t : Nat) : Nat := (l.filter (fun x => x.stype == t)).length

/-- Check 3 of a partition image: the table of R271, then the rules of R283. PRIMES is present with a mode H set and only with one. -/
def imageSectionsVerdict (b : Bytes) : Verdict :=
  let l := sectionsIn b
  let wells := (headerOf b).wells
  let badType := l.find? (fun x => decide (x.stype < 0x101) || decide (0x10B < x.stype) || !scopeGood wells x)
  let setModes := (chunks 64 (bodyOf b 0x102)).map (fun r => rd r 2 1)
  checkAll [
    need (tableFault b).isNone .format 3 ((tableFault b).getD 0x1FFF),
    need badType.isNone .format 3 ((badType.map Section.index).getD 0x1FFF),
    need ([0x101, 0x102, 0x109, 0x10B].all (fun t => countOf l t == 1)) .format 3,
    need ([0x103, 0x104, 0x10A].all (fun t => decide (countOf l t ≤ 1))) .format 3,
    need ((countOf l 0x103 == 1) == setModes.contains 2) .format 3 (indexOf b 0x103),
    need ((List.range wells).all (fun r => (sectionsAt b 0x108 r 0xFF).length == 1 &&
      (List.range 24).all (fun t => (sectionsAt b 0x105 r t).length == 1))) .format 3,
    need (wellFirst l) .format 3,
    need (decide (((l.filter (fun x => x.rank == 0xFF)).map Section.size).sum ≤ 196608)) .format 3]

/-- Check 4: the first section with a bad CRC. -/
def crcVerdict (b : Bytes) : Verdict := need (crcFault b).isNone .format 4 ((crcFault b).getD 0x1FFF)

end Sys2Proof.Machine
end

