-- ==== Sys2Proof/Machine/Flags.lean ====
section
/-! DEFINITION. The sticky floating-point flags of a tile, TILE_FPFLAGS (06_tiles_windlass.md R187, R227). -/

namespace Sys2Proof.Machine

open Sys2Proof

/-- The union of flag sets. -/
def orFlags (l : List FRes) : Nat := l.foldl (fun a r => a ||| r.flags) 0

/-- Set the sticky flags of results: bit 0 inexact, 1 underflow, 2 overflow, 3 invalid. A flag that IEEE 754 leaves to the implementation (bits 4 and 5 of a
result, log entry 12) takes a free value. -/
def State.setFlags (s : State) (t : TileRef) (f : Nat) : State :=
  let r := s.draw
  let open4 := bit f 4 || bit f 5
  let u := bit f 4 && bit r.1 0
  let v := bit f 5 && bit r.1 1
  let m := (f % 16) ||| (2 * b2n u) ||| (8 * b2n v)
  ((if open4 then r.2 else s).noteSet (tileBase t + 0x34) m).setReg (tileBase t + 0x34) (s.reg (tileBase t + 0x34) ||| m)

end Sys2Proof.Machine
end

