-- ==== Sys2Proof/Machine/Lanes.lean ====
section
/-! DEFINITION. The lane steps (06_tiles_windlass.md R186 to R192, R199, R214; 03_masked_aggregation.md R118; 04_ciphertext_engine.md R132). -/

namespace Sys2Proof.Machine

open Sys2Proof

/-! ## Running a lane step -/

/-- What a lane step reads and writes: bits of the A and B words and of the result words, whether B and the old destination are read, cycles per vector and
latency, and the words it computes. -/
structure LaneOp where
  bitsA : Nat := 32
  bitsB : Nat := 32
  bitsD : Nat := 32
  words : Nat := 128
  useB : Bool := true
  useD : Bool := false
  per : Nat := 1
  lat : Nat := 4

/-- The touches of one iteration. -/
def LaneOp.touches (o : LaneOp) (w : StepWord) (c i : Nat) : List Touch :=
  let rd := fun (on : Bool) (space row bits : Nat) => if on && space == 0 then [Touch.mk 0 (c + i * o.per) 1 row (o.words * bits / 512) false] else []
  rd true w.aSpace (rowOf w.srcA w.strideA i) o.bitsA ++ rd o.useB w.bSpace (rowOf w.srcB w.strideB i) o.bitsB ++
    rd o.useD w.dstSpace (rowOf w.dst w.strideD i) o.bitsD

/-- Does a vector that a step reads from the tile store hold a double-bit error (R194)? -/
def Tile.badSources (x : Tile) (o : LaneOp) (w : StepWord) : Bool :=
  (List.range w.count).any (fun i =>
    (w.aSpace == 0 && x.badAt (rowOf w.srcA w.strideA i) (o.words * o.bitsA / 8)) ||
      (o.useB && w.bSpace == 0 && x.badAt (rowOf w.srcB w.strideB i) (o.words * o.bitsB / 8)) ||
      (o.useD && w.dstSpace == 0 && x.badAt (rowOf w.dst w.strideD i) (o.words * o.bitsD / 8)))

/-- Clear the accumulators before the first vector where the step asks for it (R213). -/
def State.accClear (s : State) (t : TileRef) (w : StepWord) : State :=
  if w.accClear then s.modTile t (fun x => { x with accs := List.replicate 128 0 }) else s

/-- Run a lane step vector by vector: `f` gets the words of A, B and the old destination and answers the result's words, or only changes the state (the
accumulators) where it answers none. -/
def State.runLanes (s : State) (t : TileRef) (i : Issue) (o : LaneOp)
    (f : Nat → List Nat → List Nat → List Nat → State → Option (List Nat) × State) : State :=
  let w := i.w
  if (s.tile t).badSources o w then s.storeTrap t i
  else
    let reads := (List.range w.count).flatMap (o.touches w i.at_)
    let body := (List.range w.count).foldl (fun (a : State × List Touch) k =>
      let c := i.at_ + k * o.per
      let ra := a.1.operand t w.aSpace c (rowOf w.srcA w.strideA k) o.bitsA o.words
      let rb := if o.useB then ra.2.operand t w.bSpace c (rowOf w.srcB w.strideB k) o.bitsB o.words else ([], ra.2)
      let rd := if o.useD then rb.2.operand t w.dstSpace c (rowOf w.dst w.strideD k) o.bitsD o.words else ([], rb.2)
      let r := f k ra.1 rb.1 rd.1 rd.2
      match r.1 with
      | some l =>
        let row := rowOf w.dst w.strideD k
        let put := r.2.result t w.dstSpace row o.bitsD l
        (put, if w.dstSpace = 0 then a.2 ++ [⟨0, c + o.lat, 1, row, (l.length * o.bitsD + 511) / 512, true⟩] else a.2)
      | none => (r.2, a.2)) (s.accClear t w, ([] : List Touch))
    let r := body.1.touch t i (reads ++ body.2)
    r.2.modTile t (fun x => x.occupy (unitsOf w) (i.at_ + w.count * o.per + r.1))

/-- Cycles per vector of a 64-bit step: one in a chain of two read streams that writes nothing, else two (R192). -/
def perOf64 (w : StepWord) (useB : Bool) : Nat := if useB ∧ w.dstSpace ≠ 0 then 1 else 2

/-- A step that computes each word by itself, where the mode is the one it is for; in any other mode its words are free values. -/
def State.mapLanes (s : State) (t : TileRef) (i : Issue) (o : LaneOp) (mode : Nat) (f : Nat → Nat → Option Nat) : State :=
  s.runLanes t i o (fun _ a b _ u =>
    let l := if i.w.mode = mode then List.zipWith f a (if o.useB then b else a) else a.map (fun _ => none)
    let r := u.fillFree o.bitsD l
    (some r.1, r.2))

/-! ## Modular steps -/

/-- Words of a modular step: free where a word is not below the prime (R129). -/
def modOp (q : Nat) (f : Nat → Nat → Nat) (a b : Nat) : Option Nat := if a < q ∧ b < q then some (f a b) else none

/-- MMUL (R214, R132). -/
def execMmul (t : TileRef) (s : State) : Result :=
  s.execStep t 0x10 (fun t i s =>
    let q := s.primeOf i.part i.w.prime
    s.mapLanes t i { lat := 12 } 0 (fun a b => redcOpt q (a * b)))

/-- Write the accumulators at the end of a step, word by word as `g` reduces them (R213). -/
def State.accWrite (s : State) (t : TileRef) (w : StepWord) (bits : Nat) (g : Nat → Option Nat) : State :=
  if w.accWrite then
    let r := s.fillFree bits ((s.tile t).accs.map g)
    r.2.result t w.dstSpace w.dst bits r.1
  else s

/-- The touch of an accumulator write. -/
def State.accTouch (s : State) (t : TileRef) (i : Issue) (lat rows : Nat) : State :=
  if i.w.accWrite ∧ i.w.dstSpace = 0 then (s.touch t { i with at_ := i.at_ } [⟨0, i.at_ + i.w.count + lat, 1, i.w.dst, rows, true⟩]).2 else s

/-- MMAC (R214, R132): products are added without reduction; acc_write writes redc of the sums. -/
def execMmac (t : TileRef) (s : State) : Result :=
  s.execStep t 0x11 (fun t i s =>
    let q := s.primeOf i.part i.w.prime
    let s1 := s.runLanes t i { lat := 12 } (fun _ a b _ u =>
      (none, u.modTile t (fun x => { x with accs := List.zipWith (fun (c p : Nat) => (c + p) % 2 ^ 256) x.accs (List.zipWith (fun (m n : Nat) => m * n) a b) })))
    if (s1.tile t).state = .running then ((s1.accWrite t i.w 32 (redcOpt q)).accTouch t i 12 8) else s1)

/-- MADD (R214). -/
def execMadd (t : TileRef) (s : State) : Result :=
  s.execStep t 0x12 (fun t i s => let q := s.primeOf i.part i.w.prime; s.mapLanes t i {} 0 (modOp q (fun a b => (a + b) % q)))

/-- MSUB (R214). -/
def execMsub (t : TileRef) (s : State) : Result :=
  s.execStep t 0x13 (fun t i s => let q := s.primeOf i.part i.w.prime; s.mapLanes t i {} 0 (modOp q (fun a b => (a + (q - b)) % q)))

/-- MNEG (R214). -/
def execMneg (t : TileRef) (s : State) : Result :=
  s.execStep t 0x14 (fun t i s => let q := s.primeOf i.part i.w.prime; s.mapLanes t i { useB := false } 0 (modOp q (fun a _ => (q - a) % q)))

/-! ## Ring steps (R186): every result is reduced mod 2^w, and container bits at and above w are zero -/

/-- A ring operation at the width aux[7:0]; free where the width is not a legal one. -/
def ringOp (w : StepWord) (f : Nat → Nat → Int) (a b : Nat) : Option Nat :=
  let k := w.aux % 256
  if legalWidth k then some (unsgn k (f a b)) else none

/-- The lane form of a 64-bit step. -/
def op64 (w : StepWord) (useB : Bool) : LaneOp := { bitsA := 64, bitsB := 64, bitsD := 64, useB := useB, per := perOf64 w useB, lat := 4 }

/-- RADD (R186, R214). -/
def execRadd (t : TileRef) (s : State) : Result :=
  s.execStep t 0x18 (fun t i s => s.mapLanes t i (op64 i.w true) 1 (ringOp i.w (fun a b => (a : Int) + b)))

/-- RSUB (R186, R214). -/
def execRsub (t : TileRef) (s : State) : Result :=
  s.execStep t 0x19 (fun t i s => s.mapLanes t i (op64 i.w true) 1 (ringOp i.w (fun a b => (a : Int) - b)))

/-- RNEG (R186, R214). -/
def execRneg (t : TileRef) (s : State) : Result :=
  s.execStep t 0x1A (fun t i s => s.mapLanes t i (op64 i.w false) 1 (ringOp i.w (fun a _ => -(a : Int))))

/-! ## Floating point (R187, R188, R190) -/

/-- FMA (R187, R214): dst := A * B + dst in binary32, with its flags. -/
def execFma (t : TileRef) (s : State) : Result :=
  s.execStep t 0x1C (fun t i s =>
    s.runLanes t i { useD := true, lat := 8 } (fun _ a b d u =>
      if i.w.mode = 2 then
        let rs := List.zipWith (fun (p : Nat × Nat) c => fma32 p.1 p.2 c) (a.zip b) d
        (some (rs.map FRes.val), u.setFlags t (orFlags rs))
      else let r := u.fillFree 32 (a.map (fun _ => none)); (some r.1, r.2)))

/-- One lane of DOT in a float format: products added in element order, each sum rounded (R187). -/
def dotFloat (dec : Nat → FVal) (acc : Nat) (ab : List (Nat × Nat)) : FRes :=
  ab.foldl (fun (r : FRes) e =>
    let x := fmaVals (dec e.1) (dec e.2) (decode32 r.val)
    ⟨x.val, x.flags ||| r.flags⟩) ⟨acc % 2 ^ 32, 0⟩

/-- One lane of DOT: the new low 32 bits of its accumulator, and flags; none in a mode that has no dot product. -/
def dotLane (mode acc : Nat) (ab : List (Nat × Nat)) : Option FRes :=
  if mode = 3 then some (dotFloat decodeBf16 acc ab)
  else if mode = 4 then some ⟨unsgn 32 (ab.foldl (fun (z : Int) e => z + sgn 8 e.1 * sgn 8 e.2) (acc : Int)), 0⟩
  else if mode = 5 then some ⟨ab.foldl (fun (z : Nat) e => z + e.1 * e.2) acc % 2 ^ 32, 0⟩
  else if mode = 6 then some (dotFloat decodeE4m3 acc ab)
  else if mode = 7 then some (dotFloat decodeE5m2 acc ab) else none

/-- DOT (R187, R188, R214): each lane adds its products into the low 32 bits of its accumulator; acc_write writes them. -/
def execDot (t : TileRef) (s : State) : Result :=
  s.execStep t 0x1D (fun t i s =>
    let m := i.w.mode
    let bits := if m = 3 then 16 else 8
    let o : LaneOp := { bitsA := bits, bitsB := bits, words := 4096 / bits, lat := 8 }
    let s1 := s.runLanes t i o (fun _ a b _ u =>
      let lanes := List.zipWith (fun (c : Nat) ab => dotLane m (c % 2 ^ 32) ab) (u.tile t).accs (chunks (32 / bits) (a.zip b))
      let r := u.fillFree 32 (lanes.map (fun l => l.map FRes.val))
      let u1 := r.2.setFlags t (orFlags (lanes.filterMap (fun l => l)))
      (none, u1.modTile t (fun x => { x with accs := List.zipWith (fun (c v : Nat) => 2 ^ 32 * (c / 2 ^ 32) + v) x.accs r.1 })))
    if (s1.tile t).state = .running then ((s1.accWrite t i.w 32 (fun c => some (c % 2 ^ 32))).accTouch t i 8 8) else s1)

/-- One result of CVT, by function (R190); none where the function is undefined. -/
def cvtWord (fn w f x : Nat) : Option FRes :=
  match fn with
  | 0 => some (fixedTo32 (sgn w x) f)
  | 1 => some (toBf16 x)
  | 2 => some (fromBf16 x)
  | 3 => some (toRing w f x)
  | 4 => some (intTo32 (sgn 32 x))
  | _ => none

/-- CVT (R190): one vector of 128 words per iteration. Function 0 reads the first 128 words of packed buckets. -/
def execCvt (t : TileRef) (s : State) : Result :=
  s.execStep t 0x1E (fun t i s =>
    let fn := i.w.aux % 16
    let w := if fn = 0 ∨ fn = 3 then 8 * bits i.w.aux 7 4 else 32
    let f := bits i.w.aux 13 8
    let packedRows := if fn = 0 then ceilDiv 128 (wordsPerBucket w) else 8
    let o : LaneOp :=
      { words := if fn = 0 then 1 else 128, useB := false,
        bitsA := if fn = 0 then 512 * packedRows else if fn = 2 then 16 else 32, bitsD := if fn = 1 then 16 else if fn = 3 then 64 else 32 }
    s.runLanes t i o (fun _ a _ _ u =>
      let xs := if fn = 0 then ((a.flatMap (wordsOf 512 packedRows)).flatMap (wordsOf w (wordsPerBucket w))).take 128 else a
      let rs := xs.map (cvtWord fn w f)
      let r := u.fillFree o.bitsD (rs.map (fun x => x.map FRes.val))
      (some r.1, r.2.setFlags t (orFlags (rs.filterMap (fun x => x))))))

/-- FEST of one word (R190): the fixed results of special operands, else an estimate within 2^-12 that the spec leaves open; of -0 any word. -/
def festWord (fn x : Nat) : FRes :=
  let y := Config.estimate fn x % 2 ^ 32
  (festSpecial fn x).getD ⟨if x % 2 ^ 31 = 0 ∨ festGood fn x y then y else festRound fn x, 0⟩

/-- FEST (R190). -/
def execFest (t : TileRef) (s : State) : Result :=
  s.execStep t 0x1F (fun t i s =>
    let fn := i.w.aux % 2
    s.runLanes t i { useB := false, lat := 8 } (fun _ a _ _ u =>
      let rs := a.map (festWord fn)
      (some (rs.map FRes.val), u.setFlags t (orFlags rs))))

/-! ## Logic and carry-less products (R189, R214) -/

/-- One word of LOGIC. -/
def logicWord (aux a b : Nat) : Option Nat :=
  match aux % 8 with
  | 0 => some (a ^^^ b)
  | 1 => some (a &&& b)
  | 2 => some (a ||| b)
  | 3 => some (a &&& (b ^^^ (2 ^ 64 - 1)))
  | 4 => some (rotl64 a (bits aux 13 8))
  | _ => none

/-- LOGIC (R214). -/
def execLogic (t : TileRef) (s : State) : Result :=
  s.execStep t 0x20 (fun t i s => s.mapLanes t i (op64 i.w (i.w.aux % 8 != 4)) 9 (logicWord i.w.aux))

/-- Carry-less product of two 64-bit polynomials. -/
def clmul64 (a b : Nat) : Nat := (List.range 64).foldl (fun (z : Nat) k => if bit b k then z ^^^ (a <<< k) else z) 0

/-- A 256-bit polynomial modulo x^128 + x^7 + x^2 + x + 1. -/
def gfReduce (a : Nat) : Nat :=
  (List.range 128).foldl (fun (z : Nat) k => if bit z (255 - k) then z ^^^ (0x100000000000000000000000000000087 <<< (127 - k)) else z) a

/-- CLMUL (R189). -/
def execClmul (t : TileRef) (s : State) : Result :=
  s.execStep t 0x21 (fun t i s =>
    let sh := 64 * (b2n (bit i.w.aux 0) + b2n (bit i.w.aux 1))
    s.runLanes t i { bitsA := 64, bitsB := 64, bitsD := 64 } (fun _ a b _ u =>
      (none, u.modTile t (fun x => { x with accs := List.zipWith (fun (c p : Nat) => c ^^^ (p <<< sh)) x.accs (List.zipWith clmul64 a b) }))))

/-- GFRED (R189): the low halves at dst, the high halves 16 rows above. -/
def execGfred (t : TileRef) (s : State) : Result :=
  s.execStep t 0x22 (fun t i s =>
    let w := { i.w with aSpace := 1 }
    s.runLanes t { i with w := w } { bitsA := 64, bitsD := 64, useB := false, per := 2 } (fun k _ _ _ u =>
      let rs := (u.tile t).accs.map gfReduce
      (some (rs.map (fun r => r % 2 ^ 64)), u.result t w.dstSpace ((rowOf w.dst w.strideD k + 16) % 16384) 64 (rs.map (fun r => r / 2 ^ 64)))))

/-! ## KECCAK and SAMPLE (R118, R199) -/

/-- KECCAK (R199): five states of 25 lanes in a 1,024-byte vector, element 25 s + j; its last three words are free values. -/
def execKeccak (t : TileRef) (s : State) : Result :=
  s.execStep t 0x23 (fun t i s =>
    s.runLanes t i { bitsA := 64, bitsD := 64, useB := false, per := 96, lat := 8 } (fun _ a _ _ u =>
      let out := ((chunks 25 (a.take 125)).flatMap keccakF).map some ++ List.replicate 3 none
      let r := u.fillFree 64 out
      (some r.1, r.2)))

/-- The next `k` bits of a bit stream given as a number and its length, first bit least significant (R118, R119). -/
def takeBits (src : Nat × Nat) (pos k : Nat) : Option (Nat × Nat) :=
  if pos + k ≤ src.2 then some ((src.1 >>> pos) % 2 ^ k, pos + k) else none

/-- uniform(b) of R118. -/
def sampUniform (src : Nat × Nat) (b : Nat) : Nat → Nat → Option (Nat × Nat)
  | 0, _ => none
  | fuel + 1, pos =>
    match takeBits src pos (bitLen (b - 1)) with
    | none => none
    | some (r, pos1) => if r < b then some (r, pos1) else sampUniform src b fuel pos1

/-- The last loop of bern_exp: `while uniform(d k) < n` k grows; true when k ends odd. -/
def sampTail (src : Nat × Nat) (n d : Nat) : Nat → Nat → Nat → Option (Bool × Nat)
  | 0, _, _ => none
  | fuel + 1, k, pos =>
    match sampUniform src (d * k) (src.2 + 1) pos with
    | none => none
    | some (r, pos1) => if n ≤ r then some (decide (k % 2 = 1), pos1) else sampTail src n d fuel (k + 1) pos1

/-- bern_exp(n, d) of R118; the inner bern_exp(1, 1) is its last loop alone. -/
def sampBern (src : Nat × Nat) (d : Nat) : Nat → Nat → Nat → Option (Bool × Nat)
  | 0, _, _ => none
  | fuel + 1, n, pos =>
    if d < n then
      match sampTail src 1 1 (src.2 + 2) 1 pos with
      | none => none
      | some (false, pos1) => some (false, pos1)
      | some (true, pos1) => sampBern src d fuel (n - d) pos1
    else sampTail src n d (src.2 + 2) 1 pos

/-- The count of successes of bern_exp(1, 1). -/
def sampGeom (src : Nat × Nat) : Nat → Nat → Nat → Option (Nat × Nat)
  | 0, _, _ => none
  | fuel + 1, v, pos =>
    match sampTail src 1 1 (src.2 + 2) 1 pos with
    | none => none
    | some (true, pos1) => sampGeom src fuel (v + 1) pos1
    | some (false, pos1) => some (v, pos1)

/-- dlaplace(t) of R118. -/
def sampLaplace (src : Nat × Nat) (t : Nat) : Nat → Nat → Option (Int × Nat)
  | 0, _ => none
  | fuel + 1, pos =>
    match sampUniform src t (src.2 + 1) pos with
    | none => none
    | some (u, p1) =>
      match sampBern src t (src.2 + 2) u p1 with
      | none => none
      | some (false, p2) => sampLaplace src t fuel p2
      | some (true, p2) =>
        match sampGeom src (src.2 + 2) 0 p2 with
        | none => none
        | some (v, p3) =>
          match sampUniform src 2 2 p3 with
          | none => none
          | some (sg, p4) =>
            let x := u + t * v
            if sg = 1 ∧ x = 0 then sampLaplace src t fuel p4 else some (if sg = 0 then (x : Int) else -(x : Int), p4)

/-- sample(q) of R118. -/
def sampGauss (src : Nat × Nat) (q : Nat) : Nat → Nat → Option (Int × Nat)
  | 0, _ => none
  | fuel + 1, pos =>
    let t := q / 2 ^ 16 + 1
    match sampLaplace src t (src.2 + 2) pos with
    | none => none
    | some (y, p1) =>
      if 2 ^ 62 ≤ y.natAbs then sampGauss src q fuel p1
      else
        let e : Int := (2 ^ 32 * (y.natAbs * t) : Nat) - (q * q : Nat)
        let n := e.natAbs * e.natAbs
        let d := 2 ^ 33 * (t * t) * (q * q)
        match sampBern src d (n / (max d 1) + 2) n p1 with
        | none => none
        | some (true, p2) => some (y, p2)
        | some (false, p2) => sampGauss src q fuel p2

/-- `n` samples as words of `w` bits; free where the bits run out. -/
def sampMany (src : Nat × Nat) (q w : Nat) : Nat → Nat → List (Option Nat) × Nat
  | 0, pos => ([], pos)
  | n + 1, pos =>
    match sampGauss src q (src.2 + 2) pos with
    | some (y, p1) => let r := sampMany src q w n p1; (some (unsgn w y) :: r.1, r.2)
    | none => let r := sampMany src q w n pos; (none :: r.1, r.2)

/-- The samples of a SAMPLE step from a bit string, and the rows that hold the bits they used. -/
def sampleRun (src : Nat × Nat) (q width n : Nat) : List (Option Nat) × Nat :=
  let r := sampMany src q width n 0
  (r.1, ceilDiv r.2 512)

/-- SAMPLE (R118, R199): 128 samples to a vector from the DRBG bits that lie in the tile store from row src_a on. How long it takes depends on those bits
in a way that is not stated: its busy cycles are a free value. -/
def execSample (t : TileRef) (s : State) : Result :=
  s.execStep t 0x24 (fun t i s =>
    let w := i.w
    let q := if w.aux % 256 = 0 then s.reg64 (mskBase i.part + 8) else s.reg64 (ctxBase i.part + 0x18)
    let width := if w.aux % 256 = 0 ∧ (s.round i.part).desc.mode = .m then (s.round i.part).desc.ringWidth else 64
    let len := 64 * (16384 - w.srcA)
    let first := sampleRun (memNat (s.tile t).store (w.srcA * 64) len, 8 * len) q width (128 * w.count)
    if (s.tile t).badAt w.srcA (64 * first.2) then s.storeTrap t i
    else
      let d := s.draw
      let all := if (s.tile t).pendingWrite i.at_ w.srcA first.2 then sampleRun (d.1 % 2 ^ (8 * len), 8 * len) q width (128 * w.count) else first
      let e := d.2.draw
      let busy := 1 + e.1 % 2 ^ 20
      let s1 := ((chunks 128 all.1).zip (List.range w.count)).foldl (fun (u : State) (e : List (Option Nat) × Nat) =>
        let r := u.fillFree 64 e.1
        r.2.result t w.dstSpace (rowOf w.dst w.strideD e.2) 64 r.1) (e.2.accClear t w)
      let plan := (List.range w.count).map (fun k => Touch.mk 0 (i.at_ + busy * (k + 1) / w.count) 1 (rowOf w.dst w.strideD k) 16 true)
      let r := s1.touch t i plan
      r.2.modTile t (fun x => x.occupy [0] (i.at_ + busy + r.1)))

end Sys2Proof.Machine
end

