-- ==== Sys2Proof/Machine/Convert.lean ====
section
/-! DEFINITION. The NTT network, the base converter, the AES unit and table checks (06_tiles_windlass.md R195 to R198, R203; 04_ciphertext_engine.md
R133, R136, R137, R139). -/

namespace Sys2Proof.Machine

open Sys2Proof

/-! ## Tables (R137, R195, R203) -/

/-- The directory entry of a table. -/
def Tile.table (x : Tile) (k : Nat) : Option TileTable := x.tables.find? (fun e => e.index == k)

/-- The bytes of a table. -/
def Tile.tableBytes (x : Tile) (e : TileTable) : Bytes := x.rowsAt e.row (64 * e.rows)

/-- Does a table fail its check? A pass reads all its rows, and their CRC is that of no read sequence of the directory (R137, R203; log entry 76). -/
def Tile.tableFails (x : Tile) (k : Nat) : Bool :=
  match x.table k with
  | some e => !e.crcs.contains (crc32c (x.tableBytes e))
  | none => true

/-- Address and directory entry of the image copy of a tile's table. -/
def State.tableCopy (s : State) (t : TileRef) (k : Nat) : Option (Nat × TileTable) :=
  match (s.tile t).table k, s.imageArea t.well with
  | some e, some (base, _) => some (cisAddr t.well ((base + e.area) * 64), e)
  | _, _ => none

/-- Fill a table from the image copy in the cistern; it waits for no reload then. -/
def State.loadTable (s : State) (t : TileRef) (k : Nat) : State :=
  match s.tableCopy t k with
  | some (a, e) =>
    let r := s.readBuckets 0 e.rows a
    r.2.2.modTile t (fun x => let y := if r.2.1 then x.putBad e.row r.1 else x.putRows e.row r.1; { y with reload := y.reload.filter (fun j => j ≠ k) })
  | none => s.modTile t (fun x => { x with reload := x.reload.filter (fun j => j ≠ k) })

/-- Reload a table as a read of the tile's master (R137, R203, R213); a refused one leaves the table as it is, to be tried again before the next pass. -/
def State.reloadTable (s : State) (t : TileRef) (k : Nat) : State :=
  match s.tableCopy t k with
  | some (a, e) =>
    let c := s.check ⟨masterOfTile t, s.owner t.well⟩ a (64 * e.rows) 1
    if c.1.isSome then c.2 else c.2.loadTable t k
  | none => s.loadTable t k

/-- Reload what failed its check before the next pass (R137). -/
def State.reloadPending (s : State) (t : TileRef) : State := s.each (s.tile t).reload (fun u k => u.reloadTable t k)

/-- A pass found its table wrong: the destination will be poisoned, the mismatch is counted and logged, and the table is reloaded before the next pass. -/
def State.tableMismatch (s : State) (t : TileRef) (p k counter event : Nat) : State :=
  ((s.modTile t (fun x => { x with dataFail := true, reload := insertNat k x.reload })).count counter).raise event p (masterOfTile t)
    [(16, s.unitOf t), (16, k), (32, 1)]

/-- TABLE_RELOAD (R137): the next table that failed its check comes from the image copy in the cistern. -/
def execTableReload (t : TileRef) (s : State) : Result :=
  match (s.tile t).reload with
  | k :: _ => if s.alive then .next (s.reloadTable t k) else .next s
  | [] => .next s

/-- TBLCHK (R203): the CRC of a whole table is recomputed, and the table is reloaded on a mismatch. -/
def execTblchk (t : TileRef) (s : State) : Result :=
  s.execStep t 0x09 (fun t i s =>
    let x := s.tile t
    let rows := match x.table i.w.aux with | some e => e.rows | none => 0
    let s1 := s.modTile t (fun y => y.occupy [4] (i.at_ + ceilDiv rows 8))
    match x.table i.w.aux with
    | some e => if x.badAt e.row (64 * e.rows) then s1.storeTrap t i else if x.tableFails i.w.aux then s1.reloadTable t i.w.aux else s1
    | none => s1)

/-! ## Transforms (R133, R139, R195) -/

/-- Rows of a limb of N words. -/
def limbRows (n : Nat) : Nat := ceilDiv n 16

/-- Run a step over whole limbs, one after another from its rows on: `f` maps a limb's words; none gives free words. `all` is a touch of every bank while
it runs. -/
def State.runLimbs (s : State) (t : TileRef) (i : Issue) (unit src dst n busy lat : Nat) (f : List Nat → Option (List Nat)) : State :=
  let rows := limbRows n
  if (s.tile t).badAt src (64 * rows * i.w.count) then s.storeTrap t i
  else
    let body := (List.range i.w.count).foldl (fun (u : State) k =>
      let r := u.rowsRead t i.at_ (src + k * rows) rows
      let a := (elems 32 r.1).take n
      let out := match f a with
        | some l => (l, r.2)
        | none => let d := r.2.draw; (freeWords 32 n d.1, d.2)
      out.2.rowsWrite t (dst + k * rows) (elemBytes 32 out.1)) s
    let plan := (if unit = 1 then [Touch.mk 1 i.at_ busy 0 32 false] else []) ++ [Touch.mk unit (i.at_ + busy + lat) 1 dst (rows * i.w.count) true]
    let r := body.touch t i plan
    r.2.modTile t (fun x => x.occupy [unit] (i.at_ + busy + r.1))

/-- A transform step (R195): the twiddle register is left with the last entries of the table (R184; log entry 76). The twiddle table is checked as it is read; a mismatch counts in TILE_TWIDDLE_FAIL_COUNT and raises event 0x0504. -/
def State.runNtt (s : State) (t : TileRef) (i : Issue) (f : Nat → Array Nat → Nat → List Nat → List Nat) : State :=
  let s0 := s.reloadPending t
  let n := i.w.limbWords
  let logN := i.w.aux % 32
  let q := s.primeOf i.part i.w.prime
  let k := i.w.aux / 256
  match (s0.tile t).table k with
  | none => s0.runLimbs t i 1 i.w.dst i.w.dst n (i.w.count * n * logN / 256) 40 (fun _ => none)
  | some e =>
    if (s0.tile t).badAt e.row (64 * e.rows) then s0.storeTrap t i
    else
      let tw := (elems 32 ((s0.tile t).tableBytes e)).toArray
      let s1 := if (s0.tile t).tableFails k then s0.tableMismatch t i.part k (tileBase t + 0x30) 0x0504 else s0
      let s2 := s1.modTile t (fun x => { x with twiddles := (List.range 128).map (fun j => tw.getD (n - 128 + j) 0) })
      s2.runLimbs t i 1 i.w.dst i.w.dst n (i.w.count * n * logN / 256) 40 (fun a => if q = 0 then none else some (f q tw logN a))

/-- NTT_FWD (R133, R195). -/
def execNttFwd (t : TileRef) (s : State) : Result := s.execStep t 0x28 (fun t i s => s.runNtt t i (fun q tw d a => nttFwdAux q tw d 1 a))

/-- NTT_INV (R133, R195). -/
def execNttInv (t : TileRef) (s : State) : Result := s.execStep t 0x29 (fun t i s => s.runNtt t i (fun q tw d a => nttInvAux q tw d 1 a))

/-- AUTO (R139, R195): g in ext, the form in aux[0]; N is the image's ring degree. -/
def execAuto (t : TileRef) (s : State) : Result :=
  s.execStep t 0x2A (fun t i s =>
    let logN := s.regBits (ctxBase i.part) 4 0
    let n := 2 ^ logN
    let q := s.primeOf i.part i.w.prime
    s.runLimbs t i 1 i.w.srcA i.w.dst n (i.w.count * n / 64) 16 (fun a =>
      if q = 0 then none else some (if bit i.w.aux 0 then autoEval logN i.w.ext a else autoCoef q n i.w.ext a)))

/-! ## Base converter (R136, R196) -/

/-- Constants of the source primes in a table: qhat_inv (Montgomery form) and f, 16 bytes each (layout of log entry 12). -/
def bcvSource (tab : Bytes) (k : Nat) : Nat × Nat := (rd tab (16 * k) 4, rd tab (16 * k + 4) 12)

/-- Constants of destination prime j for `a` source primes: the qhat and Q_j, in Montgomery form. -/
def bcvDest (tab : Bytes) (a j : Nat) : List Nat × Nat :=
  let base := 16 * a + j * 4 * (a + 1)
  ((List.range a).map (fun i => rd tab (base + 4 * i) 4), rd tab (base + 4 * a) 4)

/-- BCV_SCALE (R136, R196): y of each source limb to dst; the estimates stay in the converter. Source limb i is taken modulo prime-table entry
prime + i. -/
def execBcvScale (t : TileRef) (s : State) : Result :=
  s.execStep t 0x30 (fun t i s0 =>
    let s := s0.reloadPending t
    let n := i.w.limbWords
    let rows := limbRows n
    let k := i.w.aux / 256
    let x := s.tile t
    let bad := x.badAt i.w.srcA (64 * rows * i.w.count) || (match x.table k with | some e => x.badAt e.row (64 * e.rows) | none => false)
    if bad then s.storeTrap t i
    else match x.table k with
    | none => (s.runLimbs t i 2 i.w.srcA i.w.dst n (i.w.count * n / 128) 16 (fun _ => none)).modTile t (fun y => { y with estimates := [], estimatesOf := (0, 0, 0), bcvTable := k })
    | some e =>
      let tab := x.tableBytes e
      let r := (List.range i.w.count).foldl (fun (a : List (List Nat × Nat) × State) j =>
        let r := a.2.rowsRead t i.at_ (i.w.srcA + j * rows) rows
        let c := bcvSource tab j
        (a.1 ++ [(bcvY (s.primeOf i.part (i.w.prime + j)) c.1 ((elems 32 r.1).take n), c.2)], r.2)) (([] : List (List Nat × Nat)), s)
      let vs := bcvEstimates r.1 n
      let s1 := (r.1.zip (List.range i.w.count)).foldl (fun (u : State) e => u.rowsWrite t (i.w.dst + e.2 * rows) (elemBytes 32 e.1.1)) r.2
      let busy := i.w.count * n / 128
      let d := s1.touch t i [⟨2, i.at_ + busy + 16, 1, i.w.dst, rows * i.w.count, true⟩]
      let s2 := d.2.modTile t (fun y => { (y.occupy [2] (i.at_ + busy + d.1)) with estimates := vs, estimatesOf := (i.w.dst, i.w.count, n), bcvTable := k })
      if x.tableFails k then s2.tableMismatch t i.part k (ctxBase i.part + 0x3C) 0x0304 else s2)

/-- BCV_OUT (R136, R196): destination limb j is taken modulo prime-table entry prime + j; without estimates of the same coefficients its words are free. -/
def execBcvOut (t : TileRef) (s : State) : Result :=
  s.execStep t 0x31 (fun t i s0 =>
    let s := s0.reloadPending t
    let n := i.w.limbWords
    let rows := limbRows n
    let a := bits i.w.aux 14 8
    let x := s.tile t
    let k := x.bcvTable
    let busy := i.w.count * n * a / 128
    let bad := x.badAt i.w.srcA (64 * rows * a) || (match x.table k with | some e => x.badAt e.row (64 * e.rows) | none => false)
    if bad then s.storeTrap t i
    else
      let tab := match x.table k with | some e => x.tableBytes e | none => []
      let known := x.estimates.length == n && x.estimatesOf == (i.w.srcA, a, n) && (x.table k).isSome
      let ys := (List.range a).foldl (fun (c : List (List Nat) × State) j =>
        let r := c.2.rowsRead t i.at_ (i.w.srcA + j * rows) rows
        (c.1 ++ [(elems 32 r.1).take n], r.2)) (([] : List (List Nat)), s)
      let s1 := (List.range i.w.count).foldl (fun (u : State) j =>
        let p := s.primeOf i.part (i.w.prime + j)
        let c := bcvDest tab a j
        let z := if known ∧ p ≠ 0 then (bcvZ p ys.1 c.1 c.2 x.estimates, u) else let d := u.draw; (freeWords 32 n d.1, d.2)
        z.2.rowsWrite t (i.w.dst + j * rows) (elemBytes 32 z.1)) ys.2
      let d := s1.touch t i [⟨2, i.at_ + busy + 16, 1, i.w.dst, rows * i.w.count, true⟩]
      let s2 := d.2.modTile t (fun y => y.occupy [2] (i.at_ + busy + d.1))
      if known && x.tableFails k then s2.tableMismatch t i.part k (ctxBase i.part + 0x3C) 0x0304 else s2)

/-! ## AES unit (R103, R197, R198) -/

/-- AES_KEY (R197): the key of row src_a. -/
def execAesKey (t : TileRef) (s : State) : Result :=
  s.execStep t 0x38 (fun t i s =>
    if (s.tile t).badAt i.w.srcA 32 then s.storeTrap t i
    else
      let r := s.rowsRead t i.at_ i.w.srcA 1
      let d := r.2.touch t i [⟨3, i.at_, 1, i.w.srcA, 1, false⟩]
      d.2.modTile t (fun x => { (x.occupy [3] (i.at_ + 16 + d.1)) with aesKey := r.1.take 32 }))

/-- The counter block `k` blocks after a first one, in form 0 (R103) or 1 (SP 800-38D). -/
def ctrBlock (form : Bool) (first : Bytes) (k : Nat) : Bytes :=
  if form then first.take 12 ++ toBE ((beNat (first.drop 12) + k) % 2 ^ 32) 4
  else toLE (rd first 0 8 + k) 8 ++ first.drop 8

/-- The keystream of AES_CTR. -/
def ctrStream (key : Bytes) (form : Bool) (first : Bytes) (n : Nat) : Bytes :=
  let rks := aesRoundKeys key
  (List.range n).flatMap (fun k => aesBlock rks (ctrBlock form first k))

/-- GCM_OPEN (R198): src_b holds the 64-byte additional data with the nonce at 0x18, src_a the ciphertext and after it the tag. The status byte goes to
row aux[13:0]; on a mismatch nothing of dst changes. -/
def execGcmOpen (t : TileRef) (s : State) : Result :=
  s.execStep t 0x3A (fun t i s =>
    let x := s.tile t
    let len := 16 * i.w.count
    let stat := i.w.aux % 16384
    if x.badAt i.w.srcA (len + 16) ∨ x.badAt i.w.srcB 64 then s.storeTrap t i
    else
      let h := s.rowsRead t i.at_ i.w.srcB 1
      let c := h.2.rowsRead t i.at_ i.w.srcA (ceilDiv (len + 16) 64)
      let opened := gcmOpen x.aesKey (slice h.1 0x18 12) h.1 (c.1.take len) (slice c.1 len 16)
      let status := fun (u : State) (st : Status) => u.modTile t (fun y => { y with store := memWrite y.store (stat * 64) (toLE st.code 1) })
      let s1 := match opened with
        | some pt => status (c.2.rowsWrite t i.w.dst pt) .ok
        | none => status c.2 .format
      let busy := 2 * i.w.count + 64
      let d := s1.touch t i [⟨3, i.at_ + busy + 30, 1, i.w.dst, ceilDiv len 64, true⟩, ⟨3, i.at_ + busy + 30, 1, stat, 1, true⟩]
      d.2.modTile t (fun y => y.occupy [3, 0] (i.at_ + busy + d.1)))

end Sys2Proof.Machine
end

