-- ==== Sys2Proof/Machine/Refresh.lean ====
section
/-! DEFINITION. Table-lookup refresh on the tile store: what a stream of refresh or repacking keys does to its batch (05_table_refresh.md R159, R161 to R170,
R174, R175, R179).

A KEYSTREAM step of kind 4 or 5 applies the segments it reads to its own batch, `target` inputs; the operands are those of log entry 71. -/

namespace Sys2Proof.Machine

open Sys2Proof

/-- The refresh parameters of a partition, as RFS_CONFIG and RFS_GADGET show them, and log_n (R159, R183). -/
structure Refresh where
  n : Nat
  logNb : Nat
  rl : Nat
  lRp : Nat
  dG : Nat
  bgLog : Nat
  dKs : Nat
  ksLog : Nat
  dRp : Nat
  rpLog : Nat
  logN : Nat
  deriving DecidableEq, Repr

/-- The fields of RFS_CONFIG and RFS_GADGET (R183). -/
def refreshOf (c g logN : Nat) : Refresh :=
  ⟨bits c 31 21, bits c 16 13, bits c 18 17, bits c 6 0, bits g 28 26, bits g 25 21, bits g 20 17, bits g 16 13, bits g 12 10, bits g 9 5, logN⟩

/-- The refresh parameters in force. -/
def State.refresh (s : State) (p : Nat) : Refresh := refreshOf (s.reg (rfsBase p)) (s.reg (rfsBase p + 4)) (s.regBits (ctxBase p) 4 0)

/-- Rows of an LWE ciphertext of dimension n: its tag and n + 1 words (R162). -/
def Refresh.lweRows (q : Refresh) : Nat := ceilDiv (24 + 4 * (q.n + 1)) 64

/-- Rows of one accumulator of a blind rotation, 8 rl N_b bytes, behind a row with the tag of its input (R167). -/
def Refresh.accRows (q : Refresh) : Nat := ceilDiv (8 * q.rl * 2 ^ q.logNb) 64 + 1

/-- Inputs in the batch of a step. -/
def StepWord.batch (w : StepWord) : Nat := max 1 w.target

/-- The coefficient that an extraction takes first, or at which repacking places its first input. -/
def StepWord.coefficient (w : StepWord) : Nat := w.aux + 2 ^ 16 * w.level

/-- Read words of 32 bits of the tile store, from a byte offset of a row. -/
def State.wordsRead (s : State) (t : TileRef) (c row off n : Nat) : List Nat × State :=
  let r := s.rowsRead t c row (ceilDiv (off + 4 * n) 64)
  (elems 32 (slice r.1 off (4 * n)), r.2)

/-- Write words of 32 bits to the tile store, from a byte offset of a row. -/
def State.wordsWrite (s : State) (t : TileRef) (row off : Nat) (l : List Nat) : State :=
  s.modTile t (fun x => { x with store := memWrite x.store (row * 64 + off) (elemBytes 32 l) })

/-- Write words where they are defined, free ones where they are not. -/
def State.wordsPut (s : State) (t : TileRef) (row off n : Nat) (l : Option (List Nat)) : State :=
  match l with
  | some v => s.wordsWrite t row off v
  | none => let r := s.draw; r.2.wordsWrite t row off (freeWords 32 n r.1)

/-- Limbs of a polynomial one after another, from a byte offset of a row. -/
def State.limbsRead (s : State) (t : TileRef) (c row off count n : Nat) : List (List Nat) × State :=
  let r := s.wordsRead t c row off (count * n)
  (chunks n r.1, r.2)

/-- A polynomial modulo the product of primes, from its limbs. -/
def joinLimbs (qs : List Nat) (limbs : List (List Nat)) (n : Nat) : List Nat :=
  (List.range n).map (fun j => joinResidues qs (limbs.map (fun l => l.getD j 0)))

/-- The limbs of a polynomial, one after another. -/
def splitLimbs (qs : List Nat) (a : List Nat) : List Nat := qs.flatMap (fun q => a.map (fun x => x % q))

/-- The segments of a step in groups of `g`, each with the index it belongs to and its digit. -/
def groupsOf (g : Nat) (segs : List (Nat × Nat × List Nat)) : List (Nat × Nat × List (List Nat)) :=
  (chunks g segs).map (fun l => match l with | e :: _ => (e.1, e.2.1, l.map (fun x => x.2.2)) | [] => (0, 0, []))

/-! ## Blind rotation (R168, R169): kind 4, part 0 -/

/-- One input of the batch: from the first segment on its accumulator starts as the rotated test polynomial; every group of 2 d_g 2 rl segments is one
step of the rotation. `whole` says that the step's segments begin and end with a key index. -/
def State.rotateInput (s : State) (t : TileRef) (i : Issue) (b : Nat) (start whole : Bool) (segs : List (Nat × Nat × List Nat)) : State :=
  let q := s.refresh i.part
  let ms := (List.range q.rl).map (s.modulus i.part)
  let qs := ms.map Modulus.q
  let nb := 2 ^ q.logNb
  let row := rowOf i.w.srcA i.w.strideA b
  let tag := s.rowsRead t i.at_ row 1
  let x := tag.2.wordsRead t i.at_ row 24 (q.n + 1)
  let ws := x.1.map (modSwitch nb (s.primeOf i.part 0))
  let at_ := i.w.dst + b * q.accRows
  let tv := match (s.tile t).table (i.w.aux % 256) with
    | some e => joinLimbs qs (chunks nb (elems 32 ((s.tile t).rowsAt e.row (4 * q.rl * nb)))) nb
    | none => []
  let a := x.2.limbsRead t i.at_ (at_ + 1) 0 (2 * q.rl) nb
  let acc0 := if start then rotateStart (prodOf qs) (ws.getD q.n 0) tv else (joinLimbs qs (a.1.take q.rl) nb, joinLimbs qs (a.1.drop q.rl) nb)
  let acc := (groupsOf (4 * q.dG * q.rl) segs).foldl (fun c g => rotateStep ms q.logNb q.bgLog q.dG (ws.getD g.1 0) c g.2.2) acc0
  let known := whole && (!start || tv.length == nb) && qs.all (fun m => m != 0)
  (a.2.rowsWrite t at_ (tag.1.take 24)).wordsPut t (at_ + 1) 0 (2 * q.rl * nb) (if known then some (splitLimbs qs acc.1 ++ splitLimbs qs acc.2) else none)

/-! ## LWE key switching (R163, R164, R170): kind 4, parts 1 and 2 -/

/-- The LWE ciphertext that a finished rotation yields: coefficient 0, reduced to q0 (R170). -/
def State.rotated (s : State) (t : TileRef) (i : Issue) (b : Nat) : List Nat × State :=
  let q := s.refresh i.part
  let qs := (List.range q.rl).map (s.primeOf i.part)
  let nb := 2 ^ q.logNb
  let a := s.limbsRead t i.at_ (i.w.srcA + b * q.accRows + 1) 0 (2 * q.rl) nb
  let lwes := (qs.zip (List.range q.rl)).map (fun (e : Nat × Nat) => extractWords e.1 0 (a.1.getD e.2 []) (a.1.getD (q.rl + e.2) []))
  ((List.range (nb + 1)).map (fun k => rescaleToFirst q.rl qs (lwes.map (fun l => l.getD k 0))), a.2)

/-- One component of the ciphertext at src_a reduced to q0, in coefficient and standard form (R163). -/
def State.reduced (s : State) (t : TileRef) (i : Issue) (h : CtHeader) (c : Nat) : List Nat × State :=
  let n := 2 ^ h.logN
  let ms := (List.range h.limbs).map (s.modulus i.part)
  let a := s.limbsRead t i.at_ (i.w.srcA + 1 + c * h.limbs * ceilDiv n 16) 0 h.limbs n
  let limbs := (a.1.zip ms).map (fun (e : List Nat × Modulus) =>
    let std := if h.montgomery then e.1.map (redc e.2.q) else e.1
    if h.form then e.2.coef h.logN std else std)
  ((List.range n).map (fun j => rescaleToFirst h.limbs (ms.map Modulus.q) (limbs.map (fun l => l.getD j 0))), a.2)

/-- The LWE ciphertext of a coefficient of the ciphertext at src_a (R163). -/
def State.extracted (s : State) (t : TileRef) (i : Issue) (j : Nat) : List Nat × State :=
  let r := s.rowsRead t i.at_ i.w.srcA 1
  let h := ctHeader r.1
  let c0 := r.2.reduced t i h 0
  let c1 := c0.2.reduced t i h 1
  (extractWords (s.primeOf i.part 0) j c0.1 c1.1, c1.2)

/-- One input of the batch: each segment holds the rows of one source coefficient; the n + 1 words stand at dst behind the place of their tag. -/
def State.switchInput (s : State) (t : TileRef) (i : Issue) (part b : Nat) (start : Bool) (segs : List (Nat × Nat × List Nat)) : State :=
  let q := s.refresh i.part
  let q0 := s.primeOf i.part 0
  let x := if part = 1 then s.rotated t i b else s.extracted t i (i.w.coefficient + b)
  let row := rowOf i.w.dst i.w.strideD b
  let old := x.2.wordsRead t i.at_ row 24 (q.n + 1)
  let acc0 := if start then List.replicate q.n 0 ++ [x.1.getLastD 0] else old.1
  let acc := segs.foldl (fun c g => lweKsStep q0 q.ksLog q.dKs q.n c (x.1.getD g.1 0) g.2.2) acc0
  old.2.wordsPut t row 24 (q.n + 1) (if q0 = 0 then none else some acc)

/-- The accumulators of a batch are zeroed once its last key segment has been applied (R179). -/
def State.endBatch (s : State) (t : TileRef) (i : Issue) : State :=
  s.modTile t (fun x => { x with store := memClear x.store (i.w.srcA * 64) (i.w.batch * (s.refresh i.part).accRows * 64) })

/-! ## Repacking (R175): kind 5 -/

/-- The words of the batch's inputs. -/
def State.inputsRead (s : State) (t : TileRef) (i : Issue) : List (List Nat) × State :=
  (List.range i.w.batch).foldl (fun (a : List (List Nat) × State) b =>
    let r := a.2.wordsRead t i.at_ (rowOf i.w.srcA i.w.strideA b) 24 ((s.refresh i.part).n + 1)
    (a.1 ++ [r.1], r.2)) (([] : List (List Nat)), s)

/-- One limb of one component of the repacked ciphertext, in evaluation form: what stands there or, from the first segment on, the placed words b_j,
plus the product of every digit polynomial with its key limb. -/
def repackLimb (q : Refresh) (m : Modulus) (q0 ratio start0 c l : Nat) (ins : List (List Nat)) (old : Option (List Nat)) (groups : List (Nat × Nat × List (List Nat))) :
    List Nat :=
  let n := 2 ^ q.logN
  let first := match old with
    | some a => a
    | none => if c = 0 then m.eval q.logN (repackStart m.q ratio n start0 (ins.map (fun w => w.getD q.n 0))) else List.replicate n 0
  groups.foldl (fun acc g =>
    let a := repackDigits q0 q.rpLog q.dRp n start0 g.2.1 (ins.map (fun w => w.getD g.1 0))
    mulAdd m.q acc (m.eval q.logN (a.map (resid m.q))) (g.2.2.getD (c * q.lRp + l) [])) first

/-- REPACK of the batch into the ciphertext at dst, from the step's coefficient on. -/
def State.repackBatch (s : State) (t : TileRef) (i : Issue) (start whole : Bool) (segs : List (Nat × Nat × List Nat)) : State :=
  let q := s.refresh i.part
  let n := 2 ^ q.logN
  let qs := (List.range q.lRp).map (s.primeOf i.part)
  let q0 := s.primeOf i.part 0
  let ins := s.inputsRead t i
  let old := ins.2.limbsRead t i.at_ (i.w.dst + 1) 0 (2 * q.lRp) n
  let groups := groupsOf (2 * q.lRp) segs
  let out := (List.range (2 * q.lRp)).flatMap (fun k =>
    repackLimb q (s.modulus i.part (k % q.lRp)) q0 (prodOf qs / q0) i.w.coefficient (k / q.lRp) (k % q.lRp) ins.1
      (if start then none else some (old.1.getD k [])) groups)
  let known := whole && decide (i.w.coefficient + i.w.batch ≤ n) && qs.all (fun m => m != 0)
  old.2.wordsPut t (i.w.dst + 1) 0 (2 * q.lRp * n) (if known then some out else none)

/-! ## A stream's effect -/

/-- The check of the test polynomial that a refresh pass reads, table aux[7:0] (R174). -/
def State.polyCheck (s : State) (t : TileRef) (i : Issue) : State :=
  let k := i.w.aux % 256
  if ((s.tile t).table k).isSome && (s.tile t).tableFails k then (s.tableMismatch t i.part k (rfsBase i.part + 0x20) 0x0402).modTile t
    (fun x => { x with passFail := true }) else s

/-- Rows that a stream of a kind and part reads of its batch: row and bytes. -/
def State.batchRows (s : State) (i : Issue) (kind part : Nat) : List (Nat × Nat) :=
  let q := s.refresh i.part
  if kind = 5 ∨ part = 0 then (List.range i.w.batch).map (fun b => (rowOf i.w.srcA i.w.strideA b, 64 * q.lweRows))
  else if part = 1 then [(i.w.srcA, 64 * q.accRows * i.w.batch)]
  else [(i.w.srcA, 64)]

/-- What the segments of a step do: index, digit and words of each, from the segment in place `first` of its stream on (R164, R169, R170, R175). -/
def State.applyStream (s : State) (t : TileRef) (i : Issue) (kind part first : Nat) (segs : List (Nat × Nat × List Nat)) : State :=
  let q := s.refresh i.part
  let g := if kind = 5 then 2 * q.lRp else if part = 0 then 4 * q.dG * q.rl else 1
  let whole := first % g == 0 && segs.length % g == 0
  let start := first == 0
  if kind = 5 then s.repackBatch t i start whole segs
  else if part = 0 then ((s.reloadPending t).polyCheck t i).each (List.range i.w.batch) (fun u b => u.rotateInput t i b start whole segs)
  else
    let s1 := s.each (List.range i.w.batch) (fun u b => u.switchInput t i part b start segs)
    if part = 1 ∧ first + segs.length = 2 ^ q.logNb then s1.endBatch t i else s1

end Sys2Proof.Machine
end

