-- ==== Sys2Proof/Machine/Transfer.lean ====
section
/-! DEFINITION. The transfer unit: LOAD, STORE, PUMP, SEND, RECV, TURN, STEPFETCH, RNG_READ, AES_CTR and the check results of transfers
(06_tiles_windlass.md R197, R199 to R204, R213, R214, R220; 07_cisterns_pumps.md R234, R235, R240, R241). -/

namespace Sys2Proof.Machine

open Sys2Proof

/-! ## Targets (R202, R213) -/

/-- The well of a step's peer: the well of that rank in the partition (log entry 12). -/
def State.peerWell (s : State) (p rank : Nat) : Option Nat := (s.wellsOf p)[rank]?

/-- Does the image route a unit that moves in a slot of a tile from its own rank to another, or from there (R24, R202)? An outbound unit takes the slot on
its route's first link, an inbound one on the last (log entry 12). -/
def State.routed (s : State) (p own peer slot : Nat) (outward : Bool) : Bool :=
  (s.part p).image.routes.any (fun r =>
    if outward then r.src == own && r.dst == peer && r.carries s.plan.slots p slot
    else r.src == peer && r.dst == own && r.carries s.plan.slots p ((slot + 2401 - r.hops) % 2400))

/-- May a unit move in a cycle between a tile's well and a peer well: within one well, or in a slot of a route of the image (R24, R202)? -/
def State.reaches (s : State) (p own peer c : Nat) (outward : Bool) : Bool :=
  own == peer || s.routed p (s.rankOf own) (s.rankOf peer) (slotOf c) outward

/-- Bucket `m` of a TURN step: region ext[23:21], column ext[20:0] on, column by column (R240). -/
def State.turnBucket (s : State) (w ext m : Nat) : Nat :=
  let k := bits ext 23 21
  let reg := fun (o : Nat) => s.reg (cisBase w + o + 0x10 * k)
  reg 0x200 + (m % (max (reg 0x208) 1)) * reg 0x204 + ext % 2 ^ 21 + m / (max (reg 0x208) 1)

/-- The memory that unit `j` of a step names: its well, and the device address of its first bucket. -/
def State.unitPlace (s : State) (t : TileRef) (w : StepWord) (p j : Nat) : Option (Nat × Nat) :=
  let g := w.ext / 2 ^ 29
  let near := fun (v : Nat) => some (v, cisAddr v ((w.ext % 2 ^ 21 + 2 * j) * 64))
  if w.opcode = 0x46 then some (t.well, cisAddr t.well (s.turnBucket t.well w.ext (2 * j) * 64))
  else if g = 0 ∨ g = 4 then near t.well
  else if g = 1 then some (t.well, lpxAddr t.well ((w.ext % 2 ^ 29 + 2 * j) * 64))
  else if g = 2 then (s.peerWell p w.peerWell).bind near
  else none

/-- The device address of a unit that moves in a cycle; none where its slot finds no route. -/
def State.unitTarget (s : State) (t : TileRef) (i : Issue) (j c : Nat) (outward : Bool) : Option Nat :=
  match s.unitPlace t i.w i.part j with
  | some (v, a) => if i.w.ext / 2 ^ 29 ≤ 2 ∧ s.reaches i.part t.well v c outward then some a else none
  | none => none

/-- The peer tile of a step whose target is a tile store; none where the unit's slot finds no route. -/
def State.peerTile (s : State) (t : TileRef) (i : Issue) (c : Nat) (outward : Bool) : Option TileRef :=
  match s.peerWell i.part i.w.peerWell with
  | some v => if s.reaches i.part t.well v c outward && decide (i.w.peerTile < 24) then some ⟨v, s.physOf v i.w.peerTile⟩ else none
  | none => none

/-- The master of a tile (R34). -/
def State.tileMaster (s : State) (t : TileRef) : Master := ⟨masterOfTile t, s.owner t.well⟩

/-- A refused access traps the tile: NOT_READY as cause 6, else cause 5 (R220). -/
def State.accessTrap (s : State) (t : TileRef) (i : Issue) (st : Status) : State :=
  s.trap t i.part (if st = .notReady then 6 else 5) st.code i.idx

/-- Run `k` when the tile may access the range; a refused access traps the step (R32, R194). -/
def State.guarded (s : State) (t : TileRef) (i : Issue) (addr len need : Nat) (k : State → Bool × State) : Bool × State :=
  match s.check (s.tileMaster t) addr len need with
  | (some st, v) => (false, v.accessTrap t i st)
  | (none, v) => k v

/-! ## Moving units -/

/-- Run units at their slots until one stops the step: `f` answers whether to go on. -/
def State.runUnits (s : State) (f : Nat → Nat → State → Bool × State) : List Nat → Nat → Bool × State
  | [], _ => (true, s)
  | c :: cs, j =>
    let r := f j c s
    if r.1 then r.2.runUnits f cs (j + 1) else r

/-- A transfer step: its units move in the slots of its pattern; a step without a slot stands still (R220, WATCHDOG). `rows` gives the tile-store rows of a
unit (first row, rows, written) for the banks. -/
def State.runTransfer (s : State) (t : TileRef) (i : Issue) (units : Nat) (rows : Nat → Nat × Nat × Bool) (f : Nat → Nat → State → Bool × State) : State :=
  let cs := slotCycles ((s.tile t).patterns.getD i.w.pattern []) i.at_ units
  match cs.getLast? with
  | none => s.modTile t (fun x => { x with stuckSince := some (i.at_, i.idx) })
  | some last =>
    let r := s.runUnits f cs 0
    if !r.1 then r.2
    else
      let plan := (cs.zip (List.range units)).map (fun e =>
        let q := rows e.2
        Touch.mk 4 (if q.2.2 then e.1 + 24 else e.1) 1 q.1 q.2.1 q.2.2)
      let d := r.2.touch t i plan
      d.2.modTile t (fun x => { (x.occupy (unitsOf i.w) (last + 1)) with xfer := i.idx })

/-- Write one bucket read from a memory into the tile store: an uncorrectable one keeps its error pattern (R233) and marks the operation (R145). -/
def State.landBucket (s : State) (t : TileRef) (row : Nat) (bs : Bytes) (bad : Bool) : State :=
  s.modTile t (fun x => if bad then { (x.putBad row bs) with dataFail := true } else x.putRows row bs)

/-- Read two buckets from the memory at an address into two rows. -/
def State.landUnit (s : State) (t : TileRef) (row addr : Nat) : State :=
  let a := s.readBuckets 0 1 addr
  let b := a.2.2.readBuckets 0 1 (addr + 64)
  (b.2.2.landBucket t row a.1 a.2.1).landBucket t ((row + 1) % 16384) b.1 b.2.1

/-- A unit of LOAD: two buckets of a memory, or two rows of a peer's tile store. -/
def State.loadUnit (s : State) (t : TileRef) (i : Issue) (j c : Nat) : Bool × State :=
  let row := rowOf i.w.dst i.w.strideD j
  if i.w.ext / 2 ^ 29 = 3 then
    match s.peerTile t i c false with
    | none => (true, s)
    | some v =>
      let from_ := (i.w.ext + 2 * j) % 16384
      if (s.tile v).badAt from_ 128 then (false, s.storeTrap t i)
      else
        let r := s.rowsRead v c from_ 2
        (true, (r.2.rowsWrite t row (r.1.take 64)).rowsWrite t ((row + 1) % 16384) (r.1.drop 64))
  else match s.unitTarget t i j c false with
  | none => (true, s)
  | some a => s.guarded t i a 128 1 (fun v => (true, v.landUnit t row a))

/-- LOAD (R200, R214): units from ext to the tile store. -/
def execLoad (t : TileRef) (s : State) : Result :=
  s.execStep t 0x40 (fun t i s =>
    s.runTransfer t i i.w.count (fun j => (rowOf i.w.dst i.w.strideD j, 2, true)) (fun j c u => u.loadUnit t i j c))

/-- The two rows of an outbound unit, or a trap on a double-bit error in them. -/
def State.unitData (s : State) (t : TileRef) (i : Issue) (j c : Nat) (k : Bytes → State → Bool × State) : Bool × State :=
  let row := rowOf i.w.srcA i.w.strideA j
  if (s.tile t).badAt row 128 then (false, s.storeTrap t i)
  else let r := s.rowsRead t c row 2; k r.1 r.2

/-- An inbound unit is written at an armed port: `row` first, `left` units still to come. With the last one the step is over, and the transfer unit free in
the next cycle (R202, R214). -/
def State.landInbound (s : State) (v : TileRef) (p c : Nat) (data : Bytes) (row left stride : Nat) : State :=
  let idx := ((s.tile v).stuckSince.map Prod.snd).getD 0
  let i : Issue := ⟨stepWord ((s.tile v).stepBytes idx), idx, s.cycle, p, (s.tile v).store⟩
  ((s.rowsWrite v row data).touch v i [⟨4, c + 24, 1, row, 2, true⟩]).2.modTile v (fun x =>
    if left ≤ 1 then { (x.occupy [4] (c + 1)) with armed := none, stuckSince := none }
    else { x with armed := some ((row + stride) % 16384, left - 1, stride), stuckSince := x.stuckSince.map (fun e => (c, e.2)) })

/-- An inbound unit on its way to a tile: written where RECV has armed the port, else kept until it arrives (R202). -/
def State.inbound (s : State) (v : TileRef) (p c : Nat) (data : Bytes) : State :=
  match (s.tile v).armed with
  | some (row, left, stride) => s.landInbound v p c data row left stride
  | none => s.modTile v (fun x => { x with inbox := x.inbox ++ [(c, data)] })

/-- A unit that has arrived at an unarmed port is discarded and counted; the first in a round raises event 0x0507 (R202). -/
def State.dropInbound (s : State) (v : TileRef) (c : Nat) : State :=
  let p := s.owner v.well
  let s1 := s.count (tileBase v + 0x2C)
  if 24 ≤ p ∨ (s.round p).firstUnarmed then s1
  else (s1.modRound p (fun r => { r with firstUnarmed := true })).raise 0x0507 p (masterOfTile v) [(16, s.unitOf v), (16, slotOf c)]

/-- Units that have arrived before a cycle found the port unarmed. -/
def State.settlePort (s : State) (v : TileRef) (till : Nat) : State :=
  let l := (s.tile v).inbox
  if l.isEmpty then s
  else
    (s.modTile v (fun x => { x with inbox := l.filter (fun e => decide (till ≤ e.1)) })).each (l.filter (fun e => decide (e.1 < till)))
      (fun u e => u.dropInbound v e.1)

/-- The ports of a well at the end of a tick (R202). -/
def State.settlePorts (s : State) (w : Nat) : State := s.each (List.range 25) (fun u k => u.settlePort ⟨w, k⟩ u.tickEnd)

/-- Send a unit of a step to its target: a memory, or the tile store of a peer. Nothing leaves after an EXPORT of a poisoned ciphertext (R148). -/
def State.sendUnit (s : State) (t : TileRef) (i : Issue) (j c : Nat) (data : Bytes) : Bool × State :=
  if (s.tile t).mute then (true, s)
  else if i.w.ext / 2 ^ 29 = 3 then
    match s.peerTile t i c true with
    | none => (true, s)
    | some v => (true, s.inbound v i.part c data)
  else match s.unitTarget t i j c true with
  | none => (true, s)
  | some a => s.guarded t i a 128 2 (fun v => (true, v.devWrite a data))

/-- STORE (R214). -/
def execStore (t : TileRef) (s : State) : Result :=
  s.execStep t 0x41 (fun t i s =>
    s.runTransfer t i i.w.count (fun j => (rowOf i.w.srcA i.w.strideA j, 2, false)) (fun j c u => u.unitData t i j c (fun d v => v.sendUnit t i j c d)))

/-- SEND (R214). -/
def execTileSend (t : TileRef) (s : State) : Result :=
  s.execStep t 0x43 (fun t i s =>
    s.runTransfer t i i.w.count (fun j => (rowOf i.w.srcA i.w.strideA j, 2, false)) (fun j c u => u.unitData t i j c (fun d v => v.sendUnit t i j c d)))

/-- A unit of a pump stream (R36, R37, R241): checked at the well's pumps as a write of the tile's master, then it crosses the cistern interface. That a
write is what the stream needs there, and that a refusal records the cistern address of the accumulator bucket, is the model's choice (log entry 77). -/
def State.pumpUnit (s0 : State) (t : TileRef) (i : Issue) (j : Nat) (data : Bytes) : Bool × State :=
  let a := i.w.ext % 2 ^ 21 + 2 * j
  let m := s0.tileMaster t
  let addr := cisAddr t.well (a * 64)
  let s := s0.votesFor addr
  match (if !(s.well t.well).inService then some RefuseReason.outOfService else s.tableRefuses m (4 * t.well + 2) (some t.well) 2) with
  | some r => (false, (s.refusedAt (4 * t.well + 2) m addr r).accessTrap t i r.status)
  | none => (true, s.cross t.well i.w.op2 i.w.prime a t.tile data)

/-- PUMP (R241). -/
def execPump (t : TileRef) (s : State) : Result :=
  s.execStep t 0x42 (fun t i s =>
    s.runTransfer t i i.w.count (fun j => (rowOf i.w.srcA i.w.strideA j, 2, false)) (fun j c u => u.unitData t i j c (fun d v => v.pumpUnit t i j d)))

/-- RECV (R202): arms the port for count units at dst. Units on their way to it that have not arrived yet find it armed. -/
def execRecv (t : TileRef) (s : State) : Result :=
  s.execStep t 0x44 (fun t i s =>
    let s1 := (s.settlePort t i.at_).modTile t (fun x => { x with armed := some (i.w.dst, i.w.count, unsgn 14 i.w.strideD), stuckSince := some (i.at_, i.idx) })
    let l := (s1.tile t).inbox
    if l.isEmpty then s1 else (s1.modTile t (fun x => { x with inbox := [] })).each l (fun u e => u.inbound t i.part e.1 e.2))

/-- TURN (R240): a region column by column, two buckets to a unit. -/
def execTurn (t : TileRef) (s : State) : Result :=
  s.execStep t 0x46 (fun t i s =>
    s.runTransfer t i i.w.count (fun j => (rowOf i.w.dst i.w.strideD j, 2, true)) (fun j _ u =>
      let one := fun (u : State) (m row : Nat) =>
        let a := cisAddr t.well (s.turnBucket t.well i.w.ext m * 64)
        u.guarded t i a 64 1 (fun v => let r := v.readBuckets 0 1 a; (true, r.2.2.landBucket t row r.1 r.2.1))
      let row := rowOf i.w.dst i.w.strideD j
      let r := one u (2 * j) row
      if r.1 then one r.2 (2 * j + 1) ((row + 1) % 16384) else r))

/-- STEPFETCH (R204): 1,024 steps from the image copy in the cistern into the half aux[0]. -/
def execStepfetch (t : TileRef) (s : State) : Result :=
  s.execStep t 0x47 (fun t i s =>
    let h := i.w.aux % 2
    let s1 := s.runTransfer t i 256 (fun _ => (0, 0, false)) (fun j _ u =>
      let a := cisAddr t.well ((i.w.ext % 2 ^ 21 + 2 * j) * 64)
      u.guarded t i a 128 1 (fun v =>
        let r := v.readBuckets 0 2 a
        let word := 4096 * h + j * 16
        (true, r.2.2.modTile t (fun x =>
          let keep := x.stepBad.filter (fun b => decide (b < word) || decide (word + 16 ≤ b))
          { x with
            steps := memWrite x.steps (word * 8) r.1,
            stepBad := if r.2.1 then (List.range 16).foldl (fun l k => insertNat (word + k) l) keep else keep }))))
    let last := (slotCycles ((s.tile t).patterns.getD i.w.pattern []) i.at_ 256).getLast?
    match last with
    | some c => s1.modTile t (fun x => { x with halves := updAt x.halves h (fun _ => c + 24) })
    | none => s1.modTile t (fun x => { x with halves := updAt x.halves h (fun _ => i.at_ + 2 ^ 64) }))

/-- RNG_READ (R199, R436): count blocks of 64 bytes, as the partition's DRBG serves them. -/
def execRngRead (t : TileRef) (s : State) : Result :=
  s.execStep t 0x48 (fun t i s =>
    (s.modTile t (fun x => { x with rngLeft := i.w.count })).modDrbg i.part (fun d =>
      { d with requests := d.requests ++ [.tile (s.unitOf t) t.well t.tile i.w.dst i.w.count] }))

/-- AES_CTR (R197): keystream to rows of the tile store, or with dst_space 2 as a pump operand stream, eight blocks to a unit. -/
def execAesCtr (t : TileRef) (s : State) : Result :=
  s.execStep t 0x39 (fun t i s =>
    if (s.tile t).badAt i.w.srcB 16 then s.storeTrap t i
    else
      let r := s.rowsRead t i.at_ i.w.srcB 1
      let ks := ctrStream (s.tile t).aesKey (bit i.w.aux 0) (r.1.take 16) i.w.count
      if i.w.dstSpace = 2 then
        let us := (chunks 128 ks).map (fun u => fit u 128)
        let s1 := r.2.runTransfer t i us.length (fun _ => (0, 0, false)) (fun j _ u => u.pumpUnit t i j (us.getD j []))
        s1.modTile t (fun x => x.occupy [3] (i.at_ + i.w.count))
      else
        let s1 := if i.w.dstSpace = 0 then r.2.rowsWrite t i.w.dst ks else r.2
        let plan := if i.w.dstSpace = 0 then (List.range (ceilDiv i.w.count 4)).map (fun k => Touch.mk 3 (i.at_ + 4 * k + 33) 1 (i.w.dst + k) 1 true) else []
        let d := s1.touch t i plan
        d.2.modTile t (fun x => x.occupy [3] (i.at_ + i.w.count + d.1)))

/-! ## Checks of transfers (R234, R235) -/

/-- Failed transmissions in a row of a sender. -/
def State.linkFails (s : State) : Link → Nat
  | .pump u => (s.pump u).checkFails
  | .tile t => (s.tile t).checkFails
  | .copy w c => (s.chan w c).checkFails

/-- Set that number. -/
def State.setLinkFails (s : State) (k : Link) (n : Nat) : State :=
  match k with
  | .pump u => s.modPump u (fun x => { x with checkFails := n })
  | .tile t => s.modTile t (fun x => { x with checkFails := n })
  | .copy w c => s.modChan w c (fun x => { x with checkFails := n })

/-- The unit of a pump's stream that a report speaks of: the first that the full queue has not taken, or else the newest. -/
def Pump.crossing (x : Pump) : Nat := min 8 (x.queue.length - 1)

/-- What a report speaks of: well, sending tile (if any), sender's master ID, and the device address of the unit. Which unit of a step or of a copy it is,
and an address for one that goes to a tile store, the spec leaves open: a free value `d` tells. -/
def State.linkAt (s : State) (d : Nat) : Link → Nat × Option TileRef × Nat × Nat
  | .pump u => match (s.pump u).queue[(s.pump u).crossing]? with
    | some e => (u.well, some ⟨u.well, e.tile⟩, masterOfTile ⟨u.well, e.tile⟩, cisAddr u.well (e.addr * 64))
    | none => (u.well, none, masterOfPump u, cisAddr u.well 0)
  | .tile t =>
    let w := stepWord ((s.tile t).stepBytes (s.tile t).xfer)
    (t.well, some t, masterOfTile t, ((s.unitPlace t w (s.owner t.well) (d % max w.count 1)).map Prod.snd).getD (d % 2 ^ 42 * 64))
  | .copy w c => (w, none, 0x2000 + w * 16 + c, ((s.chan w c).running.map (fun k => k.srcAddr w + d % (ceilDiv (max k.count 1) 2) * 128)).getD (cisAddr w 0))

/-- A fourth failure: event 0x0606; a tile traps with XFER_FAIL, and its units behind are gone; a copy channel halts (R235). -/
def State.resendExhausted (s : State) (k : Link) (d : Nat) : State :=
  let at_ := s.linkAt d k
  let s1 := (s.setLinkFails k 0).raise 0x0606 (s.owner at_.1) at_.2.2.1 [(8, at_.1), (16, at_.2.2.1), (32, ((memoryAt at_.2.2.2).elim 0 (fun e => e.2.2)) / 64)]
  let trapped := fun (u : State) (t : TileRef) =>
    if (u.tile t).active then u.trap t (u.owner t.well) 7 Status.uncorrectable.code (u.tile t).xfer else u
  match k, at_.2.1 with
  | .copy w c, _ => s1.copyHalt w c .uncorrectable at_.2.2.2
  | .pump u, some t =>
    let n := (s1.pump u).crossing
    trapped (s1.modPump u (fun x => { x with busyRow := 0, queue := x.queue.take n ++ (x.queue.drop n).filter (fun e => e.tile ≠ t.tile) })) t
  | .tile _, some t => trapped s1 t
  | _, none => s1

/-- Is there a unit in transit that a receiver can report on? -/
def State.linkBusy (s : State) : Link → Bool
  | .pump u => !(s.pump u).queue.isEmpty
  | .tile t => (s.tile t).active && decide (s.cycle < (s.tile t).busy.getD 4 0)
  | .copy w c => (s.chan w c).running.isSome

/-- A unit is sent again with those behind it, in the next slots of its pattern: what sends it ends later (R200, R206, R234). How many units had left
before the report reached the sender, at most 16, the spec leaves open: a free value `d` tells. -/
def State.sendAgain (s : State) (k : Link) (d : Nat) : State :=
  match k, (s.linkAt d k).2.1 with
  | .copy w c, _ =>
    let ps := s.copySlots w c
    s.modChan w c (fun x => { x with doneAt := if ps.size = 0 then x.doneAt else ceilDiv (slotCycle ps (x.doneAt * 4) (d % 16)) 4 })
  | _, some t =>
    let x := s.tile t
    let ps := (patternSlots (x.patterns.getD (stepWord (x.stepBytes x.xfer)).pattern [])).toArray
    if ps.size = 0 ∨ x.busy.getD 4 0 ≤ s.cycle then s
    else s.modTile t (fun y => y.occupy [4] (slotCycle ps (x.busy.getD 4 0) (d % 16) + 1))
  | _, none => s

/-- Count a re-send in CIS_RESEND_COUNT and in the correctable-error table, kind 2 (R234). -/
def State.noteResend (s : State) (k : Link) (d : Nat) : State :=
  let at_ := s.linkAt d k
  ((s.count (cisBase at_.1 + 0xC)).cetAdd at_.1 at_.2.2.2 2).sendAgain k d

/-- A busy report: the pump's queue is full, and the unit is sent again; 64 in a row exhaust its re-sends (R235). -/
def State.pumpBusy (s : State) (u : PumpRef) (d : Nat) : State :=
  if (s.pump u).queue.length ≤ 8 then s
  else
    let s1 := s.count (pumpBase u + 0x14)
    if (s.pump u).busyRow + 1 < 64 then (s1.modPump u (fun x => { x with busyRow := x.busyRow + 1 })).noteResend (.pump u) d
    else s1.resendExhausted (.pump u) d

/-- TRANSFER_CHECK_RESULT (R234, R235): what a receiver reports of a unit. -/
def execTransferCheckResult (k : Link) (r : CheckResult) (s : State) : Result :=
  if !s.alive || !s.linkBusy k then .next s
  else match r with
  | .passed => .next (s.setLinkFails k 0)
  | .failed =>
    let d := s.draw
    if s.linkFails k + 1 < 4 then .next ((d.2.noteResend k d.1).setLinkFails k (s.linkFails k + 1)) else .next (d.2.resendExhausted k d.1)
  | .busy =>
    match k with
    | .pump u => let d := s.draw; .next (d.2.pumpBusy u d.1)
    | _ => .next s

end Sys2Proof.Machine
end

