-- ==== Sys2Proof/Machine/KeyStream.lean ====
section
/-! DEFINITION. Key streams: segment headers, their checks, and the KEYSTREAM step (04_ciphertext_engine.md R141 to R143; 05_table_refresh.md R165 to R167,
R178). -/

namespace Sys2Proof.Machine

open Sys2Proof

/-- What a segment header must hold. -/
structure Segment where
  kind : Nat
  logN : Nat
  galois : Nat
  digit : Nat
  digits : Nat
  component : Nat
  limb : Nat
  segment : Nat
  payload : Nat
  deriving DecidableEq, Repr

/-- The fields of a segment header. -/
def segmentOf (b : Bytes) : Segment :=
  ⟨rd b 2 1, rd b 3 1, rd b 4 4, rd b 0x10 1, rd b 0x11 1, rd b 0x12 1, rd b 0x13 1, rd b 0x14 4, rd b 0x18 4⟩

/-- Advance the limb, then the component, then the digit, then galois, where each runs through its range: `limb` is the next limb index, none at the end. -/
def Segment.carry (g : Segment) (limb : Option Nat) : Segment :=
  match limb with
  | some l => { g with limb := l }
  | none =>
    if g.component = 0 then { g with limb := 0, component := 1 }
    else if g.digit + 1 < g.digits then { g with limb := 0, component := 0, digit := g.digit + 1 }
    else { g with limb := 0, component := 0, digit := 0, galois := if g.kind < 4 then g.galois else g.galois + 1 }

/-- The segment after one in a step's stream: for kinds 1 to 3 limbs 0 to L - 1 and the special primes of the `lmax + k` entries (R140, R141), for the
others the order of R166. -/
def Segment.next (g : Segment) (l lmax k rl lrp : Nat) : Segment :=
  if g.kind < 4 then
    let m := g.limb + 1
    let h := g.carry (if m < l then some m else if m ≤ lmax ∧ 0 < k then some lmax else if m < lmax + k ∧ lmax < m then some m else none)
    { h with segment := h.digit * 2 * (lmax + k) + h.component * (lmax + k) + h.limb }
  else if g.kind = 4 ∧ g.galois / 2 ^ 24 ≠ 0 then { g with galois := g.galois + 1, segment := g.segment + 1 }
  else
    let m := g.limb + 1
    { g.carry (if m < (if g.kind = 4 then rl else lrp) then some m else none) with segment := g.segment + 1 }

/-- The reason a segment header fails its checks with, in the order of R142: 4 the CRC, 1 key_id, 2 limb_index, 3 another field; 0 when it passes. -/
def segmentReason (b : Bytes) (want : Segment) (keyId : Nat) : Nat :=
  if !crcEndsOk b then 4
  else if rd b 0 1 ≠ 0x4B ∨ rd b 1 1 ≠ 1 then 3
  else if rd b 8 8 ≠ keyId then 1
  else if rd b 0x13 1 ≠ want.limb then 2
  else if segmentOf b ≠ want then 3 else 0

/-- The first header that a stream of refresh or repacking keys expects: the step names galois, digit, component and limb, and the rest follows from the
parameters of the image (R165, R166). -/
def Refresh.segment (q : Refresh) (g : Segment) : Segment :=
  let i := g.galois % 2 ^ 24
  if g.kind = 5 then
    { g with logN := q.logN, digits := q.dRp, payload := 4 * 2 ^ q.logN, segment := ((i * q.dRp + g.digit) * 2 + g.component) * q.lRp + g.limb }
  else if g.galois / 2 ^ 24 = 0 then
    { g with
      logN := q.logNb, digits := 2 * q.dG, payload := 4 * 2 ^ q.logNb, segment := ((i * (2 * q.dG) + g.digit) * 2 + g.component) * q.rl + g.limb }
  else
    { g with
      logN := if g.galois / 2 ^ 24 = 1 then q.logNb else q.logN, digit := 0, digits := q.dKs, component := 0, limb := 0,
      payload := 4 * q.dKs * (q.n + 1), segment := i }

/-- Does a segment of refresh or repacking keys lie in the ranges of its fields (R165)? -/
def Refresh.holds (q : Refresh) (g : Segment) : Bool :=
  let part := g.galois / 2 ^ 24
  let i := g.galois % 2 ^ 24
  if g.kind = 5 then part == 0 && decide (i < q.n) && decide (g.digit < q.dRp) && decide (g.component < 2) && decide (g.limb < q.lRp)
  else if part = 0 then decide (i < q.n) && decide (g.digit < 2 * q.dG) && decide (g.component < 2) && decide (g.limb < q.rl)
  else decide (part ≤ 2) && decide (i < 2 ^ (if part = 1 then q.logNb else q.logN))

/-- The expected segments of a step. -/
def segmentsFrom (l lmax k rl lrp : Nat) : Nat → Segment → List Segment
  | 0, _ => []
  | n + 1, g => g :: segmentsFrom l lmax k rl lrp n (g.next l lmax k rl lrp)

/-- Count a failed key stream and log it: event 0x0301 for kinds 1 to 3, 0x0401 for refresh and repacking keys (R142, R178). -/
def State.keyMismatch (s : State) (t : TileRef) (p reason : Nat) (g : Segment) : State :=
  let s1 := s.modTile t (fun x => { x with keyFail := reason })
  if g.kind < 4 then
    (s1.count (ctxBase p + 0x34)).raise 0x0301 p (masterOfTile t) [(16, s.unitOf t), (8, reason), (32, g.segment), (32, 1)]
  else
    (s1.count (rfsBase p + 0x1C)).raise 0x0401 p (masterOfTile t) [(16, s.unitOf t), (8, g.kind), (8, g.galois / 2 ^ 24), (8, reason), (32, 1)]

/-- Read the segments of a step, one after another from an address: header and payload of each, and whether one of its buckets is uncorrectable; or the
status of a refusal (R37). -/
def State.readSegments (s : State) (t : TileRef) (size : Nat) : List Segment → Nat → List (Segment × Bytes × Bool) → Except Status (List (Segment × Bytes × Bool)) × State
  | [], _, out => (.ok out, s)
  | g :: gs, addr, out =>
    let c := s.check (s.tileMaster t) addr size 1
    match c.1 with
    | some st => (.error st, c.2)
    | none => let r := c.2.devRead 0 addr size; r.2.2.readSegments t size gs (addr + size) (out ++ [(g, r.1, r.2.1)])

/-- Write the payloads of a stream that has passed, one after another; one that held an uncorrectable bucket keeps its error pattern (R233). -/
def State.landSegments (s : State) (t : TileRef) (row : Nat) (l : List (Segment × Bytes × Bool)) : State :=
  s.each (l.zip (List.range l.length)) (fun u e =>
    let body := e.1.2.1.drop 64
    u.modTile t (fun x => if e.1.2.2 then x.putBad (row + e.2 * ceilDiv body.length 64) body else x.putRows (row + e.2 * ceilDiv body.length 64) body))

/-- The words of segments as a stream of refresh or repacking keys applies them: index, digit and payload. -/
def segmentWords (l : List (Segment × Bytes × Bool)) : List (Nat × Nat × List Nat) :=
  l.map (fun e => (e.1.galois % 2 ^ 24, e.1.digit, elems 32 (e.2.1.drop 64)))

/-- What a stream that has passed its checks does: the payloads go to dst, or for refresh and repacking keys to the batch (R142, R167). -/
def State.takeSegments (s : State) (t : TileRef) (i : Issue) (first : Segment) (l : List (Segment × Bytes × Bool)) : State :=
  if first.kind < 4 then s.landSegments t i.w.dst l else s.applyStream t i first.kind (first.galois / 2 ^ 24) first.segment (segmentWords l)

/-- The first header that a step expects: its own fields come from row src_b, and for refresh and repacking keys the part from the step and the ranges from
the image (R142, R165; log entry 71). -/
def State.streamFirst (s : State) (i : Issue) (b : Bytes) : Segment :=
  let g := { segmentOf b with kind := i.w.op2 }
  if i.w.op2 < 4 then g else (s.refresh i.part).segment { g with galois := (if i.w.op2 = 4 then i.w.peerWell else 0) * 2 ^ 24 + g.galois % 2 ^ 24 }

/-- The key_id of what a step switches: of the ciphertext header at src_a, or for refresh and repacking inputs of their tag (R142, R162, R166). -/
def Segment.keyId (g : Segment) (a : Bytes) : Nat := if g.kind < 4 ∨ (g.kind = 4 ∧ g.galois / 2 ^ 24 = 2) then rd a 0x18 8 else rd a 8 8

/-- A new pass begins with the first segment of a stream, but for the output switch of a refresh: the findings of the one before are gone (R143, R178). -/
def State.passStart (s : State) (t : TileRef) (g : Segment) : State :=
  if g.segment = 0 ∧ !(g.kind = 4 ∧ g.galois / 2 ^ 24 = 1) then s.modTile t (fun x => { x with keyFail := 0, passFail := false }) else s

/-- KEYSTREAM (R142, R165 to R167): count segments from ext. Row src_a holds the header or tag of what is switched and row src_b the first header expected
(log entry 12); nothing is written until the last segment has passed, and a failure drains the rest. -/
def execKeystream (t : TileRef) (s : State) : Result :=
  s.execStep t 0x45 (fun t i s =>
    let x := s.tile t
    let p := i.part
    let q := s.refresh p
    let ha := s.rowsRead t i.at_ i.w.srcA 1
    let hb := ha.2.rowsRead t i.at_ i.w.srcB 1
    let first := s.streamFirst i hb.1
    let rows := (i.w.srcA, 64) :: (i.w.srcB, 64) :: (if first.kind < 4 then [] else s.batchRows i first.kind (first.galois / 2 ^ 24))
    let cs := slotCycles (x.patterns.getD i.w.pattern []) i.at_ 1
    if rows.any (fun r => x.badAt r.1 r.2) then s.storeTrap t i
    else if cs.isEmpty then s.runTransfer t i 1 (fun _ => (0, 0, false)) (fun _ _ u => (true, u))
    else
      let segs := segmentsFrom (rd ha.1 3 1) (s.regBits (ctxBase p) 15 8) (s.regBits (ctxBase p) 23 16) q.rl q.lRp i.w.count first
      let size := 64 + first.payload
      let r := (hb.2.passStart t first).readSegments t size segs ((s.unitTarget t i 0 (cs.headD 0) false).getD 0) []
      match r.1 with
      | .error st => r.2.accessTrap t i st
      | .ok l =>
        let why := fun (e : Segment × Bytes × Bool) =>
          if first.kind < 4 ∨ q.holds e.1 then segmentReason (e.2.1.take 64) e.1 (first.keyId ha.1) else max 3 (segmentReason (e.2.1.take 64) e.1 (first.keyId ha.1))
        let bad := l.find? (fun e => why e != 0)
        let s1 := match bad with
          | some e => r.2.keyMismatch t p (why e) e.1
          | none => r.2.takeSegments t i first l
        let s2 := if l.any (fun e => e.2.2) then s1.modTile t (fun y => { y with passFail := true }) else s1
        s2.runTransfer t i (ceilDiv (size * i.w.count) 128)
          (fun j => (i.w.dst + 2 * j, if bad.isNone ∧ first.kind < 4 ∧ 128 * j < first.payload * i.w.count then 2 else 0, true)) (fun _ _ u => (true, u)))

end Sys2Proof.Machine
end

