-- ==== Sys2Proof/Machine/Control.lean ====
section
/-! DEFINITION. Windlass steps: control (06_tiles_windlass.md R207 to R211, R220) and HDR, which settles ciphertext headers and LWE tags
(04_ciphertext_engine.md R130, R138, R144 to R148; 05_table_refresh.md R162, R163, R174, R176, R178). -/

namespace Sys2Proof.Machine

open Sys2Proof

/-! ## Control steps -/

/-- LOOP (R207). -/
def execStepLoop (t : TileRef) (s : State) : Result :=
  s.execStep t 0x01 (fun t i s =>
    let l := i.w.level
    let c := (s.tile t).loops.getD l 0
    let n := if c = 0 then i.w.count - 1 else c - 1
    s.modTile t (fun x => { x with loops := updAt x.loops l (fun _ => n), next := if n = 0 then x.next else i.w.target }))

/-- JUMP (R207). -/
def execStepJump (t : TileRef) (s : State) : Result :=
  s.execStep t 0x02 (fun t i s => s.modTile t (fun x => { x with next := i.w.target }))

/-- Trap every windlass at a rendezvous whose identifiers differ (R208): each records its own, the round fails once. -/
def State.syncMismatch (s : State) (p : Nat) : State :=
  let waiters := (s.tilesOf p).filter (fun r => match (s.tile r).waiting with | some (5, _) => true | _ => false)
  let s1 := s.each waiters (fun u r => u.trapMark r p 8 Status.state.code (u.tile r).last)
  s1.each waiters (fun u r => u.noteTrap p (u.unitOf r) Status.state.code) |>.modPart p (fun x => { x with arrivals := [], releaseAt := none })

/-- SYNC (R208): the windlass arrives and waits; the last arrival sets the release 16 ticks on. -/
def execStepSync (t : TileRef) (s : State) : Result :=
  s.execStep t 0x03 (fun t i s =>
    let p := i.part
    let s1 := s.modTile t (fun x => { x with state := .waiting, waiting := some (5, i.w.aux) })
    let arr := (s.part p).arrivals ++ [⟨s.unitOf t, i.w.aux, s.devtime⟩]
    let s2 := s1.modPart p (fun x => { x with arrivals := arr })
    if arr.any (fun a => a.ident != i.w.aux) then s2.syncMismatch p
    else if (s.tilesOf p).length ≤ arr.length then s2.modPart p (fun x => { x with releaseAt := some (s.devtime + 16) })
    else s2)

/-- SYNC_RELEASE (R208): every waiting windlass issues its next step in the first tile cycle of the release tick. -/
def execSyncRelease (p : Nat) (s : State) : Result :=
  match (s.part p).releaseAt with
  | some r =>
    if !s.alive ∨ s.devtime < r then .next s
    else
      let s1 := s.each (s.tilesOf p) (fun u q => match (u.tile q).waiting with
        | some (5, _) => u.modTile q (fun x => x.resume (r * 4))
        | _ => u)
      .next (s1.modPart p (fun x => { x with arrivals := [], releaseAt := none }))
  | none => .next s

/-- WAIT (R209): an entry that is there is taken at once; else the windlass waits. A source above 4 is undefined and never has anything. -/
def execStepWait (t : TileRef) (s : State) : Result :=
  s.execStep t 0x04 (fun t i s =>
    let k := i.w.aux % 16
    let code := bits i.w.aux 7 4
    let p := i.part
    let wait := fun (e : Nat × Nat) => s.modTile t (fun x => { x with state := .waiting, waiting := some e, serving := none })
    if k = 0 then if code ∈ (s.round p).entered then s else wait (0, code)
    else if k ≤ 4 then
      match s.nextEntry p k (s.unitOf t) with
      | some e => s.takeEntry p t e i.w.dst
      | none => wait (k, i.w.dst)
    else wait (16 + k, i.w.dst))

/-- Coordinates in the slab of a logical unit (R96). -/
def State.slabWords (s : State) (p u : Nat) : Nat :=
  let n := s.reg (mskBase p + 0x38) * wordsPerBucket (s.round p).desc.ringWidth
  min n ((s.round p).desc.coordinates - u * n)

/-- The tally of a round state's work rises when a unit has finished its part: the coordinates of its slab, or what has been resolved or combined so far
(R124, R158; log entry 72). -/
def State.tallyDone (s : State) (p code u : Nat) : State :=
  let r := s.round p
  let add := fun (a : Nat) => s.setReg a (min (s.reg a + s.slabWords p u) r.desc.coordinates)
  if code ≠ r.state.code ∨ r.doneUnits.contains (code, u) then s
  else match r.state with
  | .settle => s.secretsDone p
  | .noise => add (mskBase p + 0x30)
  | .decode => add (mskBase p + 0x34)
  | .combine => if r.desc.threshold ≤ r.dshareSet.length then s.raiseTally (ctxBase p + 0x60) (s.reg (ctxBase p + 0x64)) else s
  | _ => s

/-- DONE (R211). -/
def execStepDone (t : TileRef) (s : State) : Result :=
  s.execStep t 0x05 (fun t i s =>
    let d := (i.w.aux % 16, s.unitOf t)
    (((s.tallyDone i.part d.1 d.2).modTile t (fun x => { x with serving := none })).modRound i.part
      (fun r => { r with doneUnits := if r.doneUnits.contains d then r.doneUnits else r.doneUnits ++ [d] })).advance i.part)

/-- END (R197, R211): the windlass stops without trapping; a waiting ROUND_ABORT takes effect with the last one (R518). -/
def execStepEnd (t : TileRef) (s : State) : Result :=
  s.execStep t 0x06 (fun t i s => (s.modTile t (fun x => { x with state := .stopped, aesKey := [], serving := none })).finishAbort i.part)

/-- TRAP (R220): cause 10 with status aux[7:0]. -/
def execStepTrap (t : TileRef) (s : State) : Result :=
  s.execStep t 0x07 (fun t i s => s.trap t i.part 10 (i.w.aux % 256) i.idx)

/-- WATCHDOG (R220): a step has made no progress for 1,048,576 cycles. -/
def execWatchdog (t : TileRef) (s : State) : Result :=
  match (s.tile t).stuckSince with
  | some (c, idx) =>
    if s.alive ∧ (s.tile t).state = .running ∧ c + 1048576 ≤ s.cycle then .next (s.trap t (s.owner t.well) 9 Status.state.code idx) else .next s
  | none => .next s

/-! ## Operation classes (R144) -/

/-- The operation classes of HDR, aux[4:0] (log entry 12), in the order of R144 and then those of *Table-lookup refresh*. -/
inductive HdrClass where
  | add | sub | neg | addPlain | mulPlain | mul | relin | rotate | conjugate | rescale | limbDrop | ntt | intt | montIn | montOut | fold | export_
  | extract | refresh | repack | undefined
  deriving DecidableEq, Repr

/-- The class of a code. -/
def hdrClass (n : Nat) : HdrClass :=
  [HdrClass.add, .sub, .neg, .addPlain, .mulPlain, .mul, .relin, .rotate, .conjugate, .rescale, .limbDrop, .ntt, .intt, .montIn, .montOut, .fold,
    .export_, .extract, .refresh, .repack].getD n .undefined

/-- Does a class take a second ciphertext at src_b? -/
def HdrClass.binary : HdrClass → Bool
  | .add | .sub | .mul | .fold => true
  | _ => false

/-- The level that each metered ciphertext input needs (R144). -/
def HdrClass.need (k : HdrClass) (enc arg : Nat) : Nat :=
  match k with
  | .mulPlain => enc
  | .mul | .relin | .rotate | .conjugate | .rescale | .extract => 1
  | .limbDrop => arg
  | _ => 0

/-- Is the component count of an input right for a class (R144)? -/
def HdrClass.fits (k : HdrClass) (c : Nat) : Bool :=
  match k with
  | .mul | .rotate | .conjugate => c == 2
  | .relin => c == 3
  | _ => true

/-- round(log2 q). -/
def roundLog2 (q : Nat) : Nat := let l := Nat.log2 q; if 2 ^ (2 * l + 1) ≤ q * q then l + 1 else l

/-- The first condition of R145 that holds, as a cause: none for a clean destination. `bad` is an uncorrectable header read. -/
def settleCause (k : HdrClass) (ins : List CtHeader) (arg keyFail : Nat) (bad : Bool) : Option Nat :=
  let a := ins.headD (ctHeader [])
  match ins.find? (fun h => h.poisoned) with
  | some h => some h.cause
  | none =>
    if ins.any (fun h => h.keyId != a.keyId) then some Status.keyMismatch.code
    else if ins.any (fun h => h.logN != a.logN || h.encoding != a.encoding || !k.fits h.components ||
        ((k == .add || k == .sub) && h.encoding == 1 && !h.unmetered && !a.unmetered && h.scaleLog != a.scaleLog)) then some Status.format.code
    else if ins.any (fun h => !h.unmetered && decide (h.level < k.need h.encoding arg)) then some Status.levelSpent.code
    else if keyFail ≠ 0 then some Status.keyMismatch.code
    else if bad then some Status.uncorrectable.code else none

/-- The output header of a class (R144, R147): `q` gives the prime-table entries. A scale_log that falls outside its eight bits is not stated: it is what
the free value `d` gives (log entry 78). -/
def settleOut (k : HdrClass) (ins : List CtHeader) (arg : Nat) (q : Nat → Nat) (d : Nat) : CtHeader :=
  let a := ins.headD (ctHeader [])
  let b := ins.getD 1 a
  let l := min a.limbs b.limbs
  let v := min a.level b.level
  let h := { a with limbs := l, level := v, components := max a.components b.components }
  let sum := fun (x y : Nat) => if x + y < 256 then x + y else d % 256
  match k with
  | .mul => { h with components := 3, scaleLog := sum a.scaleLog b.scaleLog }
  | .mulPlain => { h with scaleLog := if a.encoding = 1 then sum a.scaleLog arg else a.scaleLog }
  | .relin | .rotate | .conjugate | .fold => { h with components := 2 }
  | .rescale =>
    { h with
      limbs := max (l - 1) 1, level := v - 1,
      scaleLog :=
        if a.encoding ≠ 1 then a.scaleLog else if roundLog2 (q (l - 1)) ≤ a.scaleLog then a.scaleLog - roundLog2 (q (l - 1)) else d % 256 }
  | .limbDrop => { h with limbs := max (l - arg) 1, level := v - arg }
  | .ntt => { h with form := true }
  | .intt => { h with form := false }
  | .montIn => { h with montgomery := true }
  | .montOut => { h with montgomery := false }
  | _ => h

/-! ## Poison counters (R145, R146, R178) -/

/-- Count a poisoned ciphertext: the first of a round raises event 0x0303. -/
def State.notePoison (s : State) (t : TileRef) (p cause : Nat) : State :=
  let s1 := (s.count (ctxBase p + 0x30)).setRecord (ctxBase p + 0x44) (2 ^ 31 + 2 ^ 16 * cause + s.unitOf t)
  if (s.round p).firstPoison then s1
  else (s1.modRound p (fun r => { r with firstPoison := true })).raise 0x0303 p (masterOfTile t) [(16, s.unitOf t), (8, cause), (64, (s.round p).desc.roundId)]

/-- Count `n` LWE outputs poisoned for one cause: the first of a round raises event 0x0403. -/
def State.noteLwePoison (s : State) (t : TileRef) (p cause n : Nat) : State :=
  let s1 := (s.countBy (rfsBase p + 0x18) n).setRecord (rfsBase p + 0x24) (2 ^ 31 + 2 ^ 16 * cause + s.unitOf t)
  if (s.round p).firstLwePoison then s1
  else (s1.modRound p (fun r => { r with firstLwePoison := true })).raise 0x0403 p (masterOfTile t)
    [(16, s.unitOf t), (8, cause), (64, (s.round p).desc.roundId)]

/-- Count a level that this operation found spent, not one that a poisoned input passes on: event 0x0302 with the operation class (R145). -/
def State.noteLevel (s : State) (t : TileRef) (p cls : Nat) (ins : List CtHeader) (cause : Nat) : State :=
  if cause = Status.levelSpent.code ∧ ins.all (fun h => !h.poisoned) then
    (s.count (ctxBase p + 0x38)).raise 0x0302 p (masterOfTile t) [(16, s.unitOf t), (8, cls), (32, 1)]
  else s

/-! ## HDR -/

/-- Read the header rows of a step's ciphertext inputs, and whether one is uncorrectable. -/
def State.headersIn (s : State) (t : TileRef) (i : Issue) (k : HdrClass) : List CtHeader × Bool × State :=
  let rows := (if i.w.aSpace = 0 then [i.w.srcA] else []) ++ (if k.binary && i.w.bSpace == 0 then [i.w.srcB] else [])
  rows.foldl (fun (a : List CtHeader × Bool × State) r =>
    let x := a.2.2.rowsRead t i.at_ r 1
    (a.1 ++ [ctHeader x.1], a.2.1 || (s.tile t).badAt r 64, x.2)) ([], false, s)

/-- Is the class one that ends the work of a key stream (R142, R178)? -/
def HdrClass.keyed : HdrClass → Bool
  | .relin | .rotate | .conjugate | .extract | .refresh | .repack => true
  | _ => false

/-- What a header finds of its operation: the reason of a failed key stream, and whether a table failed or a read was uncorrectable. What the stream of a
pass found holds for every header of the pass (R143, R174, R178). -/
def Tile.found (x : Tile) (k : HdrClass) : Nat × Bool := if k.keyed then (x.keyFail, x.dataFail || x.passFail) else (0, x.dataFail)

/-- Write settled headers or tags, four cycles on, and the end of the operation: its findings are used up (R145, R214). -/
def State.settled (s : State) (t : TileRef) (i : Issue) (rows : List (Nat × Bytes)) : State :=
  let s1 := s.modTile t (fun x =>
    { rows.foldl (fun (y : Tile) r => y.putRows r.1 r.2) x with dataFail := false, mute := false, headerEnd := i.at_ + 4 })
  (s1.touch t i (rows.map (fun r => ⟨5, i.at_ + 4, 1, r.1, 1, true⟩))).2

/-- The origin of what a tile makes (R130). -/
def State.madeHere (s : State) (t : TileRef) : Nat := 0xFF000000 + s.unitOf t % 1024

/-- What else a poisoned destination brings: KEY_MISMATCH of differing inputs is counted (R158), an accumulator is marked by FOLD (R146), and a poisoned
input to STEP fails the round (R82). -/
def State.settlePoison (s : State) (t : TileRef) (p : Nat) (k : HdrClass) (cls arg : Nat) (ins : List CtHeader) (cause : Nat) : State :=
  let clean := ins.all (fun h => !h.poisoned)
  let s1 := if clean && ins.any (fun h => h.keyId != (ins.headD (ctHeader [])).keyId) then s.count (ctxBase p + 0x34) else s
  let s2 := (s1.noteLevel t p cls ins cause).notePoison t p cause
  let s3 := if k = .fold then s2.poisonBlock p arg cause else s2
  if !clean ∧ (s.round p).state = .step then s3.failRound p .poisonedInput else s3

/-- A class with a ciphertext destination (R145). -/
def State.settleCiphertext (s : State) (t : TileRef) (i : Issue) (k : HdrClass) : State :=
  let p := i.part
  let arg := i.w.aux / 256
  let r := s.headersIn t i k
  let f := (s.tile t).found k
  let cause := settleCause k r.1 arg f.1 (f.2 || r.2.1)
  let d := r.2.2.draw
  let o := settleOut k r.1 arg (s.primeOf p) d.1
  let unm := r.1.any (fun h => h.unmetered) || bit i.w.aux 5
  let h := { o with
    special := 0, unmetered := unm, poisoned := cause.isSome, cause := cause.getD 0, origin := s.madeHere t, roundId := (s.round p).desc.roundId }
  let s1 := d.2.settled t i [(i.w.dst, h.bytes)]
  match cause with | none => s1 | some c => s1.settlePoison t p k (i.w.aux % 32) arg r.1 c

/-- EXPORT (R148): of a poisoned ciphertext nothing is sent, and the step completes with POISONED_INPUT. -/
def State.settleExport (s : State) (t : TileRef) (i : Issue) : State :=
  let p := i.part
  let r := s.headersIn t i .export_
  let cause : Option Nat := if r.2.1 then some Status.uncorrectable.code else (r.1.find? (fun h => h.poisoned)).map (fun h => h.cause)
  let s1 := r.2.2.modTile t (fun x =>
    { x with dataFail := false, mute := cause.isSome, headerEnd := i.at_ + 4, exportStatus := if cause.isSome then .poisonedInput else .ok })
  match cause with
  | none => s1
  | some c => (s1.count (ctxBase p + 0x40)).raise 0x0305 p (masterOfTile t) [(16, s.unitOf t), (8, c)]

/-- Destination rows of the tags of a batch: `count` of them (R167; log entry 71). -/
def tagRows (i : Issue) : List Nat := (List.range i.w.count).map (rowOf i.w.dst i.w.strideD)

/-- EXTRACT (R162, R163, R178): the tags of one source ciphertext, settled under R145 in full. -/
def State.settleExtract (s : State) (t : TileRef) (i : Issue) : State :=
  let p := i.part
  let r := s.headersIn t i .extract
  let a := r.1.headD (ctHeader [])
  let f := (s.tile t).found .extract
  let cause := settleCause .extract r.1 0 f.1 (f.2 || r.2.1)
  let tag := LweTag.bytes ⟨1, cause.isSome, a.unmetered, cause.getD 0, s.regBits (rfsBase p) 31 21, a.keyId, a.origin⟩
  let s1 := r.2.2.settled t i ((tagRows i).map (fun d => (d, tag)))
  match cause with | none => s1 | some c => (s1.noteLevel t p (i.w.aux % 32) r.1 c).noteLwePoison t p c i.w.count

/-- Read input tags: one whose CRC fails is taken as poisoned with UNCORRECTABLE; the step raises event 0x0405 once, with the first one's place and their
number (R178, R182). -/
def State.tagsIn (s : State) (t : TileRef) (i : Issue) : List LweTag × State :=
  let rows := (List.range i.w.count).map (rowOf i.w.srcA i.w.strideA)
  let r := rows.foldl (fun (a : List (Nat × LweTag × Bool) × State) row =>
    let x := a.2.rowsRead t i.at_ row 1
    let g := lweTag x.1
    let torn := (s.tile t).badAt row 24
    let wrong := !torn && !crcEndsOk (x.1.take 24)
    (a.1 ++ [(row, if torn || wrong then { g with poisoned := true, cause := Status.uncorrectable.code } else g, wrong)], x.2))
    (([] : List (Nat × LweTag × Bool)), s)
  let wrong := r.1.filter (fun e => e.2.2)
  (r.1.map (fun e => e.2.1),
    match wrong with
    | [] => r.2
    | e :: _ => r.2.raise 0x0405 i.part (masterOfTile t) [(16, s.unitOf t), (48, e.1 * 64), (32, wrong.length)])

/-- Steps 1, 2, 5 and 6 of R145 over LWE tags (R178). -/
def settleTags (ins : List LweTag) (keyFail : Nat) (bad : Bool) : Option Nat :=
  match ins.find? (fun g => g.poisoned) with
  | some g => some g.cause
  | none =>
    if ins.any (fun g => g.keyId != (ins.headD g).keyId) || keyFail != 0 then some Status.keyMismatch.code
    else if bad then some Status.uncorrectable.code else none

/-- The output tag of a refresh, and its cause (R170, R178). -/
def refreshTag (dim : Nat) (f : Nat × Bool) (g : LweTag) : LweTag :=
  let cause := settleTags [g] f.1 f.2
  { g with stage := 2, dim := dim, poisoned := cause.isSome, cause := cause.getD 0 }

/-- REFRESH (R162, R170, R178, R183): the tags of a batch. -/
def State.settleRefresh (s : State) (t : TileRef) (i : Issue) : State :=
  let p := i.part
  let r := s.tagsIn t i
  let out := r.1.map (refreshTag (s.regBits (rfsBase p) 31 21) ((s.tile t).found .refresh))
  let s1 := (r.2.settled t i ((tagRows i).zip (out.map LweTag.bytes))).countBy (rfsBase p + 0x10) i.w.count
  s1.each out (fun u g => if g.poisoned then u.noteLwePoison t p g.cause 1 else u)

/-- REPACK (R175, R176, R178): count tags at src_a, with scale aux[15:8]. -/
def State.settleRepack (s : State) (t : TileRef) (i : Issue) : State :=
  let p := i.part
  let r := s.tagsIn t i
  let f := (s.tile t).found .repack
  let cause := settleTags r.1 f.1 f.2
  let lrp := s.regBits (rfsBase p) 6 0
  let h : CtHeader := ⟨s.regBits (ctxBase p) 4 0, lrp, lrp - 1, 2, 0, 1, r.1.any (fun g => g.unmetered), cause.isSome, true, false, cause.getD 0,
    i.w.aux / 256, s.madeHere t, (s.round p).desc.roundId, (r.1.map LweTag.keyId).headD 0⟩
  let s1 := (r.2.settled t i [(i.w.dst, h.bytes)]).count (rfsBase p + 0x14)
  match cause with | none => s1 | some c => s1.notePoison t p c

/-- HDR (R145, R178, R214). A class that is not defined leaves free bytes at dst. -/
def execHdr (t : TileRef) (s : State) : Result :=
  s.execStep t 0x08 (fun t i s =>
    match hdrClass (i.w.aux % 32) with
    | .export_ => s.settleExport t i
    | .extract => s.settleExtract t i
    | .refresh => s.settleRefresh t i
    | .repack => s.settleRepack t i
    | .undefined => let d := s.draw; d.2.settled t i [(i.w.dst, toLE d.1 64)]
    | k => s.settleCiphertext t i k)

end Sys2Proof.Machine
end

