-- ==== Sys2Proof/Machine/StepCheck.lean ====
section
/-! DEFINITION. The check of each step at image load (06_tiles_windlass.md R190, R191, R203, R204, R215; 07_cisterns_pumps.md R238 to R242;
04_ciphertext_engine.md R125; 05_table_refresh.md R159, R160, R167). -/

namespace Sys2Proof.Machine

open Sys2Proof

/-- What the check of a step needs to know of its image: table rows of its tile (first row, rows), prime-table entries, log_n, K, the refresh parameters
and the encoding as their registers hold them, the turn regions of its well (base, columns, rows), and the halves its step may stand in. -/
structure StepEnv where
  tables : List (Nat × Nat)
  primes : Nat
  logN : Nat
  special : Nat
  refreshOk : Bool
  approximate : Bool
  accBytes : Nat
  refresh : Refresh
  turns : List (Nat × Nat × Nat)
  halves : List Nat
  deriving DecidableEq, Repr

/-- Rows that an operand of a step touches: first row, advance, rows of each iteration, iterations, alignment, and whether it is written. -/
structure Span where
  row : Nat
  stride : Int
  rows : Nat
  times : Nat
  align : Nat
  write : Bool
  deriving DecidableEq, Repr

/-- First row of an iteration, as an integer. -/
def Span.at_ (x : Span) (k : Nat) : Int := (x.row : Int) + x.stride * (k : Int)

/-- A span stays in the tile store and its vectors start where R191 allows; the ends of a linear progression bound it. -/
def Span.good (x : Span) : Bool :=
  let ok := fun (k : Nat) => decide (0 ≤ x.at_ k) && decide (x.at_ k + (x.rows : Int) ≤ 16384)
  ok 0 && ok (x.times - 1) && decide (x.row % x.align = 0) && (decide (x.times ≤ 1) || decide (x.stride % (x.align : Int) = 0))

/-- Does a span reach into rows from `row` on? -/
def Span.meets (x : Span) (row rows : Nat) : Bool :=
  (List.range x.times).any (fun k => decide (x.at_ k < ((row + rows : Nat) : Int)) && decide ((row : Int) < x.at_ k + (x.rows : Int)))

/-- Spans of the operands A, B and destination that lie in the tile store. -/
def spanA (w : StepWord) (rows times align : Nat) : List Span := if w.aSpace = 0 then [⟨w.srcA, w.strideA, rows, times, align, false⟩] else []
def spanB (w : StepWord) (rows times align : Nat) : List Span := if w.bSpace = 0 then [⟨w.srcB, w.strideB, rows, times, align, false⟩] else []
def spanD (w : StepWord) (rows times align : Nat) : List Span := if w.dstSpace = 0 then [⟨w.dst, w.strideD, rows, times, align, true⟩] else []

/-- A span of fixed rows. -/
def fixedSpan (row rows : Nat) (write : Bool) : Span := ⟨row, 0, rows, 1, 1, write⟩

/-- The rows that an HDR step touches: header rows of its operands, or the tags of a batch. -/
def hdrSpans (w : StepWord) : List Span :=
  let tagsA := ⟨w.srcA, w.strideA, 1, w.count, 1, false⟩
  let tagsD := ⟨w.dst, w.strideD, 1, w.count, 1, true⟩
  match hdrClass (w.aux % 32) with
  | .extract => spanA w 1 1 1 ++ [tagsD]
  | .refresh => [tagsA, tagsD]
  | .repack => [tagsA, fixedSpan w.dst 1 true]
  | .export_ => spanA w 1 1 1
  | k => spanA w 1 1 1 ++ (if k.binary then spanB w 1 1 1 else []) ++ [fixedSpan w.dst 1 true]

/-- The rows that a KEYSTREAM step touches: the payloads of its segments, or the inputs and outputs of its batch (R142, R167; log entry 71). -/
def streamSpans (w : StepWord) (e : StepEnv) : List Span :=
  let q := e.refresh
  let limb := limbRows (2 ^ e.logN)
  let inputs := ⟨w.srcA, w.strideA, q.lweRows, w.batch, 1, false⟩
  let outputs := ⟨w.dst, w.strideD, q.lweRows, w.batch, 1, true⟩
  [fixedSpan w.srcB 1 false] ++
    (if w.op2 = 5 then [inputs, fixedSpan w.dst (1 + 2 * q.lRp * limb) true]
     else if w.op2 ≠ 4 then [fixedSpan w.srcA 1 false, fixedSpan w.dst (limb * w.count) true]
     else if w.peerWell = 0 then [inputs, fixedSpan w.dst (w.batch * q.accRows) true]
     else if w.peerWell = 1 then [fixedSpan w.srcA (w.batch * q.accRows) false, outputs]
     else [fixedSpan w.srcA 1 false, outputs])

/-- The rows that a step touches. -/
def spansOf (w : StepWord) (e : StepEnv) : List Span :=
  let o := w.opcode
  let c := w.count
  let limb := limbRows w.limbWords
  if o = 0x04 then if w.aux % 16 = 0 then [] else [fixedSpan w.dst 1 true]
  else if o = 0x08 then hdrSpans w
  else if o = 0x10 ∨ o = 0x12 ∨ o = 0x13 then spanA w 8 c 8 ++ spanB w 8 c 8 ++ spanD w 8 c 8
  else if o = 0x11 ∨ o = 0x1D then spanA w 8 c 8 ++ spanB w 8 c 8 ++ (if w.accWrite then spanD w 8 1 8 else [])
  else if o = 0x14 ∨ o = 0x1F then spanA w 8 c 8 ++ spanD w 8 c 8
  else if o = 0x18 ∨ o = 0x19 then spanA w 16 c 16 ++ spanB w 16 c 16 ++ spanD w 16 c 16
  else if o = 0x1A ∨ o = 0x23 then spanA w 16 c 16 ++ spanD w 16 c 16
  else if o = 0x1C then spanA w 8 c 8 ++ spanB w 8 c 8 ++ spanD w 8 c 8
  else if o = 0x1E then
    let fn := w.aux % 16
    spanA w (if fn = 0 then ceilDiv 128 (wordsPerBucket (8 * bits w.aux 7 4)) else if fn = 2 then 4 else 8) c (if fn = 0 then 1 else if fn = 2 then 4 else 8) ++
      spanD w (if fn = 1 then 4 else if fn = 3 then 16 else 8) c (if fn = 1 then 4 else if fn = 3 then 16 else 8)
  else if o = 0x20 then spanA w 16 c 16 ++ (if w.aux % 8 = 4 then [] else spanB w 16 c 16) ++ spanD w 16 c 16
  else if o = 0x21 then spanA w 16 c 16 ++ spanB w 16 c 16
  else if o = 0x22 then spanD w 32 c 16
  else if o = 0x24 then [fixedSpan w.srcA 1 false] ++ spanD w 16 c 16
  else if o = 0x28 ∨ o = 0x29 then [fixedSpan w.dst (limb * c) true]
  else if o = 0x2A then [fixedSpan w.srcA (limbRows (2 ^ e.logN) * c) false, fixedSpan w.dst (limbRows (2 ^ e.logN) * c) true]
  else if o = 0x30 then [fixedSpan w.srcA (limb * c) false, fixedSpan w.dst (limb * c) true]
  else if o = 0x31 then [fixedSpan w.srcA (limb * bits w.aux 14 8) false, fixedSpan w.dst (limb * c) true]
  else if o = 0x38 then [fixedSpan w.srcA 1 false]
  else if o = 0x39 then [fixedSpan w.srcB 1 false] ++ (if w.dstSpace = 0 then [fixedSpan w.dst (ceilDiv c 4) true] else [])
  else if o = 0x3A then
    [fixedSpan w.srcB 1 false, fixedSpan w.srcA (ceilDiv (16 * c + 16) 64) false, fixedSpan w.dst (ceilDiv c 4) true, fixedSpan (w.aux % 16384) 1 true]
  else if o = 0x40 ∨ o = 0x44 ∨ o = 0x46 then [⟨w.dst, w.strideD, 2, c, 1, true⟩]
  else if o = 0x41 ∨ o = 0x42 ∨ o = 0x43 then [⟨w.srcA, w.strideA, 2, c, 1, false⟩]
  else if o = 0x45 then streamSpans w e
  else if o = 0x48 then [fixedSpan w.dst c true]
  else []

/-- Lane modes that an opcode allows (R186, R214): the mode of its arithmetic, and 0 for steps that use no lanes. -/
def modeGood (w : StepWord) : Bool :=
  let o := w.opcode
  if 0x10 ≤ o ∧ o ≤ 0x14 then w.mode == 0
  else if 0x18 ≤ o ∧ o ≤ 0x1A then w.mode == 1
  else if o = 0x1C ∨ o = 0x1F then w.mode == 2
  else if o = 0x1D then decide (3 ≤ w.mode) && decide (w.mode ≤ 7)
  else if o = 0x1E then decide (1 ≤ w.mode) && decide (w.mode ≤ 3)
  else if o = 0x20 ∨ o = 0x23 then w.mode == 9
  else if o = 0x21 ∨ o = 0x22 then w.mode == 8
  else if o = 0x24 then w.mode == 1
  else if o = 0x3A then w.mode == 0 || w.mode == 8
  else w.mode == 0

/-- Spaces that an opcode allows: lane steps use the tile store, the accumulators or none; only AES_CTR writes to the port; a transfer moves rows of the
tile store. -/
def spacesGood (w : StepWord) : Bool :=
  let o := w.opcode
  let no2 := fun (x : Nat) => x != 2
  if 0x10 ≤ o ∧ o < 0x28 then no2 w.aSpace && no2 w.bSpace && no2 w.dstSpace
  else if o = 0x39 then w.aSpace != 2 && no2 w.bSpace && (w.dstSpace == 0 || w.dstSpace == 2)
  else if o < 0x40 then w.aSpace != 1 && no2 w.aSpace && w.bSpace != 1 && no2 w.bSpace && w.dstSpace != 1 && no2 w.dstSpace
  else w.aSpace != 1 && w.bSpace != 1 && w.dstSpace != 1 &&
    (if o = 0x40 ∨ o = 0x44 ∨ o = 0x46 ∨ o = 0x48 then w.dstSpace == 0
     else if o = 0x45 then w.dstSpace == 0 && w.aSpace == 0 && w.bSpace == 0
     else if o = 0x41 ∨ o = 0x42 ∨ o = 0x43 then w.aSpace == 0 else true)

/-- Targets of R213 that an opcode allows; ext is 0 for a step that has no use of it. -/
def extGood (w : StepWord) : Bool :=
  let o := w.opcode
  let g := w.ext / 2 ^ 29
  if o = 0x40 ∨ o = 0x41 then decide (g ≤ 3)
  else if o = 0x45 then decide (g ≤ 1)
  else if o = 0x43 then g == 2 || g == 3
  else if o = 0x42 ∨ (o = 0x39 ∧ w.dstSpace = 2) then g == 4
  else if o = 0x46 then g == 0 && bits w.ext 28 24 == 0
  else if o = 0x47 then g == 0
  else if o = 0x2A then true
  else w.ext == 0

/-- Reserved fields of R213, in the 32 bytes. -/
def reservedGood (b : Bytes) : Bool :=
  bits (rd b 1 1) 7 6 == 0 && bits (rd b 0xD 1) 7 7 == 0 && bits (rd b 0x14 1) 7 3 == 0 && bits (rd b 0x15 1) 7 5 == 0 && bits (rd b 0x16 1) 7 5 == 0 &&
    bits (rd b 0x1A 2) 15 13 == 0

/-- Does a step name a prime? -/
def usesPrime (w : StepWord) : Bool :=
  let o := w.opcode
  (decide (0x10 ≤ o) && decide (o ≤ 0x14)) || o == 0x28 || o == 0x29 || o == 0x2A || o == 0x30 || o == 0x31 ||
    (o == 0x42 && (w.op2 / 16 == 3 || w.op2 / 16 == 4))

/-- op2 of a pump stream (R242). -/
def pumpOpGood (op2 : Nat) : Bool :=
  let p := op2 % 16
  match op2 / 16 with
  | 1 | 2 => p == 4 || p == 5 || p == 6 || p == 8
  | 3 | 4 | 8 => p == 0
  | 5 => true
  | 6 | 7 => p == 4 || p == 8
  | 9 => decide (p ≤ 1)
  | 10 => decide (8 ≤ p)
  | _ => false

/-- Units of a pump stream: count, or for AES_CTR eight blocks to a unit. -/
def pumpUnits (w : StepWord) : Nat := if w.opcode = 0x39 then ceilDiv w.count 8 else w.count

/-- A pump stream's op2, an even accumulator bucket, and no accumulator inside a turn region (R238, R241, R242). -/
def pumpGood (w : StepWord) (e : StepEnv) : Bool :=
  let a := w.ext % 2 ^ 21
  pumpOpGood w.op2 && a % 2 == 0 &&
    (decide (8 ≤ w.op2 / 16) || e.turns.all (fun t => decide (t.2.1 = 0) || decide (a + 2 * pumpUnits w ≤ t.1) || decide (t.1 + t.2.1 * t.2.2 ≤ a)))

/-- A TURN step names a descriptor in use and stays before its last column (R238, R240). -/
def turnGood (w : StepWord) (e : StepEnv) : Bool :=
  match e.turns[bits w.ext 23 21]? with
  | none => false
  | some (_, nc, nr) => nc != 0 && nr != 0 && decide (w.ext % 2 ^ 21 + (2 * w.count - 1) / max nr 1 ≤ nc - 1)

/-- Key switching, rotation and relinearisation need special primes (R125). -/
def switchesKeys (w : StepWord) : Bool :=
  (w.opcode == 0x45 && decide (1 ≤ w.op2) && decide (w.op2 ≤ 3)) ||
    (w.opcode == 0x08 && (match hdrClass (w.aux % 32) with | .relin | .rotate | .conjugate => true | _ => false))

/-- EXTRACT, REFRESH and REPACK, or their keys (R159, R160). -/
def refreshes (w : StepWord) : Bool :=
  (w.opcode == 0x45 && (w.op2 == 4 || w.op2 == 5)) ||
    (w.opcode == 0x08 && (match hdrClass (w.aux % 32) with | .extract | .refresh | .repack => true | _ => false))

/-- The batch of an EXTRACT or REFRESH step has at most 16 inputs and fits 512 KiB of accumulators (R167); repacking stays inside its polynomial (R175). -/
def batchGood (w : StepWord) (e : StepEnv) : Bool :=
  let fits := fun (n : Nat) => decide (n ≤ 16) && decide (e.accBytes * n ≤ 524288)
  if w.opcode = 0x08 then
    match hdrClass (w.aux % 32) with
    | .extract | .refresh => fits w.count
    | .repack => decide (w.count ≤ 2 ^ e.logN)
    | _ => true
  else if w.opcode = 0x45 ∧ w.op2 = 4 then fits w.batch && decide (w.peerWell ≤ 2)
  else if w.opcode = 0x45 ∧ w.op2 = 5 then decide (w.coefficient + w.batch ≤ 2 ^ e.logN)
  else true

/-- Width of a CVT step of function 0 or 3 (R190). -/
def cvtGood (w : StepWord) : Bool :=
  !(w.opcode == 0x1E && (w.aux % 16 == 0 || w.aux % 16 == 3)) || legalWidth (8 * bits w.aux 7 4)

/-- Does a step pass the checks of image load? -/
def stepGood (b : Bytes) (e : StepEnv) : Bool :=
  let w := stepWord b
  let spans := spansOf w e
  crcEndsOk b && definedOpcodes.contains w.opcode && modeGood w && spacesGood w && extGood w && reservedGood b && w.gap != 0 && w.count != 0 &&
    (if usesPrime w then decide (w.prime < e.primes) else decide (w.prime < max 1 e.primes)) &&
    spans.all Span.good && !spans.any (fun x => x.write && e.tables.any (fun t => x.meets t.1 t.2)) &&
    (if w.opcode = 0x42 ∨ (w.opcode = 0x39 ∧ w.dstSpace = 2) then pumpGood w e else w.opcode == 0x45 || w.op2 == 0) &&
    (w.opcode != 0x46 || turnGood w e) && (w.opcode != 0x47 || !e.halves.contains (w.aux % 2)) &&
    !(switchesKeys w && e.special == 0) && !(refreshes w && !(e.refreshOk && e.approximate)) && batchGood w e && cvtGood w

end Sys2Proof.Machine
end

