-- ==== Sys2Proof/Machine/ImageCheck.lean ====
section
/-! DEFINITION. What a partition image holds and checks 6 and 11 to 13 of R296 (08_structure_images.md R284 to R289; 02_rounds.md R54, R61;
03_masked_aggregation.md R87, R93, R106, R117, R122; 04_ciphertext_engine.md R125 to R127, R131, R151, R152; 05_table_refresh.md R159, R171, R172;
06_tiles_windlass.md R200, R201; 07_cisterns_pumps.md R238; 09_strelul.md R303, R304, R310 to R312, R318). -/

namespace Sys2Proof.Machine

open Sys2Proof

/-! ## Presets (R284) -/

/-- Physical offset of a preset's register; none where its scope is undefined or its offset leaves the block. -/
def State.presetAt (s : State) (p : Nat) (e : Bytes) : Option Nat :=
  let off := rd e 0 3
  let scope := rd e 3 1
  if scope < 24 then if off < 0x100000 then ((s.wellsOf p)[scope]?).map (fun w => wellBase w + off) else none
  else if scope = 0xF0 then if off < 0x400 then some (rndBase p + off) else none
  else if 0x100 ≤ off then none
  else if scope = 0xF1 then some (mskBase p + off)
  else if scope = 0xF2 then some (ctxBase p + off)
  else if scope = 0xF3 then some (rfsBase p + off)
  else none

/-- Is an offset one of the prime tables that Lantus fills itself? -/
def isPrimeReg (x : Nat) : Bool := decide (0x1000000 ≤ x) && within (x % 0x100000) 0x20000 0x23FFF && within (x % 0x400) 0x100 0x23F

/-- Check 12 for one entry. -/
def State.presetGood (s : State) (p : Nat) (e : Bytes) : Bool :=
  match s.presetAt p e with
  | none => false
  | some x =>
    match regRow x with
    | none => false
    | some r => r.mask (fun a => a == .rwl) != 0 && (rd e 4 4) &&& (0xFFFFFFFF ^^^ r.mask (fun _ => true)) == 0 && encodingLegal x (rd e 4 4) && !isPrimeReg x

/-- The entries of PRESETS. -/
def presetsOf (b : Bytes) : List Bytes := chunks 8 (bodyOf b 0x101)

/-- Lantus, writer 25, writes the presets in list order (R284, R292). -/
def State.putPresets (s : State) (p : Nat) (b : Bytes) : State :=
  s.each (presetsOf b) (fun t e => match t.presetAt p e with | some x => t.regPut 25 x (rd e 4 4) | none => t)

/-! ## Schedule sets (R285) -/

/-- A schedule set of 64 bytes. -/
def setRecord (r : Bytes) : SchedSet :=
  { index := rd r 0 2, mode := if rd r 2 1 = 1 then .m else if rd r 2 1 = 2 then .h else .none, ringWidth := rd r 3 1, coordinates := rd r 4 4,
    slots := rd r 8 2, batchSize := rd r 0xA 2, batchTimer := rd r 0xC 4, logN := rd r 0x10 1, limbs := rd r 0x11 1, components := rd r 0x12 1,
    scaleLog := rd r 0x13 1, uploadSize := rd r 0x14 4, publishOffset := rd r 0x18 8, publishRegion := rd r 0x20 4, outputs := rd r 0x24 2 }

/-- The schedule sets of an image. -/
def imageSets (b : Bytes) : List SchedSet := (chunks 64 (bodyOf b 0x102)).map setRecord

/-- The upload size that a set's row states (R93, R131). -/
def SchedSet.size (x : SchedSet) : Nat :=
  if x.mode = .m then 64 + 64 * bucketCount x.coordinates x.ringWidth else 64 + 4 * x.components * x.limbs * 2 ^ x.logN

/-- Parameters of a partition's registers that check 11 reads. -/
structure Params where
  frac : Nat
  sigma : Nat
  logN : Nat
  lmax : Nat
  special : Nat
  dnum : Nat
  encoding : Nat
  packing : Nat
  tpLog : Nat
  ctxSigma : Nat
  holders : Nat
  rate : Nat
  rfs : Nat
  gadget : Nat
  deriving DecidableEq, Repr

/-- The parameters as the registers hold them. -/
def State.params (s : State) (p : Nat) : Params :=
  { frac := s.regBits (mskBase p) 13 8, sigma := s.reg64 (mskBase p + 8),
    logN := s.regBits (ctxBase p) 4 0, lmax := s.regBits (ctxBase p) 15 8, special := s.regBits (ctxBase p) 23 16, dnum := s.regBits (ctxBase p) 31 24,
    encoding := s.regBits (ctxBase p + 0x10) 0 0, packing := s.regBits (ctxBase p + 0x10) 1 1, tpLog := s.regBits (ctxBase p + 0x10) 23 16,
    ctxSigma := s.reg64 (ctxBase p + 0x18), holders := s.reg (ctxBase p + 0x20),
    rate := s.reg (rndBase p + 0x10), rfs := s.reg (rfsBase p), gadget := s.reg (rfsBase p + 4) }

/-- A set of mode M: width, frac_bits below it (R87), no mode H field. -/
def SchedSet.goodM (x : SchedSet) (q : Params) : Bool :=
  legalWidth x.ringWidth && decide (q.frac < x.ringWidth) && x.batchSize == 0 && x.batchTimer == 0 &&
    x.logN == 0 && x.limbs == 0 && x.components == 0 && x.scaleLog == 0 && x.outputs == 0

/-- A set of mode H: batch of R54, upload shape within R125. -/
def SchedSet.goodH (x : SchedSet) (q : Params) : Bool :=
  x.ringWidth == 0 && within x.batchSize 1 1024 && within x.batchTimer 1 100000 && within x.logN 12 q.logN && within x.limbs 1 q.lmax &&
    within x.components 2 3 && (q.encoding == 0 || within x.scaleLog 20 60) && decide (1 ≤ x.outputs)

/-- Is a set record as R285 states it, with its publication region named in ENDPOINTS? -/
def SchedSet.good (x : SchedSet) (q : Params) (regions : List Nat) : Bool :=
  (if x.mode = .m then x.goodM q else x.mode == .h && x.goodH q) && decide (1 ≤ x.coordinates) && decide (1 ≤ x.slots) &&
    x.uploadSize == x.size && regions.contains x.publishRegion

/-- Has an image a set of a mode? -/
def hasMode (sets : List SchedSet) (md : Mode) : Bool := sets.any (fun x => x.mode == md)

/-- The range of R117 and R151. -/
def sigmaGood (q : Nat) : Bool := within q (2 ^ 16) (2 ^ 56)

/-- The ciphertext parameters of R125. -/
def Params.ctxGood (q : Params) : Bool :=
  within q.logN 12 17 && within q.lmax 1 64 && decide (q.special ≤ 16) && within q.dnum 1 q.lmax &&
    (q.special == 0 || decide (ceilDiv q.lmax (max q.dnum 1) ≤ q.special)) &&
    (if q.encoding = 0 then within q.tpLog 1 60 && q.packing == 0 else q.tpLog == 0) && within q.holders 1 16777216 && sigmaGood q.ctxSigma

/-- The refresh parameters of R159. -/
def Params.rfsGood (q : Params) : Bool :=
  let rl := bits q.rfs 18 17
  let lognb := bits q.rfs 16 13
  let dg := bits q.gadget 28 26
  let bg := bits q.gadget 25 21
  let dks := bits q.gadget 20 17
  let ks := bits q.gadget 16 13
  let drp := bits q.gadget 12 10
  let rp := bits q.gadget 9 5
  within (bits q.rfs 31 21) 256 1024 && within rl 1 2 && within lognb 10 12 && within (bits q.rfs 12 9) 1 (lognb - 3) && within (bits q.rfs 6 0) 2 q.lmax &&
    within dg 1 4 && within bg 2 20 && decide (bg * dg ≤ 28 * rl) && within dks 1 8 && within ks 1 8 && decide (ks * dks ≤ 28) &&
    within drp 1 4 && within rp 4 28 && decide (rp * drp ≤ 28)

/-- Bytes of accumulators of one refresh input: 8 * rl * N_b (R167). -/
def Params.accBytes (q : Params) : Nat := 8 * bits q.rfs 18 17 * 2 ^ bits q.rfs 16 13

/-! ## Primes (R126, R127) -/

/-- Entries of the prime table. -/
def primeEntries (b : Bytes) : List Bytes := chunks 16 (bodyOf b 0x103)

/-- The primes of an image, in table order. -/
def imagePrimes (b : Bytes) : List Nat := (primeEntries b).map (fun e => rd e 0 4)

/-- The roots of an image's primes (R126). -/
def imageRoots (b : Bytes) : List Nat := (primeEntries b).map (fun e => rd e 0xC 4)

/-- Does one of x, x^2, x^4, ... reach n - 1 within a number of squarings? -/
def reachesMinusOne (n : Nat) : Nat → Nat → Bool
  | 0, _ => false
  | k + 1, x => x == n - 1 || reachesMinusOne n k (x * x % n)

/-- Odd part and power of two of a number; the fuel is its bit length. -/
def oddPart : Nat → Nat → Nat → Nat × Nat
  | 0, d, r => (d, r)
  | k + 1, d, r => if d % 2 = 0 then oddPart k (d / 2) (r + 1) else (d, r)

/-- Miller-Rabin to one base. -/
def millerRabin (n base : Nat) : Bool :=
  let dr := oddPart 32 (n - 1) 0
  let x := powMod n 32 (base % n) dr.1
  base % n == 0 || x == 1 || reachesMinusOne n dr.2 x

/-- The checks of R127 on one entry, apart from uniqueness. -/
def primeGood (nmax : Nat) (e : Bytes) : Bool :=
  let q := rd e 0 4
  within q (2 ^ 28 + 1) (2 ^ 31 - 1) && q % 2 == 1 && [2, 7, 61].all (millerRabin q) && q % (2 * nmax) == 1 &&
    q * rd e 4 4 % 2 ^ 32 == 2 ^ 32 - 1 && rd e 8 4 == 2 ^ 64 % q && powMod q 32 (rd e 0xC 4 % q) nmax == q - 1

/-- Every entry passes, and no two hold one prime. -/
def primesGood (b : Bytes) (q : Params) : Bool :=
  (bodyOf b 0x103).length == 16 * (q.lmax + q.special) && (primeEntries b).all (primeGood (2 ^ q.logN)) && decide (imagePrimes b).Nodup

/-! ## Lookup tables (R171, R172) -/

/-- A lookup table record, with the bytes it takes in LOOKUP. -/
structure Lookup where
  index : Nat
  fn : Nat
  a : Nat
  b : Nat
  scale : Nat
  record : Bytes
  deriving DecidableEq, Repr

/-- Largest integer whose square does not exceed x; the fuel is half the bit length. -/
def isqrtAux (x : Nat) : Nat → Nat → Nat
  | 0, r => r
  | k + 1, r => let c := r + 2 ^ k; isqrtAux x k (if c * c ≤ x then c else r)

/-- isqrt of R172. -/
def isqrt (x : Nat) : Nat := isqrtAux x (bitLen x / 2 + 1) 0

/-- Bytes of a record whose first 32 bytes are given, for tables of t entries. -/
def lookupSize (h : Bytes) (t : Nat) : Nat := if rd h 3 1 = 0 then 36 + 2 * t else 36

/-- The records of LOOKUP, one after another; none where a record is cut short. -/
def lookupsIn (t : Nat) : Nat → Bytes → Option (List Lookup)
  | 0, b => if b.isEmpty then some [] else none
  | fuel + 1, b =>
    if b.isEmpty then some []
    else
      let n := lookupSize b t
      if b.length < n then none
      else (lookupsIn t fuel (b.drop n)).map (fun l => ⟨rd b 2 1, rd b 3 1, rd b 4 2, rd b 6 2, rd b 8 4, b.take n⟩ :: l)

/-- Parameters of a built-in (R172). -/
def Lookup.paramsGood (x : Lookup) (t : Nat) : Bool :=
  match x.fn with
  | 0 => true
  | 1 => x.a == 0 && x.b == 0
  | 2 | 3 => decide (x.a ≤ t) && x.b == 0
  | 4 => decide (1 ≤ x.a) && decide (x.b ≤ 14)
  | 5 => decide (x.a ≤ x.b) && decide (x.b < t)
  | _ => false

/-- A record as R171 states it, for tables of 2^pLog entries. -/
def Lookup.good (x : Lookup) (pLog q0 : Nat) : Bool :=
  rd x.record 0 1 == 0x54 && rd x.record 1 1 == 1 && rd x.record 0xC 1 == pLog && decide (x.fn ≤ 5) && crcEndsOk x.record && x.paramsGood (2 ^ pLog) &&
    within x.scale 1 (q0 - 1)

/-- T[m] of a table (R171, R172). -/
def Lookup.entry (x : Lookup) (m : Nat) : Int :=
  match x.fn with
  | 1 => m
  | 2 => if x.a ≤ m then 1 else 0
  | 3 => if m < x.a then 1 else 0
  | 4 => (min (2 ^ x.b) (isqrt ((2 ^ (2 * x.b) * x.a) / (m + 1))) : Nat)
  | 5 => if m < x.a then (x.a : Int) - m else if x.b < m then (x.b : Int) - m else 0
  | _ => sgn 16 (rd x.record (32 + 2 * m) 2)

/-- The test polynomial of R173 as rl limbs of N_b words. -/
def Lookup.poly (x : Lookup) (pLog logNb rl q0 q1 : Nat) : Bytes :=
  let nb := 2 ^ logNb
  let w := nb / 2 ^ pLog
  let qb := if rl = 2 then q0 * q1 else q0
  let delta : Int := (x.scale * (if rl = 2 then q1 else 1) : Nat)
  let tv := (List.range nb).map (fun k =>
    let v : Int := if k < nb - w / 2 then x.entry ((k + w / 2) / w) * delta else -(x.entry 0) * delta
    (v % (qb : Int)).toNat)
  elemBytes 32 (tv.map (fun v => v % q0)) ++ (if rl = 2 then elemBytes 32 (tv.map (fun v => v % q1)) else [])

/-- The records of an image's LOOKUP for its p_log. -/
def imageLookups (b : Bytes) (q : Params) : Option (List Lookup) := lookupsIn (2 ^ bits q.rfs 12 9) 256 (bodyOf b 0x104)

/-- LOOKUP passes R171 and R172. CORRECT needs coefficient packing; what shows it in an image is its table, CLAMP_CORR (R177; log entry 61). -/
def lookupsGood (b : Bytes) (q : Params) : Bool :=
  match imageLookups b q with
  | none => false
  | some l => l.all (fun x => x.good (bits q.rfs 12 9) ((imagePrimes b).headD 0)) && decide (l.map Lookup.index).Nodup &&
      (q.packing == 0 || l.all (fun x => x.fn != 5))

/-! ## Endpoints and regions (R303, R304, R310) -/

/-- An endpoint record. -/
def endpointRecord (r : Bytes) : Endpoint :=
  { index := rd r 1 1, kind := rd r 2 1, ports := rd r 3 1 % 4, wholeSpace := bit (rd r 3 1) 2, vlan := rd r 4 2 % 4096, dscp := rd r 6 2 % 64,
    address := slice r 8 16, rnrUs := rd r 0x18 2, stagingRegion := rd r 0x1A 2, slotBase := rd r 0x1C 4 % 2 ^ 21, slotStride := rd r 0x20 4,
    shard := rd r 0x24 4, rotate := bit (rd r 0x28 1) 0 }

/-- Records of endpoints and of regions in ENDPOINTS. -/
def endpointBytes (b : Bytes) : List Bytes := (chunks 64 (bodyOf b 0x109)).drop 1 |>.take (rd (bodyOf b 0x109) 0 1)
def regionBytes (b : Bytes) : List Bytes := (chunks 64 (bodyOf b 0x109)).drop (1 + rd (bodyOf b 0x109) 0 1)

/-- The endpoints of an image. -/
def imageEndpoints (b : Bytes) : List Endpoint := (endpointBytes b).map endpointRecord

/-- An address that is unspecified, multicast or loopback (R304). -/
def addressBad (a : Bytes) : Bool := beNat a == 0 || (a.headD 0).toNat == 0xFF || beNat a == 1

/-- A record as R303 states it. -/
def endpointGood (r : Bytes) : Bool :=
  let e := endpointRecord r
  crcEndsOk r && rd r 0 1 == 0x45 && decide (e.index ≤ 15) && within e.kind 1 4 && e.ports != 0 && within e.vlan 1 4094 && decide (1 ≤ e.rnrUs) &&
    !addressBad e.address && (e.kind == 3 || e.kind == 4 || e.stagingRegion == 0) && (e.kind == 2 || e.slotBase == 0)

/-- The head of ENDPOINTS and the length of its body. -/
def endpointHeadGood (b : Bytes) : Bool :=
  let h := bodyOf b 0x109
  within (rd h 0 1) 1 16 && decide (rd h 2 2 ≤ 4096) && zeroAt h 1 1 && zeroAt h 4 60 && h.length == 64 * (1 + rd h 0 1 + rd h 2 2)

/-- At most one endpoint of each of UPLOAD, UNMASK and DSHARE; distinct indices and addresses; UNMASK and DSHARE where their modes need them (R106, R152). -/
def endpointSetGood (es : List Endpoint) (sets : List SchedSet) : Bool :=
  let n := fun k => (es.filter (fun e => e.kind == k)).length
  decide (es.map Endpoint.index).Nodup && decide (es.map Endpoint.address).Nodup && decide (n 2 ≤ 1) && decide (n 3 ≤ 1) && decide (n 4 ≤ 1) &&
    (!hasMode sets .m || n 3 == 1) && (!hasMode sets .h || n 4 == 1)

/-- Buckets per rank of a slot's payload (R318). -/
def slotShard (x : SchedSet) (e : Endpoint) (wells : Nat) : Nat := if x.mode = .m then 24 * slabOf x.coordinates x.ringWidth wells else e.shard

/-- The slots of an UPLOAD endpoint fit the cistern for a set (R304, R318). -/
def slotsFit (x : SchedSet) (e : Endpoint) (wells : Nat) : Bool :=
  let sh := slotShard x e wells
  decide (1 ≤ sh) && decide (sh + 1 ≤ e.slotStride) && decide (e.slotBase + (x.slots - 1) * e.slotStride + sh + 1 ≤ 2 ^ 21)

/-- Register the section's regions under R312; none when one is refused. -/
def State.putRegions (s : State) (p : Nat) : List Bytes → Option State
  | [] => some s
  | r :: rs => if s.regionStatus p r = .ok then (s.registerRegion p r).putRegions p rs else none

/-- Is a staging region a plain cistern region of the section? -/
def stagingGood (b : Bytes) (e : Endpoint) : Bool :=
  !(e.kind == 3 || e.kind == 4) || (regionBytes b).any (fun r => rd r 2 2 == e.stagingRegion && (match placeOf (rd r 8 8) with | .cistern _ _ => true | _ => false))

/-! ## Wells, areas and routes (R287, R288) -/

/-- A well record. -/
def wellRecord (r : Bytes) : WellRecord :=
  { areaBase := rd r 0 4 % 2 ^ 21, areaBuckets := rd r 4 4, copyPatterns := [slice r 0x40 300, slice r 0x180 300],
    ranges := (List.range (min (rd r 8 1) 16)).map (fun k =>
      let x := slice r (0x2C0 + 16 * k) 16
      (rd x 0 1, rd x 2 2, rd x 4 4, rd x 8 4)) }

/-- Body of the WELL section of a rank. -/
def wellBody (b : Bytes) (r : Nat) : Bytes := match (sectionsAt b 0x108 r 0xFF).head? with | some x => x.body b | none => []

/-- The well records of an image, by rank. -/
def imageWells (b : Bytes) : List WellRecord := (List.range (headerOf b).wells).map (fun r => wellRecord (wellBody b r))

/-- The rank-scoped sections of a rank with their first buckets, counted from the base of the area. -/
def stagedSections (b : Bytes) (r : Nat) : List (Section × Nat) :=
  ((sectionsIn b).filter (fun x => x.rank == r)).foldl (fun (a : List (Section × Nat)) x =>
    a ++ [(x, match a.getLast? with | some y => y.2 + ceilDiv y.1.size 64 | none => 0)]) []

/-- Buckets that the staged sections of a rank take. -/
def stagedBuckets (b : Bytes) (r : Nat) : Nat := ((stagedSections b r).map (fun e => ceilDiv e.1.size 64)).sum

/-- The turn regions of a well as its registers hold them (R238). -/
def State.turns (s : State) (w : Nat) : List (Nat × Nat × Nat) :=
  (List.range 8).map (fun k => (s.reg (cisBase w + 0x200 + 0x10 * k), s.reg (cisBase w + 0x204 + 0x10 * k), s.reg (cisBase w + 0x208 + 0x10 * k)))

/-- Do two ranges of buckets, given by first and number, overlap? -/
def overlaps (a n b m : Nat) : Bool := decide (a < b + m) && decide (b < a + n)

/-- Turn regions as R238 states them. -/
def turnsGood (l : List (Nat × Nat × Nat)) : Bool :=
  let used := l.filter (fun t => t.2.1 != 0)
  used.all (fun t => t.1 % 32 == 0 && t.2.1 % 32 == 0 && within t.2.1 32 65536 && within t.2.2 1 4096 && decide (t.1 + t.2.1 * t.2.2 ≤ 2 ^ 21)) &&
    decide (used.Pairwise (fun x y => overlaps x.1 (x.2.1 * x.2.2) y.1 (y.2.1 * y.2.2) = false))

/-- An image area and its ranges as R287 states them. -/
def wellRecordGood (b : Bytes) (r : Nat) (turns : List (Nat × Nat × Nat)) (sets : List SchedSet) : Bool :=
  let x := wellRecord (wellBody b r)
  (wellBody b r).length == 960 && within x.areaBuckets 1 524288 && decide (x.areaBase + x.areaBuckets ≤ 2 ^ 21) && decide (stagedBuckets b r ≤ x.areaBuckets) &&
    turns.all (fun t => t.2.1 * t.2.2 == 0 || !overlaps x.areaBase x.areaBuckets t.1 (t.2.1 * t.2.2)) && decide (rd (wellBody b r) 8 1 ≤ 16) &&
    x.ranges.all (fun g => decide (g.1 ≤ 1) && sets.any (fun e => e.index == g.2.1) && decide (g.2.2.1 ≤ g.2.2.2) &&
      decide (g.2.2.2 < (if g.1 = 0 then 2 ^ 21 else 2 ^ 29)))

/-- No protected range of a set overlaps a staging region or an admission slot (R122). -/
def rangesClear (b : Bytes) (w r wells : Nat) (sets : List SchedSet) (es : List Endpoint) : Bool :=
  let x := wellRecord (wellBody b r)
  let staging := (es.filter (fun e => e.kind == 3 || e.kind == 4)).flatMap (fun e => (regionBytes b).filter (fun g => rd g 2 2 == e.stagingRegion))
  x.ranges.all (fun g => g.1 != 0 ||
    (staging.all (fun t =>
        match placeOf (rd t 8 8) with
        | .cistern v o => v != w || !overlaps (g.2.2.1 * 64) ((g.2.2.2 + 1 - g.2.2.1) * 64) o (rd t 0x10 8)
        | _ => true) &&
      (es.filter (fun e => e.kind == 2)).all (fun e => (sets.filter (fun y => y.index == g.2.1)).all (fun y =>
        (List.range y.slots).all (fun k => !overlaps g.2.2.1 (g.2.2.2 + 1 - g.2.2.1) (e.slotBase + k * e.slotStride) (slotShard y e wells + 1))))))

/-- Route records. -/
def routeRecord (r : Bytes) : Route :=
  { src := rd r 0 1, dst := rd r 1 1, hops := rd r 2 1, start := rd r 4 2, length := rd r 6 2, links := (slice r 8 9).map BitVec.toNat }

/-- The routes of an image. -/
def imageRoutes (b : Bytes) : List Route := (chunks 32 (bodyOf b 0x10A)).map routeRecord

/-- The well that a link enters from a well (R279): none when the link does not leave it. -/
def linkTo (w link : Nat) : Option Nat :=
  if link / 4 ≠ w ∨ 96 ≤ link then none
  else match link % 4 with
  | 0 => if 6 ≤ w then some (w - 6) else none
  | 1 => if w % 6 < 5 then some (w + 1) else none
  | 2 => if w < 18 then some (w + 6) else none
  | _ => if 0 < w % 6 then some (w - 1) else none

/-- The well at the end of a path of mesh links. -/
def walkLinks : Nat → List Nat → Option Nat
  | w, [] => some w
  | w, l :: ls => match linkTo w l with | some v => walkLinks v ls | none => none

/-- The well at the end of a route: mesh links from its rank's well, or an edge link and then mesh links. -/
def routeEnd (wells : List Nat) (r : Route) : Option Nat :=
  match r.src, r.links.take r.hops with
  | 0xFE, l :: ls => if within l 96 99 then walkLinks (6 * (l - 96)) ls else none
  | 0xFD, l :: ls => if within l 100 103 then walkLinks (6 * (l - 100) + 5) ls else none
  | k, ls => match wells[k]? with | some w => walkLinks w ls | none => none

/-- The runs in force, those that wait for the frame boundary first (R281). -/
def State.runs (s : State) : List (Nat × Nat × Nat × Nat) := match s.plan.slotsNext with | some (_, l) => l | none => s.plan.slots

/-- A route forms a path, in slots that the partition owns (R288). -/
def routeGood (runs : List (Nat × Nat × Nat × Nat)) (p : Nat) (wells : List Nat) (r : Route) : Bool :=
  within r.hops 1 9 && decide (r.start < 2400) && within r.length 1 2400 && (routeEnd wells r).isSome && routeEnd wells r == wells[r.dst]? &&
    ((r.links.take r.hops).zip (List.range r.hops)).all (fun e => (List.range r.length).all (fun k => slotOwned runs p e.1 ((r.start + e.2 + k) % 2400)))

/-- Ranks that an endpoint places into: all for UPLOAD, and those of staging regions and of regions that allow writes. -/
def placedRanks (b : Bytes) (wells : List Nat) : List Nat :=
  if (imageEndpoints b).any (fun e => e.kind == 2) then List.range wells.length
  else
    (regionBytes b).filterMap (fun g =>
      if bit (rd g 1 1) 1 ∨ (imageEndpoints b).any (fun e => e.stagingRegion == rd g 2 2 && (e.kind == 3 || e.kind == 4)) then
        match memoryAt (rd g 8 8) with | some (_, w, _) => wells.findIdx? (fun v => v == w) | none => none
      else none)

/-! ## Tiles (R200, R201, R286) -/

/-- The parts of a tile record: head, entries, directory, patterns and steps. -/
structure TileParts where
  steps : Nat
  dirs : Nat
  sets : Nat
  entries : List Bytes
  dir : List Bytes
  patterns : List Bytes
  stepBytes : Bytes
  deriving DecidableEq, Repr

/-- Bytes up to the next multiple of 64. -/
def up64 (n : Nat) : Nat := ceilDiv n 64 * 64

/-- Offsets of directory, patterns and steps, and the length of a record. -/
def tileLayout (steps dirs sets : Nat) : Nat × Nat × Nat × Nat :=
  let d := 64 + up64 (8 * sets)
  let p := d + up64 (32 * dirs)
  (d, p, p + 2560, p + 2560 + 32 * steps)

/-- The parts of a body. -/
def tileParts (b : Bytes) : TileParts :=
  let n := rd b 0 2
  let d := rd b 2 1
  let k := rd b 3 1
  let l := tileLayout n d k
  { steps := n, dirs := d, sets := k, entries := chunks 8 (slice b 64 (8 * k)), dir := chunks 32 (slice b l.1 (32 * d)),
    patterns := (List.range 8).map (fun i => slice b (l.2.1 + 320 * i) 320), stepBytes := slice b l.2.2.1 (32 * n) }

/-- A directory entry. -/
def dirEntry (r : Bytes) : TileTable :=
  { index := rd r 0 1, kind := rd r 1 1, row := rd r 2 2 % 16384, rows := rd r 4 2, crcs := (List.range (rd r 6 1)).map (fun k => rd r (8 + 4 * k) 4), area := rd r 0x18 4 }

/-- An entry of the entries part. -/
def tileEntry (r : Bytes) : TileEntry := { set := rd r 0 2, opening := rd r 2 2, intake := rd r 4 2, closing := rd r 6 2 }

/-- A directory entry as R286 states it; a test polynomial has its table in LOOKUP. -/
def dirGood (r : Bytes) (area : Nat) (lookups : List Nat) : Bool :=
  let e := dirEntry r
  ((within e.kind 1 5) || e.kind == 0xF) && within e.rows 1 16384 && decide (e.row + e.rows ≤ 16384) && within (rd r 6 1) 1 4 &&
    zeroAt r (8 + 4 * rd r 6 1) (16 - 4 * rd r 6 1) && decide (e.area + e.rows ≤ area) && (e.kind != 4 || lookups.contains e.index)

/-- STEPFETCH steps: bucket and half (R204). -/
def fetchesOf (steps : List Bytes) : List (Nat × Nat) :=
  steps.filterMap (fun b => let w := stepWord b; if w.opcode = 0x47 then some (w.ext % 2 ^ 21, w.aux % 2) else none)

/-- Pages of a tile: first bucket in the cistern and the steps of each page of 32 KiB (R283). -/
def pagesOf (b : Bytes) (rank tile base : Nat) : List (Nat × List Bytes) :=
  ((stagedSections b rank).filter (fun e => e.1.stype == 0x106 && e.1.tile == tile)).flatMap (fun e =>
    ((chunks 32768 (e.1.body b)).zip (List.range (ceilDiv e.1.size 32768))).map (fun c => (base + e.2 + 512 * c.2, chunks 32 c.1)))

/-- What the steps of a tile are checked against, but for their halves. -/
def stepEnv (q : Params) (primes : Nat) (turns : List (Nat × Nat × Nat)) (t : TileParts) : StepEnv :=
  { tables := (t.dir.map dirEntry).map (fun e => (e.row, e.rows)), primes := primes, logN := q.logN, special := q.special, refreshOk := q.rfsGood,
    approximate := q.encoding == 1, accBytes := q.accBytes, refresh := refreshOf q.rfs q.gadget q.logN, turns := turns, halves := [] }

/-- Every step of a tile, those of its pages included, passes (R215). -/
def stepsGood (t : TileParts) (pages : List (Nat × List Bytes)) (e : StepEnv) : Bool :=
  let first := chunks 32 t.stepBytes
  let fetches := fetchesOf (first ++ pages.flatMap (fun g => g.2))
  (first.zip (List.range t.steps)).all (fun x => stepGood x.1 { e with halves := [x.2 / 1024] }) &&
    pages.all (fun g => g.2.length == 1024 && g.2.all (fun x => x.length == 32 &&
      stepGood x { e with halves := (fetches.filter (fun f => f.1 == g.1)).map (fun f => f.2) }))

/-- A tile record as R286 states it. -/
def tileGood (body : Bytes) (area : Nat) (sets : List SchedSet) (lookups : List Nat) (pages : List (Nat × List Bytes)) (e : Params → TileParts → StepEnv)
    (q : Params) : Bool :=
  let t := tileParts body
  within t.steps 1 2048 && decide (t.dirs ≤ 64) && t.sets == sets.length && zeroAt body 4 60 && body.length == (tileLayout t.steps t.dirs t.sets).2.2.2 &&
    t.entries.all (fun r => let x := tileEntry r; sets.any (fun y => y.index == x.set) && decide (x.opening < t.steps) && decide (x.intake < t.steps) && decide (x.closing < t.steps)) &&
    decide (t.entries.map (fun r => rd r 0 2)).Nodup && t.dir.all (fun r => dirGood r area lookups) && decide (t.dir.map (fun r => rd r 0 1)).Nodup &&
    t.patterns.all (fun g => zeroAt g 300 20) && stepsGood t pages (e q t)

/-- Body of the TILE section of a rank and tile. -/
def tileBody (b : Bytes) (r t : Nat) : Bytes := match (sectionsAt b 0x105 r t).head? with | some x => x.body b | none => []

/-- Slots of the placements and DMA that arrive at a rank over edge links: its edge slots in the crossbar frame (R287). -/
def edgeSlots (routes : List Route) (rank slot : Nat) : Nat :=
  (routes.filter (fun r => (r.src == 0xFE || r.src == 0xFD) && r.dst == rank && decide ((slot + 2400 * 2 - (r.start + r.hops - 1)) % 2400 < r.length))).length

/-- Units that a well's patterns can carry in one slot: a tile moves one unit at a time, whichever of its patterns is in use (R200, R201). -/
def slotLoad (tiles copies : List Nat) (routes : List Route) (rank slot : Nat) : Nat :=
  ((tiles ++ copies).filter (fun g => bit g slot)).length + edgeSlots routes rank slot

/-- No three consecutive slots of a well carry more than eight units (R201). -/
def crossbarGood (b : Bytes) (rank : Nat) : Bool :=
  let tiles := (List.range 24).map (fun t => ((tileParts (tileBody b rank t)).patterns.map (fun g => leNat (g.take 300))).foldl (fun (a c : Nat) => a ||| c) 0)
  let copies := (wellRecord (wellBody b rank)).copyPatterns.map leNat
  let load := ((List.range 2400).map (slotLoad tiles copies (imageRoutes b) rank)).toArray
  (List.range 2400).all (fun k => decide (load.getD k 0 + load.getD ((k + 1) % 2400) 0 + load.getD ((k + 2) % 2400) 0 ≤ 8))

/-! ## Power (R289) -/

/-- Power records. -/
def imagePower (b : Bytes) : List PowerRecord := (chunks 8 (bodyOf b 0x10B)).map (fun r => ⟨rd r 0 2, rd r 2 1, rd r 4 2, rd r 6 2⟩)

/-- States that a round of a mode can enter and that need a record. -/
def powerStates (md : Mode) : List Nat := if md = .m then [1, 2, 3, 4, 6, 7, 8, 9] else [1, 2, 5, 7, 8, 9]

/-- The power records as R289 states them. -/
def powerGood (l : List PowerRecord) (sets : List SchedSet) (envelope : Nat) : Bool :=
  l.all (fun r => decide (r.peak ≤ envelope) && within r.slack 60 300) &&
    sets.all (fun x => (powerStates x.mode).all (fun st => l.any (fun r => r.set == x.index && r.state == st)))

/-! ## The checks -/

/-- Check 11 (R296): `t` is the state with the presets in their registers. -/
def State.check11 (t : State) (p : Nat) (rec : PlanRecord) (b : Bytes) : Verdict :=
  let q := t.params p
  let sets := imageSets b
  let es := imageEndpoints b
  let wells := t.wellsOf p
  let n := wells.length
  let secSets := indexOf b 0x102
  let secEp := indexOf b 0x109
  let secPre := indexOf b 0x101
  let h := hasMode sets .h
  let regions := (regionBytes b).map (fun r => rd r 2 2)
  let lookups := ((imageLookups b q).getD []).map Lookup.index
  let primes := (imagePrimes b).length
  let tiles := (List.range n).flatMap (fun r => (List.range 24).map (fun k => (r, k)))
  let shares := rec.eth0 + rec.eth1 + rec.hostShare
  let bad := tiles.find? (fun e =>
    let x := wellRecord (wellBody b e.1)
    !tileGood (tileBody b e.1 e.2) x.areaBuckets sets lookups (pagesOf b e.1 e.2 x.areaBase) (fun q g => stepEnv q primes (t.turns (wells.getD e.1 24)) g) q)
  checkAll ([
    need (bit rec.slotMask (headerOf b).ckptSlot) .format 11,
    need (endpointHeadGood b && (endpointBytes b).all endpointGood && endpointSetGood es sets) .format 11 secEp,
    need (t.putRegions p (regionBytes b)).isSome .format 11 secEp,
    need (es.all (stagingGood b)) .format 11 secEp,
    need ((bodyOf b 0x102).length % 64 == 0 && within sets.length 1 64 && decide (sets.map SchedSet.index).Nodup && sets.all (fun x => x.good q regions)) .format 11 secSets,
    need ((es.filter (fun e => e.kind == 2)).all (fun e => sets.all (fun x => slotsFit x e n))) .format 11 secEp,
    need ((imageRoutes b).all (fun r => r.src != 0xFE || decide (72 ≤ r.length) || !(placedRanks b wells).contains r.dst)) .format 11 secEp,
    need (!hasMode sets .m || sigmaGood q.sigma) .format 11 secPre,
    need (!h || q.ctxGood) .format 11 secPre,
    need (!h || primesGood b q) .format 11 (indexOf b 0x103),
    need (!(within q.rate 1 4000000) || decide (10 * shares ≤ 7 * q.rate)) .format 11 secPre,
    need ((sectionOf b 0x104).isNone || lookupsGood b q) .format 11 (indexOf b 0x104),
    need (wells.all (fun w => turnsGood (t.turns w))) .format 11 secPre,
    need bad.isNone .format 11 (match bad with | some e => ((sectionsAt b 0x105 e.1 e.2).map Section.index).headD 0x1FFF | none => 0x1FFF)] ++
    (List.range n).map (fun r => need (crossbarGood b r) .format 11 (((sectionsAt b 0x108 r 0xFF).map Section.index).headD 0x1FFF)) ++
    (List.range n).map (fun r => need (rangesClear b (wells.getD r 24) r n sets es) .format 11 (((sectionsAt b 0x108 r 0xFF).map Section.index).headD 0x1FFF)))

/-- Check 12 (R61, R284). -/
def State.check12 (s : State) (p : Nat) (b : Bytes) : Verdict :=
  need ((bodyOf b 0x101).length % 8 == 0 && (presetsOf b).all (s.presetGood p) && (presetsOf b).any (fun e => rd e 3 1 == 0xF0 && rd e 0 3 == 0x10))
    .format 12 (indexOf b 0x101)

/-- Check 13 (R287 to R289). -/
def State.check13 (t : State) (p : Nat) (rec : PlanRecord) (b : Bytes) : Verdict :=
  let wells := t.wellsOf p
  let sets := imageSets b
  let routes := bodyOf b 0x10A
  checkAll ((List.range wells.length).map (fun r =>
      need (wellRecordGood b r (t.turns (wells.getD r 24)) sets) .format 13 (((sectionsAt b 0x108 r 0xFF).map Section.index).headD 0x1FFF)) ++
    [need (routes.length % 32 == 0 && decide (routes.length ≤ 32 * 4096) && (imageRoutes b).all (routeGood t.runs p wells)) .format 13 (indexOf b 0x10A),
     need ((bodyOf b 0x10B).length % 8 == 0 && powerGood (imagePower b) sets rec.envelope) .format 13 (indexOf b 0x10B)])

end Sys2Proof.Machine
end

