-- ==== Sys2Proof/Machine/Image.lean ====
section
/-! DEFINITION. Loading and installing a partition image (08_structure_images.md R290 to R296, R388). -/

namespace Sys2Proof.Machine

open Sys2Proof

/-! ## The load (R290, R291) -/

/-- Does a failed vote on the floor-plan digest stand, which bars every load until device reset (R262)? -/
def State.noLoads (s : State) : Bool := s.regBits (logBase + 0x804) 2 2 == 1

/-- Check 0 of R290: STATE, then NOT_READY; a firmware update in progress refuses loads with STATE (R403), and so does a failed vote on the floor-plan
digest until device reset (R262, log entry 12). -/
def State.imageRefusal (s : State) (p : Nat) : Option Status :=
  if (s.round p).state.busy ∨ (s.part p).image.state = .loading ∨ s.plan.loading.isSome ∨ s.lantus.state = .updating ∨ s.noLoads then some .state
  else if !s.formed p ∨ !(s.wellsOf p).all (fun w => (s.well w).inService) ∨ !s.hasDma p then some .notReady else none

/-- The command that carries a partition's load. -/
def State.loadCmd (s : State) (p : Nat) : Option Cmd :=
  match (s.part p).image.loading with
  | some l => s.cmds.find? (fun c => c.is l.cmd)
  | none => none

/-- Check 1 on the first 64 bytes of a partition image (R270, R296). -/
def State.imageHeaderVerdict (s : State) (p : Nat) (b : Bytes) (len : Nat) : Verdict :=
  headerVerdict b len 2 (s.reg 4 % 256) (fun t => t == p || t == 0x1F) (s.wellsOf p).length

/-- The image areas are armed from the start of staging (R294): once the well records have been read. -/
def State.armAreas (s : State) (p : Nat) (b : Bytes) : State :=
  let ws := (sectionsIn b).filter (fun x => x.stype == 0x108)
  if 64 + 16 * (headerOf b).count ≤ b.length ∧ ws.length = (headerOf b).wells ∧ ws.all (fun x => decide (x.off + x.size ≤ b.length)) then
    s.modPart p (fun x => { x with image := { x.image with wellRecords := imageWells b } })
  else s

/-- Bytes of a load have arrived, or a read has failed: IMG_STAGED, check 15 at once, check 1 as soon as the header has been read (R270, R296). -/
def State.imageArrived (s : State) (p : Nat) : State :=
  match s.loadCmd p with
  | none => s
  | some c =>
    let s1 := s.setReg (imgBase p + 0x30) c.data.length
    if c.readFailed then s1.imageFail p .uncorrectable 15 0x1FFF
    else
      let b := if c.length = 0 ∨ largestLength 2 < c.length then zeros 64 else c.data
      if b.length < 64 then s1
      else match s1.imageHeaderVerdict p b c.length with
      | .error (st, ch, sec) => s1.imageFail p st ch sec
      | .ok () => s1.armAreas p b

/-- IMAGE_LOAD (R290, R291, R295): refused as check 0, or a partition reset and LOADING. -/
def execImageLoad (c : CmdRef) (s : State) : Result :=
  match s.ready c 0x20 with
  | none => .next s
  | some k =>
    let p := k.part
    if 24 ≤ p then .next (s.complete k .notReady 0 0)
    else match s.imageRefusal p with
    | some st => .next ((s.imageRecord p st 0 0x1FFF).complete k st 0 0)
    | none =>
      let s1 := (s.partitionReset p 2 2 (some c) none).startCmd c
      let s2 := s1.modPart p (fun x => { x with image := { state := .loading, loading := some ⟨c, k.length, s.devtime⟩ } })
      .next (((s2.setReg (imgBase p + 0x30) 0).raise 0x0703 p 0 [(8, p), (32, k.length)]).imageArrived p)

/-! ## Checks (R296) -/

/-- Checks 1 to 4 on the whole container, before anything is staged. -/
def State.imageFirst (s : State) (p : Nat) (rec : PlanRecord) (b : Bytes) (len : Nat) : Verdict :=
  let g := sigBlock b
  checkAll [
    s.imageHeaderVerdict p b len,
    need (decide (3904 ≤ b.length) && sigHeaderGood g (fun k => k == 0xFF)) .format 1,
    need (leNat rec.tenantKey != 0 && sigDigest g == rec.tenantKey && sha3 (sigKey g) == sigDigest g) .refusedAccess 2,
    imageSectionsVerdict b,
    crcVerdict b]

/-- Write the rank-scoped sections into the image areas, each from a bucket boundary on (R287, R291). -/
def State.stageSections (s : State) (p : Nat) (b : Bytes) : State :=
  s.each ((s.wellsOf p).zip (List.range 24)) (fun t e =>
    let base := (wellRecord (wellBody b e.2)).areaBase
    t.each (stagedSections b e.2) (fun u x =>
      let body := x.1.body b
      u.each ((chunks 64 body).zip (List.range (ceilDiv body.length 64))) (fun v c =>
        if base + x.2 + c.2 < 2 ^ 21 then v.putBucket false e.1 (base + x.2 + c.2) c.1 else v)))

/-- Does a staged write meet an uncorrectable bucket (check 15)? -/
def State.stagingBad (s : State) (p : Nat) (b : Bytes) : Bool :=
  ((s.wellsOf p).zip (List.range 24)).any (fun e =>
    let base := (wellRecord (wellBody b e.2)).areaBase
    (s.well e.1).cisBad.any (fun c => decide (base ≤ c) && decide (c < base + stagedBuckets b e.2)))

/-- Checks 5, 6 and 11 to 13; `t` is the state with the presets in place. -/
def State.imageLast (s t : State) (p : Nat) (rec : PlanRecord) (b : Bytes) : Verdict :=
  checkAll [
    need (signatureGood b) .format 5,
    need (decide (rec.minSerial ≤ (headerOf b).serial)) .state 6,
    t.check11 p rec b,
    s.check12 p b,
    t.check13 p rec b]

/-! ## Installation (R292) -/

/-- The prime tables of every pump and CTX_PRIMES_CRC (R127, R265): event 0x030A. -/
def State.putPrimes (s : State) (p : Nat) (b : Bytes) : State :=
  if (sectionOf b 0x103).isNone then s
  else
    let ps := imagePrimes b
    let s1 := s.each (s.wellsOf p) (fun t w => t.each (List.range 16) (fun u k =>
      u.each (ps.zip (List.range 80)) (fun v e => v.setReg (pumpBase ⟨w, k⟩ + 0x100 + 4 * e.2) e.1)))
    let crc := crc32c (bodyOf b 0x103)
    (s1.setReg (ctxBase p + 0x24) crc).raise 0x030A p 0 [(8, s.regBits (ctxBase p) 15 8), (8, s.regBits (ctxBase p) 23 16), (32, crc)]

/-- Expand the lookup tables that the directories of a rank's tiles name into its image area (R173, R286). -/
def State.putLookups (s : State) (p : Nat) (b : Bytes) : State :=
  let q := s.params p
  let l := (imageLookups b q).getD []
  let ps := imagePrimes b
  let s1 := s.each ((s.wellsOf p).zip (List.range 24)) (fun t e =>
    t.each (List.range 24) (fun u k =>
      u.each (((tileParts (tileBody b e.2 k)).dir.map dirEntry).filter (fun d => d.kind == 4)) (fun v d =>
        match l.find? (fun x => x.index == d.index) with
        | some x =>
          let poly := x.poly (bits q.rfs 12 9) (bits q.rfs 16 13) (bits q.rfs 18 17) (ps.headD 1) (ps.getD 1 1)
          let base := (wellRecord (wellBody b e.2)).areaBase + d.area
          v.each ((chunks 64 poly).zip (List.range d.rows)) (fun y c => y.putBucket false e.1 (base + c.2) c.1)
        | none => v)))
  if (sectionOf b 0x104).isNone then s1
  else
    let crc := crc32c ((List.range 256).flatMap (fun i => (l.filter (fun x => x.index == i)).flatMap Lookup.record))
    ((s1.setReg (rfsBase p + 8) l.length).setReg (rfsBase p + 0xC) crc).raise 0x0404 p 0 [(32, l.length), (32, crc)]

/-- Load one physical tile from a tile record: step memory, directory, patterns and entries; its tables come from the image area (R218, R292). -/
def Tile.install (x : Tile) (body : Bytes) : Tile :=
  let t := tileParts body
  { x with
    state := if x.state = .failed ∨ x.state = .test then x.state else .loaded,
    steps := memWrite [] 0 t.stepBytes, stepBad := [], tables := t.dir.map dirEntry, entries := t.entries.map tileEntry,
    patterns := t.patterns.map (fun g => g.take 300) }

/-- Load every table of a tile's directory from the image area; one whose CRC fails is reloaded before a pass reads it (R137, R203). -/
def State.loadTables (s : State) (t : TileRef) : State :=
  s.each (s.tile t).tables (fun u e =>
    (u.loadTable t e.index).modTile t (fun x => if x.tableFails e.index then { x with reload := x.reload ++ [e.index] } else x))

/-- Load every tile of a partition. -/
def State.installTiles (s : State) (p : Nat) (b : Bytes) : State :=
  s.each ((s.wellsOf p).zip (List.range 24)) (fun t e =>
    t.each (List.range 24) (fun u k =>
      let r : TileRef := ⟨e.1, u.physOf e.1 k⟩
      (u.modTile r (fun x => x.install (tileBody b e.2 k))).loadTables r))

/-- The sections kept in the image areas, with the CRCs that the check gate holds (R388). -/
def keptSections (b : Bytes) : List SectionInfo :=
  (List.range (headerOf b).wells).flatMap (fun r => (stagedSections b r).map (fun e => ⟨e.1.stype, e.1.index, e.1.rank, e.1.tile, e.2, e.1.size, e.1.crc⟩))

/-- What the installed image fixes. -/
def installedImage (b : Bytes) : Image :=
  { state := .loaded, serial := (headerOf b).serial, digestCopies := List.replicate 3 (imageDigest b), ckptSlot := (headerOf b).ckptSlot,
    sets := imageSets b, endpoints := imageEndpoints b, routes := imageRoutes b, primes := imagePrimes b, roots := imageRoots b, sections := keptSections b,
    wellRecords := imageWells b, power := imagePower b, loading := none }

/-- IMG_SERIAL, IMG_DIGESTn, IMG_SETS and the record of a load that passed (R299). -/
def State.imageRegs (s : State) (p : Nat) (b : Bytes) : State :=
  let d := imageDigest b
  let s1 := ((s.setReg64 (imgBase p + 8) (headerOf b).serial).setReg (imgBase p + 0x3C) (imageSets b).length).setBits (imgBase p) 23 8 0
  s1.each (List.range 8) (fun t k => t.setReg (imgBase p + 0x10 + 4 * k) (rd d (4 * k) 4))

/-- Install an image that has passed every check; `s` holds its presets and its staged sections (R292). -/
def State.installImage (s : State) (p : Nat) (c : Cmd) (b : Bytes) : State :=
  let s1 := s.putPrimes p b
  let s2 := (s1.modPart p (fun x => { x with image := installedImage b })).putLookups p b
  let s3 := (s2.each (s2.wellsOf p) State.checkSubst).installTiles p b
  let s4 := (s3.putRegions p (regionBytes b)).getD s3
  let s5 := ({ s4 with lockParts := insertNat p s4.lockParts }).imageRegs p b
  (s5.raise 0x0704 p 0 [(8, p), (64, (headerOf b).serial), (32, (imageSets b).length)]).complete c .ok 0 0

/-- The verdict on a container that has been read whole (R291 to R293). -/
def State.imageVerdict (s : State) (p : Nat) (c : Cmd) (rec : PlanRecord) : State :=
  let b := c.data
  match s.imageFirst p rec b c.length with
  | .error (st, ch, sec) => s.imageFail p st ch sec
  | .ok () =>
    let s0 := s.modPart p (fun x => { x with image := { x.image with wellRecords := imageWells b } })
    if s0.stagingBad p b then s0.imageFail p .uncorrectable 15 0x1FFF
    else
      let s1 := s0.stageSections p b
      let t := s1.putPresets p b
      match s1.imageLast t p rec b with
      | .error (st, ch, sec) => s1.imageFail p st ch sec
      | .ok () => t.installImage p c b

/-- IMAGE_INSTALL (R292, R293): the verdict on a partition's load once its last byte has been read, or a read of it has failed. -/
def execImageInstall (p : Nat) (s : State) : Result :=
  match s.loadCmd p, s.record p with
  | some c, some rec =>
    if !s.serves then .next s
    else if c.readFailed then .next (s.imageFail p .uncorrectable 15 0x1FFF)
    else if c.data.length < c.length then .next s
    else .next (s.imageVerdict p c rec)
  | _, _ => .next s

end Sys2Proof.Machine
end

