-- ==== Sys2Proof/Machine/Floor.lean ====
section
/-! DEFINITION. Floor plans: load, checks, installation, the change of slot owners; HOST_READ_COMPLETION and COMPLETION_TIMEOUT, whose bytes also
drive the loads; LINK_DOWN and FUNCTION_LEVEL_RESET (08_structure_images.md R275 to R282, R290, R296; 10_host_interface.md R354, R355, R362). -/

namespace Sys2Proof.Machine

open Sys2Proof

/-! ## Contents (R275 to R279) -/

/-- A partition record. -/
def planRecord (b : Bytes) (p : Nat) : PlanRecord :=
  let r := slice (bodyOf b 0x0001) (128 * p) 128
  { partition := p, wells := rd r 0 3, envelope := rd r 4 2, slotMask := rd r 8 8, eth0 := rd r 0x10 4, eth1 := rd r 0x14 4, hostShare := rd r 0x18 4,
    priority := rd r 0x1C 1 % 8, qpQuota := rd r 0x20 4, regionQuota := rd r 0x24 4, minSerial := rd r 0x28 8, tenantKey := slice r 0x30 32 }

/-- The 24 records. -/
def planRecords (b : Bytes) : List PlanRecord := (List.range 24).map (planRecord b)

/-- The access tables. -/
def planTables (b : Bytes) : List Bytes := chunks 64 (bodyOf b 0x0002)

/-- Link records: link id and runs (start, length, partition); none where the list is cut short. The fuel is the number of records. -/
def linkRecords : Nat → Bytes → Option (List (Nat × List (Nat × Nat × Nat)))
  | 0, b => if b.isEmpty then some [] else none
  | fuel + 1, b =>
    if b.isEmpty then some []
    else
      let n := rd b 2 2
      if b.length < 4 + 4 * n then none
      else
        let runs := (chunks 4 (slice b 4 (4 * n))).map (fun r => (rd r 0 4 % 4096, bits (rd r 0 4) 23 12, bits (rd r 0 4) 31 24))
        (linkRecords fuel (b.drop (4 + 4 * n))).map (fun l => (rd b 0 2, runs) :: l)

/-- The link records of FP_SLOTS. -/
def planLinks (b : Bytes) : Option (List (Nat × List (Nat × Nat × Nat))) := linkRecords ((bodyOf b 0x0003).length / 4) (bodyOf b 0x0003)

/-- The runs of a plan. -/
def planRuns (b : Bytes) : List (Nat × Nat × Nat × Nat) :=
  ((planLinks b).getD []).flatMap (fun (e : Nat × List (Nat × Nat × Nat)) => e.2.map (fun r => (e.1, r.1, r.2.1, r.2.2)))

/-! ## Checks 7 to 10 -/

/-- The record of a partition that is not formed: every field but its own number is zero. -/
def PlanRecord.unformed (p : Nat) : PlanRecord :=
  { partition := p, wells := 0, envelope := 0, slotMask := 0, eth0 := 0, eth1 := 0, hostShare := 0, priority := 0
    qpQuota := 0, regionQuota := 0, minSerial := 0, tenantKey := zeros 32 }

/-- First list of R277. A record whose wells is zero holds nothing in its other fields; its reserved bytes are ignored (R9). -/
def recordsGood (b : Bytes) : Bool :=
  let rs := planRecords b
  (List.range 24).all (fun w => decide ((rs.filter (fun r => bit r.wells w)).length ≤ 1)) &&
    (List.range 24).all (fun p =>
      let r := planRecord b p
      if r.wells = 0 then decide (r = PlanRecord.unformed p) else within r.envelope 1 780)

/-- An entry of a table of a plan. -/
def tableEntry (t : Bytes) (row col : Nat) : Nat := bits (leNat t) (2 * (8 * row + col) + 1) (2 * (8 * row + col))

/-- R278: rows 24 to 30 and column 7 are zero, and a well target serves its owner's row and row 31 alone. -/
def tablesGood (b : Bytes) : Bool :=
  let rs := planRecords b
  (planTables b).length == 99 &&
    ((planTables b).zip (List.range 99)).all (fun e =>
      (List.range 32).all (fun row => (List.range 8).all (fun col =>
        tableEntry e.1 row col == 0 ||
          (!within row 24 30 && col != 7 && (decide (96 ≤ e.2) || row == 31 || row == recordOwner rs (e.2 / 4))))))

/-- Is a link id defined (R279)? -/
def linkDefined (l : Nat) : Bool :=
  decide (l ≤ 103) && !(decide (l < 96) && ((l % 4 == 0 && decide (l / 4 < 6)) || (l % 4 == 2 && decide (18 ≤ l / 4))))

/-- Runs of one link: in ascending start order without overlap, each with slots, inside the frame, of a formed partition. -/
def runsGood (rs : List PlanRecord) (l : List (Nat × Nat × Nat)) : Bool :=
  l.all (fun r => decide (1 ≤ r.2.1) && decide (r.1 + r.2.1 ≤ 2400) && rs.any (fun q => q.partition == r.2.2 && q.wells != 0)) &&
    decide (l.Pairwise (fun x y => x.1 + x.2.1 ≤ y.1))

/-- R279. -/
def slotsGood (b : Bytes) : Bool :=
  match planLinks b with
  | none => false
  | some l => l.all (fun e => linkDefined e.1 && !e.2.isEmpty && runsGood (planRecords b) e.2) && decide (l.map (fun e => e.1)).Nodup

/-- The sums of R277. -/
def sumsGood (b : Bytes) : Bool :=
  let rs := planRecords b
  let sum := fun (f : PlanRecord → Nat) => (rs.map f).sum
  decide (sum PlanRecord.eth0 ≤ 100000) && decide (sum PlanRecord.eth1 ≤ 100000) && decide (sum PlanRecord.hostShare ≤ 100000) &&
    decide (sum PlanRecord.qpQuota ≤ 16384) && decide (sum PlanRecord.regionQuota ≤ 65536) && decide (sum PlanRecord.envelope ≤ 780)

/-- Row of a partition in every access table. -/
def tableRows (ts : List Bytes) (p : Nat) : List Nat := ts.map (fun t => bits (leNat t) (16 * p + 15) (16 * p))

/-- R281: a partition that holds an image keeps its record, its rows and its runs. -/
def State.keepsLoaded (s : State) (b : Bytes) : Bool :=
  (List.range 24).all (fun p =>
    (s.part p).image.state == .empty ||
      (s.record p == some (planRecord b p) && tableRows s.access.tables p == tableRows (planTables b) p &&
        s.runs.filter (fun r => r.2.2.2 == p) == (planRuns b).filter (fun r => r.2.2.2 == p)))

/-- The header of a floor plan. -/
def State.planHeaderVerdict (s : State) (b : Bytes) (len : Nat) : Verdict := headerVerdict b len 1 (s.reg 4 % 256) (fun t => t == 0x1F) 0

/-- The signer of R274. -/
def State.planSigner (s : State) (g : Bytes) : Bool :=
  let k := rd g 1 1
  s.usable k && bit (s.slot k).attrWord 0 && (s.slot k).value == sigDigest g && sha3 (sigKey g) == sigDigest g

/-- Check 3 of a floor plan (R275). -/
def planSectionsVerdict (b : Bytes) : Verdict :=
  let l := sectionsIn b
  checkAll [
    need (tableFault b).isNone .format 3 ((tableFault b).getD 0x1FFF),
    need ([1, 2, 3].all (fun t => countOf l t == 1) && l.length == 3 && l.all (fun x => x.rank == 0xFF && x.tile == 0xFF)) .format 3,
    need ((bodyOf b 1).length == 3072) .format 3 (indexOf b 1),
    need ((bodyOf b 2).length == 6336) .format 3 (indexOf b 2)]

/-- Every check of a floor plan, in order. -/
def State.planVerdict (s : State) (b : Bytes) (len : Nat) : Verdict :=
  let g := sigBlock b
  checkAll [
    s.planHeaderVerdict b len,
    need (decide (3904 ≤ b.length) && sigHeaderGood g (fun k => within k 8 63)) .format 1,
    need (s.planSigner g) .refusedAccess 2,
    planSectionsVerdict b,
    crcVerdict b,
    need (signatureGood b) .format 5,
    need (!s.plan.inForce || decide (s.plan.serial < (headerOf b).serial)) .state 6,
    need (recordsGood b) .format 7 (indexOf b 1),
    need (tablesGood b) .format 7 (indexOf b 2),
    need (slotsGood b) .format 7 (indexOf b 3),
    need (sumsGood b) .format 8 (indexOf b 1),
    need ((List.range 24).all (fun w => (s.well w).inService || decide (24 ≤ recordOwner (planRecords b) w))) .notReady 9 (indexOf b 1),
    need (!s.plan.inForce || s.keepsLoaded b) .state 10]

/-! ## Installation (R281, R282, R426) -/

/-- Source of a well under a new owner: it restarts from SETTLE, or is OFF without one; its pooled blocks are discarded (R426). A source
that was FATAL leaves FATAL with its history cleared, as at a re-arm (R432, log entry 44). -/
def State.restartSource (s : State) (w owner : Nat) : State :=
  let s1 := s.modSource w (fun x => if owner < 24 then x.rearm s.devtime else { x.rearm s.devtime with state := .off })
  { s1 with drbgs := s1.drbgs.map (fun (d : Drbg) => { d with pool := d.pool.filter (fun e => e.1 ≠ w) }) }

/-- DRBG of a partition that a plan forms or dissolves: seed formation, or OFF. -/
def State.reformDrbg (s : State) (p : Nat) (was now : Bool) : State :=
  if now && !was then s.formSeed p
  else if was && !now then s.modDrbg p (fun d => { d.zeroise with state := .off, buffers := [] }) else s

/-- First 8 bytes of a digest, as a number. -/
def digestHead (d : Bytes) : Nat := rd d 0 8

/-- FPL_STATUS of the last load: its check and status (R298). -/
def State.planStatus (s : State) (st : Status) (ch : Nat) : State := (s.setBits fplBase 23 16 ch).setBits fplBase 15 8 st.code

/-- FPL_SERIAL, FPL_DIGESTn and the status of a plan that passed (R298). -/
def State.planRegs (s : State) (serial : Nat) (d : Bytes) : State :=
  ((s.planStatus .ok 0).setReg64 (fplBase + 8) serial).each (List.range 8) (fun t k => t.setReg (fplBase + 0x10 + 4 * k) (rd d (4 * k) 4))

/-- Tick of the first frame boundary after now: a frame is 400 ticks from DEVTIME 0 on. -/
def State.nextFrame (s : State) : Nat := 400 * (s.devtime / 400 + 1)

/-- Install a floor plan (R281, R282): slots that change owner wait for the next frame boundary when another plan is in force. -/
def State.installPlan (s : State) (c : Cmd) (b : Bytes) : State :=
  let rs := planRecords b
  let owners := (List.range 24).map (recordOwner rs)
  let d := imageDigest b
  let root := crc32c (bodyOf b 2)
  let serial := (headerOf b).serial
  let was := (List.range 24).map s.formed
  let changed := (List.range 24).filter (fun w => s.owner w != owners.getD w 0x1F)
  let plan : FloorPlan :=
    { inForce := true, serial := serial, digestCopies := List.replicate 3 d, records := rs.filter (fun r => r.wells != 0),
      slots := if s.plan.inForce then s.plan.slots else planRuns b,
      slotsNext := if s.plan.inForce then some (s.nextFrame, planRuns b) else none, loading := none }
  let s1 : State :=
    { s with
      plan := plan, lockGlobal := true,
      access := { s.access with owners := List.replicate 3 owners, roots := List.replicate 3 root, tables := planTables b } }
  let s2 := s1.each changed (fun t w => t.restartSource w (owners.getD w 0x1F))
  let s3 := s2.each (List.range 24) (fun t p => t.reformDrbg p (was.getD p false) (t.formed p))
  (((s3.planRegs serial d).raise 0x0701 0x1F 0 [(64, serial), (32, plan.records.length), (64, digestHead d)])).complete c .ok 0 0

/-- A floor plan is refused: nothing changes but the record of it (R280, R298). -/
def State.refusePlan (s : State) (c : Cmd) (st : Status) (ch sec : Nat) : State :=
  let s1 : State := { s with plan := { s.plan with loading := none }, lockGlobal := s.plan.inForce }
  (((s1.planStatus st ch).count (fplBase + 0x30)).raise 0x0702 0x1F 0 [(8, st.code), (8, ch), (16, sec)]).complete c st 0 ch

/-- Bytes of a FLOORPLAN_LOAD have arrived, or a read has failed: check 15 at once, check 1 with the header, and the verdict with the last byte. -/
def State.planArrived (s : State) : State :=
  match s.plan.loading with
  | none => s
  | some l =>
    match s.cmds.find? (fun c => c.is l.cmd) with
    | none => { s with plan := { s.plan with loading := none }, lockGlobal := s.plan.inForce }
    | some c =>
      let b := if c.length = 0 ∨ largestLength 1 < c.length then zeros 64 else c.data
      if c.readFailed then s.refusePlan c .uncorrectable 15 0x1FFF
      else if b.length < 64 ∧ b.length < c.length then s
      else match s.planHeaderVerdict b c.length with
      | .error (st, ch, sec) => s.refusePlan c st ch sec
      | .ok () =>
        if c.data.length < c.length then s
        else match s.planVerdict c.data c.length with
        | .error (st, ch, sec) => s.refusePlan c st ch sec
        | .ok () => s.installPlan c c.data

/-- FLOORPLAN_LOAD (R280, R290): refused as check 0 while a load or a firmware update is in progress. The load releases the global lock of R18 until it
ends; a refused plan changes nothing, so the lock of the plan in force holds again. -/
def execFloorplanLoad (c : CmdRef) (s : State) : Result :=
  match s.ready c 0x21 with
  | none => .next s
  | some k =>
    if s.plan.loading.isSome ∨ s.parts.any (fun x => x.image.state == .loading) ∨ s.lantus.state = .updating ∨ s.noLoads then
      .next (refuseOther s k)
    else
      let s1 := s.startCmd c
      .next { s1 with plan := { s1.plan with loading := some ⟨c, k.length, s.devtime⟩ }, lockGlobal := false }.planArrived
where
  /-- Check 0: the load in progress is not touched. -/
  refuseOther (s : State) (k : Cmd) : State :=
    (((s.planStatus .state 0).count (fplBase + 0x30)).raise 0x0702 0x1F 0 [(8, Status.state.code), (8, 0), (16, 0x1FFF)]).complete k .state 0 0

/-- SLOT_OWNER_SWITCH (R281): at the frame boundary the slots change owner together. -/
def execSlotOwnerSwitch (s : State) : Result :=
  match s.plan.slotsNext with
  | some (t, l) => if s.alive ∧ t ≤ s.devtime then .next { s with plan := { s.plan with slots := l, slotsNext := none } } else .next s
  | none => .next s

/-! ## Host reads (R354) -/

/-- A load follows the bytes of its command. -/
def State.loadsFollow (s : State) (c : CmdRef) : State :=
  match s.cmds.find? (fun d => d.is c) with
  | some d => if !d.started then s else if d.opcode = 0x20 then s.imageArrived d.part else if d.opcode = 0x21 then s.planArrived else s
  | none => s

/-- HOST_READ_COMPLETION (R354): the next bytes that a command's host reads return, or a failed read. -/
def execHostReadCompletion (c : CmdRef) (data : Option Bytes) (s0 : State) : Result :=
  let s := s0.activity
  if !s0.host.up then .next s0
  else match s.cmds.find? (fun d => d.is c) with
  | none => .next s
  | some d =>
    if d.readFailed ∨ readLength d ≤ d.data.length then .next s
    else match (if s.streamBad d.fn then none else data) with
    | none => .next ((s.readFails d).loadsFollow c)
    | some bs =>
      let s1 : State :=
        { s.modCmd c (fun x => { x with data := (x.data ++ bs).take (readLength x) }) with host := { s.host with lastTlp := s.devtime } }
      .next (s1.loadsFollow c)

/-- COMPLETION_TIMEOUT (R354): a read outstanding for the timeout fails. -/
def execCompletionTimeout (c : CmdRef) (s : State) : Result :=
  match s.cmds.find? (fun d => d.is c) with
  | none => .next s
  | some d =>
    if d.readFailed ∨ readLength d ≤ d.data.length ∨ s.devtime < d.fetched + s.host.completionTimeout then .next s
    else .next ((s.readFails d).loadsFollow c)

/-- Loads whose host reads have failed end with check 15 (R293). -/
def State.endFailedLoads (s : State) : State := s.each (s.cmds.filter (fun c => c.started && c.readFailed)) (fun t c => t.loadsFollow c.ref)

/-- LINK_DOWN (R355). -/
def execLinkDown (cause : Nat) (s : State) : Result :=
  if !s.host.up then .next s
  else
    let s1 := s.each (List.range 25) (fun t f => (((t.cutReads f).disableQueues f).resetConfig f))
    let h := { s1.host with
      up := false, width := 0, rate := 0, flit := false, inL1 := false, aspmL1 := false, numVfs := 0, completionTimeout := ticksOfMs 50, held := [],
      ide := s1.host.ide.map (fun i => { i with keys := [], keySet := none }) }
    let s2 : State := { s1 with host := h }
    .next (((s2.count (hifBase + 8)).raise 0x0902 0x1F 0 [(8, cause)]).endFailedLoads)

/-- FUNCTION_LEVEL_RESET (R362): of a VF, or of the PF, which clears VF Enable and so resets every VF. -/
def execFunctionLevelReset (fn : Nat) (s : State) : Result :=
  if !s.host.up then .next s
  else if fn = 0 then
    let s1 := s.each (List.range 25) (fun t f => if f = 0 ∨ f ≤ s.host.numVfs then t.resetFn f else t)
    .next ({ s1 with host := { s1.host with numVfs := 0, aspmL1 := false, completionTimeout := ticksOfMs 50 } }.endFailedLoads)
  else .next ((s.resetFn fn).endFailedLoads)

end Sys2Proof.Machine
end

