-- ==== Sys2Proof/Machine/Tiles.lean ====
section
/-! DEFINITION. The spare tile, a well that leaves service, and tile self-test (06_tiles_windlass.md R218, R222 to R225;
11_security.md R388; 14_service.md R486). -/

namespace Sys2Proof.Machine

open Sys2Proof

/-! ## The substitution table (R222, R223, R228) -/

/-- Physical tiles of a well that carry no logical tile and are in service; a tile under test is not (log entry 12). -/
def Well.unmapped (x : Well) : List Nat :=
  (List.range 25).filter (fun k => !x.subst.contains k && (x.tiles.getD k {}).state != .failed && (x.tiles.getD k {}).state != .test)

/-! ## TILE_REMAP (R224, R388) -/

/-- Sections of the loaded image that a logical tile's contents come from: its record and its tables. -/
def Image.tileSections (g : Image) (rank lt : Nat) : List SectionInfo :=
  g.sections.filter (fun x => x.rank == rank && x.tile == lt && (x.stype == 0x105 || x.stype == 0x107))

/-- Read a section from the image area of a well: bytes, whether a bucket was uncorrectable, and the state after the reads. -/
def State.readSection (s : State) (w base : Nat) (x : SectionInfo) : Bytes × Bool × State :=
  let r := s.readBuckets 0 (ceilDiv x.size 64) (cisAddr w ((base + x.bucket) * 64))
  (r.1.take x.size, r.2.1, r.2.2)

/-- The first section that the check gate turns away, with the state after the reads. -/
def State.gateFails (s : State) (w base : Nat) (xs : List SectionInfo) : Option SectionInfo × State :=
  xs.foldl (fun (a : Option SectionInfo × State) x =>
    let r := a.2.readSection w base x
    (if a.1.isNone && (r.2.1 || crc32c r.1 != x.crc) then some x else a.1, r.2.2)) (none, s)

/-- A tile is marked FAILED (R218, R225). -/
def State.markFailed (s : State) (t : TileRef) : State :=
  let s1 := s.modTile t (fun x => { x with state := .failed, waiting := none, stopping := false })
  let s2 := s1.modWell t.well (fun w => { w with failed := insertNat t.tile w.failed })
  s2.setBits (substBase t.well + 0x10) t.tile t.tile 1

/-- The logical tile moves to another physical tile. -/
def State.mapTile (s : State) (w lt new : Nat) : State :=
  (s.modWell w (fun x => { x with subst := updAt x.subst lt (fun _ => new), remaps := min (x.remaps + 1) 255 })).storeSubstCrc w

/-- Fill the newly mapped tile from the image copy in the cistern. -/
def State.fillTile (s : State) (p w lt : Nat) : State :=
  let t : TileRef := ⟨w, s.physOf w lt⟩
  match ((s.part p).image.tileSections (s.rankOf w) lt).find? (fun x => x.stype == 0x105), s.imageArea w with
  | some x, some (base, _) => let r := s.readSection w base x; (r.2.2.modTile t (fun y => y.install r.1)).loadTables t
  | _, _ => s

/-- TILE_REMAP with the retire flag clear. -/
def State.remap (s : State) (w lt new : Nat) (k : Cmd) : State :=
  let p := s.owner w
  let old := s.physOf w lt
  let loaded := decide (p < 24) && (s.part p).image.state == .loaded
  let xs := if loaded then (s.part p).image.tileSections (s.rankOf w) lt else []
  let g := s.gateFails w (((s.imageArea w).map (fun a => a.1)).getD 0) xs
  match g.1 with
  | some x => (g.2.raise 0x0A0D (s.planOwner w) 0 [(8, w), (16, x.index)]).complete k .uncorrectable 0 0
  | none =>
    let s1 := ((g.2.markFailed ⟨w, old⟩).mapTile w lt new)
    let s2 := if loaded then s1.fillTile p w lt else s1
    (s2.raise 0x0505 (s.planOwner w) 0 [(8, w), (8, lt), (8, old), (8, new)]).complete k .ok 0 0

/-- TILE_REMAP with the retire flag set. -/
def State.retireWell (s : State) (w lt : Nat) (k : Cmd) : State :=
  let p := s.owner w
  let s1 := s.markFailed ⟨w, s.physOf w lt⟩
  let s2 := if p < 24 then s1.stopWindlasses p else s1
  let s3 := s2.raise 0x0509 (s.planOwner w) 0 ((8, w) :: (s2.well w).failed.map (fun t => (8, t)))
  (s3.wellOut w 4).complete k .ok 0 0

/-- TILE_REMAP (R223, R224): the command is refused, remaps to the unmapped tile, or retires the well. -/
def execTileRemap (c : CmdRef) (s : State) : Result :=
  match s.ready c 0x28 with
  | none => .next s
  | some k =>
    let w := bits k.p0 7 0
    let lt := bits k.p0 15 8
    let p := s.owner w
    if 24 ≤ w ∨ 24 ≤ lt then .next (s.complete k .format 0 0)
    else if p < 24 ∧ (s.round p).state.busy then .next (s.complete k .state 0 0)
    else
      let s1 := s.checkSubst w
      if bit k.p0 16 then .next (s1.retireWell w lt k)
      else match (s1.well w).unmapped.head? with
        | none => .next (s1.complete k .notReady 0 0)
        | some new => .next (s1.remap w lt new k)

/-! ## Self-test (R218, R225) -/

/-- Start the self-test of a tile: it runs only on a tile that carries no logical tile, is not FAILED and is not under test (R218, R225); elsewhere it is
ignored and counted. -/
def State.startSelfTest (s : State) (t : TileRef) (k : Option CmdRef) : State × Bool :=
  if s.logicalOf t = 0x1F ∧ (s.tile t).state ≠ .test ∧ (s.tile t).state ≠ .failed then
    (s.modTile t (fun x => { x with state := .test, selfTest := some (s.devtime, k) }), true)
  else (s, false)

/-- The word of TILE_SELFTEST. -/
def State.selfTestWord (s : State) (t : TileRef) : Nat := s.reg (tileBase t + 0x3C)

/-- TILE_SELFTEST (R225): the command ends with the test; on a tile that it is ignored on it ends at once, and the write is counted. -/
def execTileSelftest (c : CmdRef) (s : State) : Result :=
  match s.ready c 0x29 with
  | none => .next s
  | some k =>
    let t : TileRef := ⟨bits k.p0 7 0, bits k.p0 15 8⟩
    if 24 ≤ t.well ∨ 25 ≤ t.tile then .next (s.complete k .format 0 0)
    else
      let r := (s.startCmd c).startSelfTest t (some c)
      if r.2 then .next r.1 else .next ((s.discard 0 0 (tileBase t + 4) 4).complete k .ok (s.selfTestWord t) 0)

/-- TILE_SELFTEST_DONE (R218, R225): a self-test ends with its first failing test, 0 when it passed. A tile that was FAILED stays so. -/
def execTileSelftestDone (t : TileRef) (failing : Nat) (s : State) : Result :=
  match (s.tile t).selfTest with
  | none => .next s
  | some (_, cmd) =>
    if !s.alive ∨ (s.tile t).state ≠ .test then .next s
    else
      let was := (s.well t.well).failed.contains t.tile
      let s1 := s.setReg (tileBase t + 0x3C) (if failing = 0 then 3 * 2 ^ 30 else 2 ^ 31 + failing % 256)
      let s2 := s1.modTile t (fun x => { x with state := if was then .failed else .off, selfTest := none })
      let s3 := if failing = 0 then s2 else (s2.markFailed t).raise 0x0506 (s.planOwner t.well) 0 [(8, t.well), (8, t.tile), (8, failing)]
      match cmd.bind (fun r => s3.cmds.find? (fun k => k.is r)) with
      | some k => .next (s3.complete k .ok (s3.selfTestWord t) 0)
      | none => .next s3

end Sys2Proof.Machine
end

