-- ==== Sys2Proof/Machine/Mailbox.lean ====
section
/-! DEFINITION. The PF0 mailbox and the Lantus firmware (11_security.md R390 to R407). -/

namespace Sys2Proof.Machine

open Sys2Proof

/-! ## Requests (R407) -/

/-- Complete the mailbox request: LNT_MBX_STATUS and PF vector 0. -/
def State.mbxComplete (s : State) (st : Status) : State :=
  ((s.modLantus (fun l => { l with mbxBusy := false, mbxDone := true, mbxStatus := st })).noteSet (lntBase + 0x14) (2 ^ 30)).msix 0 0

/-- Length that a request's data must have, or the most it may have. -/
def mbxLength (op : Nat) : Nat :=
  if op = 2 then 64 else if op = 3 ∨ op = 4 then 4 else if op = 5 then 3732 else if op = 1 then 131072 else if op = 7 then 16384 else 0

/-- The status that LNT_MBX_LEN gives a request before anything is read; FW_LOAD's length is check 1 of its container. -/
def mbxLenStatus (op len : Nat) : Option Status :=
  if op = 1 then none
  else if op = 7 then if len = 0 then some .format else if 16384 < len then some .lengthExceeds else none
  else if len = mbxLength op then none else some .format

/-- Is a request allowed in the processor's state? -/
def mbxAllowed (op : Nat) (st : LantusState) : Bool := st == .running || (op == 1 && st == .romWait)

/-- Does the processor run its ROM or firmware, so that it serves the mailbox? -/
def State.mbxServed (s : State) : Bool := s.alive && s.lantus.state != .off

/-- What Lantus's DMA reads of host memory: nothing arrives without the link or over an Insecure stream (R354, R355, R380). -/
def State.lantusRead (s : State) (data : Option Bytes) : Option Bytes := if s.host.up && !s.streamBad 0 then data else none

/-- Run the mailbox request of an opcode: state, length, then the data that Lantus reads by DMA (none when the read fails). -/
def State.mailbox (s : State) (op : Nat) (data : Option Bytes) (k : Bytes → Result) : Result :=
  if !s.mbxServed ∨ !s.lantus.mbxBusy ∨ s.lantus.mbxOp ≠ op ∨ s.lantus.staged.isSome then .next s
  else
    let len := s.reg (lntBase + 0x10)
    if !mbxAllowed op s.lantus.state then .next (s.mbxComplete .state)
    else match mbxLenStatus op len with
    | some st => .next (s.mbxComplete st)
    | none =>
      match (if len = 0 ∨ (op = 1 ∧ 131072 < len) then some [] else s.lantusRead data) with
      | none => .next (s.mbxComplete .uncorrectable)
      | some b => if (op ≠ 1 ∨ len ≤ 131072) ∧ b.length ≠ len then .next s else k b

/-! ## Firmware (R401 to R405) -/

/-- Bits [63:56] of a serial. -/
def securityVersion (serial : Nat) : Nat := bits serial 63 56

/-- The sections of a firmware container: one FW_TEXT, at most one FW_DATA, nothing else, of no rank or tile. -/
def fwSectionsGood (b : Bytes) : Bool :=
  let l := sectionsIn b
  (l.filter (fun x => x.stype == 0x0201)).length == 1 && decide ((l.filter (fun x => x.stype == 0x0202)).length ≤ 1) &&
    l.all (fun x => (x.stype == 0x0201 || x.stype == 0x0202) && x.rank == 0xFF && x.tile == 0xFF)

/-- Checks 1 to 6 of R296 as R401 applies them. -/
def State.fwVerdict (s : State) (b : Bytes) (len : Nat) : Verdict :=
  let g := sigBlock b
  let h := headerOf b
  checkAll [
    headerVerdict b len 3 (s.reg 4 % 256) (fun t => t == 0x1F) 0,
    need (decide (3904 ≤ b.length) && sigHeaderGood g (fun k => k == 1)) .format 1,
    need (s.usable 1 && bit (s.slot 1).attrWord 0 && sigDigest g == (s.slot 1).value && sha3 (sigKey g) == sigDigest g) .refusedAccess 2,
    need (tableFault b).isNone .format 3,
    need (fwSectionsGood b) .format 3,
    crcVerdict b,
    need (signatureGood b) .format 5,
    need (decide (securityVersion h.serial ≤ 64) && decide (s.lantus.fwFloor ≤ securityVersion h.serial)) .state 6]

/-- A live update is refused while a load is in progress (R403). -/
def State.loadInProgress (s : State) : Bool := s.plan.loading.isSome || s.parts.any (fun x => x.image.loading.isSome)

/-- FW_LOAD (R401, R403): the container is checked; a good one is staged, and the ROM or the running firmware goes on to FW_VERIFY_DONE. -/
def execFwLoad (data : Option Bytes) (s : State) : Result :=
  s.mailbox 1 data (fun b =>
    if s.lantus.state = .running ∧ s.loadInProgress then .next (s.mbxComplete .state)
    else match s.fwVerdict b (s.reg (lntBase + 0x10)) with
    | .error (st, ch, _) => .next ((s.raise 0x0A02 0x1F 0 [(8, st.code), (8, ch)]).mbxComplete st)
    | .ok () => .next (s.modLantus (fun l => { l with
        state := if l.state = .romWait then .romVerify else .updating,
        staged := some { serial := (headerOf b).serial, digest := imageDigest b } })))

/-- FW_VERIFY_DONE (R402, R403): the staged firmware starts; a live update pauses the processor for at most 150 ms. -/
def execFwVerifyDone (pauseUs : Nat) (s : State) : Result :=
  match s.lantus.staged with
  | none => .next s
  | some f =>
    if !s.alive ∨ 150000 < pauseUs then .next s
    else
      let s1 := s.modLantus (fun l => { l with state := .running, fw := some f, staged := none })
      if s.lantus.state = .updating then
        let s2 := s1.setReg (lntBase + 0x30) (max (s.reg (lntBase + 0x30)) pauseUs)
        .next ((s2.raise 0x0A03 0x1F 0 [(64, (s.lantus.fw.map Firmware.serial).getD 0), (64, f.serial), (32, pauseUs)]).mbxComplete .ok)
      else .next ((s1.raise 0x0A01 0x1F 0 [(64, f.serial), (8, securityVersion f.serial)]).mbxComplete .ok)

/-- LANTUS_FETCH_ERROR (R405): an uncorrectable instruction or data fetch restarts the ROM. A mailbox request in progress ends with ABORTED (log entry 13). -/
def execLantusFetchError (_data : Bool) (s : State) : Result :=
  if !s.alive ∨ (s.lantus.state ≠ .running ∧ s.lantus.state ≠ .updating) then .next s
  else
    let s1 := ((s.modLantus (fun l => { l with state := .restarting, staged := none })).count (lntBase + 0x34)).raise 0x0A04 0x1F 0 [(8, 0)]
    .next (if s.lantus.mbxBusy then s1.mbxComplete .aborted else s1)

/-- FW_COPY_VERIFIED (R405): the copy in SRAM is resumed, or the processor waits for FW_LOAD. -/
def execFwCopyVerified (ok : Bool) (s : State) : Result :=
  if !s.alive ∨ s.lantus.state ≠ .restarting then .next s
  else if ok then .next (s.modLantus (fun l => { l with state := .running }))
  else .next ((s.modLantus (fun l => { l with state := .romWait })).raise 0x0A04 0x1F 0 [(8, 1)])

/-! ## Key slots (R393 to R395) -/

/-- Refusal of a KEY_PROGRAM descriptor. -/
def State.keyProgramRefusal (s : State) (b : Bytes) : Option Status :=
  let k := bits (rd b 0 4) 5 0
  let a := rd b 4 4
  let parent := attrParent a
  if !crcEndsOk b ∨ bits (rd b 0 4) 31 6 ≠ 0 ∨ !zeroAt b 0x28 20 ∨ bits a 28 22 ≠ 0 ∨ bits a 15 7 ≠ 0 ∨ bits a 31 30 ≠ 1 ∨ bits a 6 0 = 0 then some .format
  else if k < 8 ∨ bit a 1 ∨ s.lantus.debugEnabled then some .refusedAccess
  else if attrState (s.slot k).attrWord ≠ 0 ∨ (parent ≠ k ∧ !(decide (parent < k) && s.usable parent)) ∨
      (parent ≠ k ∧ 8 < (s.keyPath parent).length + 1) then some .state
  else none

/-- KEY_PROGRAM (R393, R395): the value, its CRC and the attribute copies are burned. -/
def execKeyProgram (data : Option Bytes) (s : State) : Result :=
  s.mailbox 2 data (fun b =>
    match s.keyProgramRefusal b with
    | some st => .next (s.mbxComplete st)
    | none =>
      let k := bits (rd b 0 4) 5 0
      let a := rd b 4 4
      let v := slice b 8 32
      let s1 := s.modLantus (fun l => { l with keys := updAt l.keys k (fun _ => { value := v, crc := crc32c v, otp := [a, a, a], attrs := [a, a, a] }) })
      .next ((s1.raise 0x0A05 0x1F 0 [(16, k), (32, a)]).mbxComplete .ok))

/-- Orphaned slots of a state. -/
def State.orphans (s : State) : List Nat := (List.range 64).filter (fun n => s.orphaned n)

/-- KEY_INVALIDATE (R394): bit 31 of each copy of a blank or valid slot is burned. -/
def execKeyInvalidate (data : Option Bytes) (s : State) : Result :=
  s.mailbox 3 data (fun b =>
    let k := bits (rd b 0 4) 5 0
    if attrState (s.slot k).attrWord = 2 then .next (s.mbxComplete .ok)
    else
      let s1 := s.modLantus (fun l => { l with keys := updAt l.keys k (fun x => { x with
        otp := x.otp.map (fun a => a ||| 2 ^ 31), attrs := x.attrs.map (fun a => a ||| 2 ^ 31) }) })
      let n := (s1.orphans.filter (fun j => !s.orphans.contains j)).length
      .next ((s1.raise 0x0A06 0x1F 0 [(16, k), (32, n)]).mbxComplete .ok))

/-- FW_FLOOR_ADVANCE (R404). -/
def execFwFloorAdvance (data : Option Bytes) (s : State) : Result :=
  s.mailbox 4 data (fun b =>
    let n := rd b 0 4
    let v := securityVersion ((s.lantus.fw.map Firmware.serial).getD 0)
    if s.lantus.fwFloor < n ∧ n ≤ 64 ∧ n ≤ v then
      .next (((s.modLantus (fun l => { l with fwFloor := n })).raise 0x0A0C 0x1F 0 [(8, n)]).mbxComplete .ok)
    else .next (s.mbxComplete .state))

/-! ## Debug and certificates (R398, R399, R406) -/

/-- Digest of the identity key: SHA3-256 of the public key; zero without identity (log entry 13). -/
def State.identityDigest (s : State) : Bytes := if s.lantus.identityPk.isEmpty then zeros 32 else sha3 s.lantus.identityPk

/-- The slot whose value is the digest of a debug token's key: slot 1, or a usable owner slot with image_verify and debug_usable. -/
def State.debugSigner (s : State) (digest : Bytes) : Option Nat :=
  (List.range 64).find? (fun n => s.usable n && (s.slot n).value == digest &&
    (n == 1 || (decide (8 ≤ n) && bit (s.slot n).attrWord 0 && bit (s.slot n).attrWord 29)))

/-- DEBUG_UNLOCK (R398): a token signed over the identity and DBG_NONCE arms debug for the next device reset. -/
def execDebugUnlock (data : Option Bytes) (s : State) : Result :=
  s.mailbox 5 data (fun b =>
    let pk := b.take 1312
    let msg := sha3 (ascii "OSTUSO DEBUG" ++ s.identityDigest ++ s.lantus.dbgNonce)
    match s.debugSigner (sha3 pk) with
    | none => .next (s.mbxComplete .refusedAccess)
    | some k =>
      if s.lantus.debugDisabled then .next (s.mbxComplete .refusedAccess)
      else if !Config.mldsaVerify pk msg (ascii "OSTUSO DEBUG") (b.drop 1312) then .next (s.mbxComplete .format)
      else if leNat s.lantus.dbgNonce = 0 then .next (s.mbxComplete .notReady)
      else .next (((s.modLantus (fun l => { l with debugArmed := true })).raise 0x0A0B 0x1F 0 [(16, k)]).mbxComplete .ok))

/-- DEBUG_DISABLE (R399): the debug-disable fuse is burned. -/
def execDebugDisable (s : State) : Result :=
  s.mailbox 6 (some []) (fun _ => .next ((s.modLantus (fun l => { l with debugDisabled := true })).mbxComplete .ok))

/-- CERT_INSTALL (R406): a chain whose leaf key is the identity key becomes SPDM slot 0. -/
def execCertInstall (data : Option Bytes) (s : State) : Result :=
  s.mailbox 7 data (fun b =>
    if s.lantus.identityPk.isEmpty ∨ Config.leafPublicKey b ≠ s.lantus.identityPk then .next (s.mbxComplete .keyMismatch)
    else .next ((s.modLantus (fun l => { l with certChain := some b })).mbxComplete .ok))

end Sys2Proof.Machine
end

