-- ==== Sys2Proof/Machine/Report.lean ====
section
/-! DEFINITION. Attestation reports and the SPDM responder (10_host_interface.md R378, R379; 11_security.md R408 to R411). -/

namespace Sys2Proof.Machine

open Sys2Proof

/-! ## The report (R408, R409) -/

/-- Bits of an entry in any class column of row 31 of a target's table. -/
def State.operatorGrant (s : State) (target : Nat) : Nat := (List.range 8).foldl (fun (a : Nat) c => a ||| s.entry target 31 c) 0

/-- operator_reach of a set of wells (R409). -/
def State.operatorReach (s : State) (ws : List Nat) : Nat :=
  let any := fun (off need : Nat) => ws.any (fun w => decide (s.operatorGrant (4 * w + off) &&& need ≠ 0))
  b2n (any 0 1) + 2 * b2n (any 0 2) + 4 * b2n (any 1 1) + 8 * b2n (any 1 2) + 16 * b2n (any 2 3) + 32 * b2n (any 3 1) + 64 * b2n (any 3 2)

/-- access_digest of a set of wells (R409). -/
def State.accessDigest (s : State) (ws : List Nat) : Bytes :=
  sha3 ((ws.flatMap (fun w => (List.range 4).flatMap (fun k => s.access.tables.getD (4 * w + k) []))) ++
    (List.range 3).flatMap (fun k => s.access.tables.getD (96 + k) []))

/-- A digest held in three copies (R261, R388). -/
def votedDigest (l : List Bytes) : Bytes := fit ((vote (l.getD 0 []) (l.getD 1 []) (l.getD 2 [])).getD []) 32

/-- The 508 bytes of a report body before its CRC: for a partition, or for the device when `p` is 0x1F. Fields of a partition are zero in a
device report, and what an absent image, plan or record would give is zero. -/
def State.reportFields (s : State) (p : Nat) (kex : Bool) (nonce ekDigest : Bytes) : Bytes :=
  let dev := decide (24 ≤ p)
  let x := s.part p
  let loaded := !dev && x.image.state == .loaded
  let ws := if dev then [] else s.wellsOf p
  let fw := s.lantus.fw
  let flags := b2n s.lantus.debugEnabled + 2 * b2n dev + 4 * b2n kex + 8 * b2n loaded
  toLE 0x61 1 ++ toLE 1 1 ++ toLE flags 2 ++ toLE p 1 ++ toLE s.lantus.fwFloor 1 ++ toLE (s.operatorReach ws) 1 ++ zeros 1 ++ toLE 4244 4 ++
    toLE 0x2416 2 ++ toLE (s.reg 4 % 256) 1 ++ zeros 1 ++ toLE s.devtime 8 ++ zeros 8 ++ fit nonce 32 ++ s.identityDigest ++
    fit ((fw.map Firmware.digest).getD []) 32 ++ toLE ((fw.map Firmware.serial).getD 0) 8 ++
    toLE (if s.plan.inForce then s.plan.serial else 0) 8 ++ votedDigest s.plan.digestCopies ++
    toLE (if loaded then x.image.serial else 0) 8 ++ toLE (ws.foldl (fun a w => a + 2 ^ w) 0) 3 ++ toLE (if loaded then x.image.ckptSlot else 0) 1 ++ zeros 4 ++
    toLE (if dev then 0 else s.reg64 (ctxBase p + 8)) 8 ++ zeros 8 ++ (if loaded then votedDigest x.image.digestCopies else zeros 32) ++
    (if dev then zeros 32 else s.accessDigest ws) ++ toLE s.slotStates 16 ++ fit ekDigest 32 ++
    fit (if dev then [] else ((s.record p).map PlanRecord.tenantKey).getD []) 32 ++ zeros 156

/-- The 512-byte body. -/
def State.reportBody (s : State) (p : Nat) (kex : Bool) (nonce ekDigest : Bytes) : Bytes := sealCrc (s.reportFields p kex nonce ekDigest ++ zeros 4)

/-- A signed report with 32 bytes of hedge (R410): body, public key and signature. -/
def State.signedReport (s : State) (p : Nat) (kex : Bool) (nonce ekDigest hedge : Bytes) : Bytes :=
  let m := s.reportBody p kex nonce ekDigest ++ fit s.lantus.identityPk 1312
  m ++ fit (Config.mldsaSign s.lantus.identitySk (sha3 m) (ascii "OSTUSO REPORT") hedge) 2420

/-- A report is signed: the hedge is drawn from the Lantus DRBG, and ATT_COUNT counts. -/
def State.sign (s : State) (p : Nat) (kex : Bool) (nonce ekDigest : Bytes) : Option (Bytes × State) :=
  match s.generate 24 with
  | (none, _) => none
  | (some r, s1) => some (s1.signedReport p kex nonce ekDigest (r.take 32), (s1.count (keyBase + 0x20)).repairWords p)

/-- A request ends without entropy (R410, R417): kind 1 a signature, 2 a key agreement. -/
def State.noEntropyEnd (s : State) (p kind : Nat) : State := (s.count (keyBase + 0x24)).raise 0x0A0A p 0 [(8, p), (8, kind)]

/-! ## ATTEST_REPORT (R410, R411) -/

/-- Nonce of the command. -/
def attestNonce (c : Cmd) : Bytes := toLE c.p1 8 ++ toLE c.p2 8 ++ zeros 16

/-- Sign a pending report and write it to host memory. -/
def State.finishReport (s : State) (c : Cmd) : Option State :=
  (s.sign c.part false (attestNonce c) []).map (fun (r : Bytes × State) => (r.2.hostWrite c.fn c.addr r.1).complete c .ok 4244 0)

/-- ATTEST_REPORT (R411): signed at once when the Lantus DRBG can give output; otherwise the request waits. -/
def execAttestReport (c : CmdRef) (s : State) : Result :=
  match s.ready c 0x38 with
  | none => .next s
  | some k =>
    if 24 ≤ k.part ∧ k.part ≠ 0x1F then .next (s.complete k .notReady 0 0)
    else if k.length < 4244 then .next (s.complete k .lengthExceeds 0 0)
    else if !s.usable 0 then .next (s.complete k .refusedAccess 0 0)
    else match s.finishReport k with
    | some t => .next t
    | none => .next ((s.startCmd c).modLantus (fun l => { l with reports := l.reports ++ [⟨c, s.devtime⟩] }))

/-- A waiting report request and its command. -/
def State.waitingReport (s : State) (c : CmdRef) : Option (ReportReq × Cmd) :=
  match s.lantus.reports.find? (fun r => r.cmd == c), s.cmds.find? (fun k => k.is c) with
  | some r, some k => some (r, k)
  | _, _ => none

/-- The request no longer waits. -/
def State.dropReport (s : State) (c : CmdRef) : State := s.modLantus (fun l => { l with reports := l.reports.filter (fun r => r.cmd != c) })

/-- REPORT_SIGN (R410): a waiting report is signed once the DRBG can give output. -/
def execReportSign (c : CmdRef) (s : State) : Result :=
  match s.waitingReport c with
  | none => .next (s.dropReport c)
  | some (_, k) =>
    if !s.serves then .next s
    else if !s.usable 0 then .next ((s.dropReport c).complete k .refusedAccess 0 0)
    else match (s.dropReport c).finishReport k with
    | some t => .next t
    | none => .next s

/-- REPORT_ENTROPY_TIMEOUT (R410): 50 ms without entropy. -/
def execReportEntropyTimeout (c : CmdRef) (s : State) : Result :=
  match s.waitingReport c with
  | none => .next (s.dropReport c)
  | some (r, k) =>
    if !s.serves ∨ s.devtime < r.time + ticksOfMs 50 ∨ s.seeded 24 then .next s
    else .next (((s.dropReport c).noEntropyEnd k.part 1).complete k .noEntropy 0 0)

/-! ## DOE and SPDM (R378, R379, R411) -/

/-- Does a function's DOE mailbox take a request: the link is up, the function exists, and it works on no other? -/
def State.doeReady (s : State) (f : Nat) : Bool :=
  let busy := fun (x : Session) => x.pendingStart.any (fun e => e.1 == f) || x.inner.any (fun e => e.2.1 == f)
  s.serves && s.host.up && (f == 0 || decide (f ≤ s.host.numVfs)) && !busy s.opSession && !s.parts.any (fun x => busy x.session)

/-- Answer an SPDM request. -/
def State.spdmAnswer (s : State) (f : Nat) (r : SpdmReply) : Result := if s.doeReady f then .next (s.emit (.spdm f r)) else .next s

/-- DOE_DISCOVERY (R378): vendor, type and next index of the data object type at an index; the object's layout is that of the base
specification (log entry 6). -/
def execDoeDiscovery (fn index : Nat) (s : State) : Result :=
  let word := match index with
    | 0 => 0x0001 + 1 * 2 ^ 24
    | 1 => 0x0001 + 1 * 2 ^ 16 + 2 * 2 ^ 24
    | 2 => 0x1D7E + 1 * 2 ^ 16
    | _ => 0xFFFF
  if s.doeReady fn then .next (s.emit (.doe fn (toLE word 4))) else .next s

/-- GET_VERSION (R379): 1.2 and 1.3. -/
def execGetVersion (fn : Nat) (s : State) : Result := s.spdmAnswer fn (.versions [0x12, 0x13])

/-- GET_CAPABILITIES (R379). -/
def execGetCapabilities (fn : Nat) (s : State) : Result := s.spdmAnswer fn .capabilities

/-- NEGOTIATE_ALGORITHMS (R379): hash SHA3-256 and signature ML-DSA-44, as the extended algorithm 0x0001 of vendor 0x1D7E. -/
def execNegotiateAlgorithms (fn : Nat) (s : State) : Result := s.spdmAnswer fn (.algorithms 0x08 0x1D7E0001)

/-- GET_DIGESTS (R379, R406): SHA3-256 of the chain in slot 0, when one is installed. -/
def execGetDigests (fn : Nat) (s : State) : Result :=
  s.spdmAnswer fn (.digests (match s.lantus.certChain with | some c => [sha3 c] | none => []))

/-- GET_CERTIFICATE (R379, R406): a portion of the chain and what remains after it; an error (InvalidRequest) when there is none. -/
def execGetCertificate (fn offset length : Nat) (s : State) : Result :=
  match s.lantus.certChain with
  | some c => if offset < c.length then s.spdmAnswer fn (.certificate (slice c offset length) (c.length - offset - length)) else s.spdmAnswer fn (.error 0x01)
  | none => s.spdmAnswer fn (.error 0x01)

/-- CHALLENGE (R379, R394, R410, R423): signed with the identity key over the transcript of the SPDM specification, which with the nonce is a free value
here; without a usable slot 0 or entropy the answer is an error (Unspecified). -/
def execChallenge (fn : Nat) (nonce : Bytes) (s : State) : Result :=
  let p := tagOfFn fn
  if !s.doeReady fn then .next s
  else if !s.usable 0 then .next (s.emit (.spdm fn (.error 0x05)))
  else match s.generate 24 with
  | (none, _) => .next ((s.raise 0x0A0A p 0 [(8, p), (8, 1)]).emit (.spdm fn (.error 0x05)))
  | (some r, s1) =>
    let d := s1.draw
    let e := d.2.draw
    let sig := fit (Config.mldsaSign s.lantus.identitySk (toLE d.1 32 ++ nonce) [] (r.take 32)) 2420
    .next (e.2.emit (.spdm fn (.challengeAuth (match s.lantus.certChain with | some c => sha3 c | none => zeros 32) (toLE e.1 32) sig)))

/-- The measurement blocks of a responder (R411). -/
def State.measurementBlocks (s : State) (f : Nat) : List (Nat × Bytes) :=
  let p := tagOfFn f
  let image := fun (k : Nat) =>
    (4 + k, if (s.part k).image.state = .loaded then votedDigest (s.part k).image.digestCopies else zeros 32)
  [(1, fit ((s.lantus.fw.map Firmware.digest).getD []) 32), (2, votedDigest s.plan.digestCopies), (3, slice (s.reportBody p false [] []) 2 6)] ++
    (if f = 0 then (List.range 24).map image else [image (f - 1)])

/-- GET_MEASUREMENTS (R411): index 0 asks for the number of blocks, 0xFF for all, any other for one. -/
def execGetMeasurements (fn index : Nat) (s : State) : Result :=
  let l := s.measurementBlocks fn
  if index = 0 then s.spdmAnswer fn (.measurements l.length [])
  else if index = 0xFF then s.spdmAnswer fn (.measurements l.length l)
  else match l.find? (fun e => e.1 == index) with
  | some e => s.spdmAnswer fn (.measurements 1 [e])
  | none => s.spdmAnswer fn (.error 0x01)

/-- UNSUPPORTED_REQUEST (R379): any other SPDM request is answered with ERROR UnsupportedRequest. -/
def execUnsupportedRequest (fn _code : Nat) (s : State) : Result := s.spdmAnswer fn (.error 0x07)

end Sys2Proof.Machine
end

