-- ==== Sys2Proof/Machine/Session.lean ====
section
/-! DEFINITION. Tenant and operator sessions, and the IDE_KM and TDISP requests they carry (10_host_interface.md R378, R380, R381; 11_security.md
R412 to R417). -/

namespace Sys2Proof.Machine

open Sys2Proof

/-! ## Messages (R412, R413) -/

/-- The header of a message from Ostuso. -/
def sesHeader (mtype p status length sid seq : Nat) : Bytes :=
  sealCrc (toLE mtype 1 ++ toLE 1 1 ++ toLE p 1 ++ toLE status 1 ++ toLE length 4 ++ toLE sid 8 ++ toLE seq 4 ++ zeros 4 ++ zeros 32 ++ zeros 4 ++ zeros 4)

/-- The session that a message names: 0 to 23, or 24 for the operator's; none for any other value. -/
def sesIndex (msg : Bytes) : Option Nat :=
  let p := rd msg 2 1
  if p < 24 then some p else if p = 0x1F then some 24 else none

/-- May a function send a message for a session (R413)? -/
def sesAllowed (fn i : Nat) : Bool := fn == 0 || fn == i + 1

/-- Is the header good for a message of a length: CRC, version and length? -/
def sesHeaderGood (msg : Bytes) (short long : Nat) : Bool :=
  crcEndsOk (msg.take 64) && rd msg 1 1 == 1 && rd msg 4 4 == msg.length && decide (short ≤ msg.length) && decide (msg.length ≤ long)

/-- The session_id of a message. -/
def sesId (msg : Bytes) : Nat := rd msg 8 8

/-- Send an ERROR for a session: it is the session's last status. -/
def State.sesError (s : State) (fn i : Nat) (msg : Bytes) (st : Status) : State :=
  (s.modSession i (fun x => { x with lastStatus := st })).emit (.doe fn (sesHeader 0x7F (drbgPart i) st.code 64 (sesId msg) 0))

/-- Send a reply of 64 bytes. -/
def State.sesReply (s : State) (fn i mtype sid : Nat) (body : Bytes) : State :=
  s.emit (.doe fn (sesHeader mtype (drbgPart i) 0 (64 + body.length) sid 0 ++ body))

/-- Take a session message of a type: the mailbox is free, a longer object than 4,096 DW is discarded with the error bit (R378), and a session that the
function may not name is answered with REFUSED_ACCESS (R413). -/
def State.sesTake (s : State) (fn mtype : Nat) (msg : Bytes) (k : Nat → Result) : Result :=
  if !s.doeReady fn then .next s
  else if 16376 < msg.length then .next (s.modFn fn (fun f => { f with doeError := true }))
  else if rd msg 0 1 ≠ mtype then .next s
  else match sesIndex msg with
  | none => .next (s.emit (.doe fn (sesHeader 0x7F (rd msg 2 1) Status.refusedAccess.code 64 (sesId msg) 0)))
  | some i => if sesAllowed fn i then k i else .next (s.sesError fn i msg .refusedAccess)

/-! ## KEX_START and KEX_REPORT (R417) -/

/-- Drop the pending key pair: the session is NONE. -/
def State.sesNone (s : State) (i : Nat) : State := s.modSession i (fun x => { lastStatus := x.lastStatus })

/-- What answers a KEX_START before entropy is asked for: slot 0, then the partition and its image (R417). -/
def State.kexRefusal (s : State) (i : Nat) : Option Status :=
  if !s.usable 0 then some .refusedAccess
  else if i < 24 ∧ !(s.formed i && (s.part i).image.state == .loaded) then some .notReady
  else none

/-- Generate the key pair, sign the report and send KEX_REPORT, if both DRBGs can give output: 64 bytes of the session's DRBG, then the hedge of the Lantus
DRBG. The session_id is a free value, not zero. -/
def State.kexReport (s : State) (fn i : Nat) (start : Bytes) : Option State :=
  match s.generate i with
  | (none, _) => none
  | (some dz, s1) =>
    let kp := Config.mlkemKeyGen dz
    match s1.sign (drbgPart i) true (slice start 0x18 32) (sha3 kp.1) with
    | none => none
    | some (rep, s2) =>
      let d := s2.draw
      let sid := d.1 % (2 ^ 64 - 1) + 1
      let body := rep ++ fit kp.1 1184
      let full := sesHeader 2 (drbgPart i) 0 (64 + body.length) sid 0 ++ body
      let s3 := d.2.modSession i (fun x => { state := .started, id := sid, dk := kp.2, kexStart := start, kexReport := full, startTime := s.devtime, lastStatus := x.lastStatus })
      some (s3.emit (.doe fn full))

/-- Is a DRBG that a key agreement needs FATAL, so that the answer is NO_ENTROPY (R440)? -/
def State.kexFatal (s : State) (i : Nat) : Bool := (s.drbg i).state == .fatal || (s.drbg 24).state == .fatal

/-- Go on with a KEX_START: a refusal, the report, or none while it waits for entropy. -/
def State.kexGo (s : State) (fn i : Nat) (msg : Bytes) : Option State :=
  match s.kexRefusal i with
  | some st => some (s.sesError fn i msg st)
  | none => if s.kexFatal i then some ((s.noEntropyEnd (drbgPart i) 2).sesError fn i msg .noEntropy) else s.kexReport fn i msg

/-- KEX_START (R413, R417). -/
def execKexStart (fn : Nat) (msg : Bytes) (s : State) : Result :=
  s.sesTake fn 1 msg (fun i =>
    if !sesHeaderGood msg 64 64 then .next (s.sesError fn i msg .format)
    else if (s.session i).state = .active then .next (s.sesError fn i msg .state)
    else
      let s1 := s.sesNone i
      match s1.kexGo fn i msg with
      | some t => .next t
      | none => .next (s1.modSession i (fun x => { x with pendingStart := some (fn, msg, s.devtime) })))

/-- KEX_REPORT (R417): a KEX_START that waited goes on once both DRBGs can give output. -/
def execKexReport (p : Nat) (s : State) : Result :=
  match (s.session p).pendingStart with
  | none => .next s
  | some (fn, msg, _) =>
    if !s.serves then .next s
    else match (s.modSession p (fun x => { x with pendingStart := none })).kexGo fn p msg with
    | some t => .next t
    | none => .next s

/-- KEX_ENTROPY_TIMEOUT (R417): 50 ms without entropy. -/
def execKexEntropyTimeout (p : Nat) (s : State) : Result :=
  match (s.session p).pendingStart with
  | none => .next s
  | some (fn, msg, t) =>
    if !s.serves ∨ s.devtime < t + ticksOfMs 50 ∨ (s.seeded p ∧ s.seeded 24) then .next s
    else .next (((s.sesNone p).noEntropyEnd (drbgPart p) 2).sesError fn p msg .noEntropy)

/-- SESSION_START_EXPIRY (R417): 10 s since KEX_REPORT; the key pair is zeroed. -/
def execSessionStartExpiry (p : Nat) (s : State) : Result :=
  if !s.alive ∨ (s.session p).state ≠ .started ∨ s.devtime < (s.session p).startTime + ticksOfMs 10000 then .next s
  else .next (s.sesNone p)

/-! ## KEX_FINISH (R414, R415) -/

/-- Does a tenant key have the digest that the session asks for? -/
def State.tenantGood (s : State) (i : Nat) (digest : Bytes) : Bool :=
  if i = 24 then (List.range 64).any (fun n => decide (8 ≤ n) && s.usable n && bit (s.slot n).attrWord 0 && (s.slot n).value == digest)
  else match s.record i with | some r => r.tenantKey == digest | none => false

/-- The first step of R414 that a KEX_FINISH fails, with its status. -/
def State.kexFinishFails (s : State) (i : Nat) (msg : Bytes) : Option (Status × Nat) :=
  let x := s.session i
  if !sesHeaderGood msg 4884 4884 ∨ x.state ≠ .started ∨ sesId msg ≠ x.id then some (.format, 1)
  else if !s.tenantGood i (sha3 (slice msg 1152 1312)) then some (.refusedAccess, 2)
  else if !Config.mldsaVerify (slice msg 1152 1312) (sha3 (x.kexStart ++ x.kexReport ++ msg.take 2464)) (ascii "OSTUSO KEX") (slice msg 2464 2420) then
    some (.format, 3)
  else none

/-- K_sess and the transcript digest of a good KEX_FINISH (R414). -/
def Session.agree (x : Session) (msg : Bytes) : Bytes × Bytes :=
  let t2 := sha3 (x.kexStart ++ x.kexReport ++ msg)
  (kmac256 (Config.mlkemDecaps x.dk (slice msg 64 1088)) t2 32 (ascii "OSTUSO SESSION"), t2)

/-- The session with the keys of R415; the operator's has K_ide alone. K_sess, ss and the decapsulation key are gone. -/
def State.sessionKeys (s : State) (i : Nat) (k : Bytes) (x : Session) : Session :=
  let p := drbgPart i
  let own := fun (bs : Bytes) => if i = 24 then [] else bs
  { state := .active, id := x.id, lastStatus := x.lastStatus,
    kIde := kmac256 k (s.binding 5 p) 32 (ascii "OSTUSO IDE"),
    kLink := own (kmac256 k (s.binding 4 p) 32 (ascii "OSTUSO LINK")),
    kMem := own (kmac256 k (s.binding 6 p) 64 (ascii "OSTUSO XTS")),
    kShare := own (kmac256 k [] 32 (ascii "OSTUSO SHARE KEY")) }

/-- Install a partition's memory key in its wells: what their LPDDR5X devices held is unreadable (R251). -/
def State.installMemKey (s : State) (i : Nat) : State :=
  if i = 24 then s
  else s.each (s.wellsOf i) (fun t w => t.modWell w (fun x => { x with lpxKey := (s.session i).kMem, lpx := [], lpxWritten := [], lpxMerge := [] }))

/-- KEX_FINISH (R414, R415, R417): the first failed step is answered with ERROR and a STARTED session ends; else the keys exist. -/
def execKexFinish (fn : Nat) (msg : Bytes) (s : State) : Result :=
  s.sesTake fn 3 msg (fun i =>
    match s.kexFinishFails i msg with
    | some (st, step) =>
      let s1 := if (s.session i).state = .started then s.sesNone i else s
      .next ((s1.raise 0x0A08 (drbgPart i) 0 [(8, drbgPart i), (8, st.code), (8, step)]).sesError fn i msg st)
    | none =>
      let x := s.session i
      let a := x.agree msg
      let s1 := (s.modSession i (fun y => s.sessionKeys i a.1 y)).installMemKey i
      .next (((s1.raise 0x0A07 (drbgPart i) 0 [(8, drbgPart i), (64, x.id)]).repairWords i).sesReply fn i 4 x.id
        (kmac256 a.1 a.2 32 (ascii "OSTUSO CONFIRM"))))

/-! ## END_SESSION (R417) -/

/-- END_SESSION: an ACTIVE partition session ends with a partition reset. -/
def execEndSession (fn : Nat) (msg : Bytes) (s : State) : Result :=
  s.sesTake fn 7 msg (fun i =>
    let x := s.session i
    if !sesHeaderGood msg 64 64 then .next (s.sesError fn i msg .format)
    else if x.state = .none then .next (s.sesError fn i msg .state)
    else if sesId msg ≠ x.id then .next (s.sesError fn i msg .format)
    else
      let s1 := if x.state = .active ∧ i < 24 then s.partitionReset i 0 0 none none else s.endSession i 0
      .next (s1.sesReply fn i 8 x.id []))

/-! ## SEC_MSG (R416) -/

/-- The initialisation vector of a direction: 0 SEC_MSG, 1 SEC_REPLY. -/
def sesIv (seq dir : Nat) : Bytes := toLE seq 4 ++ toLE dir 1 ++ zeros 7

/-- Open a SEC_MSG of a session: the plaintext, when seq, session_id and tag are good. -/
def Session.openMsg (x : Session) (msg : Bytes) : Option Bytes :=
  let seq := rd msg 0x10 4
  if sesHeaderGood msg 84 16376 ∧ sesId msg = x.id ∧ seq = x.seqIn + 1 then
    gcmOpen x.kIde (sesIv seq 0) (msg.take 64) (slice msg 64 (msg.length - 80)) (msg.drop (msg.length - 16))
  else none

/-- SEC_MSG (R416): an accepted message hands its IDE_KM or TDISP request on; a bad one is answered with ERROR and otherwise ignored. -/
def execSecMsg (fn : Nat) (msg : Bytes) (s : State) : Result :=
  s.sesTake fn 5 msg (fun i =>
    let x := s.session i
    if x.state ≠ .active then .next (s.sesError fn i msg .state)
    else match x.openMsg msg with
    | none => .next (s.sesError fn i msg .format)
    | some pt =>
      let s1 := s.modSession i (fun y => { y with seqIn := y.seqIn + 1 })
      let proto := rd pt 0 4
      if proto = 1 ∨ proto = 2 then .next (s1.modSession i (fun y => { y with inner := some (proto, fn, pt.drop 4) }))
      else .next (s1.sesError fn i msg .format))

/-- Send a SEC_REPLY with a protocol's answer; the request is done. -/
def State.secReply (s : State) (i proto fn : Nat) (answer : Bytes) : State :=
  let x := s.session i
  let seq := x.seqOut + 1
  let pt := toLE proto 4 ++ answer
  let h := sesHeader 6 (drbgPart i) 0 (80 + pt.length) x.id seq
  let c := gcmSeal x.kIde (sesIv seq 1) h pt
  (s.modSession i (fun y => { y with seqOut := seq, inner := none })).emit (.doe fn (h ++ c.1 ++ c.2))

/-! ## IDE_KM (R380) -/

/-- Number of a key in a stream: its set and direction. -/
def ideKeyIndex (keySet : Nat) (tx : Bool) : Nat := 2 * keySet + b2n tx

/-- What an IDE_KM message does to its stream: a key set goes into use when both its keys have been programmed, which also ends Insecure. -/
def IdeStream.serve (x : IdeStream) (m : IdeKm) : IdeStream :=
  match m with
  | .keyProg _ k tx key => { x with keys := put (ideKeyIndex (k % 2) tx) key x.keys }
  | .keySetGo _ k =>
    if (look (ideKeyIndex (k % 2) true) x.keys).isSome ∧ (look (ideKeyIndex (k % 2) false) x.keys).isSome then { x with keySet := some (k % 2), insecure := false } else x
  | .keySetStop _ k => if x.keySet = some (k % 2) then { x with keySet := none } else x
  | .query _ => x

/-- The stream that an IDE_KM message names. -/
def ideStreamOf (m : IdeKm) : Nat := match m with | .keyProg k _ _ _ => k | .keySetGo k _ => k | .keySetStop k _ => k | .query k => k

/-- Does a session carry keys for a stream: the operator's for the link stream, a partition's for the selective stream of its VF (R380, R415)? -/
def streamOfSession (i stream : Nat) : Bool := if i = 24 then stream == 0 else stream == i + 1

/-- IDE_KM (R380, R416): only inside SEC_MSG; keys go straight to the IDE engines. -/
def execIdeKm (p : Nat) (m : IdeKm) (s : State) : Result :=
  match (s.session p).inner with
  | some (1, fn, req) =>
    if !s.serves then .next s
    else
      let k := ideStreamOf m
      let s1 := if streamOfSession p k then { s with host := { s.host with ide := updAt s.host.ide k (fun x => x.serve m) } } else s
      .next (s1.secReply p 1 fn (Config.ideKmReply req))
  | _ => .next s

/-! ## TDISP (R381, R383) -/

/-- The code of an answer. -/
def TdispReply.code : TdispReply → Nat
  | .done => 0
  | .error c => c
  | .report _ _ _ => 0

/-- May a session act on an interface: a partition on its own VF, the operator on any (R415)? -/
def tdiOfSession (i fn : Nat) : Bool := decide (1 ≤ fn) && decide (fn ≤ 24) && (i == 24 || fn == i + 1)

/-- Serve a TDISP request inside SEC_MSG: `f` gives the new state of the TDI and the answer. -/
def State.tdisp (s : State) (p fn : Nat) (f : TdiState → TdiState × TdispReply) : Result :=
  match (s.session p).inner with
  | some (2, via, req) =>
    if !s.serves then .next s
    else
      let r := if tdiOfSession p fn then f (s.fn fn).tdi else ((s.fn fn).tdi, .error 0x0101)
      .next (((s.modFn fn (fun x => { x with tdi := r.1 })).secReply p 2 via (Config.tdispReply req r.2.code)).emit (.tdisp fn r.2))
  | _ => .next s

/-- LOCK_INTERFACE_REQUEST (R381, R383): CONFIG_UNLOCKED to CONFIG_LOCKED; it fails in the tick of a BAR change. -/
def execLockInterfaceRequest (p fn : Nat) (s : State) : Result :=
  s.tdisp p fn (fun st =>
    if st ≠ .unlocked then (st, .error 0x0004)
    else if (s.fn fn).barChange = some s.devtime then (st, .error 0x0104) else (.locked, .done))

/-- START_INTERFACE_REQUEST (R381): CONFIG_LOCKED to RUN. -/
def execStartInterfaceRequest (p fn : Nat) (s : State) : Result :=
  s.tdisp p fn (fun st => if st = .locked then (.run, .done) else (st, .error 0x0004))

/-- STOP_INTERFACE_REQUEST (R381): back to CONFIG_UNLOCKED. -/
def execStopInterfaceRequest (p fn : Nat) (s : State) : Result := s.tdisp p fn (fun _ => (.unlocked, .done))

/-- GET_DEVICE_INTERFACE_REPORT (R381): BAR 0 and BAR 2 non-prefetchable, the MSI-X table locked; of a TDI in CONFIG_LOCKED or RUN. -/
def execGetDeviceInterfaceReport (p fn : Nat) (s : State) : Result :=
  s.tdisp p fn (fun st => if st = .locked ∨ st = .run then (st, .report fn [0, 2] true) else (st, .error 0x0004))

end Sys2Proof.Machine
end

