-- ==== Sys2Proof/Machine/Power.lean ====
section
/-! DEFINITION. Power states, the wake sequence, core voltage and the root clock; COMMAND_FETCH, which can end an entry (13_power_clocks.md R448 to R460). -/

namespace Sys2Proof.Machine

open Sys2Proof

/-- The code of a power state (R473). -/
def PState.code : PState → Nat
  | .p0 => 0 | .p1 => 1 | .p2 => 2 | .p3 => 3

/-- The power state of a code. -/
def pstateOf (n : Nat) : PState := if n = 0 then .p0 else if n = 1 then .p1 else if n = 2 then .p2 else .p3

/-- Does DEVTIME advance (R450): with the control clock, and in P2 from the core reference? -/
def State.timeRuns (s : State) : Bool := (s.life == .running || s.life == .rom) && (s.power.pllLocked || s.power.state == .p2)

/-! ## Core voltage (R451, R452) -/

/-- Write an AVSBus voltage request. -/
def State.avsRequest (s : State) (mv n : Nat) : State :=
  (s.modPower (fun x => { x with avsRequested := mv, avsWrites := n, avsTime := s.devtime })).emit (.avs mv)

/-- AVS_VDONE (R452): the outstanding request is acknowledged; a wake goes on to the root PLL. -/
def execAvsVdone (mv : Nat) (s : State) : Result :=
  if s.life ≠ .running ∨ s.power.avsWrites = 0 ∨ mv ≠ s.power.avsRequested ∨ s.power.avsTime + ticksOfMs 2 < s.devtime then .next s
  else .next (s.modPower (fun x => { x with avsAcked := mv, avsWrites := 0, wake := if x.wake = .avs then .pll else x.wake }))

/-- AVS_TIMEOUT (R452): 2 ms without VDone; the request is written again, and the third in a wake ends it. -/
def execAvsTimeout (s : State) : Result :=
  let x := s.power
  if s.life ≠ .running ∨ x.avsWrites = 0 ∨ (s.timeRuns ∧ s.devtime ≤ x.avsTime + ticksOfMs 2) then .next s
  else
    let s1 := (s.count (pwrBase + 0x14)).raise 0x0C05 0x1F 0 [(8, x.avsWrites), (16, x.avsRequested)]
    if x.avsWrites < 3 then .next (s1.avsRequest x.avsRequested (x.avsWrites + 1))
    else
      let s2 := s1.modPower (fun y => { y with avsWrites := 0 })
      if x.wake = .avs then
        let s3 := ((s2.powerInt 4).raise 0x0C06 0x1F 0 [(16, x.avsRequested)]).assertFault 3
        .next { s3 with life := .stopped }
      else .next s2

/-- V_RUN_ADJUST (R451): the 100 ms step moves V_run by 5 mV within 680 to 820 mV; a step the regulator has not acknowledged is requested again. -/
def execVRunAdjust (up : Bool) (s : State) : Result :=
  let x := s.power
  if s.life ≠ .running ∨ !s.alive ∨ x.avsWrites ≠ 0 ∨ s.devtime < x.vRunTime + ticksOfMs 100 then .next s
  else
    let s1 := s.modPower (fun y => { y with vRunTime := s.devtime })
    if x.avsRequested = x.vRun ∧ x.avsAcked ≠ x.vRun then .next (s1.avsRequest x.vRun 1)
    else
      let v := if up then min 820 (x.vRun + 5) else max 680 (x.vRun - 5)
      if v = x.vRun then .next s else .next ((s1.modPower (fun y => { y with vRun := v })).avsRequest v 1)

/-! ## Refusers (R456) -/

/-- Does a well refuse P1, or P2 and P3? -/
def State.wellRefuses (s : State) (w : Nat) (deep : Bool) : Bool :=
  let x := s.well w
  let p := s.owner w
  x.tiles.any Tile.active || x.pumps.any (fun y => !y.queue.isEmpty) || x.copy.any (fun c => c.running.isSome || !c.queue.isEmpty) ||
    x.scrub == .running || (deep && decide (p < 24) && ((s.round p).state.busy || (s.part p).image.loading.isSome))

/-- Does Lantus refuse: the processor is not RUNNING, or serves a load, an update, a mailbox or DOE request? -/
def State.lantusRefuses (s : State) : Bool :=
  let doe := fun (x : Session) => x.pendingStart.isSome || x.inner.isSome
  s.lantus.state != .running || s.loadInProgress || s.lantus.mbxBusy || doe s.opSession || s.parts.any (fun x => doe x.session)

/-- The hottest reading and its lowest sensor (R462). -/
def State.hottest (s : State) : Nat × Int :=
  ((s.power.readings.zip (List.range 49)).foldl (fun (a : Option (Nat × Int)) (e : Int × Nat) => match a with
    | none => some (e.2, e.1)
    | some m => if m.2 < e.1 then some (e.2, e.1) else some m) none).getD (0, 0)

/-- The first refuser of a target; `self` is the POWER_STATE itself. -/
def State.refuser (s : State) (target : PState) (self : CmdRef) : Option Nat :=
  let deep := target == .p2 || target == .p3
  let tests : List (Bool × Nat) :=
    (List.range 24).map (fun w => (s.wellRefuses w deep, w)) ++
      [(deep && s.qps.any (fun e => e.2.state != .free), 24), (deep && (s.cmds.any (fun c => !c.is self) || !s.host.aspmL1), 25),
        (deep && s.lantusRefuses, 26),
        (deep && (List.range 25).any (fun b => (b == 24 || s.formed b) && (s.drbg b).state == .startup), 27),
        (deep && decide (440 ≤ s.hottest.2), 28)]
  (tests.find? (fun e => e.1)).map (fun e => e.2)

/-- Record a refusal (kind 1) or an abort (kind 2) by a refuser, and complete the POWER_STATE (R456, R458). -/
def State.powerRefused (s : State) (k : Cmd) (kind r : Nat) : State :=
  let t := s.power.target.code
  let s1 := s.count (pwrBase + (if kind = 1 then 0x200 else 0x280) + 4 * r)
  let s2 := s1.setRecord (pwrBase + 4) (2 ^ 31 + 2 ^ 29 * kind + 2 ^ 24 * t + r)
  ((s2.raise (if kind = 1 then 0x0C02 else 0x0C03) 0x1F 0 [(8, t), (8, r)]).powerInt 0).complete k (if kind = 1 then .state else .aborted) 0 0

/-! ## Entry (R457, R458) -/

/-- A state is reached: PWR_STATE, event 0x0C01 and the interrupt. -/
def State.reached (s : State) (t : PState) : State :=
  ((s.modPower (fun x => { x with state := t, enterCmd := none })).raise 0x0C01 0x1F 0 [(8, t.code)]).powerInt 0

/-- Sources start again where they feed a DRBG (R427, R441). -/
def State.wakeSources (s : State) : State :=
  s.each (List.range 25) (fun t n => if (t.source n).state = .off ∧ (t.drbgOf n).isSome then t.modSource n (fun x => x.start t.devtime (ticksOfUs 100)) else t)

/-- Ports start training where they are not held down (R300, R460). -/
def State.trainPorts (s : State) : State :=
  { s with ports := s.ports.map (fun (x : Port) => if x.up || x.admin then x else { x with training := true }) }

/-- LPDDR5X devices change state together. -/
def State.lpxMove (s : State) (a b : LpxState) : State :=
  { s with wells := s.wells.map (fun (x : Well) => if x.lpxState = a then { x with lpxState := b } else x) }

/-- Steps 3 to 5 of an entry: ports down, LPDDR5X in self-refresh, noise sources stopped. -/
def State.beginEntry (s : State) (c : CmdRef) : State :=
  let s1 := (s.startCmd c).modPower (fun x => { x with enterCmd := some c })
  let s2 := s1.each (List.range 2) (fun t n => if (t.port n).up then (t.dropPort n).raise 0x0801 0x1F 0 [(8, n)] else t)
  let s3 : State := { s2 with ports := s2.ports.map (fun (x : Port) => { x with training := false }) }
  let s4 := s3.lpxMove .ready .selfRefresh
  { s4 with sources := s4.sources.map (fun (x : Source) => if x.state = .fatal then x else { x with state := .off }) }

/-- Undo the steps of an entry in reverse order and complete its command with ABORTED (R458). -/
def State.abortEntry (s : State) (r : Nat) : State :=
  match s.power.enterCmd.bind (fun c => s.cmds.find? (fun k => k.is c)) with
  | none => s
  | some k => ((((s.modPower (fun x => { x with enterCmd := none })).wakeSources).lpxMove .selfRefresh .ready).trainPorts).powerRefused k 2 r

/-- Commit an entry: the completion, the link to L1, and the state (R457); the governor's level is 0 in P2 and P3 (R463). -/
def State.commitEntry (s : State) : State :=
  match s.power.enterCmd with
  | none => s
  | some c =>
    match s.refuser s.power.target c with
    | some r => s.abortEntry r
    | none =>
      match s.cmds.find? (fun k => k.is c) with
      | none => s.modPower (fun x => { x with enterCmd := none })
      | some k =>
        let s1 := s.complete k .ok 0 0
        let s2 : State := { s1 with
          host := { s1.host with inL1 := s1.host.up }, parts := s1.parts.map (fun (x : Partition) => { x with stretch := 0, stretchNext := [] }) }
        let s3 := (s2.modPower (fun x => { x with pllLocked := false, g := 0, wake := .none })).avsRequest 620 1
        s3.reached s.power.target

/-- POWER_STATE (R455 to R458): a state is refused, P1 is entered at once, and the entry of P2 or P3 begins; taken again by the command whose entry has
begun, the entry is committed (log entry 14). -/
def execPowerState (c : CmdRef) (s : State) : Result :=
  if s.power.enterCmd = some c then (if s.serves then .next s.commitEntry else .next s)
  else match s.ready c 0x30 with
  | none => .next s
  | some k =>
    if s.power.enterCmd.isSome then .next (s.complete k .state 0 0)
    else
      let t := pstateOf (bits k.p0 1 0)
      let s1 := s.modPower (fun x => { x with target := t })
      if t = s.power.state then .next (s1.complete k .ok 0 0)
      else match s1.refuser t c with
        | some r => .next (s1.powerRefused k 1 r)
        | none =>
          if t = .p0 ∨ t = .p1 then .next ((s1.complete k .ok 0 0).reached t)
          else .next (s1.beginEntry c)

/-- COMMAND_FETCH (R366, R367, R371, R380, R457, R458): while an entry runs no command is fetched; one of the PF is link activity and aborts the entry. -/
def execCommandFetch (fn q : Nat) (entry : Option Bytes) (s : State) : Result :=
  if !s.mayFetch fn q then .next s
  else
    let got := if s.streamBad fn then none else entry
    if s.power.enterCmd.isSome then (if fn = 0 then .next ((s.abortEntry 25).fetchCommand fn q got) else .next s)
    else .next (s.activity.fetchCommand fn q got)

/-! ## Wake (R459, R460) -/

/-- A wake cause (bit of PWR_WAKE_CAUSE): from P2 and P3 the sequence starts, or the cause joins it; before the commit it aborts the entry. -/
def State.wakeCause (s : State) (b : Nat) : State :=
  if s.life ≠ .running then s
  else if s.power.enterCmd.isSome then s.abortEntry (if b = 3 then 25 else 26)
  else if s.power.state = .p1 then (s.modPower (fun x => { x with state := .p0, wakeCauses := 2 ^ b })).powerInt 0
  else if s.power.state = .p0 then s
  else if s.power.wake ≠ .none then s.modPower (fun x => { x with wakeCauses := x.wakeCauses ||| 2 ^ b })
  else (s.modPower (fun x => { x with wake := .avs, wakeStart := s.devtime, wakeCauses := 2 ^ b })).avsRequest s.power.vRun 1

/-- WAKE_N (R459, R503): no effect in P0 and P1, but that it aborts an entry. -/
def execWakeN (s : State) : Result :=
  if (s.power.state = .p0 ∨ s.power.state = .p1) ∧ s.power.enterCmd.isNone then .next s else .next (s.wakeCause 2)

/-- MGMT_ADDRESS_MATCH (R459): a transaction addressed to the I3C dynamic address, which the bus controller assigned, or to the I2C static address
PWR_I3C.static_address. -/
def execMgmtAddressMatch (dynamic : Bool) (addr : Nat) (s : State) : Result :=
  if dynamic ∨ addr = s.regBits (pwrBase + 0xC) 6 0 then .next (s.wakeCause 1) else .next s

/-- PCIE_L1_EXIT (R459): the host moves the link out of L1. -/
def execPcieL1Exit (s : State) : Result :=
  if !s.host.up ∨ !s.host.inL1 then .next s
  else
    let s1 : State := { s with host := { s.host with inL1 := false, lastTlp := s.devtime } }
    .next (s1.wakeCause 3)

/-- The derived clocks start on the root: the divider configuration is read through its vote, which may stop them (R27, R448). -/
def State.startClocks (s : State) (wake : WakePhase) : State :=
  let s1 := s.voteDivider
  if s1.life = .stopped then s1 else s1.modPower (fun x => { x with pllLocked := true, wake := wake })

/-- PLL_LOCK (R448, R402, R460): at boot under the firmware, or in a wake, the derived clocks run on the root. -/
def execPllLock (s : State) : Result :=
  if s.power.pllLocked then .next s
  else if s.life = .rom ∧ s.lantus.state = .running then .next (s.startClocks s.power.wake)
  else if s.life = .running ∧ s.power.wake = .pll then .next (s.startClocks .selfRefresh)
  else .next s

/-- PLL_LOCK_LOST (R449): every derived clock stops, FAULT_N asserts, event 0x0C07; only a device reset restarts them. -/
def execPllLockLost (s : State) : Result :=
  if !s.timeRuns ∨ !s.power.pllLocked then .next s
  else
    let s1 := (s.raise 0x0C07 0x1F 0 []).assertFault 1
    .next { s1.modPower (fun x => { x with pllLocked := false }) with life := .stopped }

/-- An LPDDR5X device is declared failed (R253): reasons 0 training, 1 reads, 2 no response. -/
def State.lpxFail (s : State) (w reason : Nat) : State :=
  ((s.modWell w (fun x => { x with lpxState := .failed })).raise 0x060A (s.planOwner w) 0 [(8, w), (8, reason)]).wellOut w 3

/-- Sixteen reads of a device have failed within one second (R253). -/
def State.lpxReadLimit (s : State) (w : Nat) : State :=
  let x := s.well w
  if x.lpxState = .ready ∧ x.inService ∧ 16 ≤ (x.lpxFails.filter (fun t => decide (s.devtime < t + 400000000))).length then s.lpxFail w 1 else s

/-- LPX_FAILED (R253): the device does not respond. -/
def execLpxFailed (well : Nat) (s : State) : Result :=
  if !s.alive ∨ (s.well well).lpxState = .failed ∨ (s.well well).lpxState = .untrained then .next s else .next (s.lpxFail well 2)

/-- TELEMETRY_POLL (R453): the regulator's readings, or a failed transaction with its address and command. -/
def execTelemetryPoll (fail : Option (Nat × Nat)) (powerW currentA : Nat) (s : State) : Result :=
  if s.life ≠ .running ∨ !s.alive ∨ !s.serves then .next s
  else match fail with
  | none => .next (s.setReg (pwrBase + 0x18) (65536 * (currentA % 65536) + powerW % 65536))
  | some (a, c) =>
    let s1 := s.count (pwrBase + 0x1C)
    if s1.power.lastPmbus = some s.second then .next s1
    else .next ((s1.modPower (fun x => { x with lastPmbus := some s.second })).raise 0x0C0E 0x1F 0 [(8, a), (8, c)])

end Sys2Proof.Machine
end

