-- ==== Sys2Proof/Machine/Thermal.lean ====
section
/-! DEFINITION. Junction sensors, the governor, the admission floor, VR_ALERT_N, the thermal trip and the power-fail warning (02_rounds.md R61 to R63;
13_power_clocks.md R462 to R471). -/

namespace Sys2Proof.Machine

open Sys2Proof

/-! ## The governor's arithmetic (R463) -/

/-- s_slack and s_floor of a slack. -/
def sSlack (k : Nat) : Nat := 1024 * k / 1000
def sFloor (k : Nat) : Nat := 1024 * (1000 + k) / 700 - 1024

/-- The stretch of a level. -/
def stretchAt (g k : Nat) : Nat :=
  if g ≤ 1000 then g * sSlack k / 1000 else sSlack k + (g - 1000) * (sFloor k - sSlack k) / 1000

/-- The stretch last sent to a partition. -/
def State.lastSent (s : State) (p : Nat) : Nat := ((s.part p).stretchNext.getLast?.map (fun e => e.1)).getD (s.part p).stretch

/-- Send a changed stretch with its activation 4,000 ticks on (R464, R466); the check gate lets nothing above 1,023 pass (R388). -/
def State.sendStretch (s : State) (p v : Nat) : State :=
  if v = s.lastSent p ∨ 1023 < v then s
  else s.modPart p (fun x => { x with stretchNext := x.stretchNext ++ [(v, s.devtime + 4000)] })

/-! ## The admission floor (R63) -/

/-- Keep the time since which the effective rate has stood at 75 % or more of nominal, where admission is closed for the floor. -/
def State.watchFloor (s : State) : State :=
  s.each (List.range 24) (fun t p =>
    if (t.part p).floorClosed then
      t.modPart p (fun x => { x with recoverSince := if 750 ≤ s.permille p then some (x.recoverSince.getD s.devtime) else none })
    else t)

/-- Close admission of every partition whose round is in INTAKE (R63, R465). -/
def State.closeFloor (s : State) : State :=
  s.each (List.range 24) (fun t p =>
    if (t.round p).state = .intake ∧ !(t.part p).floorClosed then
      ((t.modPart p (fun x => { x with floorClosed := true, recoverSince := none })).roundInt p 5).raise 0x0104 p 0 [(16, s.permille p)]
    else t)

/-! ## Sensors (R462) -/

/-- A reading as a register field of 12 bits. -/
def readingField (r : Int) : Nat := unsgn 12 r

/-- THERMAL_SAMPLE (R462): every sensor, THM_MAX and the period's highest reading. -/
def execThermalSample (readings : List Int) (s : State) : Result :=
  if (s.life ≠ .running ∧ s.life ≠ .rom) ∨ s.power.state = .p3 ∨ readings.length ≠ 49 then .next s
  else
    let s1 := s.modPower (fun x => { x with readings := readings })
    let h := s1.hottest.2
    let s2 := s1.modPower (fun x => { x with periodMax := some (max (x.periodMax.getD h) h) })
    .next (if sgn 12 (s2.reg (pwrBase + 0x48)) < h then s2.setReg (pwrBase + 0x48) (readingField h) else s2)

/-! ## Periods (R464, R465) -/

/-- The level changes, with its events and interrupts. -/
def State.setLevel (s : State) (g : Nat) : State :=
  let old := s.power.g
  let h := s.hottest
  let pay := [(8, h.1), (16, unsgn 16 h.2)]
  let s1 := s.modPower (fun x => { x with g := g, engagedAt := if old = 0 ∧ 0 < g then s.devtime else x.engagedAt })
  let s2 := if old = 0 ∧ 0 < g then (s1.raise 0x0C08 0x1F 0 pay).powerInt 1 else s1
  let s3 := if old < 2000 ∧ g = 2000 then (s2.raise 0x0C09 0x1F 0 pay).powerInt 2 else s2
  if 0 < old ∧ g = 0 then s3.raise 0x0C0A 0x1F 0 [(32, (s.devtime - s.power.engagedAt) / 400000)] else s3

/-- The level after a period with highest reading `t`, in 0.25 degrees. -/
def nextLevel (g : Nat) (t : Int) : Nat := if 400 ≤ t then min 2000 (g + 20) else if 392 < t then g else g - 10

/-- The reading T of a period: the highest one taken during it (R464); the sensors' present one where the period took none. -/
def State.periodReading (s : State) : Int := s.power.periodMax.getD s.hottest.2

/-- GOVERNOR_PERIOD (R464, R465, R467, R471): the end of a 1 ms period, taken by running firmware; the period of a VR_ALERT_N changes nothing.
The tick after it starts the next period (`State.nextPeriod`). -/
def execGovernorPeriod (s : State) : Result :=
  let x := s.power
  if s.life ≠ .running ∨ !s.serves ∨ s.devtime % 400000 ≠ 0 ∨ s.devtime ≤ x.lastPeriod then .next s
  else
    let t := s.periodReading
    let s0 := s.modPower (fun y => { y with lastPeriod := s.devtime, vrAlert := false })
    if x.vrAlert then .next s0.watchFloor
    else
      let s1 := if x.g = 2000 ∧ 400 ≤ t then s0.closeFloor else s0
      let s2 := s1.setLevel (nextLevel x.g t)
      let s3 := s2.each (List.range 24) (fun u p => u.sendStretch p (match s2.slackOf p with | some k => stretchAt s2.power.g k | none => 0))
      .next s3.watchFloor

/-- VR_ALERT_N (R466): every stretch goes to its floor, and G to 2,000. -/
def execVrAlertN (s : State) : Result :=
  if s.life ≠ .running ∨ !s.alive then .next s
  else
    let s1 := (((s.count (pwrBase + 0x4C)).powerInt 3).raise 0x0C0B 0x1F 0 []).setLevel 2000
    let s2 := s1.modPower (fun y => { y with vrAlert := true })
    .next (s2.each (List.range 24) (fun u p => u.sendStretch p (match s2.slackOf p with | some k => sFloor k | none => 0)))

/-- STRETCH_ACTIVATION (R205, R388): the stretch of a partition whose activation DEVTIME has come is in force, and TILE_STRETCH shows it. -/
def execStretchActivation (p : Nat) (s : State) : Result :=
  if !s.alive then .next s
  else
    .next (s.modPart p (fun x => { x with
      stretch := s.stretchOf p, stretchNext := x.stretchNext.filter (fun e => decide (s.devtime < e.2)) })).watchFloor

/-! ## Trip and power failure (R468, R469) -/

/-- Zero every session key, QP key, memory key, K_share row, IDE key and DRBG (R469). -/
def State.zeroKeys (s : State) : State :=
  let ses := fun (x : Session) => ({ lastStatus := x.lastStatus } : Session)
  let tile := fun (x : Tile) => { x with store := memClear x.store (16383 * 64) 32 }
  { s with
    opSession := ses s.opSession,
    parts := s.parts.map (fun (x : Partition) => { x with session := ses x.session }),
    qps := s.qps.map (fun (e : Nat × Qp) => (e.1, { e.2 with txKey := [], rxKey := [] })),
    wells := s.wells.map (fun (x : Well) => { x with lpxKey := [], tiles := x.tiles.map tile }),
    drbgs := s.drbgs.map Drbg.zeroise,
    host := { s.host with ide := s.host.ide.map (fun (i : IdeStream) => { i with keys := [], keySet := none }) } }

/-- THERMAL_TRIP (R468): a reading of 115.0 degrees in P0, P1 or P2 asserts THERMTRIP_N and FAULT_N, zeroes the keys and stops the device. -/
def execThermalTrip (s : State) : Result :=
  let h := s.hottest
  if s.life = .off ∨ s.life = .held ∨ s.power.state = .p3 ∨ s.thermTrip ∨ h.2 < 460 then .next s
  else
    let s1 := ((s.zeroKeys.raise 0x0C0C 0x1F 0 [(8, h.1), (16, unsgn 16 h.2)]).assertFault 4)
    .next { s1 with thermTrip := true, life := .stopped }

/-- PWR_FAIL_N (R469): the warning zeroes the keys and stops the device. -/
def execPwrFailN (s : State) : Result :=
  if s.life = .off then .next s
  else if s.life = .held then .next { s with pwrFailLow := true }
  else .next { (s.zeroKeys.assertFault 5) with pwrFailLow := true, life := .stopped }

/-- PWR_FAIL_DEASSERT (R469): power held; the device stays stopped, with event 0x0C0D. -/
def execPwrFailDeassert (s : State) : Result :=
  if s.life = .off ∨ !s.pwrFailLow then .next s
  else
    let s1 : State := { s with pwrFailLow := false }
    .next (if s.life = .stopped then s1.raise 0x0C0D 0x1F 0 [] else s1)

end Sys2Proof.Machine
end

