-- ==== Sys2Proof/Machine/Boot.lean ====
section
/-! DEFINITION. Resets, boot and the votes of triplicated words (06_tiles_windlass.md R222; 07_cisterns_pumps.md R258, R261, R262; 11_security.md R400 to R402;
13_power_clocks.md R470; 15_package.md R503; 01_architecture.md R27, R39). -/

namespace Sys2Proof.Machine

open Sys2Proof

/-! ## Resets (R503, R470) -/

/-- The device at reset: what survives is the OTP, and the model's own fields. -/
def State.atReset (s : State) : State :=
  { State.reset with
    lantus := { State.reset.lantus with
      keys := s.lantus.keys.map (fun (k : KeySlot) => { k with attrs := k.otp, unusable := false }),
      fwFloor := s.lantus.fwFloor, debugDisabled := s.lantus.debugDisabled },
    pending := s.pending, out := s.out, freeCount := s.freeCount }

/-- POWER_LOSS (R470): everything volatile is lost. -/
def execPowerLoss (s : State) : Result := if s.life = .off then .next s else .next { s.atReset with life := .off }

/-- POWER_ON_RESET (R450, R503): the rails have been within their limits for 1 ms after a loss of power; DEVTIME starts at zero. -/
def execPowerOnReset (s : State) : Result := if s.life = .off then .next { s.atReset with life := .held } else .next s

/-- DEVICE_RESET (R503): RESET_N falls. DEVTIME goes on, debug arming is kept, PWR_FAIL_N is as it stands; ignored while THERMTRIP_N is asserted. -/
def execDeviceReset (s : State) : Result :=
  if s.life = .off ∨ s.thermTrip then .next s
  else
    let r := s.atReset
    .next { r with
      life := .held, resetLow := true, pwrFailLow := s.pwrFailLow, devtime := s.devtime,
      lantus := { r.lantus with debugArmed := s.lantus.debugArmed } }

/-! ## Triplicated words (R261, R262) -/

/-- Vote on a key slot's shadow copies and check its value's CRC: a failure makes it unusable until device reset, with event 0x060D once (R392, R395). -/
def State.voteSlot (s : State) (n : Nat) : State :=
  let k := s.slot n
  let v := votedCopies k.attrs 0
  let s1 := (s.modLantus (fun l => { l with keys := updAt l.keys n (fun x => { x with attrs := v.1 }) })).tripleEvent 0x1F n v.2.1
  if k.unusable then s1
  else if v.2.2 || (attrState (v.1.getD 0 0) == 1 && crc32c k.value != k.crc) then
    (s1.modLantus (fun l => { l with keys := updAt l.keys n (fun x => { x with unusable := true }) })).raise 0x060D 0x1F 0 [(8, n)]
  else s1

/-- Vote on every key slot. -/
def State.voteSlots (s : State) : State := s.each (List.range 64) (fun t n => t.voteSlot n)

/-- Vote on the owner of a well; three different copies take it out of service (R39). -/
def State.voteOwner (s : State) (w : Nat) : State :=
  let s1 := s.repairOwner w
  if (s1.ownerVote w).isNone && (s.well w).inService then (s1.raise 0x060D 0x1F 0 [(8, identOwner w)]).wellOut w 1 else s1

/-- Vote on the access-table roots; three different copies make every entry read 0b00 (R39). -/
def State.voteRoots (s : State) : State :=
  let s1 := s.repairRoots
  if !s1.rootsOk then s1.raise 0x060D 0x1F 0 [(8, identRoot)] else s1

/-- Tiles of a partition go to OFF (R218, R262). -/
def State.tilesOff (s : State) (p : Nat) : State :=
  (s.stopWindlasses p).each (s.tilesOf p) (fun t r => t.modTile r (fun x => if x.state = .failed ∨ x.state = .test then x else { x with state := .off }))

/-- Vote on a loaded image's digest; three different copies unload it (R262). -/
def State.voteImage (s : State) (p : Nat) : State :=
  if (s.part p).image.state ≠ .loaded then s
  else
    let v := votedCopies (s.part p).image.digestCopies []
    let s1 := (s.modPart p (fun x => { x with image := { x.image with digestCopies := v.1 } })).tripleEvent p (identImage p) v.2.1
    if v.2.2 then (((s1.raise 0x060D p 0 [(8, identImage p)]).faultCause p .uncorrectable).tilesOff p).imageUnload p 1 else s1

/-- Vote on the floor-plan digest; three different copies fail every round and assert FAULT_N (R262). -/
def State.votePlan (s : State) : State :=
  if !s.plan.inForce then s
  else
    let v := votedCopies s.plan.digestCopies []
    let s1 := ({ s with plan := { s.plan with digestCopies := v.1 } } : State).tripleEvent 0x1F identPlan v.2.1
    if v.2.2 && s.regBits (logBase + 0x804) 2 2 == 0 then
      ((s1.raise 0x060D 0x1F 0 [(8, identPlan)]).each (List.range 24) (fun t p => t.faultCause p .uncorrectable)).assertFault 2
    else s1

/-- TRIPLE_VOTE_SCAN (R261, R262, R27, R39, R223): the millisecond read of every triplicated word by running firmware; the divider comes last, since it stops
the device. -/
def execTripleVoteScan (s : State) : Result :=
  if !s.serves then .next s
  else
    let s1 := s.voteSlots
    let s2 := s1.each (List.range 24) (fun t w => t.voteOwner w)
    let s3 := (s2.voteRoots.votePlan).each (List.range 24) (fun t p => t.voteImage p)
    .next ((s3.each (List.range 24) (fun t w => t.checkSubst w)).voteDivider)

/-! ## Boot (R400, R402, R222, R258) -/

/-- RESET_RELEASE (R400, R503): the later of RESET_N and PWR_FAIL_N is released and the ROM runs to ROM_WAIT: slots voted, debug enabled when armed,
identity keys computed. The Lantus source settles and its DRBG forms its seed (R427, R435); while DEVTIME stands still its settle is not timed (log entry 14). -/
def execResetRelease (s : State) : Result :=
  if s.life ≠ .held then .next s
  else
    let s0 : State := { s with
      life := .rom, resetLow := false, pwrFailLow := false,
      lantus := { s.lantus with
        debugEnabled := s.lantus.debugArmed, debugArmed := false,
        keys := s.lantus.keys.map (fun (k : KeySlot) => { k with attrs := k.otp, unusable := false }) } }
    let s1 := s0.voteSlots
    let kp := s1.identityKeys
    let s2 := s1.modLantus (fun l => { l with identityPk := kp.1, identitySk := kp.2, state := .romWait })
    .next ((s2.modSource 24 (fun x => x.start s.devtime 0)).formSeed 24)

/-- Self-test result of one well: TILE_SELFTEST, failed tiles, substitution, retirements, LPDDR5X training, and service. -/
def State.bootWell (s : State) (w : Nat) (r : WellTest) : State :=
  let bad := fun (k : Nat) => r.failedTiles.find? (fun e => e.1 == k)
  let s1 := s.each (List.range 25) (fun t k =>
    match bad k with
    | some e =>
      ((t.setReg (tileBase ⟨w, k⟩ + 0x3C) (2 ^ 31 + e.2 % 256)).markFailed ⟨w, k⟩).raise 0x0506 (t.planOwner w) 0 [(8, w), (8, k), (8, e.2)]
    | none => t.setReg (tileBase ⟨w, k⟩ + 0x3C) (3 * 2 ^ 30))
  let pass := (List.range 25).filter (fun k => (bad k).isNone)
  let s2 := (s1.modWell w (fun x => { x with subst := (pass ++ List.replicate 24 0x1F).take 24 })).storeSubstCrc w
  let s3 := r.badBuckets.foldl (fun (t : State) b => if b < 2 ^ 21 ∧ t.sparesUsed w (t.bankOf w b) < 64 then t.retire w b else t) s2
  let many := decide (pass.length ≤ 23)
  let s4 := if many then s3.raise 0x0509 (s.planOwner w) 0 ((8, w) :: (s3.well w).failed.map (fun k => (8, k))) else s3
  let s5 := if r.lpddrTrained then s4.modWell w (fun x => { x with lpxState := .ready })
    else (s4.modWell w (fun x => { x with lpxState := .failed })).raise 0x060A (s.planOwner w) 0 [(8, w), (8, 0)]
  s5.modWell w (fun x => { x with inService := !many && r.lpddrTrained })

/-- BOOT_SELFTEST_DONE (R222, R253, R258, R402): with the firmware running and the root PLL locked, every well is mapped and put in service, and the device
runs; its Ethernet ports start training (R300). -/
def execBootSelftestDone (r : List WellTest) (s : State) : Result :=
  if s.life ≠ .rom ∨ s.lantus.state ≠ .running ∨ !s.power.pllLocked ∨ r.length ≠ 24 then .next s
  else
    let s1 := (r.zip (List.range 24)).foldl (fun (t : State) (e : WellTest × Nat) => t.bootWell e.2 e.1) s
    .next ({ s1 with life := .running }.trainPorts)

end Sys2Proof.Machine
end

