-- ==== Sys2Proof/Machine/Service.lean ====
section
/-! DEFINITION. The trouble log: writer, views, interrupts and draining (14_service.md R474 to R484). -/

namespace Sys2Proof.Machine

open Sys2Proof

/-! ## Entries (R474, R476, R479) -/

/-- Sequence numbers run from 1 to this, and wrap to 1. -/
def seqTop : Nat := 2 ^ 28 - 1

/-- The sequence number after one. -/
def seqAfter (n : Nat) : Nat := if n = seqTop then 1 else n + 1

/-- Does a sequence number lie above a cursor, 0 for a view that has delivered none? -/
def seqAbove (n cursor : Nat) : Bool := cursor == 0 || (n != cursor && decide ((n + seqTop - cursor) % seqTop < 2 ^ 27))

/-- The 32 bytes of an entry. -/
def LogEntry.bytes (e : LogEntry) : Bytes :=
  let b := toLE e.time 8 ++ toLE e.code 2 ++ toLE e.source 2 ++ toLE e.partition 1 ++ toLE (e.seq * 16 + e.severity) 4 ++ toLE e.payload 13
  b ++ toLE (crc16 b) 2

/-! ## Views (R480 to R483) -/

/-- Codes of the device's entries that every partition's view holds. -/
def commonCodes : List Nat := [0x0701, 0x0801, 0x0802, 0x0A01, 0x0A03, 0x0A04, 0x0A0C, 0x0C01, 0x0C04, 0x0D02]

/-- Does a view hold an entry? -/
def inView (v : Nat) (e : LogEntry) : Bool := v == 24 || e.partition == v || (e.partition == 0x1F && commonCodes.contains e.code)

/-- A view. -/
def State.view (s : State) (v : Nat) : LogView := s.log.views.getD v {}

/-- Change a view. -/
def State.modView (s : State) (v : Nat) (f : LogView → LogView) : State := { s with log := { s.log with views := updAt s.log.views v f } }

/-- Entries of a view in the ring above its cursor, oldest first. -/
def State.pendingOf (s : State) (v : Nat) : List LogEntry := s.log.ring.filter (fun e => inView v e && seqAbove e.seq (s.view v).cursor)

/-- LOGV_CTRL of a view. -/
def logvCtrl (v : Nat) : Nat := logBase + 0x100 + 0x20 * v

/-- An entry is overwritten: it is lost to the views that hold it above their cursors (R482). -/
def State.loseEntry (s : State) (e : LogEntry) : State :=
  s.each (List.range 25) (fun t v =>
    if inView v e && seqAbove e.seq (t.view v).cursor then
      (t.modView v (fun x => { x with lost := x.lost + 1, firstLost := if x.lost = 0 then e.seq else x.firstLost })).count (logvCtrl v + 0xC)
    else t)

/-- The interrupt of a view that an entry calls (R483): severity or watermark; a message that is sent disarms it. -/
def State.viewInterrupt (s : State) (v : Nat) (e : LogEntry) : State :=
  let sev := s.regBits (logvCtrl v) 1 0
  let mark := s.regBits (logvCtrl v) 27 16
  let calls := inView v e && (decide (sev ≤ e.severity ∧ sev < 3) || (mark != 0 && decide (mark ≤ (s.pendingOf v).length)))
  let f := if v = 24 then 0 else v + 1
  if calls && (s.view v).armed && s.msixOn f && s.host.up then (s.msix f (if v = 24 then 1 else 2)).modView v (fun x => { x with armed := false }) else s

/-- The queued entry that is written next: the oldest, and among those of one tick the lowest source, then the lowest code (R475). -/
def LogState.next (l : LogState) : Option LogEntry :=
  l.waiting.foldl (fun (a : Option LogEntry) e => match a with
    | none => some e
    | some m =>
      if e.time < m.time ∨ (e.time = m.time ∧ (e.source < m.source ∨ (e.source = m.source ∧ e.code < m.code))) then some e else some m) none

/-- Has the writer taken its entry of this cycle already (R475)? On the internal oscillator DEVTIME does not count its cycles. -/
def State.writerBusy (s : State) : Bool := s.timeRuns && s.log.wroteAt == some s.devtime

/-- LOG_WRITE (R474, R475, R482, R483): one queued entry enters the ring, over the oldest when it is full. -/
def execLogWrite (s : State) : Result :=
  if s.life = .off ∨ s.life = .held ∨ s.writerBusy then .next s
  else match s.log.next with
  | none => .next s
  | some e0 =>
    let e := { e0 with seq := s.log.nextSeq }
    let full := decide (4096 ≤ s.log.ring.length)
    let s1 := match (if full then s.log.ring.head? else none) with
      | some o => s.loseEntry o
      | none => s
    let ring := (if full then s1.log.ring.drop 1 else s1.log.ring) ++ [e]
    let s2 : State := { s1 with log := { s1.log with nextSeq := seqAfter e.seq, ring := ring, waiting := s1.log.waiting.erase e0, wroteAt := some s.devtime } }
    .next (s2.each (List.range 25) (fun t v => t.viewInterrupt v e))

/-! ## LOG_DRAIN (R481, R482) -/

/-- The synthetic entry of a view that has lost entries. -/
def State.lostEntry (s : State) (v : Nat) : LogEntry :=
  { seq := (s.view v).firstLost, time := s.devtime, code := 0x0D01, severity := 1, partition := if v = 24 then 0x1F else v, source := 0,
    payload := (s.view v).lost % 2 ^ 32 }

/-- Is an earlier LOG_DRAIN of the same view in progress, which a later one waits for (R484)? -/
def State.drainWaits (s : State) (k : Cmd) : Bool :=
  (s.cmds.takeWhile (fun d => !d.is k.ref)).any (fun d => d.opcode == 0x39 && min d.part 24 == min k.part 24)

/-- LOG_DRAIN (R481, R482, R484): the view's pending entries that fit, after the synthetic entry when some are lost; the cursor moves and the interrupt is armed. -/
def execLogDrain (c : CmdRef) (s : State) : Result :=
  match s.ready c 0x39 with
  | none => .next s
  | some k =>
    if s.drainWaits k then .next s
    else if 24 ≤ k.part ∧ k.part ≠ 0x1F then .next (s.complete k .notReady 0 0)
    else if k.length = 0 ∨ k.length % 32 ≠ 0 then .next (s.complete k .format 0 0)
    else
      let v := min k.part 24
      let head := if (s.view v).lost = 0 then [] else [s.lostEntry v]
      let body := (s.pendingOf v).take (k.length / 32 - head.length)
      let bs := (head ++ body).flatMap LogEntry.bytes
      let s1 := s.modView v (fun x => { x with
        cursor := match body.getLast? with | some e => e.seq | none => x.cursor,
        lost := 0, firstLost := 0, armed := true })
      .next ((if bs.isEmpty then s1 else s1.hostWrite k.fn k.addr bs).complete k .ok bs.length 0)

end Sys2Proof.Machine
end

