-- ==== Sys2Proof/Machine/RegView.lean ====
section
/-! DEFINITION. What software reads from each register: words kept in the register file, and words that show state kept elsewhere
(the register tables of R44, R85, R227, R228, R265 to R269, R298, R299, R349 to R351, R385 to R387, R424, R425, R446, R447, R473, R492). -/

namespace Sys2Proof.Machine

open Sys2Proof

/-! ## Codes -/

/-- Codes of the states that registers show. -/
def ImageState.code : ImageState → Nat | .empty => 0 | .loading => 1 | .loaded => 2
def RegionState.code : RegionState → Nat | .unused => 0 | .valid => 1 | .revoking => 2 | .gone => 3
def SessionState.code : SessionState → Nat | .none => 0 | .started => 1 | .active => 2
def LpxState.code : LpxState → Nat | .untrained => 0 | .ready => 1 | .selfRefresh => 2 | .failed => 3
def ScrubState.code : ScrubState → Nat | .idle => 0 | .running => 1 | .done => 2 | .aborted => 3 | .refused => 4
def QueueState.code : QueueState → Nat | .disabled => 0 | .active => 1 | .draining => 2 | .error => 3
def TdiState.code : TdiState → Nat | .unlocked => 0 | .locked => 1 | .run => 2 | .error => 3
def QpState.code : QpState → Nat | .free => 0 | .active => 1 | .error => 2 | .draining => 3
def LantusState.code : LantusState → Nat | .off => 0 | .romWait => 0 | .romVerify => 1 | .running => 2 | .updating => 3 | .restarting => 4
def SourceState.code : SourceState → Nat | .off => 0 | .settle => 1 | .startup => 2 | .running => 3 | .fatal => 4

/-! ## Configuration space (R353) -/

/-- The identity words of a function's configuration space: Vendor and Device ID at 0x00, Revision ID and class code at 0x08, Subsystem Vendor and
Subsystem ID at 0x2C; the revision is GLB_STEPPING. Their places are those of the base specification (log entry 6). -/
def State.identityWord (s : State) (fn off : Nat) : Option Nat :=
  if off = 0 then some (0x1D7E + 2 ^ 16 * (if fn = 0 then 0x2416 else 0x2417))
  else if off = 8 then some (s.reg 4 % 256 + 2 ^ 8 * 0x120000)
  else if off = 0x2C then some (0x1D7E + 2 ^ 16 * 0x0001)
  else none

/-- IDCODE of the JTAG port: major stepping, part number, manufacturer code and 1 (R507). -/
def State.jtagIdcode (s : State) : Nat := 2 ^ 28 * (s.regBits 4 7 4) + 2 ^ 12 * 0x2416 + 2 * 0x3BE + 1

/-! ## Blocks -/

/-- GLB_WELL_AVAIL and GLB_WELL_OWNERn (R44). -/
def State.viewGlb (s : State) (o : Nat) : Option Nat :=
  if o = 8 then some ((List.range 24).foldl (fun a w => if (s.well w).inService then a + 2 ^ w else a) 0)
  else if within o 0x10 0x1C then
    let n := (o - 0x10) / 4
    some ((List.range 6).foldl (fun a i => a + s.owner (6 * n + i) * 2 ^ (5 * i)) 0)
  else none

/-- Round registers that show the round (R85). -/
def State.viewRnd (s : State) (p o : Nat) : Option Nat :=
  let r := s.round p
  if o = 0 then some (2 ^ 8 * r.status.code + r.epoch * 16 + r.desc.mode.code * 4)
  else if o = 4 then some r.state.code
  else if o = 8 then some (r.desc.roundId % 2 ^ 32)
  else if o = 0xC then some (r.desc.roundId / 2 ^ 32)
  else if o = 0x14 then some (s.permille p)
  else if o = 0x2C then some (2 ^ 16 * ((s.part p).slotsTotal) + ((s.part p).slotsTotal - (s.part p).slotsFree.length))
  else none

/-- TILE_STATUS and TILE_STRETCH (R227). No tile carries a logical tile before the boot self-test. -/
def State.viewTile (s : State) (t : TileRef) (o : Nat) : Option Nat :=
  let x := s.tile t
  if o = 0 then some (2 ^ 16 * x.last + (if s.life = .running then s.logicalOf t else 0x1F) * 32 + x.state.code)
  else if o = 0x38 then some (if s.owner t.well < 24 then s.stretchOf (s.owner t.well) else 0)
  else none

/-- PUMP_STATUS (R265). -/
def State.viewPump (s : State) (u : PumpRef) (o : Nat) : Option Nat :=
  let x := s.pump u
  if o = 0 then some (2 ^ 8 * (if x.halted then x.haltStatus.code else 0) + min x.queue.length 8 * 16 + b2n x.halted) else none

/-- CIS_STATUS and COPY_STATUSc (R266). -/
def State.viewCis (s : State) (w o : Nat) : Option Nat :=
  let x := s.well w
  if o = 0 then some (2 ^ 16 * x.retired.length + x.merge.length)
  else if o = 0x300 ∨ o = 0x320 then
    let c := s.chan w ((o - 0x300) / 0x20)
    some (2 ^ 8 * (if c.halted then c.haltStatus.code else 0) + b2n c.running.isSome * 2 + b2n c.halted)
  else none

/-- The correctable-error table (R269). -/
def State.viewCet (s : State) (w o : Nat) : Option Nat :=
  let x := s.well w
  if o = 0 then some (2 ^ 31 * (s.regBits (cetBase w) 31 31) + (x.cet.filter Option.isSome).length)
  else if within o 0x100 0x1FF then
    match x.cet.getD ((o - 0x100) / 16) none with
    | none => some 0
    | some e =>
      let k := o % 16
      some (if k = 0 then e.addr % 2 ^ 32 else if k = 4 then e.addr / 2 ^ 32 else if k = 8 then 2 ^ 31 + 2 ^ 24 * e.kind + e.count else 0)
  else none

/-- The substitution registers (R228). -/
def State.viewSubst (s : State) (w o : Nat) : Option Nat :=
  let x := s.well w
  if o < 0x10 then some (x.substWord (o / 4))
  else if o = 0x14 then some (2 ^ 16 * x.remaps + b2n x.unmapped.isEmpty * 32 + x.unmapped.head?.getD 0x1F)
  else none

/-- Registers of a well's block (R30). -/
def State.viewWell (s : State) (w y : Nat) : Option Nat :=
  if y < 0x19000 then s.viewTile ⟨w, y / 0x1000⟩ (y % 0x1000)
  else if within y 0x20000 0x23FFF then s.viewPump ⟨w, (y - 0x20000) / 0x400⟩ (y % 0x400)
  else if within y 0x30000 0x3FFFF then s.viewCis w (y - 0x30000)
  else if y = 0x40000 then some (2 ^ 7 * (b2n !(s.well w).lpxKey.isEmpty) + (s.well w).lpxState.code)
  else if y = 0x50004 then some (b2n (s.well w).scrubLpx * 8 + (s.well w).scrub.code)
  else if within y 0x60000 0x67FFF then s.viewCet w (y - 0x60000)
  else if within y 0x68000 0x6FFFF then s.viewSubst w (y - 0x68000)
  else none

/-- STL_STATUS and INTK_STATUS (R349, R350). -/
def State.viewStl (s : State) (x : Nat) : Option Nat :=
  if x = stlBase then some (b2n (s.port 0).up + 2 * b2n (s.port 1).up)
  else if within x 0x101000 0x1017FF ∧ x % 0x40 = 0 then
    let port := (x - 0x101000) / 0x400
    let i := s.intake port ((x - 0x101000) % 0x400 / 0x40)
    some (2 ^ 31 * (bits (s.reg x) 31 31) + 2 ^ 30 * (b2n i.xoff) + 2 ^ 29 * (b2n (decide (128 ≤ i.occupancy))) + min i.occupancy 128)
  else none

/-- Packets in flight to a region (R314). -/
def State.inflight (s : State) (p region : Nat) : Nat := (s.commits.filter (fun c => c.part == p && c.region == some region && !s.placed c)).length

/-- A partition's Strelul registers that show its queue pairs and regions (R351). -/
def State.viewStlp (s : State) (p o : Nat) : Option Nat :=
  let base := stlpBase p
  if o = 0 then some (2 ^ 15 * ((s.qpsOf p).length))
  else if o = 0x44 then
    let q := s.qp (s.regBits (base + 0x40) 13 0)
    if q.part ≠ p ∨ q.state = .free then some 0
    else
      let h := (List.range 16).foldl (fun a j => if j < q.pathCount && (q.paths.getD j {}).healthy then a + 2 ^ j else a) 0
      some (2 ^ 24 * q.lastStatus.code + 2 ^ 8 * h + (if q.compat then 2 else 1) * 16 + q.state.code)
  else if o = 0x4C then
    let id := s.regBits (base + 0x48) 15 0
    let g := (look id (s.part p).regions).getD {}
    some (2 ^ 16 * g.generation + min (s.inflight p id) 4095 * 16 + g.state.code)
  else none

/-- A function's queue block (R386). -/
def State.viewHq (s : State) (f o : Nat) : Option Nat :=
  if o = 0 then some (2 ^ 8 * ((if f = 0 then 0 else (s.fn f).tdi.code)) + ((s.fn f).queues.filter (fun q => q.state != .disabled)).length)
  else if within o 0x100 0x8FF then
    let n := (o - 0x100) / 0x40
    let q := s.queue f n
    let k := o % 0x40
    if k = 0x14 then some (2 ^ 24 * q.errStatus.code + 2 ^ 16 * q.state.code + q.sqHead)
    else if k = 0x18 then some (2 ^ 16 * (b2n q.phase) + q.cqTail)
    else if k = 0x1C then some (s.queueCmds f n).length
    else none
  else none

/-- HIF_LINK and HIF_SHARE_SCALE (R385). -/
def State.viewHif (s : State) (o : Nat) : Option Nat :=
  let h := s.host
  if o = 0 then some (if h.up then 2 ^ 16 + 2 ^ 8 * h.rate + 2 ^ 7 * (b2n h.flit) + h.width else 0)
  else if o = 4 then some (if h.up then s.shareScale else 0)
  else none

/-- The Lantus registers (R424). -/
def State.viewLnt (s : State) (o : Nat) : Option Nat :=
  let l := s.lantus
  if o = 0x14 then some (2 ^ 31 * (b2n l.mbxBusy) + 2 ^ 30 * (b2n l.mbxDone) + 2 ^ 8 * l.mbxStatus.code + l.mbxOp)
  else if o = 0x18 then some (2 ^ 16 * l.fwFloor + 2 ^ 9 * (b2n l.debugDisabled) + 2 ^ 8 * (b2n l.debugEnabled) + l.state.code)
  else if o = 0x20 then some (((l.fw.map Firmware.serial).getD 0) % 2 ^ 32)
  else if o = 0x24 then some (((l.fw.map Firmware.serial).getD 0) / 2 ^ 32)
  else if within o 0x40 0x5C then some (rd ((l.fw.map Firmware.digest).getD []) (o - 0x40) 4)
  else if within o 0x60 0x7C then some (rd l.dbgNonce (o - 0x60) 4)
  else none

/-- KEY_STATE of a slot (R425). -/
def State.keyStateWord (s : State) (n : Nat) : Nat :=
  let k := s.slot n
  let a := attrState k.attrWord
  let blocked := a == 1 && s.lantus.debugEnabled && (s.keyPath n).any (fun m => !bit (s.slot m).attrWord 29)
  b2n blocked * 8 + b2n (k.attr.isNone || (a != 0 && k.broken)) * 4 + (if s.orphaned n then 3 else a)

/-- The key store and session registers (R425). -/
def State.viewKey (s : State) (o : Nat) : Option Nat :=
  if o = 4 then some (s.slot (s.regBits keyBase 5 0)).attrWord
  else if o = 8 then some (s.keyStateWord (s.regBits keyBase 5 0))
  else if within o 0x10 0x1C then some (s.slotStates / 2 ^ (32 * ((o - 0x10) / 4)) % 2 ^ 32)
  else if within o 0x100 0x160 then
    let x := s.session ((o - 0x100) / 4)
    some (2 ^ 8 * x.lastStatus.code + x.state.code)
  else none

/-- The DRBG and source registers (R446, R447). -/
def State.viewRng (s : State) (x : Nat) : Option Nat :=
  if x < 0x31900 then
    let d := s.drbg ((x - 0x30000) / 0x100)
    if x % 0x100 = 0 then
      some (2 ^ 31 * (bits (s.reg x) 31 31) + 2 ^ 16 * d.fatalSource + d.pool.length * 16 + b2n (decide (65536 ≤ d.count)) * 8 +
        (match d.state with | .off => 0 | .startup => 1 | .seeded => 2 | .reseedWait => 3 | .fatal => 4))
    else if x % 0x100 = 0x10 then some (min d.count (2 ^ 24))
    else none
  else if within x 0x34000 0x3463F ∧ x % 0x40 = 0 then
    let n := (x - 0x34000) / 0x40
    let y := s.source n
    some (2 ^ 16 * y.inSpan + 2 ^ 11 * ((if n = 24 then 0x1F else (s.drbgOf n).getD 0x1F)) + 2 ^ 8 * y.lastTest + y.state.code)
  else none

/-- The power, clock and thermal registers (R473). -/
def State.viewPwr (s : State) (o : Nat) : Option Nat :=
  let x := s.power
  if o = 0 then
    some (2 ^ 10 * x.target.code + 2 ^ 9 * (b2n (x.enterCmd.isSome || s.cmds.any (fun c => c.opcode == 0x30))) + x.state.code)
  else if o = 8 then some x.wakeCauses
  else if o = 0x10 then some (2 ^ 16 * x.avsAcked + x.avsRequested)
  else if o = 0x40 then some (2 ^ 16 * s.hottest.1 + readingField s.hottest.2)
  else if o = 0x44 then some (2 ^ 16 * (b2n (s.parts.any Partition.floorClosed)) + x.g)
  else if within o 0x100 0x15C then
    let p := (o - 0x100) / 4
    some (2 ^ 16 * (s.permille p) + s.stretchOf p)
  else none

/-- The trouble-log registers (R492). -/
def State.viewLog (s : State) (o : Nat) : Option Nat :=
  if o = 0 then some ((s.log.ring.getLast?.map LogEntry.seq).getD 0)
  else if within o 0x100 0x41F then
    let v := (o - 0x100) / 0x20
    if o % 0x20 = 4 then some (s.view v).cursor
    else if o % 0x20 = 8 then some (s.pendingOf v).length
    else none
  else none

/-! ## All registers -/

/-- The part of a register's word that shows state kept outside the register file. -/
def State.viewOf (s : State) (x : Nat) : Option Nat :=
  if x < 0x10000 then s.viewGlb x
  else if x < 0x18000 then s.viewLnt (x - lntBase)
  else if x < 0x20000 then
    if x = fplBase then
      some (2 ^ 8 * (bits (s.reg x) 23 8) + (if s.plan.loading.isSome then 1 else if s.plan.inForce then 2 else 0))
    else none
  else if x < 0x30000 then s.viewKey (x - keyBase)
  else if x < 0x40000 then s.viewRng x
  else if x < 0x50000 then s.viewPwr (x - pwrBase)
  else if x < 0x60000 then s.viewLog (x - logBase)
  else if within x 0x100000 0x10FFFF then s.viewStl x
  else if within x 0x110000 0x127FFF then s.viewStlp ((x - 0x110000) / 0x1000) (x % 0x1000)
  else if within x 0x200000 0x218FFF then s.viewHq ((x - 0x200000) / 0x1000) (x % 0x1000)
  else if within x 0x220000 0x220FFF then s.viewHif (x - hifBase)
  else if within x 0x280000 0x285FFF then s.viewRnd ((x - 0x280000) / 0x400) (x % 0x400)
  else if within x 0x28C000 0x28D7FF ∧ x % 0x100 = 0 then
    some (2 ^ 8 * (bits (s.reg x) 23 8) + (s.part ((x - 0x28C000) / 0x100)).image.state.code)
  else if within x 0x1000000 0x27FFFFF then s.viewWell ((x - 0x1000000) / 0x100000) (x % 0x100000)
  else none

/-- The value of a register, RNG_DATA and the reader's latches apart: reserved bits, WO fields and reserved offsets read as zero (R11, R15, R31). -/
def State.regValue (s : State) (x : Nat) : Nat :=
  match regRow x with
  | none => 0
  | some r => ((s.viewOf x).getD (s.reg x)) &&& r.mask (fun a => a != .wo)

end Sys2Proof.Machine
end

