-- ==== Sys2Proof/Machine/RegAccess.lean ====
section
/-! DEFINITION. Register and doorbell accesses (00_scope.md R10 to R18; 10_host_interface.md R358 to R368, R382; the actions of the register tables). -/

namespace Sys2Proof.Machine

open Sys2Proof

/-! ## Where an access falls (R29, R31, R358 to R360) -/

/-- Where an access of a reader or writer falls. `memory` is a device physical address above the register space, of Lantus or the debug port; `msix` is a
word of the function's MSI-X table and `pba` one of its pending bits; `outside` is an offset that no BAR maps. -/
inductive Spot where
  | register (x : Nat)
  | memory (addr : Nat)
  | window (o : Nat)
  | doorbell (q : Nat) (cq : Bool)
  | msix (vec word : Nat)
  | pba (word : Nat)
  | reserved
  | outside
  deriving DecidableEq, Repr

/-- Offset in its well's block that an offset of a well window shows (R360). -/
def windowOffset (y : Nat) : Option Nat :=
  if y < 0x1900 then some (0x1000 * (y / 0x100) + y % 0x100)
  else if within y 0x2000 0x5FFF then some (0x20000 + (y - 0x2000))
  else if within y 0x6000 0x63FF then some (0x30000 + (y - 0x6000))
  else if within y 0x6400 0x64FF then some (0x40000 + (y - 0x6400))
  else if within y 0x6500 0x65FF then some (0x50000 + (y - 0x6500))
  else if within y 0x6600 0x67FF then some (0x60000 + (y - 0x6600))
  else if within y 0x6800 0x68FF then some (0x68000 + (y - 0x6800))
  else none

/-- The BAR0 window of the VF of a partition (R359). -/
def State.vfSpot (s : State) (p o : Nat) : Spot :=
  if 0x100000 ≤ o then .outside
  else if o = 0 ∨ o = 4 then .register o
  else if o = 8 ∨ o = 0xC then .window o
  else if within o 0x1000 0x13FF then .register (rndBase p + (o - 0x1000))
  else if within o 0x1400 0x14FF then .register (mskBase p + (o - 0x1400))
  else if within o 0x1500 0x15FF then .register (ctxBase p + (o - 0x1500))
  else if within o 0x1600 0x16FF then .register (rfsBase p + (o - 0x1600))
  else if within o 0x1700 0x17FF then .register (imgBase p + (o - 0x1700))
  else if within o 0x2000 0x2FFF then .register (hqBase (p + 1) + (o - 0x2000))
  else if within o 0x3000 0x3FFF then .register (stlpBase p + (o - 0x3000))
  else if o < 0x8000 then .reserved
  else match (s.wellsOf p)[(o - 0x8000) / 0x8000]?, windowOffset ((o - 0x8000) % 0x8000) with
  | some w, some y => .register (wellBase w + y)
  | _, _ => .reserved

/-- MSI-X vectors of a function (R376). -/
def vectorsOf (f : Nat) : Nat := if f = 0 then 512 else 64

/-- Where an access falls (R358). Lantus and the debug port use device physical addresses. -/
def State.spotOf (s : State) (a : RegAccess) : Spot :=
  if a.bar = 2 ∧ a.who < 25 then
    let n := vectorsOf a.who
    if within a.offset 0x800000 (0x800000 + 16 * n - 1) then .msix ((a.offset - 0x800000) / 16) (a.offset % 16 / 4)
    else if within a.offset 0x900000 (0x900000 + n / 8 - 1) then .pba ((a.offset - 0x900000) / 4)
    else if 0x800000 ≤ a.offset then .outside
    else if a.offset < 0x20000 ∧ a.offset % 0x1000 = 0 then .doorbell (a.offset / 0x1000) false
    else if a.offset < 0x20000 ∧ a.offset % 0x1000 = 4 then .doorbell (a.offset / 0x1000) true
    else .reserved
  else if 25 ≤ a.who then if a.offset < 0x4000000 then .register a.offset else .memory a.offset
  else if a.who = 0 then if a.offset < 0x4000000 then .register a.offset else .outside
  else s.vfSpot (a.who - 1) a.offset

/-- The master of an access (R34, R361). -/
def accessMaster (who : Nat) : Master := if who < 25 then fnMaster who else if who = 25 then ⟨0, 0x1F⟩ else ⟨0x6000, 0x1F⟩

/-- Does an access reach the block: the clocks run, the link is up, its stream not Insecure (R380) and the function exists, Lantus's processor runs, or debug is enabled (R399)? -/
def State.accessible (s : State) (who : Nat) : Bool :=
  s.alive &&
    (if who < 25 then s.host.up && !s.streamBad who && decide (who ≤ s.host.numVfs ∨ who = 0)
     else if who = 25 then s.lantus.state != .off && s.lantus.state != .restarting else s.lantus.debugEnabled)

/-- Is the device in P2 or P3? -/
def State.asleep (s : State) : Bool := s.life == .running && (s.power.state == .p2 || s.power.state == .p3)

/-- An access that reaches the device in P2 or P3 is served once P0 is reached; a host that sends one has moved the link out of L1 (R459). -/
def State.hold (s : State) (write : Bool) (a : RegAccess) : State :=
  if s.asleep ∧ s.host.up ∧ !s.streamBad a.who ∧ a.who < 25 ∧ (a.who = 0 ∨ a.who ≤ s.host.numVfs) then
    let s1 := if s.host.inL1 then ({ s with host := { s.host with inL1 := false, lastTlp := s.devtime } } : State).wakeCause 3 else s
    { s1 with host := { s1.host with held := s1.host.held ++ [(write, a)] } }
  else s

/-- An access is activity: the link leaves L1, and P1 is left (R356, R459). -/
def State.arrive (s : State) (who : Nat) : State :=
  (if who < 25 then { s with host := { s.host with inL1 := false, lastTlp := s.devtime } } else s).activity

/-! ## Kinds of registers with an action of their own -/

/-- Registers whose writes have an action beyond their access types. -/
inductive RegKind where
  | plain
  | rndCtrl (p : Nat)
  | intEnable (status fn vec : Nat)
  | tileCtrl (t : TileRef)
  | mergeCtrl (w : Nat)
  | scrubCtrl (w : Nat)
  | cetCtrl (w : Nat)
  | cetInfo (w n : Nat)
  | portCtrl
  | hqCfg (f q : Nat)
  | evqCons (p : Nat)
  | mbxCmd
  | mbxStatus
  | thmMax
  deriving DecidableEq, Repr

/-- The kind of a register of a well's block. -/
def wellKind (w y : Nat) : RegKind :=
  if y < 0x19000 ∧ y % 0x1000 = 4 then .tileCtrl ⟨w, y / 0x1000⟩
  else if y = 0x30004 then .mergeCtrl w
  else if y = 0x50000 then .scrubCtrl w
  else if y = 0x60004 then .cetCtrl w
  else if within y 0x60100 0x601FF ∧ y % 16 = 8 then .cetInfo w ((y - 0x60100) / 16)
  else .plain

/-- The kind of a register. -/
def kindOf (x : Nat) : RegKind :=
  if x = lntBase then .mbxCmd
  else if x = lntBase + 0x14 then .mbxStatus
  else if x = pwrBase + 0x48 then .thmMax
  else if x = pwrBase + 0x54 then .intEnable (pwrBase + 0x50) 0 2
  else if x = logBase + 0x800 then .portCtrl
  else if within x 0x110000 0x127FFF ∧ x % 0x1000 = 0x18 then .evqCons ((x - 0x110000) / 0x1000)
  else if within x 0x200000 0x218FFF ∧ within (x % 0x1000) 0x100 0x8FF ∧ x % 0x40 = 0x10 then
    .hqCfg ((x - 0x200000) / 0x1000) ((x % 0x1000 - 0x100) / 0x40)
  else if within x 0x280000 0x285FFF ∧ x % 0x400 = 0x18 then .rndCtrl ((x - 0x280000) / 0x400)
  else if within x 0x280000 0x285FFF ∧ x % 0x400 = 0x4C then .intEnable (x - 4) ((x - 0x280000) / 0x400 + 1) 0
  else if within x 0x1000000 0x27FFFFF then wellKind ((x - 0x1000000) / 0x100000) (x % 0x100000)
  else .plain

/-! ## Locks and access types (R15, R18) -/

/-- Does the lock of R18 hold on a register: its partition's at image load, any other at floor-plan load? -/
def State.locked (s : State) (x : Nat) : Bool :=
  if within x 0x280000 0x285FFF then s.lockParts.contains ((x - 0x280000) / 0x400)
  else if within x 0x286000 0x28BFFF then s.lockParts.contains (x % 0x2000 / 0x100)
  else if within x 0x1000000 0x27FFFFF then
    let p := s.owner ((x - 0x1000000) / 0x100000)
    if p < 24 then s.lockParts.contains p else s.lockGlobal
  else s.lockGlobal

/-- Is a write of a register turned away by a lock? -/
def State.lockedOut (s : State) (r : RegRow) (x : Nat) : Bool := r.mask (fun a => a == .rwl) != 0 && s.locked x

/-- A word written by the access types of its fields (R15): RW and RWL set, W1C clears the bits written 1, RC is cleared by any write. -/
def RegRow.written (r : RegRow) (old v : Nat) : Nat :=
  let keep := r.mask (fun a => a == .ro || a == .wo)
  (old &&& keep) ||| (v &&& r.writable) ||| (old &&& r.mask (fun a => a == .w1c) &&& (0xFFFFFFFF ^^^ v))

/-- What a clear of a register leaves of its W1C and RC fields: what the device has set or counted there in the same tick (R16, R17). -/
def State.survives (s : State) (r : RegRow) (x : Nat) : Nat :=
  ((s.freshAt x).getD (0, 0)).1 &&& r.mask (fun a => a == .w1c || a == .rc)

/-- Write one register's word by its access types. -/
def State.typedWrite (s : State) (x v : Nat) : State :=
  match regRow x with
  | some r => s.setReg x (r.written (s.reg x) v ||| s.survives r x)
  | none => s

/-! ## Actions -/

/-- RND_CTRL (R86): admission_hold is written, and close_intake acts in INTAKE; elsewhere it is counted. -/
def State.writeRndCtrl (s : State) (a : RegAccess) (p : Nat) : State :=
  let s1 := s.setBits (rndBase p + 0x18) 0 0 (a.value.toNat % 2)
  if bit a.value.toNat 1 then
    if (s.round p).state = .intake then s1.closeIntake p 0 else s1.discard a.who a.bar a.offset 4
  else s1

/-- An interrupt enable (R85, R473): a status bit already set raises the vector when its enable goes to 1. -/
def State.writeIntEnable (s : State) (x v status fn vec : Nat) : State :=
  let s1 := s.typedWrite x v
  if s1.reg x &&& (0xFFFFFFFF ^^^ s.reg x) &&& s.reg status ≠ 0 then s1.msix fn vec else s1

/-- SCRUB_CTRL.abort (R259). -/
def State.scrubStop (s : State) (w : Nat) : State :=
  if (s.well w).scrub = .running then s.modWell w (fun x => { x with scrub := .aborted }) else s

/-- The memory and bucket range that SCRUB_FIRST and SCRUB_LAST name: LPDDR5X or cistern, first and last bucket; none when the pass is refused (R259). -/
def State.scrubRange (s : State) (w : Nat) : Option (Bool × Nat × Nat) :=
  let a := s.reg64 (scrubBase w + 8)
  let b := s.reg64 (scrubBase w + 0x10)
  if a % 64 ≠ 0 ∨ b % 64 ≠ 0 then none
  else match memoryAt a, memoryAt b with
  | some (la, wa, oa), some (lb, wb, ob) => if la = lb ∧ wa = w ∧ wb = w ∧ oa ≤ ob then some (la, oa / 64, ob / 64) else none
  | _, _ => none

/-- SCRUB_CTRL.start (R259, R268): a pass starts with its tallies at zero, or is refused; while one runs it is counted. -/
def State.scrubBegin (s : State) (a : RegAccess) (w : Nat) : State :=
  if (s.well w).scrub = .running then s.discard a.who a.bar a.offset 4
  else
    let s1 := s.clearRegs (scrubBase w + 0x18) (scrubBase w + 0x38)
    match s.scrubRange w with
    | none => s1.modWell w (fun x => { x with scrub := .refused })
    | some (lp, b, e) => s1.modWell w (fun x => { x with scrub := .running, scrubLpx := lp, scrubNext := b, scrubLast := e })

/-- SCRUB_CTRL: an abort comes before a start of the same write. -/
def State.writeScrub (s : State) (a : RegAccess) (w : Nat) : State :=
  let s1 := if bit a.value.toNat 1 then s.scrubStop w else s
  if bit a.value.toNat 0 then s1.scrubBegin a w else s1

/-- One bit of SVC_PORT_CTRL.admin_down (R489, R338, R346): 1 takes the port down, 0 starts its training; event 0x0D02 at a change. -/
def State.adminPort (s : State) (n : Nat) (down : Bool) : State :=
  if (s.port n).admin = down then s
  else if down then
    (((s.dropPort n).modPort n (fun x => { x with admin := true, training := false })).raise 0x0D02 0x1F 0 [(8, n), (8, 1)])
  else (s.modPort n (fun x => { x with admin := false, training := true, downSince := s.devtime })).raise 0x0D02 0x1F 0 [(8, n), (8, 0)]

/-- SVC_PORT_CTRL (R489). -/
def State.writePorts (s : State) (x v : Nat) : State := ((s.typedWrite x v).adminPort 0 (bit v 0)).adminPort 1 (bit v 1)

/-- Are sq_log, cq_log and the vector of an HQ_CFG word legal (R365, R376)? -/
def cfgLegal (f v : Nat) : Bool :=
  within (bits v 4 0) 4 16 && within (bits v 12 8) 4 16 && (if f = 0 then within (bits v 24 16) 8 511 else within (bits v 24 16) 3 63)

/-- A queue pair becomes ACTIVE with its indexes at zero and phase 1 (R368). -/
def State.enableQueue (s : State) (f q : Nat) : State :=
  s.modQueue f q (fun x => { x with state := .active, sqHead := 0, sqTail := 0, cqHead := 0, cqTail := 0, phase := true })

/-- HQ_CFG (R365, R368, R382). -/
def State.writeCfg (s : State) (a : RegAccess) (f q x : Nat) : State :=
  let v := a.value.toNat
  let w := v &&& 0x01FF1F1F
  if (s.queue f q).state = .disabled then
    if !cfgLegal f v then s.discard a.who a.bar a.offset 2
    else if bit v 31 then
      if s.sqBase f q % 4096 ≠ 0 ∨ s.cqBase f q % 4096 ≠ 0 then s.discard a.who a.bar a.offset 4
      else (s.typedWrite x v).enableQueue f q
    else s.typedWrite x v
  else if w ≠ s.reg x &&& 0x01FF1F1F then s.discard a.who a.bar a.offset 4
  else
    let s1 := s.typedWrite x v
    let st := (s.queue f q).state
    if !bit v 31 ∧ (st = .active ∨ st = .error) then s1.modQueue f q (fun y => { y with state := .draining }) else s1

/-- STLP_EVQ_CONS (R347): the index is written; when space has returned, one RING_LOST record carries the count of the records lost. -/
def State.writeEvqCons (s : State) (x v p : Nat) : State :=
  let s1 := s.typedWrite x v
  let n := (s.part p).evqLost
  if n = 0 ∨ s1.reg (stlpBase p + 0x10) = 0 ∨ !s1.host.up ∨ s1.ringFull p then s1
  else (s1.modPart p (fun y => { y with evqLost := 0 })).ringWrite p (Machine.eventRecord 0x09 .ok p 0 s.devtime n 0)

/-- LNT_MBX_CMD (R407, R424): the opcode is written; start begins a request, and an undefined opcode completes with FORMAT. While busy it is counted. -/
def State.writeMbx (s : State) (a : RegAccess) : State :=
  let v := a.value.toNat
  let s1 := s.typedWrite lntBase v
  if !bit v 31 then s1
  else if s.lantus.mbxBusy then s1.discard a.who a.bar a.offset 4
  else
    let s2 := s1.modLantus (fun l => { l with mbxBusy := true, mbxOp := v % 256 })
    if within (v % 256) 1 7 then s2 else s2.mbxComplete .format

/-- The action of a write that is not discarded before it. -/
def State.actOn (s : State) (a : RegAccess) (x : Nat) : State :=
  let v := a.value.toNat
  match kindOf x with
  | .plain => s.typedWrite x v
  | .rndCtrl p => s.writeRndCtrl a p
  | .intEnable status fn vec => s.writeIntEnable x v status fn vec
  | .tileCtrl t => if bit v 0 then let r := s.startSelfTest t none; if r.2 then r.1 else s.discard a.who a.bar a.offset 4 else s
  | .mergeCtrl w => if bit v 0 then s.flushMerge false w else s
  | .scrubCtrl w => s.writeScrub a w
  | .cetCtrl w => if bit v 0 then s.modWell w (fun y => { y with cet := List.replicate 16 none }) else s
  | .cetInfo w n =>
    if bit v 31 && !bit ((s.freshAt x).getD (0, 0)).1 31 then s.modWell w (fun y => { y with cet := updAt y.cet n (fun _ => none) }) else s
  | .portCtrl => s.writePorts x v
  | .hqCfg f q => s.writeCfg a f q x
  | .evqCons p => s.writeEvqCons x v p
  | .mbxCmd => s.writeMbx a
  | .mbxStatus => if bit v 30 && !bit ((s.freshAt x).getD (0, 0)).1 30 then s.modLantus (fun l => { l with mbxDone := false }) else s
  | .thmMax => s.setReg x (readingField s.hottest.2)

/-- Would a pair's write change the base pair of a queue that is not DISABLED (R365)? -/
def State.basesFixed (s : State) (lo v : Nat) : Bool :=
  within lo 0x200000 0x218FFF && within (lo % 0x1000) 0x100 0x8FF &&
    (s.queue ((lo - 0x200000) / 0x1000) ((lo % 0x1000 - 0x100) / 0x40)).state != .disabled && s.reg64 lo != v

/-- The write of the high half of a pair (R12, R14, R18, R365). -/
def State.writePair (s : State) (a : RegAccess) (r : RegRow) (x : Nat) : State :=
  let lo := s.staged a.who (x - 4)
  let hi := a.value.toNat
  let s1 := s.unstage a.who (x - 4)
  if s.lockedOut r x then s1.discard a.who a.bar a.offset 3
  else if !encodingLegal (x - 4) lo || !encodingLegal x hi then s1.discard a.who a.bar a.offset 2
  else if s.basesFixed (x - 4) (lo + 2 ^ 32 * hi) then s1.discard a.who a.bar a.offset 4
  else (s1.putFields (x - 4) lo).putFields x hi

/-- A write that reaches its register (R12, R14, R18, R31). -/
def State.putReg (s : State) (a : RegAccess) (x : Nat) : State :=
  match regRow x with
  | none => s.discard a.who a.bar a.offset 1
  | some r =>
    if r.writable ≠ 0 ∧ r.half = .low then s.stage a.who x a.value.toNat
    else if r.writable ≠ 0 ∧ r.half = .high then s.writePair a r x
    else if s.lockedOut r x then s.discard a.who a.bar a.offset 3
    else if !encodingLegal x a.value.toNat then s.discard a.who a.bar a.offset 2
    else s.actOn a x

/-- A doorbell write (R366). -/
def State.doorbell (s : State) (a : RegAccess) (q : Nat) (cq : Bool) : State :=
  let f := a.who
  let v := a.value.toNat
  let x := s.queue f q
  let bad := if cq then decide (s.cqSize f q ≤ v ∨ s.cqUsed f q < (v + s.cqSize f q - x.cqHead) % s.cqSize f q) else decide (s.sqSize f q ≤ v)
  if 65536 ≤ v ∨ x.state = .disabled then s.discard a.who a.bar a.offset 4
  else if bad then if x.state = .active then s.queueError f q .format else s.discard a.who a.bar a.offset 4
  else s.modQueue f q (fun y => if cq then { y with cqHead := v } else { y with sqTail := v })

/-- A write of Lantus or the debug port at a memory address: refused whole, or the enabled bytes are written (R32, R399, R512). -/
def State.memoryWrite (s : State) (a : RegAccess) (addr : Nat) : State :=
  let c := s.check (accessMaster a.who) addr 4 2
  if c.1.isSome then c.2
  else c.2.each (List.range 4) (fun t i => if bit a.be i then t.devWrite (addr + i) [BitVec.ofNat 8 (a.value.toNat / 256 ^ i)] else t)

/-- A write of a word of an MSI-X table entry (R358, R377): address, data or mask. -/
def State.writeMsixWord (s : State) (f vec word v : Nat) : State :=
  let e := s.msixEntry f vec
  s.setMsix f vec (match word with
    | 0 => { e with addr := e.addr / 2 ^ 32 * 2 ^ 32 + v }
    | 1 => { e with addr := e.addr % 2 ^ 32 + 2 ^ 32 * v }
    | 2 => { e with data := v }
    | _ => { e with masked := v % 2 == 1 })

/-- A write that has passed the test of its byte enables, by where it falls. -/
def State.placeWrite (s1 : State) (a : RegAccess) : State :=
  match s1.spotOf a with
  | .outside => s1
  | .memory x => s1.memoryWrite a x
  | .reserved => s1.discard a.who a.bar a.offset 1
  | .window _ | .pba _ => s1
  | .msix v w => s1.writeMsixWord a.who v w a.value.toNat
  | .doorbell q cq => s1.doorbell a q cq
  | .register x =>
    let c := s1.check (accessMaster a.who) x 4 2
    if c.1.isSome then c.2 else c.2.putReg a x

/-- Does an access fall at a memory address? -/
def Spot.isMemory : Spot → Bool
  | .memory _ => true
  | _ => false

/-- A write by its way to the register: a poisoned TLP and byte enables that are not all set are discarded, then the access check, then the register (R10,
R354, R361, R512). -/
def State.writeAt (s : State) (a : RegAccess) : State :=
  let s1 := s.arrive a.who
  if a.poisoned then s1.discard a.who a.bar a.offset 4
  else if a.be ≠ 15 ∧ !(s1.spotOf a).isMemory then s1.discard a.who a.bar a.offset 0
  else s1.placeWrite a

/-! ## Rows of writes -/

/-- The rows of the table that a write can be. -/
inductive WriteRow where
  | register | high | closeIntake | hold | intEnable | selfTest | flush | scrubStart | scrubAbort | clearAll | adminDown
  | enable | disable | sqTail | cqHead | evqCons
  deriving DecidableEq, Repr

/-- The row of a write, from where it falls and what it writes. -/
def State.rowOfWrite (s : State) (a : RegAccess) : WriteRow :=
  let v := a.value.toNat
  match s.spotOf a with
  | .doorbell _ cq => if cq then .cqHead else .sqTail
  | .register x =>
    match kindOf x with
    | .rndCtrl _ => if bit v 1 then .closeIntake else .hold
    | .intEnable _ _ _ => .intEnable
    | .tileCtrl _ => if bit v 0 then .selfTest else .register
    | .mergeCtrl _ => if bit v 0 then .flush else .register
    | .scrubCtrl _ => if bit v 0 then .scrubStart else if bit v 1 then .scrubAbort else .register
    | .cetCtrl _ => if bit v 0 then .clearAll else .register
    | .portCtrl => .adminDown
    | .hqCfg _ _ => if bit v 31 then .enable else .disable
    | .evqCons _ => .evqCons
    | _ => if (regRow x).any (fun r => r.writable != 0 && r.half == .high) then .high else .register
  | _ => .register

/-- A write as one of the rows: one of another row changes nothing; one that does not reach the block waits for P0 or changes nothing. -/
def State.writeAs (s : State) (row : WriteRow) (a : RegAccess) : State :=
  if s.rowOfWrite a ≠ row then s else if s.accessible a.who then s.writeAt a else s.hold true a

/-- REGISTER_WRITE (R15). -/
def execRegisterWrite (a : RegAccess) (s : State) : Result := .next (s.writeAs .register a)

/-- HI_WRITE (R14). -/
def execHiWrite (a : RegAccess) (s : State) : Result := .next (s.writeAs .high a)

/-- CLOSE_INTAKE (R86). -/
def execCloseIntake (a : RegAccess) (s : State) : Result := .next (s.writeAs .closeIntake a)

/-- ADMISSION_HOLD (R86). -/
def execAdmissionHold (a : RegAccess) (s : State) : Result := .next (s.writeAs .hold a)

/-- INT_ENABLE_WRITE (R85, R473). -/
def execIntEnableWrite (a : RegAccess) (s : State) : Result := .next (s.writeAs .intEnable a)

/-- SELF_TEST (R225). -/
def execSelfTest (a : RegAccess) (s : State) : Result := .next (s.writeAs .selfTest a)

/-- FLUSH (R237). -/
def execFlush (a : RegAccess) (s : State) : Result := .next (s.writeAs .flush a)

/-- SCRUB_START (R259). -/
def execScrubStart (a : RegAccess) (s : State) : Result := .next (s.writeAs .scrubStart a)

/-- SCRUB_ABORT (R259). -/
def execScrubAbort (a : RegAccess) (s : State) : Result := .next (s.writeAs .scrubAbort a)

/-- CLEAR_ALL (R269). -/
def execClearAll (a : RegAccess) (s : State) : Result := .next (s.writeAs .clearAll a)

/-- ADMIN_DOWN (R489). -/
def execAdminDown (a : RegAccess) (s : State) : Result := .next (s.writeAs .adminDown a)

/-- QUEUE_ENABLE (R365, R368). -/
def execQueueEnable (a : RegAccess) (s : State) : Result := .next (s.writeAs .enable a)

/-- QUEUE_DISABLE (R368). -/
def execQueueDisable (a : RegAccess) (s : State) : Result := .next (s.writeAs .disable a)

/-- SQ_TAIL_DOORBELL (R366). -/
def execSqTailDoorbell (a : RegAccess) (s : State) : Result := .next (s.writeAs .sqTail a)

/-- CQ_HEAD_DOORBELL (R366). -/
def execCqHeadDoorbell (a : RegAccess) (s : State) : Result := .next (s.writeAs .cqHead a)

/-- EVQ_CONS_WRITE (R347). -/
def execEvqConsWrite (a : RegAccess) (s : State) : Result := .next (s.writeAs .evqCons a)

/-! ## Reads (R10, R13, R15, R17, R443) -/

/-- The addressed bytes of a word under four byte enables (R10). -/
def enabledBytes (be v : Nat) : Nat := (List.range 4).foldl (fun a i => if bit be i then a + 256 ^ i * bits v (8 * i + 7) (8 * i) else a) 0

/-- Deliver the value of a read. -/
def State.deliver (s : State) (a : RegAccess) (v : Nat) : State := s.emit (.readData a.who (BitVec.ofNat 32 (enabledBytes a.be v)))

/-- The high half that a reader has latched for the pair whose _LO register is at an offset; zero when none (R13). -/
def State.latched (s : State) (who lo : Nat) : Nat := ((s.readLatch.find? (fun e => e.1 == who && e.2.1 == lo)).map (fun e => e.2.2.toNat)).getD 0

/-- Latch the high half of a pair for a reader (R13). -/
def State.latch (s : State) (who lo v : Nat) : State :=
  { s with readLatch := s.readLatch.filter (fun e => !(e.1 == who && e.2.1 == lo)) ++ [(who, lo, BitVec.ofNat 32 v)] }

/-- Clear the RC fields of a register that has been read (R15, R17): an increment of the same tick stays, and a second clear of that tick finds nothing
before it; a clear of THM_MAX sets it to the current reading (R473). -/
def State.readClears (s : State) (r : RegRow) (x : Nat) : State :=
  let m := r.mask (fun a => a == .rc)
  if m = 0 then s
  else if kindOf x = .thmMax then s.setReg x (readingField s.hottest.2)
  else match s.freshAt x with
  | some e => (s.noteFresh x e.1 0).setReg x ((s.reg x &&& (0xFFFFFFFF ^^^ m)) ||| (e.1 &&& m))
  | none => s.setReg x (s.reg x &&& (0xFFFFFFFF ^^^ m))

/-- The value that a read returns: a counter that has counted in the same tick returns its value before that increment (R17). -/
def State.valueRead (s : State) (r : RegRow) (x : Nat) : Nat :=
  let m := r.mask (fun a => a == .rc)
  match s.freshAt x with
  | some e => if m = 0 then s.regValue x else (s.regValue x &&& (0xFFFFFFFF ^^^ m)) ||| (e.2 &&& m)
  | none => s.regValue x

/-- VF_PARTITION and VF_WELLS (R387). -/
def State.windowValue (s : State) (p o : Nat) : Nat :=
  if o = 8 then 2 ^ 16 * ((s.wellsOf p).length) + 2 ^ 8 * (b2n (s.formed p)) + p else (s.wellsOf p).foldl (fun a w => a + 2 ^ w) 0

/-- A word of an MSI-X table entry (R358). -/
def State.msixWord (s : State) (f vec word : Nat) : Nat :=
  let e := s.msixEntry f vec
  match word with
  | 0 => e.addr % 2 ^ 32
  | 1 => e.addr / 2 ^ 32
  | 2 => e.data
  | _ => b2n e.masked

/-- A word of the pending bits of a function (R358, R377). -/
def State.pbaWord (s : State) (f word : Nat) : Nat :=
  (List.range 32).foldl (fun a i => if (s.fn f).pba.contains (32 * word + i) then a + 2 ^ i else a) 0

/-- The value and the effects of a read that its register answers: RNG_DATA_LO draws, a low half latches the high one, a high half comes from the
latch, and RC fields clear (R13, R15, R443). -/
def State.readReg (s : State) (who x : Nat) : Nat × State :=
  match regRow x with
  | none => (0, s)
  | some r =>
    match r.half with
    | .high => (s.latched who (x - 4), s)
    | .low =>
      if within x 0x30000 0x318FF then
        let b := (x - 0x30000) / 0x100
        let st := bits (s.regValue (rngBase b)) 2 0
        match s.readRandom b who with
        | (some v, s1) => (v, s1.latch who x st)
        | (none, s1) => (0, ((s1.setBits (rngBase b) 31 31 1).count (rngBase b + 0x18)).latch who x (2 ^ 31 + st))
      else (s.regValue x, s.latch who x (s.regValue (x + 4)))
    | .single => (s.valueRead r x, s.readClears r x)

/-- A read of Lantus or the debug port at a memory address: zero when refused; an uncorrectable bucket returns a free value (R32, R233, R512). -/
def State.memoryRead (s : State) (a : RegAccess) (addr : Nat) : State :=
  let c := s.check (accessMaster a.who) addr 4 1
  if c.1.isSome then c.2.deliver a 0
  else
    let r := c.2.devRead 0 addr 4
    if r.2.1 then let d := r.2.2.draw; d.2.deliver a (d.1 % 2 ^ 32) else r.2.2.deliver a (leNat r.1)

/-- A read by its way to the register; a refused read returns zero (R32, R37, R361, R512). -/
def State.readAt (s : State) (a : RegAccess) : State :=
  let s1 := s.arrive a.who
  match s1.spotOf a with
  | .outside => s1
  | .reserved | .doorbell _ _ => s1.deliver a 0
  | .window o => s1.deliver a (s1.windowValue (a.who - 1) o)
  | .msix v w => s1.deliver a (s1.msixWord a.who v w)
  | .pba w => s1.deliver a (s1.pbaWord a.who w)
  | .memory x => s1.memoryRead a x
  | .register x =>
    let c := s1.check (accessMaster a.who) x 4 1
    if c.1.isSome then c.2.deliver a 0
    else let v := c.2.readReg a.who x; v.2.deliver a v.1

/-- The rows of the table that a read can be. -/
inductive ReadRow where
  | register | low | random
  deriving DecidableEq, Repr

/-- The row of a read. -/
def State.rowOfRead (s : State) (a : RegAccess) : ReadRow :=
  match s.spotOf a with
  | .register x =>
    if (regRow x).any (fun r => r.half == .low) then if within x 0x30000 0x318FF then .random else .low else .register
  | _ => .register

/-- A read as one of the rows. -/
def State.readAs (s : State) (row : ReadRow) (a : RegAccess) : State :=
  if s.rowOfRead a ≠ row then s else if s.accessible a.who then s.readAt a else s.hold false a

/-- REGISTER_READ_CLEAR (R17); a register without RC fields is read with no effect on it. -/
def execRegisterReadClear (a : RegAccess) (s : State) : Result := .next (s.readAs .register a)

/-- LO_READ (R13). -/
def execLoRead (a : RegAccess) (s : State) : Result := .next (s.readAs .low a)

/-- RNG_DATA_READ (R443). -/
def execRngDataRead (a : RegAccess) (s : State) : Result := .next (s.readAs .random a)

end Sys2Proof.Machine
end

