-- ==== Sys2Proof/Machine/HostDma.lean ====
section
/-! DEFINITION. Host DMA (10_host_interface.md R373, R514). -/

namespace Sys2Proof.Machine

open Sys2Proof

/-- What a DMA is refused with before any byte moves (R373, R514). -/
def State.dmaRefusal (s : State) (k : Cmd) (need : Nat) : Option Status × State :=
  if s.dmaOwner k < 24 ∧ !s.hasDma (s.dmaOwner k) then (some .notReady, s)
  else if k.length = 0 ∨ 2147483648 < k.length then (some .lengthExceeds, s)
  else s.check (fnMaster k.fn) k.p1 k.length need

/-- Write bytes at a device address: in memory, or word by word at registers, where a word that is not covered whole is discarded (R10). -/
def State.dmaWrite (s : State) (k : Cmd) (bs : Bytes) : State :=
  if k.p1 < 0x4000000 then
    s.each (List.range (ceilDiv (k.p1 % 4 + bs.length) 4)) (fun t i =>
      let x := k.p1 / 4 * 4 + 4 * i
      let a : RegAccess := ⟨k.fn, 0, x, 15, BitVec.ofNat 32 (rd bs (x - k.p1) 4), false⟩
      if k.p1 ≤ x ∧ x + 4 ≤ k.p1 + bs.length then t.putReg a x else t.discard k.fn 0 x 0)
  else s.devWrite k.p1 bs

/-- Read bytes of the registers from a device address, word by word. -/
def State.dmaReadRegs (s : State) (k : Cmd) : Bytes × State :=
  let r := (List.range (ceilDiv (k.p1 % 4 + k.length) 4)).foldl (fun (e : Bytes × State) i =>
    let v := e.2.readReg k.fn (k.p1 / 4 * 4 + 4 * i)
    (e.1 ++ toLE v.1 4, v.2)) (([] : Bytes), s)
  (slice r.1 (k.p1 % 4) k.length, r.2)

/-- A DMA that fails after bytes may have moved: event 0x0908, and the result gives their number. -/
def State.dmaFailed (s : State) (k : Cmd) (moved : Nat) : State :=
  (s.raise 0x0908 (tagOfFn k.fn) (masterOfFn k.fn) [(8, k.fn), (16, k.id), (8, Status.uncorrectable.code), (32, moved)]).complete k .uncorrectable moved 0

/-- DMA_TO_DEVICE (R373): the bytes read from the host are written, those before a failed read too. -/
def execDmaToDevice (c : CmdRef) (s : State) : Result :=
  match s.ready c 0x10 with
  | none => .next s
  | some k =>
    match s.dmaRefusal k 2 with
    | (some st, t) => .next (t.complete k st 0 0)
    | (none, t) =>
      if k.readFailed then .next ((t.dmaWrite k k.data).dmaFailed k k.data.length)
      else if k.data.length < k.length then .next s
      else .next ((t.dmaWrite k k.data).complete k .ok k.length 0)

/-- Read `n` buckets from a bucket-aligned address, up to the first that is uncorrectable. -/
def State.readGood (s : State) : Nat → Nat → Bytes × Bool × State
  | 0, _ => ([], false, s)
  | n + 1, addr =>
    let r := s.readBuckets 0 1 addr
    if r.2.1 then ([], true, r.2.2)
    else
      let q := r.2.2.readGood n (addr + 64)
      (r.1 ++ q.1, q.2.1, q.2.2)

/-- DMA_TO_HOST (R233, R373, R383): an uncorrectable bucket ends it, and nothing of that bucket or after it is written; what its function's reset or the
loss of the link has left without a queue moves nothing more. -/
def execDmaToHost (c : CmdRef) (s : State) : Result :=
  match s.ready c 0x11 with
  | none => .next s
  | some k =>
    if k.orphan then .next (s.complete k .aborted 0 0)
    else match s.dmaRefusal k 1 with
    | (some st, t) => .next (t.complete k st 0 0)
    | (none, t) =>
      if k.p1 < 0x4000000 then
        let r := t.dmaReadRegs k
        .next ((r.2.hostWrite k.fn k.addr r.1).complete k .ok k.length 0)
      else
      let r := t.readGood (bucketsOf k.p1 k.length) (k.p1 / 64 * 64)
      let out := slice r.1 (k.p1 % 64) k.length
      let s1 := if out.isEmpty then r.2.2 else r.2.2.hostWrite k.fn k.addr out
      let s2 := if r.2.1 then s1.dmaFailed k out.length else s1.complete k .ok k.length 0
      .next (if s.owner ((memoryAt k.p1).elim 0 (fun e => e.2.1)) < 24 then s2.advance (s.owner ((memoryAt k.p1).elim 0 (fun e => e.2.1))) else s2)

end Sys2Proof.Machine
end

