-- ==== Sys2Proof/Machine/Wake.lean ====
section
/-! DEFINITION. The end of a wake sequence (07_cisterns_pumps.md R253; 13_power_clocks.md R459, R460). -/

namespace Sys2Proof.Machine

open Sys2Proof

/-- Serve the register accesses that arrived in P2 or P3, in their order (R459). -/
def State.serveHeld (s : State) : State :=
  ({ s with host := { s.host with held := [] } } : State).each s.host.held (fun t e => if e.1 then t.writeAt e.2 else t.readAt e.2)

/-- SELF_REFRESH_EXIT_DONE (R460, R253): each device leaves self-refresh or is declared failed; P0 is reached with event 0x0C04, and the accesses
that have waited for it are served (R459). The cycles that the
sequence counted, and the time it took from P3, are free values. -/
def execSelfRefreshExitDone (trained : List Bool) (s : State) : Result :=
  if s.life ≠ .running ∨ s.power.wake ≠ .selfRefresh then .next s
  else
    let s1 := s.each (List.range 24) (fun t w =>
      if (t.well w).lpxState = .selfRefresh then
        if trained.getD w true then t.modWell w (fun x => { x with lpxState := .ready }) else t.lpxFail w 0
      else t)
    let d := s1.draw
    let e := d.2.draw
    let us := if s.power.state = .p2 then (s.devtime - s.power.wakeStart) / 400 else e.1
    let s2 := e.2.modPower (fun x => { x with state := .p0, wake := .none })
    let s3 := (s2.raise 0x0C04 0x1F 0 [(8, s.power.state.code), (8, s.power.wakeCauses), (32, us), (32, d.1)]).powerInt 0
    .next (s3.wakeSources.trainPorts.serveHeld)

end Sys2Proof.Machine
end

