-- ==== Sys2Proof/Machine/Dispatch.lean ====
section
/-! DEFINITION. The dispatch of the commands: one arm per constructor of `Instr`. -/

namespace Sys2Proof.Machine

open Sys2Proof

/-- The effect of a command on everything but the queue. -/
def exec (i : Instr) (s : State) : Host.Outcome State Fault Refusal :=
  match i with
  | .nop c => Sys2Proof.Machine.execNop c s
  | .roundOpen c => Sys2Proof.Machine.execRoundOpen c s
  | .roundCloseIntake c => Sys2Proof.Machine.execRoundCloseIntake c s
  | .roundAbort c => Sys2Proof.Machine.execRoundAbort c s
  | .roundResume c => Sys2Proof.Machine.execRoundResume c s
  | .checkpointRead c => Sys2Proof.Machine.execCheckpointRead c s
  | .checkpointStored c => Sys2Proof.Machine.execCheckpointStored c s
  | .partitionReset c => Sys2Proof.Machine.execPartitionReset c s
  | .dmaToDevice c => Sys2Proof.Machine.execDmaToDevice c s
  | .dmaToHost c => Sys2Proof.Machine.execDmaToHost c s
  | .qpCreate c => Sys2Proof.Machine.execQpCreate c s
  | .qpDestroy c => Sys2Proof.Machine.execQpDestroy c s
  | .regionRegister c => Sys2Proof.Machine.execRegionRegister c s
  | .regionRevoke c => Sys2Proof.Machine.execRegionRevoke c s
  | .recvPost c => Sys2Proof.Machine.execRecvPost c s
  | .imageLoad c => Sys2Proof.Machine.execImageLoad c s
  | .floorplanLoad c => Sys2Proof.Machine.execFloorplanLoad c s
  | .tileRemap c => Sys2Proof.Machine.execTileRemap c s
  | .tileSelftest c => Sys2Proof.Machine.execTileSelftest c s
  | .bucketRetire c => Sys2Proof.Machine.execBucketRetire c s
  | .powerState c => Sys2Proof.Machine.execPowerState c s
  | .attestReport c => Sys2Proof.Machine.execAttestReport c s
  | .logDrain c => Sys2Proof.Machine.execLogDrain c s
  | .fwLoad data => Sys2Proof.Machine.execFwLoad data s
  | .keyProgram data => Sys2Proof.Machine.execKeyProgram data s
  | .keyInvalidate data => Sys2Proof.Machine.execKeyInvalidate data s
  | .fwFloorAdvance data => Sys2Proof.Machine.execFwFloorAdvance data s
  | .debugUnlock data => Sys2Proof.Machine.execDebugUnlock data s
  | .debugDisable => Sys2Proof.Machine.execDebugDisable s
  | .certInstall data => Sys2Proof.Machine.execCertInstall data s
  | .kexStart fn msg => Sys2Proof.Machine.execKexStart fn msg s
  | .kexFinish fn msg => Sys2Proof.Machine.execKexFinish fn msg s
  | .secMsg fn msg => Sys2Proof.Machine.execSecMsg fn msg s
  | .endSession fn msg => Sys2Proof.Machine.execEndSession fn msg s
  | .sessionStartExpiry p => Sys2Proof.Machine.execSessionStartExpiry p s
  | .kexEntropyTimeout p => Sys2Proof.Machine.execKexEntropyTimeout p s
  | .doeDiscovery fn index => Sys2Proof.Machine.execDoeDiscovery fn index s
  | .getVersion fn => Sys2Proof.Machine.execGetVersion fn s
  | .getCapabilities fn => Sys2Proof.Machine.execGetCapabilities fn s
  | .negotiateAlgorithms fn => Sys2Proof.Machine.execNegotiateAlgorithms fn s
  | .getDigests fn => Sys2Proof.Machine.execGetDigests fn s
  | .getCertificate fn offset length => Sys2Proof.Machine.execGetCertificate fn offset length s
  | .challenge fn nonce => Sys2Proof.Machine.execChallenge fn nonce s
  | .getMeasurements fn index => Sys2Proof.Machine.execGetMeasurements fn index s
  | .unsupportedRequest fn code => Sys2Proof.Machine.execUnsupportedRequest fn code s
  | .ideKm p m => Sys2Proof.Machine.execIdeKm p m s
  | .stopInterfaceRequest p fn => Sys2Proof.Machine.execStopInterfaceRequest p fn s
  | .registerWrite a => Sys2Proof.Machine.execRegisterWrite a s
  | .registerReadClear a => Sys2Proof.Machine.execRegisterReadClear a s
  | .loRead a => Sys2Proof.Machine.execLoRead a s
  | .hiWrite a => Sys2Proof.Machine.execHiWrite a s
  | .closeIntake a => Sys2Proof.Machine.execCloseIntake a s
  | .admissionHold a => Sys2Proof.Machine.execAdmissionHold a s
  | .intEnableWrite a => Sys2Proof.Machine.execIntEnableWrite a s
  | .rngDataRead a => Sys2Proof.Machine.execRngDataRead a s
  | .selfTest a => Sys2Proof.Machine.execSelfTest a s
  | .flush a => Sys2Proof.Machine.execFlush a s
  | .scrubStart a => Sys2Proof.Machine.execScrubStart a s
  | .scrubAbort a => Sys2Proof.Machine.execScrubAbort a s
  | .clearAll a => Sys2Proof.Machine.execClearAll a s
  | .adminDown a => Sys2Proof.Machine.execAdminDown a s
  | .queueEnable a => Sys2Proof.Machine.execQueueEnable a s
  | .queueDisable a => Sys2Proof.Machine.execQueueDisable a s
  | .sqTailDoorbell a => Sys2Proof.Machine.execSqTailDoorbell a s
  | .cqHeadDoorbell a => Sys2Proof.Machine.execCqHeadDoorbell a s
  | .evqConsWrite a => Sys2Proof.Machine.execEvqConsWrite a s
  | .commandFetch fn q entry => Sys2Proof.Machine.execCommandFetch fn q entry s
  | .queueDrained fn q => Sys2Proof.Machine.execQueueDrained fn q s
  | .hostReadCompletion c data => Sys2Proof.Machine.execHostReadCompletion c data s
  | .completionTimeout c => Sys2Proof.Machine.execCompletionTimeout c s
  | .msixUnmask fn vec => Sys2Proof.Machine.execMsixUnmask fn vec s
  | .linkDown cause => Sys2Proof.Machine.execLinkDown cause s
  | .linkUp width rate flit => Sys2Proof.Machine.execLinkUp width rate flit s
  | .l1IdleEntry => Sys2Proof.Machine.execL1IdleEntry s
  | .functionLevelReset fn => Sys2Proof.Machine.execFunctionLevelReset fn s
  | .ideIntegrityFail stream => Sys2Proof.Machine.execIdeIntegrityFail stream s
  | .tdiConfigChange fn ch => Sys2Proof.Machine.execTdiConfigChange fn ch s
  | .frameReceive port frame => Sys2Proof.Machine.execFrameReceive port frame s
  | .send port prio => Sys2Proof.Machine.execSend port prio s
  | .write port prio => Sys2Proof.Machine.execWrite port prio s
  | .readReq port prio => Sys2Proof.Machine.execReadReq port prio s
  | .ack port prio => Sys2Proof.Machine.execAck port prio s
  | .nak port prio => Sys2Proof.Machine.execNak port prio s
  | .complete port prio => Sys2Proof.Machine.execComplete port prio s
  | .close port prio => Sys2Proof.Machine.execClose port prio s
  | .packetCommit port prio => Sys2Proof.Machine.execPacketCommit port prio s
  | .readResponseSend qpn => Sys2Proof.Machine.execReadResponseSend qpn s
  | .recordSend qpn => Sys2Proof.Machine.execRecordSend qpn s
  | .ackTimer qpn cls => Sys2Proof.Machine.execAckTimer qpn cls s
  | .retransmitTimer qpn cls psn => Sys2Proof.Machine.execRetransmitTimer qpn cls psn s
  | .rnrDelayExpiry qpn psn => Sys2Proof.Machine.execRnrDelayExpiry qpn psn s
  | .pathProbe qpn path => Sys2Proof.Machine.execPathProbe qpn path s
  | .pfcRefresh port prio => Sys2Proof.Machine.execPfcRefresh port prio s
  | .xoffLong port prio => Sys2Proof.Machine.execXoffLong port prio s
  | .pfcFrameReceive port enables quanta => Sys2Proof.Machine.execPfcFrameReceive port enables quanta s
  | .pfcPauseExpiry port prio => Sys2Proof.Machine.execPfcPauseExpiry port prio s
  | .portDown port cause => Sys2Proof.Machine.execPortDown port cause s
  | .portUp port => Sys2Proof.Machine.execPortUp port s
  | .portRetrain port => Sys2Proof.Machine.execPortRetrain port s
  | .qpDrainComplete qpn => Sys2Proof.Machine.execQpDrainComplete qpn s
  | .regionInflightZero p region => Sys2Proof.Machine.execRegionInflightZero p region s
  | .admissionDecision qpn msn => Sys2Proof.Machine.execAdmissionDecision qpn msn s
  | .uploadWindowExpiry p client => Sys2Proof.Machine.execUploadWindowExpiry p client s
  | .uploadAccumulated p client => Sys2Proof.Machine.execUploadAccumulated p client s
  | .promiseDeadline p client => Sys2Proof.Machine.execPromiseDeadline p client s
  | .intakeCloseTime p => Sys2Proof.Machine.execIntakeCloseTime p s
  | .checkpointInterval p => Sys2Proof.Machine.execCheckpointInterval p s
  | .checkpointCut p => Sys2Proof.Machine.execCheckpointCut p s
  | .checkpointSealed p => Sys2Proof.Machine.execCheckpointSealed p s
  | .admissionReopen p => Sys2Proof.Machine.execAdmissionReopen p s
  | .batchTimerExpiry p => Sys2Proof.Machine.execBatchTimerExpiry p s
  | .settleWindowExpiry p => Sys2Proof.Machine.execSettleWindowExpiry p s
  | .unmaskMessage qpn msn => Sys2Proof.Machine.execUnmaskMessage qpn msn s
  | .dshareMessage qpn msn => Sys2Proof.Machine.execDshareMessage qpn msn s
  | .windlassEntry p => Sys2Proof.Machine.execWindlassEntry p s
  | .stretchActivation p => Sys2Proof.Machine.execStretchActivation p s
  | .stepLoop t => Sys2Proof.Machine.execStepLoop t s
  | .stepJump t => Sys2Proof.Machine.execStepJump t s
  | .stepSync t => Sys2Proof.Machine.execStepSync t s
  | .syncRelease p => Sys2Proof.Machine.execSyncRelease p s
  | .stepWait t => Sys2Proof.Machine.execStepWait t s
  | .queueEntryPosted p => Sys2Proof.Machine.execQueueEntryPosted p s
  | .stepDone t => Sys2Proof.Machine.execStepDone t s
  | .stepEnd t => Sys2Proof.Machine.execStepEnd t s
  | .stepTrap t => Sys2Proof.Machine.execStepTrap t s
  | .hdr t => Sys2Proof.Machine.execHdr t s
  | .tblchk t => Sys2Proof.Machine.execTblchk t s
  | .mmul t => Sys2Proof.Machine.execMmul t s
  | .mmac t => Sys2Proof.Machine.execMmac t s
  | .madd t => Sys2Proof.Machine.execMadd t s
  | .msub t => Sys2Proof.Machine.execMsub t s
  | .mneg t => Sys2Proof.Machine.execMneg t s
  | .radd t => Sys2Proof.Machine.execRadd t s
  | .rsub t => Sys2Proof.Machine.execRsub t s
  | .rneg t => Sys2Proof.Machine.execRneg t s
  | .fma t => Sys2Proof.Machine.execFma t s
  | .dot t => Sys2Proof.Machine.execDot t s
  | .cvt t => Sys2Proof.Machine.execCvt t s
  | .fest t => Sys2Proof.Machine.execFest t s
  | .logic t => Sys2Proof.Machine.execLogic t s
  | .clmul t => Sys2Proof.Machine.execClmul t s
  | .gfred t => Sys2Proof.Machine.execGfred t s
  | .keccak t => Sys2Proof.Machine.execKeccak t s
  | .sample t => Sys2Proof.Machine.execSample t s
  | .nttFwd t => Sys2Proof.Machine.execNttFwd t s
  | .nttInv t => Sys2Proof.Machine.execNttInv t s
  | .auto t => Sys2Proof.Machine.execAuto t s
  | .bcvScale t => Sys2Proof.Machine.execBcvScale t s
  | .bcvOut t => Sys2Proof.Machine.execBcvOut t s
  | .tableReload t => Sys2Proof.Machine.execTableReload t s
  | .aesKey t => Sys2Proof.Machine.execAesKey t s
  | .aesCtr t => Sys2Proof.Machine.execAesCtr t s
  | .gcmOpen t => Sys2Proof.Machine.execGcmOpen t s
  | .load t => Sys2Proof.Machine.execLoad t s
  | .store t => Sys2Proof.Machine.execStore t s
  | .pump t => Sys2Proof.Machine.execPump t s
  | .tileSend t => Sys2Proof.Machine.execTileSend t s
  | .recv t => Sys2Proof.Machine.execRecv t s
  | .keystream t => Sys2Proof.Machine.execKeystream t s
  | .turn t => Sys2Proof.Machine.execTurn t s
  | .stepfetch t => Sys2Proof.Machine.execStepfetch t s
  | .rngRead t => Sys2Proof.Machine.execRngRead t s
  | .watchdog t => Sys2Proof.Machine.execWatchdog t s
  | .windlassStop t => Sys2Proof.Machine.execWindlassStop t s
  | .transferCheckResult k r => Sys2Proof.Machine.execTransferCheckResult k r s
  | .ringAdd u => Sys2Proof.Machine.execRingAdd u s
  | .ringSub u => Sys2Proof.Machine.execRingSub u s
  | .modAdd u => Sys2Proof.Machine.execModAdd u s
  | .modSub u => Sys2Proof.Machine.execModSub u s
  | .axpy u => Sys2Proof.Machine.execAxpy u s
  | .smin u => Sys2Proof.Machine.execSmin u s
  | .smax u => Sys2Proof.Machine.execSmax u s
  | .zeroOp u => Sys2Proof.Machine.execZeroOp u s
  | .copyOp u => Sys2Proof.Machine.execCopyOp u s
  | .setCoef u => Sys2Proof.Machine.execSetCoef u s
  | .copyDescriptorStart well chan => Sys2Proof.Machine.execCopyDescriptorStart well chan s
  | .copyDescriptorDone well chan => Sys2Proof.Machine.execCopyDescriptorDone well chan s
  | .mergeIdleTimeout well bucket => Sys2Proof.Machine.execMergeIdleTimeout well bucket s
  | .correctedWordWriteback e bucket word => Sys2Proof.Machine.execCorrectedWordWriteback e bucket word s
  | .scrubRead well found => Sys2Proof.Machine.execScrubRead well found s
  | .tripleVoteScan => Sys2Proof.Machine.execTripleVoteScan s
  | .sourceSettleEnd n => Sys2Proof.Machine.execSourceSettleEnd n s
  | .noiseSample n raw => Sys2Proof.Machine.execNoiseSample n raw s
  | .drbgGenerate b => Sys2Proof.Machine.execDrbgGenerate b s
  | .reportSign c => Sys2Proof.Machine.execReportSign c s
  | .reportEntropyTimeout c => Sys2Proof.Machine.execReportEntropyTimeout c s
  | .imageInstall p => Sys2Proof.Machine.execImageInstall p s
  | .slotOwnerSwitch => Sys2Proof.Machine.execSlotOwnerSwitch s
  | .tileSelftestDone t failing => Sys2Proof.Machine.execTileSelftestDone t failing s
  | .powerOnReset => Sys2Proof.Machine.execPowerOnReset s
  | .deviceReset => Sys2Proof.Machine.execDeviceReset s
  | .resetRelease => Sys2Proof.Machine.execResetRelease s
  | .fwVerifyDone pauseUs => Sys2Proof.Machine.execFwVerifyDone pauseUs s
  | .bootSelftestDone r => Sys2Proof.Machine.execBootSelftestDone r s
  | .lantusFetchError data => Sys2Proof.Machine.execLantusFetchError data s
  | .pwrFailN => Sys2Proof.Machine.execPwrFailN s
  | .pwrFailDeassert => Sys2Proof.Machine.execPwrFailDeassert s
  | .powerLoss => Sys2Proof.Machine.execPowerLoss s
  | .wakeN => Sys2Proof.Machine.execWakeN s
  | .mgmtAddressMatch dynamic addr => Sys2Proof.Machine.execMgmtAddressMatch dynamic addr s
  | .pcieL1Exit => Sys2Proof.Machine.execPcieL1Exit s
  | .avsVdone mv => Sys2Proof.Machine.execAvsVdone mv s
  | .avsTimeout => Sys2Proof.Machine.execAvsTimeout s
  | .pllLock => Sys2Proof.Machine.execPllLock s
  | .pllLockLost => Sys2Proof.Machine.execPllLockLost s
  | .vRunAdjust up => Sys2Proof.Machine.execVRunAdjust up s
  | .telemetryPoll fail powerW currentA => Sys2Proof.Machine.execTelemetryPoll fail powerW currentA s
  | .thermalSample readings => Sys2Proof.Machine.execThermalSample readings s
  | .thermalTrip => Sys2Proof.Machine.execThermalTrip s
  | .governorPeriod => Sys2Proof.Machine.execGovernorPeriod s
  | .vrAlertN => Sys2Proof.Machine.execVrAlertN s
  | .logWrite => Sys2Proof.Machine.execLogWrite s
  | .lockInterfaceRequest p fn => Sys2Proof.Machine.execLockInterfaceRequest p fn s
  | .startInterfaceRequest p fn => Sys2Proof.Machine.execStartInterfaceRequest p fn s
  | .getDeviceInterfaceReport p fn => Sys2Proof.Machine.execGetDeviceInterfaceReport p fn s
  | .selfRefreshExitDone trained => Sys2Proof.Machine.execSelfRefreshExitDone trained s
  | .lpxFailed well => Sys2Proof.Machine.execLpxFailed well s
  | .fwCopyVerified ok => Sys2Proof.Machine.execFwCopyVerified ok s
  | .kexReport p => Sys2Proof.Machine.execKexReport p s

end Sys2Proof.Machine
end

