-- ==== Sys2Proof/Machine/Tick.lean ====
section
/-! DEFINITION. What one tick of DEVTIME does (R19, R60, R63, R86, R457). -/

namespace Sys2Proof.Machine

open Sys2Proof

/-- The part of a tick that concerns one partition: admission_hold counts from the tick after its write (R86), and a complete cohort closes intake (R60). -/
def State.tickPart (s : State) (p : Nat) : State :=
  let s1 := s.modPart p (fun x => { x with holdNow := s.regBits (rndBase p + 0x18) 0 0 == 1 })
  if (s1.round p).closeDue then s1.closeIntake p 2 else s1

/-- An entry of P2 or P3 ends when a refuser's condition arises before its commit (R458), and is committed once it has run for 200 us (R457, log entry 14). -/
def State.tickPower (s : State) : State :=
  match s.power.enterCmd.bind (fun c => s.cmds.find? (fun k => k.is c)) with
  | some k =>
    if k.startTime + ticksOfUs 200 ≤ s.devtime ∧ s.serves then s.commitEntry
    else match s.refuser s.power.target k.ref with
    | some r => s.abortEntry r
    | none => s
  | none => s

/-- What DEVTIME advances by in one cycle of the clock that drives it: 4 in P2, from the core reference, and 1 otherwise (R450). -/
def State.tickLength (s : State) : Nat := if s.power.state = .p2 ∧ s.power.pllLocked = false then 4 else 1

/-- With the tick that follows a multiple of 1 ms a governor period begins: no reading is taken yet, and no alert has come (R464, R466, R467). -/
def State.nextPeriod (s : State) : State :=
  if s.devtime % 400000 = 0 then s.modPower (fun x => { x with periodMax := none, vrAlert := false }) else s

/-- The traps of the tick that ends are taken by their rounds (R217). -/
def State.settleTraps (s : State) : State := s.each (List.range 24) State.settleTrap

/-- What the tick that ends has brought about is taken: units at unarmed ports (R202), traps (R217), and LPDDR5X devices at their limit of failed reads
(R253). -/
def State.settleTick (s : State) : State := (s.each (List.range 24) State.settlePorts).settleTraps.each (List.range 24) State.lpxReadLimit

/-- One tick of DEVTIME; nothing happens while DEVTIME stands still (R450). -/
def tick (s : State) : State :=
  if s.timeRuns then ((({ s.settleTick.nextPeriod with devtime := s.devtime + s.tickLength } : State).each (List.range 24) State.tickPart).watchFloor).tickPower else s

end Sys2Proof.Machine
end

