-- ==== Sys2Proof/Safety.lean ====
section
/-! DEFINITION. What a safe run is, and the words in which the statements say what a command leaves unchanged. -/

namespace Sys2Proof

open Sys2Proof.Machine

/-- `k` steps from a state all answer a next state. -/
def SafeRun (k : Nat) (s : State) : Prop := ∃ t, core.run k s = .next t

namespace Machine

/-! ## Frames: everything of a kind but what is named reads as before -/

/-- Every register but those listed reads as before. -/
def OnlyRegs (s t : State) (l : List Nat) : Prop := ∀ x, x ∉ l → t.reg x = s.reg x

/-- Every well but one is as before. -/
def OnlyWell (s t : State) (w : Nat) : Prop := ∀ v, v ≠ w → t.well v = s.well v

/-- Every partition but one is as before. -/
def OnlyPart (s t : State) (p : Nat) : Prop := ∀ q, q ≠ p → t.part q = s.part q

/-- Every function but one is as before. -/
def OnlyFn (s t : State) (f : Nat) : Prop := ∀ g, g ≠ f → t.fn g = s.fn g

/-- Every Strelul queue pair but one is as before. -/
def OnlyQp (s t : State) (n : Nat) : Prop := ∀ m, m ≠ n → t.qp m = s.qp m

/-- Every intake but one is as before. -/
def OnlyIntake (s t : State) (port prio : Nat) : Prop := ∀ k, k ≠ port * 8 + prio → t.intakes[k]? = s.intakes[k]?

/-- Every noise source but one is as before. -/
def OnlySource (s t : State) (n : Nat) : Prop := ∀ m, m ≠ n → t.source m = s.source m

/-- Every DRBG but one is as before. -/
def OnlyDrbg (s t : State) (b : Nat) : Prop := ∀ c, c ≠ b → t.drbg c = s.drbg c

/-! ## Device memory as software sees it -/

/-- The byte a read of a cistern address returns: the merge buffer's where it holds one, else the bank's (R237). -/
def Well.seen (x : Well) (a : Nat) : Byte :=
  match x.merge.find? (fun e => e.bucket == a / 64) with
  | some e => if e.mask.getD (a % 64) false then e.data.getD (a % 64) 0 else memByte x.cis a
  | none => memByte x.cis a

/-- The form of a well's cistern and merge buffer: canonical memory, one entry a bucket, 64 bytes and 64 mask bits an entry. -/
def Well.cisOk (x : Well) : Prop :=
  x.cis.wf ∧ x.merge.Pairwise (fun a b => a.bucket ≠ b.bucket) ∧ ∀ e ∈ x.merge, e.data.length = 64 ∧ e.mask.length = 64

/-- The run voltage within 680 to 820 mV (R451), the governor level at most 2,000 (R463), the firmware floor at most 64 (R404). -/
def State.withinLimits (s : State) : Prop := 680 ≤ s.power.vRun ∧ s.power.vRun ≤ 820 ∧ s.power.g ≤ 2000 ∧ s.lantus.fwFloor ≤ 64

/-! ## Requests that are taken -/

/-- The PF0 mailbox holds a request of an opcode that the processor's state allows, of a length that its rule allows, `b` are its bytes, and
the host can be read (R354, R407). -/
def MbxTakes (s : State) (op : Nat) (b : Bytes) : Prop :=
  s.mbxServed = true ∧ s.lantus.mbxBusy = true ∧ s.lantus.mbxOp = op ∧ s.lantus.staged = none ∧ mbxAllowed op s.lantus.state = true ∧
    s.reg (lntBase + 0x10) = b.length ∧ mbxLenStatus op b.length = none ∧ b.length ≤ 131072 ∧
    (b.length = 0 ∨ (s.host.up = true ∧ s.streamBad 0 = false))

/-- A function's DOE mailbox takes a session message of a type for a session that the function may name (R378, R413). -/
def SesTakes (s : State) (fn mtype : Nat) (msg : Bytes) (i : Nat) : Prop :=
  s.doeReady fn = true ∧ msg.length ≤ 16376 ∧ rd msg 0 1 = mtype ∧ sesIndex msg = some i ∧ sesAllowed fn i = true

/-- The state in which an access meets a register: it has arrived, and its check has read the votes it needs (R39, R356). -/
def State.atReg (s : State) (a : RegAccess) (x : Nat) : State := (s.arrive a.who).votesFor x

/-- A write that arrives at a register: the writer may access the block, the write is whole and not poisoned, and the access check allows it
(R10, R354, R361). -/
def Arrives (s : State) (a : RegAccess) (x : Nat) (r : RegRow) : Prop :=
  s.accessible a.who = true ∧ a.poisoned = false ∧ a.be = 15 ∧ s.spotOf a = .register x ∧ regRow x = some r ∧
    (s.atReg a x).refuses (accessMaster a.who) x 2 = none

/-- A write that neither a lock nor its encoding turns away at its register (R12, R18). -/
def Writes (s : State) (a : RegAccess) (x : Nat) (r : RegRow) : Prop :=
  Arrives s a x r ∧ (s.atReg a x).lockedOut r x = false ∧ encodingLegal x a.value.toNat = true

/-- A read that reaches a register (R10, R361). -/
def Reads (s : State) (a : RegAccess) (x : Nat) (r : RegRow) : Prop :=
  s.accessible a.who = true ∧ s.spotOf a = .register x ∧ regRow x = some r ∧ (s.atReg a x).refuses (accessMaster a.who) x 1 = none

/-- A doorbell write that reaches its queue (R359, R366). -/
def Rings (s : State) (a : RegAccess) (q : Nat) (cq : Bool) : Prop :=
  s.accessible a.who = true ∧ a.poisoned = false ∧ a.be = 15 ∧ s.spotOf a = .doorbell q cq

/-- A DRBG is seeded and two requests away from its limit (R436, R438). -/
def Gives (s : State) (b : Nat) : Prop := (s.drbg b).state = .seeded ∧ (s.drbg b).count + 2 < 2 ^ 24

/-- The packet at the head of an intake: whole, of a queue pair, and authentic, with its plaintext (R333). -/
def Heads (s : State) (port prio n : Nat) (k : Packet) (data : Bytes) : Prop :=
  s.alive = true ∧ s.packetQp k = some n ∧ s.openPacket n k = some data ∧
    ∃ f rest, (s.intake port prio).frames = f :: rest ∧ f.truncated = false ∧ packetOf f.bytes = k

/-- The state in which the head packet is taken up: its congestion mark is counted (R335). -/
def State.noted (s : State) (n : Nat) (k : Packet) : State :=
  if k.ce = true then s.modQp n (fun q => { q with ceCount := q.ceCount + 1 }) else s

/-- A packet inside the window of an active queue pair (R307, R334). -/
def Qp.takes (q : Qp) (psn : Nat) : Prop :=
  q.state = .active ∧ q.ePsn.getD 0 0 ≤ psn ∧ psn < q.ePsn.getD 0 0 + 8192 ∧ psn ∉ q.seen.getD 0 []

/-- Two more control packets of a queue pair do not use its control sequence up (R332). -/
abbrev Qp.controlRoom (q : Qp) : Prop := q.txPsn.getD 2 0 + 2 < 2 ^ 48 - 1

/-! ## Steps of a windlass -/

/-- The rows of a tile's step opcodes (R214). -/
def stepRows (t : TileRef) : List (Nat × Instr) :=
  [(0x01, .stepLoop t), (0x02, .stepJump t), (0x03, .stepSync t), (0x04, .stepWait t), (0x05, .stepDone t), (0x06, .stepEnd t), (0x07, .stepTrap t),
    (0x08, .hdr t), (0x09, .tblchk t), (0x10, .mmul t), (0x11, .mmac t), (0x12, .madd t), (0x13, .msub t), (0x14, .mneg t), (0x18, .radd t)] ++
  [(0x19, .rsub t), (0x1A, .rneg t), (0x1C, .fma t), (0x1D, .dot t), (0x1E, .cvt t), (0x1F, .fest t), (0x20, .logic t), (0x21, .clmul t), (0x22, .gfred t),
    (0x23, .keccak t), (0x24, .sample t), (0x28, .nttFwd t), (0x29, .nttInv t), (0x2A, .auto t), (0x30, .bcvScale t), (0x31, .bcvOut t)] ++
  [(0x38, .aesKey t), (0x39, .aesCtr t), (0x3A, .gcmOpen t), (0x40, .load t), (0x41, .store t), (0x42, .pump t), (0x43, .tileSend t), (0x44, .recv t),
    (0x45, .keystream t), (0x46, .turn t), (0x47, .stepfetch t), (0x48, .rngRead t)]

/-- A windlass that may issue: it runs, no stop is called, and its partition is formed (R205, R219). -/
def Runs (s : State) (t : TileRef) : Prop :=
  s.alive = true ∧ s.owner t.well < 24 ∧ (s.tile t).state = .running ∧ (s.tile t).stopping = false

/-- The next step of a windlass that is no NOP issues in this tick: it is due, whole, of the opcode, and its unit and step-memory half are free. `i` is the
issue and `u` the state in which its operation runs (R205, R206, R215). -/
def Issues (s : State) (t : TileRef) (op : Nat) (i : Issue) (u : State) : Prop :=
  Runs s t ∧
    let v := s.skipNops t (s.owner t.well) 2048
    let x := v.tile t
    let w := stepWord (x.stepBytes x.next)
    x.due < v.tickEnd ∧ x.stepFault x.next = none ∧ w.opcode = op ∧ x.transferFree (unitsOf w) = true ∧ i.at_ < v.tickEnd ∧
      i = ⟨w, x.next, x.issueAt (unitsOf w), s.owner t.well, x.store⟩ ∧
      u = (v.noteLate t i.part i.idx (i.at_ - x.due)).issued t i.idx i.at_ w.gap (v.stretchAt i.part (i.at_ / 4))

/-- A tile of the machine (R24). -/
def Held (s : State) (t : TileRef) : Prop := t.well < 24 ∧ t.tile < 25 ∧ t.well < s.wells.length ∧ t.tile < (s.well t.well).tiles.length

/-- A tile store in canonical form, without double-bit errors and with no access of an earlier step still to come. -/
def Tile.calm (x : Tile) : Prop := x.store.wf ∧ x.storeBad = [] ∧ x.flight = []

/-- A step of one vector from and to the tile store, none of whose rows passes the last one. -/
def StepWord.plain (w : StepWord) (rows : Nat) : Prop :=
  w.count = 1 ∧ w.aSpace = 0 ∧ w.bSpace = 0 ∧ w.dstSpace = 0 ∧ w.srcA + rows ≤ 16384 ∧ w.srcB + rows ≤ 16384 ∧ w.dst + rows ≤ 16384

/-- The words of `bits` bits of a vector of 128 from a row. -/
def Tile.vec (x : Tile) (row bits : Nat) : List Nat := elems bits (x.rowsAt row (16 * bits))

/-- Only `n` bytes of a tile's store from a row may differ. -/
def OnlyRows (s t : State) (r : TileRef) (row n : Nat) : Prop :=
  ∀ a, a < row * 64 ∨ row * 64 + n ≤ a → memByte (t.tile r).store a = memByte (s.tile r).store a

end Machine

end Sys2Proof
end

