-- ==== Sys2Proof/Certificates/Slice0/Obligations.lean ====
section
/-! DEFINITION. The statements for the provers. -/

open Sys2Proof Sys2Proof.Machine

/-- For every command c and state s whose queue is c followed by rest, step of s is exec of c on s with the queue rest. For every state whose queue is empty, step answers a next state: one tick later when DEVTIME runs, four in P2 on the core reference, and the same state when it stands still. The queue is this model's own field, and that a step on an empty queue is a tick is this model's choice (DESIGN CHOICE, log entry 7). -/
def Obligations.StepRunsFrontCommand : Prop :=
  (∀ (c : Instr) (s : State) (rest : List Instr), s.pending = c :: rest → step s = exec c { s with pending := rest }) ∧
  (∀ s : State, s.pending = [] →
    (s.timeRuns = false → step s = .next s) ∧
    (s.timeRuns = true → ∃ t, step s = .next t ∧ t.devtime = s.devtime + (if s.power.state = .p2 ∧ s.power.pllLocked = false then 4 else 1)))

/-- For every state and command whose queue is not DISABLED, with the link up, its stream not insecure, its function's interface not in ERROR and the queue within the function's list, completing the command removes it from those in progress, writes one entry of R370 at the CQ tail (identifier, status, phase, SQ head, queue, result, DEVTIME and detail, the CRC over its first 28 bytes), moves the tail by one modulo the CQ size, toggles the phase exactly when the tail wraps, and leaves registers, partitions, wells, sessions, power and log as they were; a command whose queue is DISABLED only leaves the list of commands in progress. -/
def Obligations.CompletionWritten : Prop :=
  (∀ (s : State) (c : Cmd) (st : Status) (result detail : Nat),
    c.orphan = false → s.host.up = true → (s.queue c.fn c.q).state ≠ .disabled → s.streamBad c.fn = false →
    (s.fn c.fn).tdi ≠ .error → c.fn < s.fns.length → c.q < (s.fn c.fn).queues.length →
    let t := s.complete c st result detail
    let q := s.queue c.fn c.q
    let tail := (q.cqTail + 1) % s.cqSize c.fn c.q
    (∃ e : Bytes, (∃ more, t.out = s.out ++ [.hostWrite c.fn (s.cqBase c.fn c.q + q.cqTail * 32) e] ++ more) ∧ e.length = 32 ∧
      rd e 0 2 = c.id % 65536 ∧ rd e 2 1 = st.code ∧ rd e 3 1 = b2n q.phase ∧ rd e 4 2 = q.sqHead % 65536 ∧ rd e 6 2 = c.q % 65536 ∧
      rd e 8 8 = result % 2 ^ 64 ∧ rd e 0x10 8 = s.devtime % 2 ^ 64 ∧ rd e 0x18 4 = detail % 2 ^ 32 ∧ crcEndsOk e = true) ∧
    (t.queue c.fn c.q).cqTail = tail ∧ (t.queue c.fn c.q).phase = (if tail = 0 then !q.phase else q.phase) ∧
    t.cmds = s.cmds.filter (fun d => !d.is c.ref) ∧ OnlyFn s t c.fn ∧
    t = { s with cmds := t.cmds, fns := t.fns, out := t.out }) ∧
  (∀ (s : State) (c : Cmd) (st : Status) (result detail : Nat), (s.queue c.fn c.q).state = .disabled →
    s.complete c st result detail = { s with cmds := s.cmds.filter (fun d => !d.is c.ref) })

/-- NOP completes with OK at once. COMMAND_FETCH of a queue that may fetch, while no power entry runs, puts the command of the entry at the end of those in progress and moves the SQ head by one modulo the SQ size; a command that fails the validation of R371 is completed with its status, and a failed read of the entry puts the queue in ERROR with UNCORRECTABLE. QUEUE_DRAINED makes a DRAINING queue without commands in progress DISABLED and changes nothing else. A queue that may not fetch fetches nothing. In every state, a command that may start (the test every host command makes) is in progress and not yet started; every command of the same queue before it in the list of commands in progress, which is in fetch order, has started; and if its fence flag is set, no earlier command of its queue is in progress any more. -/
def Obligations.QueueCommandsComplete : Prop :=
  (∀ (c : CmdRef) (k : Cmd) (s : State), s.ready c 0x00 = some k → exec (.nop c) s = .next (s.complete k .ok 0 0)) ∧
  (∀ (fn q : Nat) (e : Bytes) (s : State), s.mayFetch fn q = true → s.streamBad fn = false → s.power.enterCmd = none → fn < s.fns.length → q < (s.fn fn).queues.length →
    let k := cmdOfEntry fn q s.devtime e
    ∃ u : State, u.cmds = s.cmds ++ [k] ∧ (u.queue fn q).sqHead = ((s.queue fn q).sqHead + 1) % s.sqSize fn q ∧ u.host.lastTlp = s.devtime ∧
      (∀ p, u.part p = s.part p) ∧ (∀ w, u.well w = s.well w) ∧ u.qps = s.qps ∧ u.lantus = s.lantus ∧ u.log = s.log ∧
      exec (.commandFetch fn q (some e)) s = .next (match cmdRefusal k e with | none => u | some st => u.complete k st 0 0)) ∧
  (∀ (fn q : Nat) (s : State), s.mayFetch fn q = true → s.power.enterCmd = none → fn < s.fns.length → q < (s.fn fn).queues.length →
    ∃ t, exec (.commandFetch fn q none) s = .next t ∧ (t.queue fn q).state = .error ∧ (t.queue fn q).errStatus = .uncorrectable ∧ t.cmds = s.cmds) ∧
  (∀ (fn q : Nat) (e : Option Bytes) (s : State), s.mayFetch fn q = false → exec (.commandFetch fn q e) s = .next s) ∧
  (∀ (fn q : Nat) (s : State), (s.queue fn q).state = .draining → s.queueCmds fn q = [] → fn < s.fns.length → q < (s.fn fn).queues.length →
    ∃ t, exec (.queueDrained fn q) s = .next t ∧ t.queue fn q = { s.queue fn q with state := .disabled } ∧
      (∀ p, p ≠ q → t.queue fn p = s.queue fn p) ∧ OnlyFn s t fn ∧ t = { s with fns := t.fns }) ∧
  (∀ (s : State) (r : CmdRef) (op : Nat) (c : Cmd), s.ready r op = some c →
    c ∈ s.cmds ∧ c.is r = true ∧ c.opcode = op ∧ c.started = false ∧
    ∀ (l₁ l₂ : List Cmd), s.cmds = l₁ ++ c :: l₂ → (∀ d ∈ l₁, d.is r = false) →
      ∀ d ∈ l₁, d.fn = c.fn → d.q = c.q → d.orphan = false → d.started = true ∧ c.fence = false)

/-- For a command in progress that still needs host bytes and loads no container, HOST_READ_COMPLETION with bytes appends them up to what the command reads; a read that fails, or COMPLETION_TIMEOUT once the configured time has passed since the fetch, completes a command whose structure is read with UNCORRECTABLE and marks any other command's read as failed, so that it meets the failure when it runs. The power state P0 is taken, where activity changes nothing. -/
def Obligations.HostReadsDeliverBytes : Prop :=
  (∀ (c : CmdRef) (bs : Bytes) (d : Cmd) (s : State), s.host.up = true → s.power.state = .p0 → s.cmds.find? (fun d => d.is c) = some d →
    d.readFailed = false → d.data.length < readLength d → d.opcode ≠ 0x20 → d.opcode ≠ 0x21 → s.streamBad d.fn = false →
    ∃ t, exec (.hostReadCompletion c (some bs)) s = .next t ∧
      t.cmds = s.cmds.map (fun x => if x.is c then { x with data := (x.data ++ bs).take (readLength x) } else x) ∧
      t = { s with cmds := t.cmds, host := { s.host with lastTlp := s.devtime } }) ∧
  (∀ (c : CmdRef) (d : Cmd) (s : State), s.host.up = true → s.power.state = .p0 → s.cmds.find? (fun d => d.is c) = some d →
    d.readFailed = false → d.data.length < readLength d → d.opcode ≠ 0x20 → d.opcode ≠ 0x21 →
    exec (.hostReadCompletion c none) s =
      .next (if namesStructure d.opcode then s.complete d .uncorrectable 0 0 else s.modCmd c (fun x => { x with readFailed := true }))) ∧
  (∀ (c : CmdRef) (d : Cmd) (s : State), s.cmds.find? (fun d => d.is c) = some d →
    d.readFailed = false → d.data.length < readLength d → d.opcode ≠ 0x20 → d.opcode ≠ 0x21 →
    exec (.completionTimeout c) s =
      .next (if s.devtime < d.fetched + s.host.completionTimeout then s
        else if namesStructure d.opcode then s.complete d .uncorrectable 0 0 else s.modCmd c (fun x => { x with readFailed := true })))

/-- For a ROUND_OPEN that may start on a formed partition whose wells' substitution tables agree with their CRCs, with its 64 descriptor bytes read: with a descriptor that passes every test of R46 the round is in INTAKE with that descriptor, resume epoch 0, status OK, no uploads, no accumulations and no survivors, the admission tallies and progress registers of R49 and R85 are zero, every admission slot of the set is free, the windlasses start 64 ticks later, and the command completes with OK; other partitions, queue pairs, Lantus, power, floor plan and host link are as before. With a descriptor that fails, the command completes with the first failing status and nothing else changes. -/
def Obligations.RoundOpens : Prop :=
  (∀ (c : CmdRef) (k : Cmd) (x : SchedSet) (s : State), s.ready c 0x01 = some k → s.formed k.part = true → k.readFailed = false → 64 ≤ k.data.length →
    k.part < s.parts.length → s.descStatus k.part k.data = .ok → s.setOf k.part (descriptorOf k.data) = some x →
    (∀ w ∈ s.wellsOf k.part, (s.well w).inService = true → s.substGood w = true) →
    let p := k.part
    let d := descriptorOf k.data
    ∃ u : State, exec (.roundOpen c) s = .next (u.complete k .ok 0 0) ∧
      (u.round p).state = .intake ∧ (u.round p).desc = d ∧ (u.round p).epoch = 0 ∧ (u.round p).status = .ok ∧ (u.round p).lastRoundId = d.roundId ∧
      (u.round p).uploads = [] ∧ (u.round p).accums = [] ∧ (u.round p).survivors = [] ∧ (u.round p).seqLast = 0 ∧
      (u.round p).startAt = some (s.devtime + 64) ∧ (u.part p).slotsFree = List.range x.slots ∧ (u.part p).slotsTotal = x.slots ∧
      (u.part p).armed = true ∧ u.reg (rndBase p + 0x20) = 0 ∧ u.reg (rndBase p + 0x24) = 0 ∧ u.reg (rndBase p + 0x28) = 0 ∧
      u.reg (mskBase p + 0x30) = 0 ∧ u.reg (mskBase p + 0x34) = 0 ∧
      OnlyPart s u p ∧ (∀ w, w ∉ s.wellsOf p → u.well w = s.well w) ∧ u.qps = s.qps ∧ u.lantus = s.lantus ∧ u.power = s.power ∧
      u.plan = s.plan ∧ u.access = s.access ∧ u.host = s.host ∧ u.cmds = s.cmds) ∧
  (∀ (c : CmdRef) (k : Cmd) (s : State), s.ready c 0x01 = some k → s.formed k.part = true → k.readFailed = false → 64 ≤ k.data.length →
    s.descStatus k.part k.data ≠ .ok → exec (.roundOpen c) s = .next (s.complete k (s.descStatus k.part k.data) 0 0))

/-- A descriptor is refused with FORMAT exactly when a FORMAT test fails; with LENGTH_EXCEEDS exactly when no FORMAT test fails and a range test does; with STATE exactly when neither fails and the round is in progress, the round identifier is not above the last one opened, or the intake close time is not after DEVTIME; and is accepted otherwise. A descriptor with round_id zero, without a mode, with a wrong CRC, or of mode M with a ring width other than 32, 40, 48 and 64 is refused with FORMAT; one of cohort zero or of a threshold above the cohort that passes the FORMAT tests is refused with LENGTH_EXCEEDS. -/
def Obligations.DescriptorTestOrder : Prop :=
  ∀ (s : State) (p : Nat) (b : Bytes),
    let d := descriptorOf b
    (s.descStatus p b = .format ↔ s.descFormatBad p b = true) ∧
    (s.descStatus p b = .lengthExceeds ↔ s.descFormatBad p b = false ∧ s.descLengthBad p d = true) ∧
    (s.descStatus p b = .state ↔ s.descFormatBad p b = false ∧ s.descLengthBad p d = false ∧
      ((s.round p).state.busy = true ∨ d.roundId ≤ (s.round p).lastRoundId ∨ d.intakeClose ≤ s.devtime)) ∧
    (s.descStatus p b = .ok ↔ s.descFormatBad p b = false ∧ s.descLengthBad p d = false ∧
      (s.round p).state.busy = false ∧ (s.round p).lastRoundId < d.roundId ∧ s.devtime < d.intakeClose) ∧
    (rd b 0 8 = 0 → s.descStatus p b = .format) ∧ (rd b 8 1 ≠ 1 ∧ rd b 8 1 ≠ 2 → s.descStatus p b = .format) ∧
    (crcEndsOk b = false → s.descStatus p b = .format) ∧
    (rd b 8 1 = 1 → rd b 9 1 ≠ 32 ∧ rd b 9 1 ≠ 40 ∧ rd b 9 1 ≠ 48 ∧ rd b 9 1 ≠ 64 → s.descStatus p b = .format) ∧
    (s.descFormatBad p b = false → rd b 0xC 4 = 0 ∨ rd b 0xC 4 < rd b 0x14 4 → s.descStatus p b = .lengthExceeds)

/-- In INTAKE without a waiting ROUND_ABORT, ROUND_CLOSE_INTAKE and INTAKE_CLOSE_TIME at or after the close time each leave the round in CLOSING with its descriptor, uploads and accumulations kept; other partitions and the queue pairs are as before. While a ROUND_ABORT waits, both leave it in INTAKE. In every other state ROUND_CLOSE_INTAKE completes with STATE and changes nothing else, and INTAKE_CLOSE_TIME changes nothing. -/
def Obligations.IntakeCloses : Prop :=
  (∀ (c : CmdRef) (k : Cmd) (s : State), s.ready c 0x02 = some k → s.formed k.part = true → k.part < s.parts.length → (s.round k.part).state = .intake →
    (s.round k.part).abortPending = false →
    ∃ u : State, exec (.roundCloseIntake c) s = .next (u.complete k .ok 0 0) ∧ (u.round k.part).state = .closing ∧
      (u.round k.part).desc = (s.round k.part).desc ∧ (u.round k.part).uploads = (s.round k.part).uploads ∧
      (u.round k.part).accums = (s.round k.part).accums ∧ OnlyPart s u k.part ∧ u.qps = s.qps ∧ u.lantus = s.lantus ∧ u.power = s.power) ∧
  (∀ (c : CmdRef) (k : Cmd) (s : State), s.ready c 0x02 = some k → s.formed k.part = true → (s.round k.part).state ≠ .intake →
    exec (.roundCloseIntake c) s = .next (s.complete k .state 0 0)) ∧
  (∀ (c : CmdRef) (k : Cmd) (s : State), s.ready c 0x02 = some k → s.formed k.part = true → (s.round k.part).state = .intake →
    (s.round k.part).abortPending = true → ∃ t, exec (.roundCloseIntake c) s = .next t ∧ (t.round k.part).state = .intake) ∧
  (∀ (p : Nat) (s : State), (s.round p).abortPending = true → exec (.intakeCloseTime p) s = .next s) ∧
  (∀ (p : Nat) (s : State), s.alive = true → p < s.parts.length → (s.round p).state = .intake → (s.round p).desc.intakeClose ≤ s.devtime →
    (s.round p).abortPending = false →
    ∃ t, exec (.intakeCloseTime p) s = .next t ∧ (t.round p).state = .closing ∧ (t.round p).desc = (s.round p).desc ∧
      (t.round p).uploads = (s.round p).uploads ∧ (t.round p).accums = (s.round p).accums ∧ OnlyPart s t p ∧ t.qps = s.qps ∧
      t.lantus = s.lantus ∧ t.power = s.power) ∧
  (∀ (p : Nat) (s : State), (s.round p).state ≠ .intake ∨ s.devtime < (s.round p).desc.intakeClose → exec (.intakeCloseTime p) s = .next s)

/-- ROUND_ABORT of a round in progress, with no other waiting and no trap of the same tick, marks the abort as waiting, calls a stop of every active windlass of the partition and, if none is active, enters FAILED with status ABORTED at once; otherwise the round keeps its state. One that comes while another waits only waits with it. Without a round in progress it completes with STATE and changes nothing else. SETTLE_WINDOW_EXPIRY in SETTLE or COMBINE once the window has passed enters FAILED with status STATE, and before that it changes nothing. -/
def Obligations.RoundAborts : Prop :=
  (∀ (c : CmdRef) (k : Cmd) (s : State), s.ready c 0x03 = some k → s.formed k.part = true → k.part < s.parts.length → (s.round k.part).state.busy = true →
    (s.round k.part).abortPending = false → (s.part k.part).trapDue = none → (∀ r ∈ s.tilesOf k.part, (s.tile r).active = false) →
    ∃ t, exec (.roundAbort c) s = .next t ∧ (t.round k.part).state = .failed ∧ (t.round k.part).status = .aborted ∧ (t.round k.part).uploads = [] ∧
      OnlyPart s t k.part) ∧
  (∀ (c : CmdRef) (k : Cmd) (s : State), s.ready c 0x03 = some k → s.formed k.part = true → k.part < s.parts.length → (s.round k.part).state.busy = true →
    (s.round k.part).abortPending = false → (∃ r ∈ s.tilesOf k.part, (s.tile r).active = true ∧ r.well < s.wells.length ∧ r.tile < (s.well r.well).tiles.length) →
    ∃ t, exec (.roundAbort c) s = .next t ∧ (t.round k.part).state = (s.round k.part).state ∧ (t.round k.part).abortPending = true ∧
      (t.part k.part).queue = [] ∧ (∀ d, d ∈ t.cmds → d.is c = true → d.started = true) ∧
      (∀ r ∈ s.tilesOf k.part, r.well < s.wells.length → r.tile < (s.well r.well).tiles.length → (s.tile r).active = true →
        t.tile r = { s.tile r with stopping := true }) ∧ OnlyPart s t k.part ∧ t.qps = s.qps ∧ t.out = s.out ∧ t.regs = s.regs) ∧
  (∀ (c : CmdRef) (k : Cmd) (s : State), s.ready c 0x03 = some k → s.formed k.part = true → (s.round k.part).state.busy = true →
    (s.round k.part).abortPending = true → exec (.roundAbort c) s = .next (s.startCmd c)) ∧
  (∀ (c : CmdRef) (k : Cmd) (s : State), s.ready c 0x03 = some k → s.formed k.part = true → (s.round k.part).state.busy = false →
    exec (.roundAbort c) s = .next (s.complete k .state 0 0)) ∧
  (∀ (p : Nat) (s : State), s.alive = true → p < s.parts.length → ((s.round p).state = .settle ∨ (s.round p).state = .combine) →
    (s.round p).windowStart + ticksOfMs (s.round p).desc.settleWindowMs ≤ s.devtime →
    ∃ t, exec (.settleWindowExpiry p) s = .next t ∧ (t.round p).state = .failed ∧ (t.round p).status = .state ∧ OnlyPart s t p) ∧
  (∀ (p : Nat) (s : State), s.devtime < (s.round p).windowStart + ticksOfMs (s.round p).desc.settleWindowMs ∨
    ((s.round p).state ≠ .settle ∧ (s.round p).state ≠ .combine) → exec (.settleWindowExpiry p) s = .next s)

/-- The promise span of B bytes is 200,000 ticks plus the least number of ticks in which 7/4000 of the nominal rate carries them, 580,953 in the chapter's example. UPLOAD_ACCUMULATED of an upload that is wholly committed, posted, taken and applied, with none such of an earlier last pump write, removes it from those in flight, enters it among the accumulated ones with the tick of its last pump write and its commitment, adds one to RND_ACCUMULATED and frees its slot. PROMISE_DEADLINE after the deadline of an upload in a round that may fail leaves the round FAILED with the recorded fault's status, or STATE; up to and including the deadline it changes nothing. ADMISSION_REOPEN one millisecond into recovery ends the floor closure of the partition and touches no other partition. -/
def Obligations.UploadsEnd : Prop :=
  (∀ (s : State) (p b : Nat), 0 < s.reg (rndBase p + 0x10) →
    ∃ n, s.promiseSpan p b = n + 200000 ∧ b * 4000 ≤ n * (7 * s.reg (rndBase p + 0x10)) ∧
      (∀ m, b * 4000 ≤ m * (7 * s.reg (rndBase p + 0x10)) → n ≤ m) ∧ (s.reg (rndBase p + 0x10) = 120000 → b = 80000064 → s.promiseSpan p b = 580953)) ∧
  (∀ (p client : Nat) (u : Upload) (s : State), s.alive = true → p < s.parts.length →
    (s.round p).uploads.find? (fun v => v.client == client) = some u → s.accumulated p u = true →
    (∀ v ∈ (s.round p).uploads, s.accumulated p v = true → u.lastWrite ≤ v.lastWrite) →
    ∃ t, exec (.uploadAccumulated p client) s = .next t ∧ (∀ v ∈ (t.round p).uploads, v.client ≠ client) ∧
      (t.round p).accums = (s.round p).accums ++ [⟨client, u.qpn, u.lastWrite, (s.round p).epoch, false, u.seedCommit, u.live⟩] ∧
      t.reg (rndBase p + 0x24) = (s.reg (rndBase p + 0x24) + 1) % 2 ^ 32 ∧ u.slot ∈ (t.part p).slotsFree ∧ OnlyPart s t p ∧
      t.wells = s.wells ∧ t.lantus = s.lantus ∧ t.power = s.power ∧ t.host = s.host ∧ t.cmds = s.cmds) ∧
  (∀ (p client : Nat) (u : Upload) (n : Nat) (s : State), s.alive = true → p < s.parts.length →
    (s.round p).uploads.find? (fun v => v.client == client) = some u → u.lastCommit = some n → n + s.promiseSpan p u.bytes < s.devtime →
    (s.round p).state.failable = true →
    ∃ t, exec (.promiseDeadline p client) s = .next t ∧ (t.round p).state = .failed ∧
      (t.round p).status = (s.round p).faultStatus.getD .state ∧ OnlyPart s t p) ∧
  (∀ (p client : Nat) (u : Upload) (n : Nat) (s : State),
    (s.round p).uploads.find? (fun v => v.client == client) = some u → u.lastCommit = some n → s.devtime ≤ n + s.promiseSpan p u.bytes →
    exec (.promiseDeadline p client) s = .next s) ∧
  (∀ (p n : Nat) (s : State), s.alive = true → p < s.parts.length → (s.part p).floorClosed = true → (s.part p).recoverSince = some n →
    n + 400000 ≤ s.devtime →
    ∃ t, exec (.admissionReopen p) s = .next t ∧ t.part p = { s.part p with floorClosed := false, recoverSince := none } ∧ OnlyPart s t p ∧
      OnlyRegs s t [rndBase p + 0x48, logBase + 4] ∧ t.wells = s.wells ∧ t.qps = s.qps ∧ t.power = s.power)

/-- CHECKPOINT_INTERVAL in INTAKE once the interval has passed calls a cut. CHECKPOINT_CUT, when a cut may be taken, gives the area a checkpoint with the next number, DEVTIME, and exactly the uploads accumulated, and calls its queue entry. CHECKPOINT_SEALED of a copied checkpoint with a usable sealing key makes it ready with its sealed bytes; with an unusable key the round fails with REFUSED_ACCESS. CHECKPOINT_READ of a sealed checkpoint that the area still holds (the ready or complete one, or the last complete one until the next copy begins) writes its bytes to the host and completes with their number, with LENGTH_EXCEEDS for a short buffer and STATE for another number. CHECKPOINT_STORED of the ready checkpoint outside CLOSING completes it: its number and cut time appear in the registers, and exactly the uploads accumulated in the epoch before the cut are secured. -/
def Obligations.CheckpointsCutAndSeal : Prop :=
  (∀ (p : Nat) (s : State), s.alive = true → p < s.parts.length → (s.round p).state = .intake →
    (s.round p).lastCut + ticksOfMs (s.round p).desc.ckptIntervalMs ≤ s.devtime →
    ∃ t, exec (.checkpointInterval p) s = .next t ∧ t.round p = { s.round p with cutDue := true } ∧ OnlyPart s t p ∧ t = { s with parts := t.parts }) ∧
  (∀ (p : Nat) (s : State), s.alive = true → p < s.parts.length → (s.round p).abortPending = false → (s.round p).mayCut s.devtime = true →
    ∃ t c, exec (.checkpointCut p) s = .next t ∧ (t.round p).ckpt = some c ∧ c.number = (s.round p).cutNumber + 1 ∧ c.cutTime = s.devtime ∧
      c.phase = .copying ∧ c.closing = decide ((s.round p).state = .closing) ∧ c.clients = (s.round p).accums.map (fun a => (a.client, a.seedCommit)) ∧
      (t.round p).cutNumber = c.number ∧ (t.round p).cutDue = false ∧ (t.round p).lastCut = s.devtime ∧
      (t.part p).due = (s.part p).due ++ [⟨3, 0, 0, s.devtime, 0, 0, c.number, []⟩] ∧ OnlyPart s t p ∧ t = { s with parts := t.parts }) ∧
  (∀ (p : Nat) (c : Ckpt) (s : State), s.serves = true → p < s.parts.length → (s.round p).ckpt = some c → c.phase = .sealing →
    s.usable (s.part p).image.ckptSlot = true → bit (s.slot (s.part p).image.ckptSlot).attrWord 2 = true →
    ∃ t out, exec (.checkpointSealed p) s = .next t ∧ (t.round p).ckpt = some { c with phase := .ready, sealed := out } ∧
      rd out 0 4 + 4 ≤ out.length ∧ (t.round p).state = (s.round p).state ∧ t.qps = s.qps ∧
      t.lantus = { s.lantus with keys := t.lantus.keys } ∧ t.power = s.power) ∧
  (∀ (p : Nat) (c : Ckpt) (s : State), s.serves = true → p < s.parts.length → (s.round p).ckpt = some c → c.phase = .sealing →
    s.usable (s.part p).image.ckptSlot = false → (s.round p).state.failable = true →
    ∃ t, exec (.checkpointSealed p) s = .next t ∧ (t.round p).state = .failed ∧ (t.round p).status = .refusedAccess) ∧
  (∀ (c : CmdRef) (k : Cmd) (s : State), s.ready c 0x05 = some k → s.formed k.part = true → s.hasDma k.part = true →
    exec (.checkpointRead c) s = .next (match (s.round k.part).readable k.p0 with
      | none => s.complete k .state 0 0
      | some x => if k.length < x.sealed.length then s.complete k .lengthExceeds 0 0
        else (s.hostWrite k.fn k.addr x.sealed).complete k .ok x.sealed.length 0)) ∧
  (∀ (r : Round) (n : Nat) (x : Ckpt), r.readable n = some x → x.number = n ∧ (x.phase = .ready ∨ x.phase = .complete) ∧ (r.ckpt = some x ∨ r.prev = some x)) ∧
  (∀ (r : Round) (x : Ckpt), r.ckpt = some x → x.phase = .ready ∨ x.phase = .complete → r.readable x.number = some x) ∧
  (∀ (c : CmdRef) (k : Cmd) (x : Ckpt) (s : State), s.ready c 0x06 = some k → s.formed k.part = true → k.part < s.parts.length →
    (s.round k.part).ckpt = some x → x.number = k.p0 → x.phase = .ready → (s.round k.part).state ≠ .closing →
    let p := k.part
    ∃ u : State, exec (.checkpointStored c) s = .next (u.complete k .ok 0 0) ∧ (u.round p).ckpt = some { x with phase := .complete } ∧
      (u.round p).state = (s.round p).state ∧ u.reg (rndBase p + 0x38) = x.number % 2 ^ 32 ∧ u.reg (rndBase p + 0x40) = x.cutTime % 2 ^ 32 ∧
      u.reg (rndBase p + 0x44) = x.cutTime / 2 ^ 32 % 2 ^ 32 ∧
      (u.round p).accums = (s.round p).accums.map (fun a =>
        if a.epoch = (s.round p).epoch ∧ a.time < x.cutTime ∧ a.secured = false then { a with secured := true } else a) ∧
      OnlyPart s u p ∧ u.wells = s.wells ∧ u.lantus = s.lantus ∧ u.power = s.power) ∧
  (∀ (c : CmdRef) (k : Cmd) (s : State), s.ready c 0x06 = some k → s.formed k.part = true →
    (∀ x, (s.round k.part).ckpt = some x → x.number ≠ k.p0 ∨ x.phase ≠ .ready) → exec (.checkpointStored c) s = .next (s.complete k .state 0 0))

/-- A ROUND_RESUME whose first tests pass, whose bytes open under the sealing key, and whose header names the loaded image's digest, an epoch below 15, and for a checkpoint taken in INTAKE an intake close after DEVTIME: with a schedule set of the descriptor, on wells whose substitution tables agree with their CRCs, the round of an INTAKE checkpoint is in INTAKE, one epoch later, with the admitted clients of the checkpoint accumulated and secured and its number as the last checkpoint; the command completes with OK. Bytes that do not open are refused with FORMAT; another digest, epoch 15 and, for a checkpoint taken in INTAKE, a close time that has passed with STATE; and a round that is not IDLE with STATE, each with its completion. -/
def Obligations.RoundResumes : Prop :=
  (∀ (c : CmdRef) (k : Cmd) (body : Bytes) (y : SchedSet) (s : State), s.ready c 0x04 = some k → s.formed k.part = true → k.part < s.parts.length →
    s.resumeFirst k.part = .ok → k.readFailed = false → readLength k ≤ k.data.length →
    let x := sealedParts k.data
    let p := k.part
    let d := descriptorOf (slice x.header 8 64)
    gcmOpen (s.ckptKey (s.part p).image.ckptSlot (rd x.header 0 8)) (sealIv (rd x.header 104 4) (rd x.header 108 1) (rd x.header 109 1))
      x.header x.body x.tag = some body →
    slice x.header 72 32 = fit (s.part p).image.digest 32 → rd x.header 108 1 ≠ 15 → rd x.header 110 1 ≠ 1 → s.devtime < k.p1 → s.setOf p d = some y →
    (∀ w ∈ s.wellsOf p, (s.well w).inService = true → s.substGood w = true) →
    ∃ u : State, exec (.roundResume c) s = .next (u.complete k .ok 0 0) ∧ (u.round p).state = .intake ∧ (u.round p).epoch = rd x.header 108 1 + 1 ∧
      (u.round p).desc = { d with intakeClose := k.p1 } ∧ (u.round p).cutNumber = rd x.header 104 4 ∧ (u.round p).seqLast = rd x.header 120 4 ∧
      (u.round p).accums.length = rd x.header 140 4 ∧ (∀ a ∈ (u.round p).accums, a.secured = true ∧ a.epoch = rd x.header 108 1) ∧
      (u.round p).uploads = [] ∧ (u.part p).slotsFree = List.range y.slots ∧ OnlyPart s u p ∧ u.qps = s.qps ∧
      u.lantus = { s.lantus with keys := u.lantus.keys } ∧ u.power = s.power) ∧
  (∀ (c : CmdRef) (k : Cmd) (s : State), s.ready c 0x04 = some k → s.formed k.part = true →
    s.resumeFirst k.part = .ok → k.readFailed = false → readLength k ≤ k.data.length →
    let x := sealedParts k.data
    gcmOpen (s.ckptKey (s.part k.part).image.ckptSlot (rd x.header 0 8)) (sealIv (rd x.header 104 4) (rd x.header 108 1) (rd x.header 109 1))
      x.header x.body x.tag = none →
    exec (.roundResume c) s = .next (s.refuseResume k (rd x.header 0 8) .format)) ∧
  (∀ (c : CmdRef) (k : Cmd) (body : Bytes) (s : State), s.ready c 0x04 = some k → s.formed k.part = true →
    s.resumeFirst k.part = .ok → k.readFailed = false → readLength k ≤ k.data.length →
    let x := sealedParts k.data
    gcmOpen (s.ckptKey (s.part k.part).image.ckptSlot (rd x.header 0 8)) (sealIv (rd x.header 104 4) (rd x.header 108 1) (rd x.header 109 1))
      x.header x.body x.tag = some body →
    slice x.header 72 32 ≠ fit (s.part k.part).image.digest 32 ∨ rd x.header 108 1 = 15 ∨ (rd x.header 110 1 = 0 ∧ k.p1 ≤ s.devtime) →
    exec (.roundResume c) s = .next (s.refuseResume k (rd x.header 0 8) .state)) ∧
  (∀ (c : CmdRef) (k : Cmd) (s : State), s.ready c 0x04 = some k → s.formed k.part = true → s.resumeFirst k.part ≠ .ok →
    exec (.roundResume c) s = .next (s.refuseResume k 0 (s.resumeFirst k.part))) ∧
  (∀ (p : Nat) (s : State), s.hasDma p = true → (s.round p).state ≠ .idle → s.resumeFirst p = .state)

/-- For a PARTITION_RESET that may start on a formed partition: afterwards its round is as after reset, its queue and slots are empty, no queue pair is its own, its session is NONE, its register locks are released, its round registers hold their reset values, and each of its wells has empty memories, halted and queued work gone, its retirements, substitution table and failed tiles kept; every other partition, every well that is not its own, every queue pair of another partition, Lantus, power, floor plan and access tables are as before. -/
def Obligations.PartitionResets : Prop :=
  ∀ (c : CmdRef) (k : Cmd) (s : State), s.ready c 0x08 = some k → s.formed k.part = true → k.part < s.parts.length →
    let p := k.part
    ∃ t, exec (.partitionReset c) s = .next t ∧ t.round p = {} ∧ (t.part p).queue = [] ∧ (t.part p).slotsFree = [] ∧ (t.part p).accepted = [] ∧
      (t.session p).state = .none ∧ p ∉ t.lockParts ∧ (∀ e ∈ t.qps, e.2.part ≠ p) ∧ (∀ e ∈ t.commits, e.part ≠ p) ∧
      (∀ x, rndBase p ≤ x → x < rndBase p + 0x400 → t.regW x = regReset x) ∧
      (∀ w ∈ s.wellsOf p, w < s.wells.length → (t.well w).cis = [] ∧ (t.well w).cisValid = [] ∧ (t.well w).merge = [] ∧ (t.well w).lpxKey = [] ∧
        (t.well w).pumps = List.replicate 16 {} ∧ (t.well w).copy = [{}, {}] ∧ (t.well w).retired = (s.well w).retired ∧
        (t.well w).subst = (s.well w).subst ∧ (t.well w).failed = (s.well w).failed) ∧
      OnlyPart s t p ∧ (∀ w, w ∉ s.wellsOf p → t.well w = s.well w) ∧ (∀ n, (s.qp n).part ≠ p → t.qp n = s.qp n) ∧
      t.lantus = s.lantus ∧ t.power = s.power ∧ t.plan = s.plan ∧ t.access = s.access

/-- For a DMA_TO_DEVICE that passes its checks, whose bytes have all arrived and whose range lies in one cistern of canonical form: afterwards each byte of the range reads as the host byte, each other byte of that cistern reads as before, and no other well changes; the command completes with OK and its length. For a DMA_TO_HOST that passes its checks over a range of a cistern without a marked bucket, with the link up, its stream secure and its interface not in ERROR, the bytes of the range leave in one host write, no byte of any cistern changes, and the command completes with OK and its length. A DMA that fails its checks moves nothing and completes with the refusal's status; a DMA_TO_HOST whose queue a reset or the loss of the link has taken away moves nothing. -/
def Obligations.HostDmaMovesBytes : Prop :=
  (∀ (c : CmdRef) (k : Cmd) (w o : Nat) (s : State), s.ready c 0x10 = some k → (s.dmaRefusal k 2).1 = none → k.readFailed = false →
    k.data.length = k.length → memoryAt k.p1 = some (false, w, o) → o + k.length ≤ 2 ^ 27 → w < s.wells.length → (s.well w).cisOk →
    ∃ u : State, exec (.dmaToDevice c) s = .next (u.complete k .ok k.length 0) ∧
      (∀ a, (u.well w).seen a = if o ≤ a ∧ a < o + k.length then k.data.getD (a - o) 0 else (s.well w).seen a) ∧ (u.well w).cisOk ∧
      OnlyWell s u w ∧ OnlyRegs s u [cisBase w + 0x10, cisBase w + 8, cisBase w + 0x18, logBase + 4] ∧
      u = { s with wells := u.wells, regs := u.regs, fresh := u.fresh, access := u.access, log := u.log }) ∧
  (∀ (c : CmdRef) (k : Cmd) (w o : Nat) (s : State), s.ready c 0x11 = some k → k.orphan = false → (s.dmaRefusal k 1).1 = none → s.host.up = true → s.streamBad k.fn = false →
    (s.fn k.fn).tdi ≠ .error → memoryAt k.p1 = some (false, w, o) → o + k.length ≤ 2 ^ 27 → w < s.wells.length → (s.well w).cisOk →
    (∀ b ∈ (s.well w).cisBad, b < o / 64 ∨ (o + k.length - 1) / 64 < b) →
    ∃ u : State, exec (.dmaToHost c) s = .next (if s.owner w < 24 then (u.complete k .ok k.length 0).advance (s.owner w) else u.complete k .ok k.length 0) ∧
      u.out = s.out ++ [.hostWrite k.fn k.addr ((List.range k.length).map (fun i => (s.well w).seen (o + i)))] ∧
      (∀ a, (u.well w).seen a = (s.well w).seen a) ∧ OnlyWell s u w ∧
      u = { s with wells := u.wells, regs := u.regs, fresh := u.fresh, access := u.access, log := u.log, out := u.out }) ∧
  (∀ (c : CmdRef) (k : Cmd) (st : Status) (t : State) (s : State), s.ready c 0x10 = some k → s.dmaRefusal k 2 = (some st, t) →
    exec (.dmaToDevice c) s = .next (t.complete k st 0 0) ∧ t.wells = s.wells) ∧
  (∀ (c : CmdRef) (k : Cmd) (st : Status) (t : State) (s : State), s.ready c 0x11 = some k → k.orphan = false → s.dmaRefusal k 1 = (some st, t) →
    exec (.dmaToHost c) s = .next (t.complete k st 0 0) ∧ t.wells = s.wells) ∧
  (∀ (c : CmdRef) (k : Cmd) (s : State), s.ready c 0x11 = some k → k.orphan = true → exec (.dmaToHost c) s = .next (s.complete k .aborted 0 0))

/-- Where every well holds a canonical cistern and a merge buffer with at most one entry, of 64 bytes, for each bucket, a write of any bytes at any place of device memory, a read of any bytes, a flush of a merge buffer and the zeroing of a range keep that form of every well. -/
def Obligations.MemoryFormKept : Prop :=
  (∀ (s : State) (a : Nat) (bs : Bytes), (∀ w, (s.well w).cisOk) → ∀ w, ((s.devWrite a bs).well w).cisOk) ∧
  (∀ (s : State) (kind a n : Nat), (∀ w, (s.well w).cisOk) → ∀ w, ((s.devRead kind a n).2.2.well w).cisOk) ∧
  (∀ (s : State) (lp : Bool) (v : Nat), (∀ w, (s.well w).cisOk) → ∀ w, ((s.flushMerge lp v).well w).cisOk) ∧
  (∀ (x : Well) (b n : Nat), x.cisOk → (x.zeroRange b n).cisOk)

/-- QP_CREATE of a context that passes R306 takes the lowest FREE queue pair, makes it ACTIVE with the context's fields and the keys of R309, completes with OK and its number, and changes no other queue pair; a context that fails completes with its status and changes nothing else. QP_DESTROY of the partition's ACTIVE or ERROR queue pair leaves it DRAINING with nothing queued, sent, posted or to be read, and no other queue pair changes its state; with a number out of range it completes with FORMAT, with a foreign or FREE queue pair with STATE. QP_DRAIN_COMPLETE, once nothing of it is in flight, frees it, keys and all, and leaves the others as before: a later queue pair of its number carries none of its uploads and admissions. -/
def Obligations.QpCreateAndDestroy : Prop :=
  (∀ (c : CmdRef) (k : Cmd) (n : Nat) (s : State), s.ready c 0x18 = some k → s.formed k.part = true → k.readFailed = false → 64 ≤ k.data.length →
    s.contextStatus k.part k.data = .ok → s.freeQpn = some n →
    ∃ u : State, exec (.qpCreate c) s = .next (u.complete k .ok n 0) ∧ (s.qp n).state = .free ∧ (∀ m < n, look m s.qps ≠ none) ∧
      u.qp n = qpOfContext k.part n (s.session k.part).kLink k.data ∧ (u.qp n).state = .active ∧ OnlyQp s u n ∧ u = { s with qps := u.qps }) ∧
  (∀ (c : CmdRef) (k : Cmd) (s : State), s.ready c 0x18 = some k → s.formed k.part = true → k.readFailed = false → 64 ≤ k.data.length →
    s.contextStatus k.part k.data ≠ .ok → exec (.qpCreate c) s = .next (s.complete k (s.contextStatus k.part k.data) 0 0)) ∧
  (∀ (c : CmdRef) (k : Cmd) (s : State), s.ready c 0x19 = some k → s.formed k.part = true → k.part < s.parts.length → k.p0 ≤ 16383 →
    (s.qp k.p0).part = k.part → (s.qp k.p0).state = .active ∨ (s.qp k.p0).state = .error →
    ∃ t, exec (.qpDestroy c) s = .next t ∧ (t.qp k.p0).state = .draining ∧ (t.qp k.p0).destroyCmd = some c ∧ (t.qp k.p0).records = [] ∧
      (t.qp k.p0).sent = [] ∧ (t.qp k.p0).posted = [] ∧ (t.qp k.p0).reads = [] ∧ (∀ m, m ≠ k.p0 → (t.qp m).state = (s.qp m).state) ∧
      t.lantus = s.lantus ∧ t.power = s.power) ∧
  (∀ (c : CmdRef) (k : Cmd) (s : State), s.ready c 0x19 = some k → s.formed k.part = true →
    (16383 < k.p0 → exec (.qpDestroy c) s = .next (s.complete k .format 0 0)) ∧
    (k.p0 ≤ 16383 → (s.qp k.p0).part ≠ k.part ∨ (s.qp k.p0).state = .free ∨ (s.qp k.p0).state = .draining →
      exec (.qpDestroy c) s = .next (s.complete k .state 0 0))) ∧
  (∀ (n : Nat) (s : State), s.alive = true → (s.qp n).state = .draining → s.qpQuiet n = true →
    ∃ t, exec (.qpDrainComplete n) s = .next t ∧ t.qp n = {} ∧ OnlyQp s t n ∧ t.wells = s.wells ∧ t.lantus = s.lantus ∧ t.power = s.power ∧
      (∀ p, p ≠ (s.qp n).part → t.round p = s.round p) ∧ (t.round (s.qp n).part).state = (s.round (s.qp n).part).state ∧
      n ∉ (t.round (s.qp n).part).admittedQps ∧ (∀ u ∈ (t.round (s.qp n).part).uploads, u.qpn = n → u.live = false) ∧
      (∀ a ∈ (t.round (s.qp n).part).accums, a.qpn = n → a.live = false))

/-- REGION_REGISTER of a record that passes its tests makes that region VALID with the record's base, length and rights and its old generation. REGION_REVOKE of a VALID region makes it REVOKING at once. REGION_INFLIGHT_ZERO with nothing in flight to it makes it GONE with the next generation. RECV_POST that passes its tests adds one buffer, numbered by the count of posted buffers, to the queue pair. No other region, partition or queue pair changes. Each command that fails its tests completes with its status and changes nothing else. -/
def Obligations.RegionsRegisterAndRevoke : Prop :=
  (∀ (c : CmdRef) (k : Cmd) (s : State), s.ready c 0x1A = some k → s.formed k.part = true → k.part < s.parts.length → k.readFailed = false →
    64 ≤ k.data.length → s.regionStatus k.part k.data = .ok →
    ∃ u : State, exec (.regionRegister c) s = .next (u.complete k .ok 0 0) ∧
      u.region k.part (rd k.data 2 2) = ⟨.valid, (s.region k.part (rd k.data 2 2)).generation, rd k.data 8 8, rd k.data 0x10 8,
        bits (rd k.data 1 1) 1 0, none⟩ ∧
      (∀ r, r ≠ rd k.data 2 2 → u.region k.part r = s.region k.part r) ∧ OnlyPart s u k.part ∧
      u = { s with parts := u.parts, regionChanges := s.regionChanges + 1 }) ∧
  (∀ (c : CmdRef) (k : Cmd) (s : State), s.ready c 0x1A = some k → s.formed k.part = true → k.readFailed = false → 64 ≤ k.data.length →
    s.regionStatus k.part k.data ≠ .ok → exec (.regionRegister c) s = .next (s.complete k (s.regionStatus k.part k.data) 0 0)) ∧
  (∀ (c : CmdRef) (k : Cmd) (s : State), s.ready c 0x1B = some k → s.formed k.part = true → k.part < s.parts.length →
    (s.region k.part k.p0).state = .valid →
    ∃ t, exec (.regionRevoke c) s = .next t ∧ t.region k.part k.p0 = { s.region k.part k.p0 with state := .revoking, revoker := some c } ∧
      (∀ r, r ≠ k.p0 → t.region k.part r = s.region k.part r) ∧ OnlyPart s t k.part ∧ (∀ d ∈ t.cmds, d.is c = true → d.started = true) ∧
      t = { s with parts := t.parts, cmds := t.cmds, regionChanges := s.regionChanges + 1 }) ∧
  (∀ (c : CmdRef) (k : Cmd) (s : State), s.ready c 0x1B = some k → s.formed k.part = true → (s.region k.part k.p0).state ≠ .valid →
    exec (.regionRevoke c) s = .next (s.complete k .state 0 0)) ∧
  (∀ (p r : Nat) (s : State), s.alive = true → p < s.parts.length → (s.region p r).state = .revoking →
    (∀ c ∈ s.commits, c.part = p → c.region = some r → s.placed c = true) →
    ∃ t, exec (.regionInflightZero p r) s = .next t ∧
      t.region p r = { s.region p r with state := .gone, generation := nextGeneration (s.region p r).generation, revoker := none } ∧
      (∀ q, q ≠ r → t.region p q = s.region p q) ∧ OnlyPart s t p ∧ t.round p = s.round p ∧ t.qps = s.qps ∧ t.wells = s.wells ∧
      t.lantus = s.lantus ∧ t.power = s.power) ∧
  (∀ g : Nat, nextGeneration g < 0xFFFF) ∧
  (∀ (c : CmdRef) (k : Cmd) (s : State), s.ready c 0x1C = some k → s.formed k.part = true → s.postStatus k.part k = .ok →
    ∃ u : State, exec (.recvPost c) s = .next (u.complete k .ok 0 0) ∧
      u.qp k.p0 = { s.qp k.p0 with
        posted := (s.qp k.p0).posted ++ [((s.qp k.p0).postedCount % 2 ^ 32, k.p2 % 65536, k.p1, k.length)], postedCount := (s.qp k.p0).postedCount + 1 } ∧
      OnlyQp s u k.p0 ∧ u = { s with qps := u.qps }) ∧
  (∀ (c : CmdRef) (k : Cmd) (s : State), s.ready c 0x1C = some k → s.formed k.part = true → s.postStatus k.part k ≠ .ok →
    exec (.recvPost c) s = .next (s.complete k (s.postStatus k.part k) 0 0))

/-- An IMAGE_LOAD that check 0 accepts, with a legal length and its bytes still to come, leaves the partition without a round and its image LOADING for that command. One that check 0 refuses is recorded and completed with that status, and no partition changes. IMAGE_INSTALL of a container read whole that passes the checks, on wells whose substitution tables agree with their CRCs, leaves the partition with that image installed and its registers locked, and completes the load with OK; one that fails checks 1 to 4 leaves it without an image and completes the load with the failing check's status and number. Other partitions are as before. -/
def Obligations.ImageLoads : Prop :=
  (∀ (c : CmdRef) (k : Cmd) (s : State), s.ready c 0x20 = some k → k.part < 24 → k.part < s.parts.length → s.imageRefusal k.part = none →
    k.readFailed = false → k.data.length < 64 → 1 ≤ k.length → k.length ≤ 1073741824 →
    ∃ t, exec (.imageLoad c) s = .next t ∧ (t.part k.part).image.state = .loading ∧
      (t.part k.part).image.loading = some ⟨c, k.length, s.devtime⟩ ∧ t.round k.part = {} ∧ (t.session k.part).state = .none ∧ OnlyPart s t k.part ∧
      t.lantus = s.lantus ∧ t.power = s.power ∧ t.plan = s.plan ∧ t.access = s.access) ∧
  (∀ (c : CmdRef) (k : Cmd) (st : Status) (s : State), s.ready c 0x20 = some k → k.part < 24 → s.imageRefusal k.part = some st →
    ∃ u : State, exec (.imageLoad c) s = .next (u.complete k st 0 0) ∧ OnlyRegs s u [imgBase k.part, imgBase k.part + 0x34, imgBase k.part + 0x38, logBase + 4] ∧
      u = { s with regs := u.regs, fresh := u.fresh, log := u.log }) ∧
  (∀ (p : Nat) (c : Cmd) (rec : PlanRecord) (e : Status × Nat × Nat) (s : State), s.serves = true → s.loadCmd p = some c → s.record p = some rec →
    c.readFailed = false → c.length ≤ c.data.length → s.imageFirst p rec c.data c.length = .error e → p < s.parts.length →
    ∃ u : State, exec (.imageInstall p) s = .next (u.complete c e.1 0 e.2.1) ∧ (u.part p).image = {} ∧ u.round p = s.round p ∧ OnlyPart s u p ∧
      u.lantus = s.lantus ∧ u.power = s.power ∧ u.plan = s.plan ∧ u.access = s.access) ∧
  (∀ (p : Nat) (c : Cmd) (rec : PlanRecord) (s : State), s.serves = true → s.loadCmd p = some c → s.record p = some rec →
    c.readFailed = false → c.length ≤ c.data.length → s.imageFirst p rec c.data c.length = .ok () → p < s.parts.length →
    let s0 := s.modPart p (fun x => { x with image := { x.image with wellRecords := imageWells c.data } })
    let s1 := s0.stageSections p c.data
    let t := s1.putPresets p c.data
    s0.stagingBad p c.data = false → s1.imageLast t p rec c.data = .ok () →
    (∀ w ∈ s.wellsOf p, (t.well w).inService = true → t.substGood w = true) →
    ∃ u : State, exec (.imageInstall p) s = .next (u.complete c .ok 0 0) ∧ (u.part p).image = installedImage c.data ∧ p ∈ u.lockParts ∧
      u.reg64 (imgBase p + 8) = (headerOf c.data).serial ∧ u.round p = s.round p ∧ OnlyPart s u p ∧
      u.lantus = s.lantus ∧ u.power = s.power ∧ u.plan = s.plan ∧ u.access = s.access)

/-- A FLOORPLAN_LOAD with a legal length and its bytes still to come only notes the load, which releases the global register lock; while a load or firmware update is in progress it completes with STATE and changes no plan. With the last bytes of the load, a plan that passes every check is in force: its serial, its records that have wells, three copies of its owners and its access tables; the global register lock is set and no partition's contents change. A plan that fails a check leaves plan, access control and partitions as before, and the lock of a plan in force holds again. SLOT_OWNER_SWITCH at the frame boundary puts the waiting slots in force together, and before it changes nothing. -/
def Obligations.FloorPlansLoad : Prop :=
  (∀ (c : CmdRef) (k : Cmd) (s : State), s.ready c 0x21 = some k → s.plan.loading = none → s.lantus.state ≠ .updating → s.noLoads = false →
    (∀ x ∈ s.parts, x.image.state ≠ .loading) → k.readFailed = false → k.data.length < 64 → k.data.length < k.length → 1 ≤ k.length → k.length ≤ 262144 →
    ∃ t, exec (.floorplanLoad c) s = .next t ∧ t.plan = { s.plan with loading := some ⟨c, k.length, s.devtime⟩ } ∧
      t = { s with plan := t.plan, cmds := t.cmds, lockGlobal := false }) ∧
  (∀ (c : CmdRef) (k : Cmd) (s : State), s.ready c 0x21 = some k → s.plan.loading.isSome = true ∨ s.lantus.state = .updating ∨ s.noLoads = true →
    ∃ u : State, exec (.floorplanLoad c) s = .next (u.complete k .state 0 0) ∧ u = { s with regs := u.regs, fresh := u.fresh, log := u.log }) ∧
  (∀ (c : CmdRef) (d : Cmd) (l : Loading) (bs : Bytes) (s : State), s.host.up = true → s.power.state = .p0 → s.cmds.find? (fun x => x.is c) = some d →
    d.opcode = 0x21 → d.started = true → d.readFailed = false → d.data.length < d.length → s.streamBad d.fn = false → s.plan.loading = some l → l.cmd = c →
    let b := (d.data ++ bs).take d.length
    b.length = d.length →
    (s.planVerdict b d.length = .ok () →
      ∃ t, exec (.hostReadCompletion c (some bs)) s = .next t ∧ t.plan.inForce = true ∧ t.plan.serial = (headerOf b).serial ∧
        t.plan.records = (planRecords b).filter (fun r => r.wells != 0) ∧ t.plan.loading = none ∧ t.lockGlobal = true ∧
        t.access.owners = List.replicate 3 ((List.range 24).map (recordOwner (planRecords b))) ∧ t.access.tables = planTables b ∧
        (∀ w, w < 24 → t.owner w = recordOwner (planRecords b) w) ∧ t.parts = s.parts ∧ t.wells = s.wells ∧ t.lantus = s.lantus ∧ t.power = s.power) ∧
    (∀ e, s.planVerdict b d.length = .error e →
      ∃ t, exec (.hostReadCompletion c (some bs)) s = .next t ∧ t.plan = { s.plan with loading := none } ∧ t.access = s.access ∧ t.parts = s.parts ∧
        t.wells = s.wells ∧ t.lockGlobal = s.plan.inForce)) ∧
  (∀ (n : Nat) (l : List (Nat × Nat × Nat × Nat)) (s : State), s.alive = true → s.plan.slotsNext = some (n, l) →
    exec .slotOwnerSwitch s = .next (if n ≤ s.devtime then { s with plan := { s.plan with slots := l, slotsNext := none } } else s))

/-- TILE_REMAP without the retire flag, on a well whose table agrees with its CRC and whose partition runs no round, with an unmapped tile and sections that pass the check gate, maps the logical tile to that tile, marks the old one FAILED and counts the remap; with the retire flag it marks the tile FAILED and takes the well out of service. TILE_SELFTEST of a tile that carries no logical tile and is not FAILED starts the test, and of a FAILED tile changes no tile; TILE_SELFTEST_DONE records the result and leaves the tile OFF, or FAILED. BUCKET_RETIRE adds the bucket to the retired ones and takes a spare row of its bank, and changes nothing else of the well. Each refuses with FORMAT, STATE and NOT_READY as its rule says. Tables, tiles, service and retired buckets of the other wells are as before. -/
def Obligations.TileRemapAndSelftest : Prop :=
  (∀ (c : CmdRef) (k : Cmd) (s : State), s.ready c 0x28 = some k →
    let w := bits k.p0 7 0
    let lt := bits k.p0 15 8
    (24 ≤ w ∨ 24 ≤ lt → exec (.tileRemap c) s = .next (s.complete k .format 0 0)) ∧
    (w < 24 → lt < 24 → s.owner w < 24 → (s.round (s.owner w)).state.busy = true → exec (.tileRemap c) s = .next (s.complete k .state 0 0)) ∧
    (w < 24 → lt < 24 → (s.owner w < 24 → (s.round (s.owner w)).state.busy = false) → s.substGood w = true → w < s.wells.length →
      (bit k.p0 16 = false → (s.well w).unmapped = [] → exec (.tileRemap c) s = .next (s.complete k .notReady 0 0)) ∧
      (∀ new rest, bit k.p0 16 = false → (s.well w).unmapped = new :: rest → s.physOf w lt < 25 →
        (s.gateFails w (((s.imageArea w).map (fun a => a.1)).getD 0)
          (if decide (s.owner w < 24) && (s.part (s.owner w)).image.state == .loaded then (s.part (s.owner w)).image.tileSections (s.rankOf w) lt else [])).1 = none →
        ∃ u : State, exec (.tileRemap c) s = .next (u.complete k .ok 0 0) ∧ (u.well w).subst = updAt (s.well w).subst lt (fun _ => new) ∧
          (u.well w).failed = insertNat (s.physOf w lt) (s.well w).failed ∧ (u.well w).remaps = min ((s.well w).remaps + 1) 255 ∧
          (u.well w).inService = (s.well w).inService ∧
          (∀ v, v ≠ w → (u.well v).subst = (s.well v).subst ∧ (u.well v).failed = (s.well v).failed ∧ (u.well v).remaps = (s.well v).remaps ∧
            (u.well v).tiles = (s.well v).tiles ∧ (u.well v).inService = (s.well v).inService ∧ (u.well v).retired = (s.well v).retired) ∧ u.parts = s.parts ∧ u.qps = s.qps ∧ u.lantus = s.lantus ∧ u.cmds = s.cmds) ∧
      (bit k.p0 16 = true →
        ∃ u : State, exec (.tileRemap c) s = .next (u.complete k .ok 0 0) ∧ (u.well w).inService = false ∧ s.physOf w lt ∈ (u.well w).failed))) ∧
  (∀ (c : CmdRef) (k : Cmd) (s : State), s.ready c 0x29 = some k →
    let t : TileRef := ⟨bits k.p0 7 0, bits k.p0 15 8⟩
    (24 ≤ t.well ∨ 25 ≤ t.tile → exec (.tileSelftest c) s = .next (s.complete k .format 0 0)) ∧
    (t.well < 24 → t.tile < 25 → s.logicalOf t = 0x1F → (s.tile t).state ≠ .test → (s.tile t).state ≠ .failed → t.well < s.wells.length →
      t.tile < (s.well t.well).tiles.length →
      ∃ u : State, exec (.tileSelftest c) s = .next u ∧ u.tile t = { s.tile t with state := .test, selfTest := some (s.devtime, some c) } ∧
        (∀ r, r ≠ t → u.tile r = s.tile r) ∧ u = { s with wells := u.wells, cmds := u.cmds }) ∧
    (t.well < 24 → t.tile < 25 → (s.tile t).state = .failed → ∃ u : State, exec (.tileSelftest c) s = .next u ∧ u.wells = s.wells)) ∧
  (∀ (t : TileRef) (failing n : Nat) (r : Option CmdRef) (s : State), s.alive = true → (s.tile t).state = .test → (s.tile t).selfTest = some (n, r) →
    t.well < s.wells.length → t.tile < (s.well t.well).tiles.length →
    ∃ u : State, exec (.tileSelftestDone t failing) s = .next u ∧ (u.tile t).selfTest = none ∧
      (u.tile t).state = (if failing ≠ 0 ∨ (s.well t.well).failed.contains t.tile = true then .failed else .off) ∧
      u.reg (tileBase t + 0x3C) = (if failing = 0 then 3 * 2 ^ 30 else 2 ^ 31 + failing % 256) ∧
      (u.well t.well).failed = (if failing = 0 then (s.well t.well).failed else insertNat t.tile (s.well t.well).failed) ∧
      OnlyWell s u t.well ∧ u.parts = s.parts ∧ u.lantus = s.lantus) ∧
  (∀ (c : CmdRef) (k : Cmd) (s : State), s.ready c 0x2A = some k →
    let w := k.p0 % 256
    (23 < w ∨ 2097151 < k.p1 → exec (.bucketRetire c) s = .next (s.complete k .format 0 0)) ∧
    (w ≤ 23 → k.p1 ≤ 2097151 → s.owner w < 24 → (s.round (s.owner w)).state.busy = true →
      exec (.bucketRetire c) s = .next (s.complete k .state 0 0)) ∧
    (w ≤ 23 → k.p1 ≤ 2097151 → (s.owner w < 24 → (s.round (s.owner w)).state.busy = false) → w < s.wells.length →
      ((s.well w).inService = false ∨ 64 ≤ s.sparesUsed w (s.bankOf w k.p1) → exec (.bucketRetire c) s = .next (s.complete k .notReady 0 0)) ∧
      ((s.well w).inService = true → s.sparesUsed w (s.bankOf w k.p1) < 64 →
        ∃ u : State, exec (.bucketRetire c) s = .next (u.complete k .ok 0 0) ∧ u.well w = { s.well w with
            retired := (s.well w).retired ++ [k.p1], spareBanks := (s.well w).spareBanks ++ [s.bankOf w k.p1] } ∧
          OnlyWell s u w ∧ OnlyRegs s u [logBase + 4] ∧ u = { s with wells := u.wells, regs := u.regs, fresh := u.fresh, log := u.log })))

/-- A KEY_PROGRAM request whose descriptor passes its tests burns the slot's value, its CRC and three equal attribute copies, and completes with OK; one that fails completes with its status and changes no slot. A KEY_INVALIDATE request leaves the slot unusable, sets bit 31 of each attribute copy of a slot that is not yet invalidated, keeps its value, and completes with OK. Every other slot is as before, and nothing but Lantus, the log and its counter changes before the completion. -/
def Obligations.KeySlotsChange : Prop :=
  (∀ (b : Bytes) (s : State), MbxTakes s 2 b → s.keyProgramRefusal b = none → bits (rd b 0 4) 5 0 < s.lantus.keys.length →
    let k := bits (rd b 0 4) 5 0
    let a := rd b 4 4
    ∃ u : State, exec (.keyProgram (some b)) s = .next (u.mbxComplete .ok) ∧
      u.slot k = ⟨slice b 8 32, crc32c (slice b 8 32), [a, a, a], [a, a, a], false⟩ ∧ (∀ j, j ≠ k → u.slot j = s.slot j) ∧
      u.lantus = { s.lantus with keys := u.lantus.keys } ∧ u = { s with lantus := u.lantus, log := u.log, regs := u.regs, fresh := u.fresh }) ∧
  (∀ (b : Bytes) (st : Status) (s : State), MbxTakes s 2 b → s.keyProgramRefusal b = some st → exec (.keyProgram (some b)) s = .next (s.mbxComplete st)) ∧
  (∀ (b : Bytes) (s : State), MbxTakes s 3 b →
    let k := bits (rd b 0 4) 5 0
    ∃ u : State, exec (.keyInvalidate (some b)) s = .next (u.mbxComplete .ok) ∧ (k < s.lantus.keys.length → (u.mbxComplete .ok).usable k = false) ∧
      (u.slot k).value = (s.slot k).value ∧
      (k < s.lantus.keys.length → attrState (s.slot k).attrWord ≠ 2 → (u.slot k).otp = (s.slot k).otp.map (fun a => a ||| 2 ^ 31)) ∧
      (∀ j, j ≠ k → u.slot j = s.slot j) ∧ u = { s with lantus := { s.lantus with keys := u.lantus.keys }, log := u.log, regs := u.regs, fresh := u.fresh })

/-- FW_LOAD of a container that passes its checks stages it and goes to ROM_VERIFY or UPDATING; one that fails completes with that status and changes nothing of Lantus but its mailbox; while an image or floor-plan load is in progress the running firmware completes it with STATE. FW_VERIFY_DONE with a pause of at most 150 ms starts the staged firmware and completes with OK. FW_FLOOR_ADVANCE sets the floor to a value above it, at most 64 and at most the running security version, and otherwise completes with STATE. LANTUS_FETCH_ERROR leaves the processor restarting; FW_COPY_VERIFIED resumes it or waits in ROM_WAIT. -/
def Obligations.FirmwareLoads : Prop :=
  (∀ (b : Bytes) (s : State), MbxTakes s 1 b → (s.lantus.state = .running → s.loadInProgress = false) → s.fwVerdict b b.length = .ok () →
    ∃ t, exec (.fwLoad (some b)) s = .next t ∧ t.lantus.staged = some ⟨(headerOf b).serial, imageDigest b⟩ ∧
      t.lantus.state = (if s.lantus.state = .romWait then .romVerify else .updating) ∧ t.lantus.fw = s.lantus.fw ∧ t.lantus.fwFloor = s.lantus.fwFloor ∧
      t.lantus.keys = s.lantus.keys ∧ t = { s with lantus := t.lantus }) ∧
  (∀ (b : Bytes) (e : Status × Nat × Nat) (s : State), MbxTakes s 1 b → (s.lantus.state = .running → s.loadInProgress = false) →
    s.fwVerdict b b.length = .error e →
    ∃ u : State, exec (.fwLoad (some b)) s = .next (u.mbxComplete e.1) ∧ u.lantus = s.lantus ∧ u = { s with log := u.log, regs := u.regs, fresh := u.fresh }) ∧
  (∀ (b : Bytes) (s : State), MbxTakes s 1 b → s.lantus.state = .running → s.loadInProgress = true →
    exec (.fwLoad (some b)) s = .next (s.mbxComplete .state)) ∧
  (∀ (pause : Nat) (f : Firmware) (s : State), s.alive = true → s.lantus.staged = some f → pause ≤ 150000 →
    ∃ u : State, exec (.fwVerifyDone pause) s = .next (u.mbxComplete .ok) ∧ u.lantus = { s.lantus with state := .running, fw := some f, staged := none } ∧
      OnlyRegs s u [lntBase + 0x30, logBase + 4] ∧ u = { s with lantus := u.lantus, log := u.log, regs := u.regs, fresh := u.fresh }) ∧
  (∀ (b : Bytes) (s : State), MbxTakes s 4 b →
    let n := rd b 0 4
    (s.lantus.fwFloor < n → n ≤ 64 → n ≤ securityVersion ((s.lantus.fw.map Firmware.serial).getD 0) →
      ∃ u : State, exec (.fwFloorAdvance (some b)) s = .next (u.mbxComplete .ok) ∧ u.lantus = { s.lantus with fwFloor := n } ∧
        u = { s with lantus := u.lantus, log := u.log, regs := u.regs, fresh := u.fresh }) ∧
    (n ≤ s.lantus.fwFloor ∨ 64 < n ∨ securityVersion ((s.lantus.fw.map Firmware.serial).getD 0) < n →
      exec (.fwFloorAdvance (some b)) s = .next (s.mbxComplete .state))) ∧
  (∀ (d : Bool) (s : State), s.alive = true → s.lantus.state = .running ∨ s.lantus.state = .updating →
    ∃ t, exec (.lantusFetchError d) s = .next t ∧ t.lantus.state = .restarting ∧ t.lantus.staged = none ∧ t.lantus.fw = s.lantus.fw ∧
      t.lantus.keys = s.lantus.keys ∧ t.reg (lntBase + 0x34) = min (s.reg (lntBase + 0x34) + 1) 0xFFFFFFFF ∧ t.parts = s.parts ∧ t.wells = s.wells) ∧
  (∀ s : State, s.alive = true → s.lantus.state = .restarting →
    exec (.fwCopyVerified true) s = .next { s with lantus := { s.lantus with state := .running } } ∧
    ∃ t, exec (.fwCopyVerified false) s = .next t ∧ t.lantus = { s.lantus with state := .romWait } ∧ t = { s with lantus := t.lantus, log := t.log, regs := t.regs, fresh := t.fresh })

/-- A DEBUG_UNLOCK request without an allowed signer, or after DEBUG_DISABLE, completes with REFUSED_ACCESS; with a signature that does not verify, with FORMAT; before a nonce exists, with NOT_READY; otherwise debug is armed, not enabled, and it completes with OK. DEBUG_DISABLE burns the fuse and completes with OK. CERT_INSTALL stores a chain whose leaf key is the identity key, and answers KEY_MISMATCH to any other. A request whose data cannot be read completes with UNCORRECTABLE, and one in a state of the processor that does not allow it with STATE. -/
def Obligations.DebugUnlockAndCerts : Prop :=
  (∀ (b : Bytes) (s : State), MbxTakes s 5 b →
    let msg := sha3 (ascii "OSTUSO DEBUG" ++ s.identityDigest ++ s.lantus.dbgNonce)
    let good := Config.mldsaVerify (b.take 1312) msg (ascii "OSTUSO DEBUG") (b.drop 1312)
    (s.debugSigner (sha3 (b.take 1312)) = none ∨ s.lantus.debugDisabled = true → exec (.debugUnlock (some b)) s = .next (s.mbxComplete .refusedAccess)) ∧
    (s.debugSigner (sha3 (b.take 1312)) ≠ none → s.lantus.debugDisabled = false →
      (good = false → exec (.debugUnlock (some b)) s = .next (s.mbxComplete .format)) ∧
      (good = true → leNat s.lantus.dbgNonce = 0 → exec (.debugUnlock (some b)) s = .next (s.mbxComplete .notReady)) ∧
      (good = true → leNat s.lantus.dbgNonce ≠ 0 →
        ∃ u : State, exec (.debugUnlock (some b)) s = .next (u.mbxComplete .ok) ∧ u.lantus = { s.lantus with debugArmed := true } ∧
          u = { s with lantus := u.lantus, log := u.log, regs := u.regs, fresh := u.fresh }))) ∧
  (∀ s : State, MbxTakes s 6 [] → exec .debugDisable s = .next ({ s with lantus := { s.lantus with debugDisabled := true } }.mbxComplete .ok)) ∧
  (∀ (b : Bytes) (s : State), MbxTakes s 7 b →
    exec (.certInstall (some b)) s = .next
      (if s.lantus.identityPk.isEmpty = true ∨ Config.leafPublicKey b ≠ s.lantus.identityPk then s.mbxComplete .keyMismatch
       else { s with lantus := { s.lantus with certChain := some b } }.mbxComplete .ok)) ∧
  (∀ (b : Bytes) (s : State), 0 < b.length →
    (MbxTakes s 2 b → exec (.keyProgram none) s = .next (s.mbxComplete .uncorrectable)) ∧
    (MbxTakes s 5 b → exec (.debugUnlock none) s = .next (s.mbxComplete .uncorrectable)) ∧
    (MbxTakes s 7 b → exec (.certInstall none) s = .next (s.mbxComplete .uncorrectable))) ∧
  (∀ (d : Option Bytes) (s : State), s.mbxServed = true → s.lantus.mbxBusy = true → s.lantus.staged = none →
    (s.lantus.mbxOp = 2 → s.lantus.state ≠ .running → exec (.keyProgram d) s = .next (s.mbxComplete .state)) ∧
    (s.lantus.mbxOp = 1 → s.lantus.state ≠ .running → s.lantus.state ≠ .romWait → exec (.fwLoad d) s = .next (s.mbxComplete .state)))

/-- KEX_START with a good header for a session that is not ACTIVE, with identity and image as R417 asks and both DRBGs giving output, leaves the session STARTED at DEVTIME with a session_id other than zero and sends one KEX_REPORT; KEX_REPORT does the same for one that waited. While the session's DRBG gives none and neither is FATAL it waits with the session NONE. A bad header is answered FORMAT, an ACTIVE session STATE, an unusable slot 0 REFUSED_ACCESS. KEX_ENTROPY_TIMEOUT after 50 ms answers NO_ENTROPY and SESSION_START_EXPIRY after 10 s ends the session. That session_id is a free value other than zero is log entry 8. -/
def Obligations.KeyAgreementStarts : Prop :=
  (∀ (fn i : Nat) (msg : Bytes) (s : State), SesTakes s fn 1 msg i → sesHeaderGood msg 64 64 = true → (s.session i).state ≠ .active →
    (i < 24 → i < s.parts.length) →
    (s.kexRefusal i = none → Gives s i → Gives s 24 →
      ∃ t, exec (.kexStart fn msg) s = .next t ∧ (t.session i).state = .started ∧ (t.session i).id ≠ 0 ∧ (t.session i).startTime = s.devtime ∧
        (t.session i).kexStart = msg ∧ t.out = s.out ++ [.doe fn (t.session i).kexReport] ∧ rd (t.session i).kexReport 0 1 = 2 ∧
        (∀ j, j ≠ i → t.session j = s.session j) ∧ t.wells = s.wells ∧ t.power = s.power ∧ t.lantus = { s.lantus with keys := t.lantus.keys }) ∧
    (s.kexRefusal i = none → s.kexFatal i = false → (s.drbg i).state ≠ .seeded →
      ∃ t, exec (.kexStart fn msg) s = .next t ∧ (t.session i).state = .none ∧ (t.session i).pendingStart = some (fn, msg, s.devtime) ∧ t.out = s.out) ∧
    (s.kexRefusal i = none → s.kexFatal i = true →
      ∃ u : State, exec (.kexStart fn msg) s = .next (u.sesError fn i msg .noEntropy) ∧ (u.session i).state = .none) ∧
    (s.usable 0 = false →
      ∃ u : State, exec (.kexStart fn msg) s = .next (u.sesError fn i msg .refusedAccess) ∧ (u.session i).state = .none)) ∧
  (∀ (fn i : Nat) (msg : Bytes) (s : State), SesTakes s fn 1 msg i →
    (sesHeaderGood msg 64 64 = false → exec (.kexStart fn msg) s = .next (s.sesError fn i msg .format)) ∧
    (sesHeaderGood msg 64 64 = true → (s.session i).state = .active → exec (.kexStart fn msg) s = .next (s.sesError fn i msg .state))) ∧
  (∀ (p fn n : Nat) (msg : Bytes) (s : State), s.serves = true → (s.session p).pendingStart = some (fn, msg, n) → s.kexRefusal p = none →
    Gives s p → Gives s 24 →
    ∃ t, exec (.kexReport p) s = .next t ∧ (t.session p).state = .started ∧ (t.session p).id ≠ 0 ∧ (t.session p).pendingStart = none ∧
      t.out = s.out ++ [.doe fn (t.session p).kexReport] ∧ (∀ j, j ≠ p → t.session j = s.session j)) ∧
  (∀ (p fn n : Nat) (msg : Bytes) (s : State), s.serves = true → (s.session p).pendingStart = some (fn, msg, n) → n + 20000000 ≤ s.devtime →
    s.seeded p = false ∨ s.seeded 24 = false →
    ∃ u : State, exec (.kexEntropyTimeout p) s = .next (u.sesError fn p msg .noEntropy) ∧ (u.session p).pendingStart = none ∧ (u.session p).state = .none ∧
      u.reg (keyBase + 0x24) = min (s.reg (keyBase + 0x24) + 1) 0xFFFFFFFF) ∧
  (∀ (p : Nat) (s : State), s.alive = true → (s.session p).state = .started →
    (∃ t, exec (.sessionStartExpiry p) s = .next t ∧
      (if (s.session p).startTime + 4000000000 ≤ s.devtime then t.session p = { lastStatus := (s.session p).lastStatus } else t = s) ∧
      (∀ j, j ≠ p → t.session j = s.session j)))

/-- KEX_FINISH that passes every step of R414 makes the session ACTIVE with the keys of R415 and no decapsulation key, and a STARTED session whose KEX_FINISH fails is NONE and answered with the failing step's status. SEC_MSG in an ACTIVE session with the next sequence number and a good tag raises the session's sequence number by one and hands an IDE_KM or TDISP request on; a bad one is answered with FORMAT and changes nothing but the session's last status. END_SESSION with the session's identifier leaves the session NONE and is answered. A function that may not name a session is answered with REFUSED_ACCESS and the session keeps its state. -/
def Obligations.SessionMessagesAnswered : Prop :=
  (∀ (fn i : Nat) (msg : Bytes) (s : State), SesTakes s fn 3 msg i →
    (s.kexFinishFails i msg = none →
      ∃ t, exec (.kexFinish fn msg) s = .next t ∧ t.session i = s.sessionKeys i ((s.session i).agree msg).1 (s.session i) ∧
        (t.session i).state = .active ∧ (t.session i).dk = [] ∧ (t.session i).id = (s.session i).id ∧ (∀ j, j ≠ i → t.session j = s.session j) ∧
        (∀ w, w ∉ s.wellsOf i → t.well w = s.well w) ∧ t.lantus = { s.lantus with keys := t.lantus.keys } ∧ t.power = s.power) ∧
    (∀ e, s.kexFinishFails i msg = some e →
      ∃ u : State, exec (.kexFinish fn msg) s = .next (u.sesError fn i msg e.1) ∧
        ((s.session i).state = .started → (u.session i).state = .none) ∧ ((s.session i).state ≠ .started → u.session i = s.session i))) ∧
  (∀ (fn i : Nat) (msg pt : Bytes) (s : State), SesTakes s fn 5 msg i → (s.session i).state = .active → (s.session i).openMsg msg = some pt →
    rd pt 0 4 = 1 ∨ rd pt 0 4 = 2 →
    ∃ t, exec (.secMsg fn msg) s = .next t ∧
      t.session i = { s.session i with seqIn := (s.session i).seqIn + 1, inner := some (rd pt 0 4, fn, pt.drop 4) } ∧
      (∀ j, j ≠ i → t.session j = s.session j) ∧ t = { s with parts := t.parts, opSession := t.opSession }) ∧
  (∀ (fn i : Nat) (msg : Bytes) (s : State), SesTakes s fn 5 msg i →
    ((s.session i).state ≠ .active → exec (.secMsg fn msg) s = .next (s.sesError fn i msg .state)) ∧
    ((s.session i).state = .active → (s.session i).openMsg msg = none → exec (.secMsg fn msg) s = .next (s.sesError fn i msg .format))) ∧
  (∀ (x : Session) (msg pt : Bytes), x.openMsg msg = some pt → rd msg 0x10 4 = x.seqIn + 1 ∧ sesId msg = x.id) ∧
  (∀ (fn i : Nat) (msg : Bytes) (s : State), SesTakes s fn 7 msg i → sesHeaderGood msg 64 64 = true → (s.session i).state ≠ .none →
    sesId msg = (s.session i).id →
    ∃ u : State, exec (.endSession fn msg) s = .next (u.sesReply fn i 8 (s.session i).id []) ∧ (u.session i).state = .none ∧ (u.session i).kIde = [] ∧
      (∀ j, j ≠ i → (u.session j).state = (s.session j).state)) ∧
  (∀ (fn i : Nat) (msg : Bytes) (s : State), s.doeReady fn = true → msg.length ≤ 16376 → rd msg 0 1 = 7 → sesIndex msg = some i → sesAllowed fn i = false →
    exec (.endSession fn msg) s = .next (s.sesError fn i msg .refusedAccess) ∧ ((s.sesError fn i msg .refusedAccess).session i).state = (s.session i).state)

/-- For every state and function whose DOE mailbox is free, GET_VERSION, GET_CAPABILITIES, NEGOTIATE_ALGORITHMS, GET_DIGESTS, GET_CERTIFICATE, GET_MEASUREMENTS, an unsupported request and DOE_DISCOVERY each send one answer and change nothing else; the answers' codes and the discovery layout are the model's (log entry 6). CHALLENGE sends one answer, an error when slot 0 is unusable. A mailbox that is not free answers nothing. -/
def Obligations.SpdmAnswers : Prop :=
  ∀ (fn : Nat) (s : State), s.doeReady fn = true →
    exec (.getVersion fn) s = .next (s.emit (.spdm fn (.versions [0x12, 0x13]))) ∧
    exec (.getCapabilities fn) s = .next (s.emit (.spdm fn .capabilities)) ∧
    exec (.negotiateAlgorithms fn) s = .next (s.emit (.spdm fn (.algorithms 0x08 0x1D7E0001))) ∧
    (s.lantus.certChain = none → exec (.getDigests fn) s = .next (s.emit (.spdm fn (.digests [])))) ∧
    (∀ c, s.lantus.certChain = some c → exec (.getDigests fn) s = .next (s.emit (.spdm fn (.digests [sha3 c])))) ∧
    (∀ c o n, s.lantus.certChain = some c → o < c.length →
      exec (.getCertificate fn o n) s = .next (s.emit (.spdm fn (.certificate (slice c o n) (c.length - o - n))))) ∧
    (exec (.getMeasurements fn 0) s = .next (s.emit (.spdm fn (.measurements (s.measurementBlocks fn).length [])))) ∧
    (exec (.getMeasurements fn 0xFF) s = .next (s.emit (.spdm fn (.measurements (s.measurementBlocks fn).length (s.measurementBlocks fn))))) ∧
    (∀ code, exec (.unsupportedRequest fn code) s = .next (s.emit (.spdm fn (.error 0x07)))) ∧
    (∀ i, ∃ w, exec (.doeDiscovery fn i) s = .next (s.emit (.doe fn w)) ∧ w.length = 4) ∧
    (∀ nonce, s.usable 0 = false → exec (.challenge fn nonce) s = .next (s.emit (.spdm fn (.error 0x05)))) ∧
    (∀ nonce, s.usable 0 = true → Gives s 24 →
      ∃ t h n sig, exec (.challenge fn nonce) s = .next t ∧ t.out = s.out ++ [.spdm fn (.challengeAuth h n sig)] ∧ sig.length = 2420 ∧
        t = { s with drbgs := t.drbgs, freeCount := t.freeCount, out := t.out, log := t.log, regs := t.regs, fresh := t.fresh, parts := t.parts }) ∧
    ∀ s' : State, s'.doeReady fn = false → exec (.getVersion fn) s' = .next s' ∧ exec (.unsupportedRequest fn 0) s' = .next s'

/-- With a request of protocol 1 handed on, IDE_KM serves the stream its session carries and answers with one SEC_REPLY; with one of protocol 2, LOCK moves an unlocked interface to CONFIG_LOCKED unless its BARs changed in this tick, START a locked one to RUN, STOP any to CONFIG_UNLOCKED, and GET_DEVICE_INTERFACE_REPORT leaves it. Without a handed-on request none of them does anything. IDE_INTEGRITY_FAIL of a stream in use makes it Insecure without keys and moves a locked or running interface to ERROR. TDI_CONFIG_CHANGE makes its change and moves a locked or running interface to ERROR for BARs, MSI-X and Bus Master Enable. MSIX_UNMASK unmasks the vector and sends one waiting message. -/
def Obligations.IdeKeysAndTdiStates : Prop :=
  (∀ (p fn : Nat) (req : Bytes) (m : IdeKm) (s : State), s.serves = true → (s.session p).inner = some (1, fn, req) →
    ∃ t o, exec (.ideKm p m) s = .next t ∧ t.host.ide = (if streamOfSession p (ideStreamOf m) = true then updAt s.host.ide (ideStreamOf m) (fun x => x.serve m) else s.host.ide) ∧
      t.session p = { s.session p with seqOut := (s.session p).seqOut + 1, inner := none } ∧ t.out = s.out ++ [.doe fn o] ∧
      t = { s with host := { s.host with ide := t.host.ide }, parts := t.parts, opSession := t.opSession, out := t.out }) ∧
  (∀ (p : Nat) (m : IdeKm) (s : State), (s.session p).inner = none → exec (.ideKm p m) s = .next s) ∧
  (∀ (p fn via : Nat) (req : Bytes) (s : State), s.serves = true → (s.session p).inner = some (2, via, req) → tdiOfSession p fn = true → fn < s.fns.length →
    ((s.fn fn).tdi = .unlocked → (s.fn fn).barChange ≠ some s.devtime →
      ∃ t, exec (.lockInterfaceRequest p fn) s = .next t ∧ t.fn fn = { s.fn fn with tdi := .locked } ∧ OnlyFn s t fn ∧ (t.session p).inner = none ∧
        t.out.getLast? = some (.tdisp fn .done)) ∧
    ((s.fn fn).barChange = some s.devtime ∨ (s.fn fn).tdi ≠ .unlocked →
      ∃ t, exec (.lockInterfaceRequest p fn) s = .next t ∧ t.fns = s.fns ∧ ∃ code, t.out.getLast? = some (.tdisp fn (.error code))) ∧
    ((s.fn fn).tdi = .locked →
      ∃ t, exec (.startInterfaceRequest p fn) s = .next t ∧ t.fn fn = { s.fn fn with tdi := .run } ∧ OnlyFn s t fn ∧ t.out.getLast? = some (.tdisp fn .done)) ∧
    (∃ t, exec (.stopInterfaceRequest p fn) s = .next t ∧ t.fn fn = { s.fn fn with tdi := .unlocked } ∧ OnlyFn s t fn ∧
      t.out.getLast? = some (.tdisp fn .done)) ∧
    ((s.fn fn).tdi = .locked ∨ (s.fn fn).tdi = .run →
      ∃ t, exec (.getDeviceInterfaceReport p fn) s = .next t ∧ t.fns = s.fns ∧ t.out.getLast? = some (.tdisp fn (.report fn [0, 2] true)))) ∧
  (∀ (p fn : Nat) (s : State), (s.session p).inner = none → exec (.lockInterfaceRequest p fn) s = .next s ∧ exec (.stopInterfaceRequest p fn) s = .next s) ∧
  (∀ (k : Nat) (i : IdeStream) (s : State), s.host.ide[k]? = some i → i.keySet.isSome = true → i.insecure = false → k < s.fns.length →
    ∃ t, exec (.ideIntegrityFail k) s = .next t ∧ t.host.ide[k]? = some ⟨[], none, true⟩ ∧ (∀ j, j ≠ k → t.host.ide[j]? = s.host.ide[j]?) ∧
      (k ≠ 0 → (s.fn k).tdi = .locked ∨ (s.fn k).tdi = .run → (t.fn k).tdi = .error ∧ ∀ q ∈ (t.fn k).queues, q.state = .disabled) ∧
      OnlyFn s t k ∧ t.parts = s.parts ∧ t.wells = s.wells) ∧
  (∀ (fn : Nat) (s : State), s.host.up = true → fn < s.fns.length →
    let error := fun (t : State) => (s.fn fn).tdi = .locked ∨ (s.fn fn).tdi = .run → (t.fn fn).tdi = .error
    (∀ b0 b2, ∃ t, exec (.tdiConfigChange fn (.bars b0 b2)) s = .next t ∧ (t.fn fn).bars = (b0, b2) ∧ (t.fn fn).barChange = some s.devtime ∧ error t ∧ OnlyFn s t fn) ∧
    (∀ v a d m, ∃ t, exec (.tdiConfigChange fn (.msixEntry v a d m)) s = .next t ∧ look v (t.fn fn).msix = some ⟨a, d, m⟩ ∧ (s.msixEntry fn v ≠ ⟨a, d, m⟩ → error t) ∧ OnlyFn s t fn) ∧
    (∀ on, ∃ t, exec (.tdiConfigChange fn (.msixEnable on)) s = .next t ∧ (t.fn fn).msixEnable = on ∧ error t ∧ OnlyFn s t fn) ∧
    (∀ on, ∃ t, exec (.tdiConfigChange fn (.busMaster on)) s = .next t ∧ (t.fn fn).busMaster = on ∧ error t ∧ OnlyFn s t fn) ∧
    (∀ on, exec (.tdiConfigChange fn (.aspmL1 on)) s = .next { s with host := { s.host with aspmL1 := on } }) ∧
    (∀ n, exec (.tdiConfigChange fn (.completionTimeout n)) s = .next { s with host := { s.host with completionTimeout := n } })) ∧
  (∀ (fn v : Nat) (s : State), fn < s.fns.length →
    ∃ t e, exec (.msixUnmask fn v) s = .next t ∧ look v (t.fn fn).msix = some e ∧ e.masked = false ∧ OnlyFn s t fn ∧
      (v ∈ (s.fn fn).pba → s.msixOn fn = true → s.host.up = true → s.streamBad fn = false → v ∉ (t.fn fn).pba ∧ t.out = s.out ++ [.msix fn v]) ∧
      (v ∉ (s.fn fn).pba → t.out = s.out))

/-- ATTEST_REPORT for a partition or the device, with room for 4,244 bytes, a usable slot 0, the Lantus DRBG giving output, the link up, its stream secure and its interface not in ERROR, writes one report of 4,244 bytes to the host and completes with OK and that length; without output the command waits among the reports. REPORT_SIGN gives a waiting report the same; REPORT_ENTROPY_TIMEOUT 50 ms after the request completes it with NO_ENTROPY. A partition above 23 other than 0x1F is answered NOT_READY, a short buffer LENGTH_EXCEEDS, an unusable slot 0 REFUSED_ACCESS. -/
def Obligations.ReportsSignedOrEnded : Prop :=
  (∀ (c : CmdRef) (k : Cmd) (s : State), s.ready c 0x38 = some k → k.part < 24 ∨ k.part = 0x1F → 4244 ≤ k.length → s.usable 0 = true →
    (Gives s 24 → s.host.up = true → s.streamBad k.fn = false → (s.fn k.fn).tdi ≠ .error →
      ∃ u b : _, exec (.attestReport c) s = .next (State.complete u k .ok 4244 0) ∧ u.out = s.out ++ [.hostWrite k.fn k.addr b] ∧ b.length = 4244 ∧
        u.reg (keyBase + 0x20) = min (s.reg (keyBase + 0x20) + 1) 0xFFFFFFFF ∧ u.wells = s.wells ∧
        u.lantus = { s.lantus with keys := u.lantus.keys } ∧ u.fns = s.fns) ∧
    ((s.drbg 24).state ≠ .seeded →
      ∃ t, exec (.attestReport c) s = .next t ∧ t.lantus = { s.lantus with reports := s.lantus.reports ++ [⟨c, s.devtime⟩] } ∧ t.out = s.out ∧
        t = { s with lantus := t.lantus, cmds := t.cmds })) ∧
  (∀ (c : CmdRef) (k : Cmd) (s : State), s.ready c 0x38 = some k →
    (24 ≤ k.part → k.part ≠ 0x1F → exec (.attestReport c) s = .next (s.complete k .notReady 0 0)) ∧
    (k.part < 24 ∨ k.part = 0x1F → k.length < 4244 → exec (.attestReport c) s = .next (s.complete k .lengthExceeds 0 0)) ∧
    (k.part < 24 ∨ k.part = 0x1F → 4244 ≤ k.length → s.usable 0 = false → exec (.attestReport c) s = .next (s.complete k .refusedAccess 0 0))) ∧
  (∀ (c : CmdRef) (r : ReportReq) (k : Cmd) (s : State), s.serves = true → s.waitingReport c = some (r, k) → s.usable 0 = true → Gives s 24 →
    s.host.up = true → s.streamBad k.fn = false → (s.fn k.fn).tdi ≠ .error →
    ∃ u b : _, exec (.reportSign c) s = .next (State.complete u k .ok 4244 0) ∧ u.out = s.out ++ [.hostWrite k.fn k.addr b] ∧ b.length = 4244 ∧
      (∀ x ∈ u.lantus.reports, x.cmd ≠ c) ∧ u.wells = s.wells) ∧
  (∀ (c : CmdRef) (r : ReportReq) (k : Cmd) (s : State), s.serves = true → s.waitingReport c = some (r, k) → r.time + 20000000 ≤ s.devtime →
    s.seeded 24 = false →
    ∃ u : State, exec (.reportEntropyTimeout c) s = .next (u.complete k .noEntropy 0 0) ∧ (∀ x ∈ u.lantus.reports, x.cmd ≠ c) ∧
      u.reg (keyBase + 0x24) = min (s.reg (keyBase + 0x24) + 1) 0xFFFFFFFF ∧ u.wells = s.wells ∧ u.cmds = s.cmds)

/-- For every register row at every offset, every bit of every field and every old and written word: RO and WO bits keep, RW and RWL bits take the written bit, W1C bits clear where 1 is written, RC bits clear; a bit in no field becomes zero. For every write that reaches a plain single register, REGISTER_WRITE leaves exactly that word there, with the W1C bits that the device has set and what it has counted in the same tick (R16, R17), and changes no other register and nothing else after the access's arrival and check. -/
def Obligations.RegisterFieldTypes : Prop :=
  (∀ (x : Nat) (r : RegRow) (f : Fld) (i old v : Nat), regRow x = some r → f ∈ r.flds → f.lo ≤ i → i ≤ f.hi →
    (r.written old v).testBit i = (match f.acc with
      | .ro | .wo => old.testBit i
      | .rw | .rwl => v.testBit i
      | .w1c => old.testBit i && !v.testBit i
      | .rc => false)) ∧
  (∀ (x : Nat) (r : RegRow) (i old v : Nat), regRow x = some r → (∀ f ∈ r.flds, i < f.lo ∨ f.hi < i) → (r.written old v).testBit i = false) ∧
  (∀ (a : RegAccess) (x : Nat) (r : RegRow) (s : State), Writes s a x r → kindOf x = .plain → r.half = .single →
    let u := s.atReg a x
    ∃ t, exec (.registerWrite a) s = .next t ∧ t.regW x = BitVec.ofNat 32 (r.written (u.reg x) a.value.toNat ||| u.survives r x) ∧ OnlyRegs u t [x] ∧ t = { u with regs := t.regs, fresh := t.fresh })

/-- For every single register whose one field is a 32-bit RC counter, in the register file (no view of other state): counting adds one, stops at 0xFFFFFFFF, and is noted for its tick with the value before it. A write of any value leaves it at zero, and at 1 where an increment of the same tick came before the write; a read delivers its value and leaves it at zero, and where an increment of the same tick came before the read it delivers the value before that increment and leaves it at 1. Counting after the clearing write or read leaves it at 1. -/
def Obligations.CountersSaturate : Prop :=
  ∀ (x : Nat) (r : RegRow), regRow x = some r → r.flds = [⟨31, 0, .rc, 0⟩] → r.half = .single → kindOf x = .plain →
    (∀ s : State, (s.count x).reg x = min (s.reg x + 1) 0xFFFFFFFF ∧ s.reg x ≤ 0xFFFFFFFF ∧
      (s.freshAt x = none → (s.count x).freshAt x = some (1, s.reg x))) ∧
    (∀ (a : RegAccess) (s : State), Writes s a x r →
      let u := s.atReg a x
      ∃ t, exec (.registerWrite a) s = .next t ∧ OnlyRegs u t [x] ∧ (u.freshAt x = none → t.reg x = 0 ∧ (t.count x).reg x = 1) ∧
        (∀ b, u.freshAt x = some (1, b) → t.reg x = 1)) ∧
    (∀ (a : RegAccess) (s : State), Reads s a x r → a.be = 15 →
      let u := s.atReg a x
      u.viewOf x = none →
      ∃ t, exec (.registerReadClear a) s = .next t ∧ OnlyRegs u t [x] ∧
        (u.freshAt x = none → t.out = u.out ++ [.readData a.who (u.regW x)] ∧ t.reg x = 0 ∧ (t.count x).reg x = 1) ∧
        (∀ b, u.freshAt x = some (1, b) → t.out = u.out ++ [.readData a.who (BitVec.ofNat 32 b)] ∧ t.reg x = 1))

/-- A write of the low half of a writable pair changes no register and stages the word for that writer and pair alone. HI_WRITE of a pair that is neither locked nor illegally encoded, nor fixed by R365, writes both halves with the writer's staged low half, zero when it has staged none, and forgets that staged half alone; no other register changes. -/
def Obligations.PairWritesStaged : Prop :=
  (∀ (a : RegAccess) (x : Nat) (r : RegRow) (s : State), Arrives s a x r → kindOf x = .plain → r.half = .low → r.writable ≠ 0 →
    let u := s.atReg a x
    ∃ t, exec (.registerWrite a) s = .next t ∧ t.regs = u.regs ∧ t.staged a.who x = a.value.toNat ∧
      (∀ w y, w ≠ a.who ∨ y ≠ x → t.staged w y = u.staged w y) ∧ t = { u with writeLatch := t.writeLatch }) ∧
  (∀ (a : RegAccess) (x : Nat) (r q : RegRow) (s : State), Writes s a x r → kindOf x = .plain → r.half = .high → r.writable ≠ 0 → regRow (x - 4) = some q → 4 ≤ x →
    let u := s.atReg a x
    let lo := u.staged a.who (x - 4)
    encodingLegal (x - 4) lo = true → u.basesFixed (x - 4) (lo + 2 ^ 32 * a.value.toNat) = false →
    ∃ t, exec (.hiWrite a) s = .next t ∧
      t.regW (x - 4) = BitVec.ofNat 32 (((u.reg (x - 4)) &&& (0xFFFFFFFF ^^^ q.writable)) ||| (lo &&& q.writable)) ∧
      t.regW x = BitVec.ofNat 32 (((u.reg x) &&& (0xFFFFFFFF ^^^ r.writable)) ||| (a.value.toNat &&& r.writable)) ∧
      OnlyRegs u t [x - 4, x] ∧ t.staged a.who (x - 4) = 0 ∧ (∀ w y, w ≠ a.who ∨ y ≠ x - 4 → t.staged w y = u.staged w y) ∧
      t = { u with regs := t.regs, fresh := t.fresh, writeLatch := t.writeLatch }) ∧
  (∀ (s : State) (w y : Nat), (∀ e ∈ s.writeLatch, e.1 ≠ w ∨ e.2.1 ≠ y) → s.staged w y = 0)

/-- For a function's write that falls on a register: a poisoned one is discarded with reason 4, one without all byte enables with reason 0, one to a reserved offset of its BAR with reason 1, a locked one with reason 3 and an illegal encoding with reason 2. A discarded write adds one to the function's HQ_DISCARD_COUNT, records its reason, BAR and offset, and changes no other register but the log's drop counter, no partition, well, queue pair or Lantus. A write that does not reach the block changes nothing, but that a function's write in P2 or P3 waits for P0. The reason of a poisoned write and the waiting are the model's choices (log entries 20 and 14). -/
def Obligations.DiscardedWritesRecorded : Prop :=
  (∀ (s : State) (who bar off reason : Nat), who < 25 → reason < 8 → bar = 0 ∨ bar = 2 →
    let t := s.discard who bar off reason
    t.reg (hqBase who + 4) = min (s.reg (hqBase who + 4) + 1) 0xFFFFFFFF ∧
    t.reg (hqBase who + 8) = 2 ^ 31 + 2 ^ 28 * (reason % 8) + (if bar = 2 then 2 ^ 27 else 0) + off % 2 ^ 26 ∧
    OnlyRegs s t [hqBase who + 4, hqBase who + 8, logBase + 4] ∧ OnlyFn s t who ∧ t = { s with regs := t.regs, fresh := t.fresh, fns := t.fns, log := t.log }) ∧
  (∀ (a : RegAccess) (s : State), s.accessible a.who = true → s.rowOfWrite a = .register →
    let u := s.arrive a.who
    (a.poisoned = true → exec (.registerWrite a) s = .next (u.discard a.who a.bar a.offset 4)) ∧
    (a.poisoned = false → a.be ≠ 15 → (s.spotOf a).isMemory = false → exec (.registerWrite a) s = .next (u.discard a.who a.bar a.offset 0)) ∧
    (a.poisoned = false → a.be = 15 → s.spotOf a = .reserved → exec (.registerWrite a) s = .next (u.discard a.who a.bar a.offset 1)) ∧
    (∀ x, a.poisoned = false → a.be = 15 → s.spotOf a = .register x →
      let v := s.atReg a x
      (∀ r, v.refuses (accessMaster a.who) x 2 = none → regRow x = some r → r.half = .single ∨ r.writable = 0 →
        (v.lockedOut r x = true → exec (.registerWrite a) s = .next (v.discard a.who a.bar a.offset 3)) ∧
        (v.lockedOut r x = false → encodingLegal x a.value.toNat = false → exec (.registerWrite a) s = .next (v.discard a.who a.bar a.offset 2))) ∧
      (∀ y, v.refuses (accessMaster a.who) x 2 = some y → exec (.registerWrite a) s = .next (v.recordRefusal (accessMaster a.who) x y)))) ∧
  (∀ (a : RegAccess) (s : State), s.accessible a.who = false → s.asleep = false → exec (.registerWrite a) s = .next s) ∧
  (∀ (a : RegAccess) (s : State), s.accessible a.who = false → s.rowOfWrite a = .register → s.asleep = true → s.host.up = true → s.streamBad a.who = false → s.host.inL1 = false →
    a.who ≤ s.host.numVfs → a.who < 25 → exec (.registerWrite a) s = .next { s with host := { s.host with held := s.host.held ++ [(true, a)] } })

/-- REGISTER_READ_CLEAR of a single register other than THM_MAX delivers its enabled bytes, a count as it was before this tick's increment, and clears its RC fields alone, to what has been counted in this tick; of a high half it delivers the half latched by that reader and changes no register. LO_READ delivers the low half and latches the current high half for that reader and pair alone. RNG_DATA_READ from a seeded DRBG changes no register but those of reseeding; from one that is not seeded it delivers zero and counts one underflow. A refused read delivers zero and is recorded. -/
def Obligations.RegisterReadsDelivered : Prop :=
  (∀ (a : RegAccess) (x : Nat) (r : RegRow) (s : State), Reads s a x r →
    let u := s.atReg a x
    (r.half = .single → kindOf x ≠ .thmMax →
      ∃ t, exec (.registerReadClear a) s = .next t ∧ t.out = u.out ++ [.readData a.who (BitVec.ofNat 32 (enabledBytes a.be (u.valueRead r x)))] ∧
        t.reg x = ((u.reg x) &&& (0xFFFFFFFF ^^^ r.mask (fun y => y == .rc))) ||| (((u.freshAt x).getD (0, 0)).1 &&& r.mask (fun y => y == .rc)) ∧
        (u.freshAt x = none → u.valueRead r x = u.regValue x) ∧ OnlyRegs u t [x] ∧ t = { u with regs := t.regs, fresh := t.fresh, out := t.out }) ∧
    (r.half = .high →
      exec (.registerReadClear a) s = .next (u.emit (.readData a.who (BitVec.ofNat 32 (enabledBytes a.be (u.latched a.who (x - 4))))))) ∧
    (r.half = .low → x < 0x30000 ∨ 0x318FF < x →
      ∃ t, exec (.loRead a) s = .next t ∧ t.out = u.out ++ [.readData a.who (BitVec.ofNat 32 (enabledBytes a.be (u.regValue x)))] ∧
        t.latched a.who x = u.regValue (x + 4) % 2 ^ 32 ∧ (∀ w y, w ≠ a.who ∨ y ≠ x → t.latched w y = u.latched w y) ∧
        t = { u with readLatch := t.readLatch, out := t.out }) ∧
    (r.half = .low → 0x30000 ≤ x → x ≤ 0x318FF →
      let b := (x - 0x30000) / 0x100
      ((u.drbg b).state ≠ .seeded →
        ∃ t, exec (.rngDataRead a) s = .next t ∧ t.out = u.out ++ [.readData a.who 0] ∧ t.reg (rngBase b + 0x18) = min (u.reg (rngBase b + 0x18) + 1) 0xFFFFFFFF ∧
          t.regBits (rngBase b) 31 31 = 1 ∧ OnlyRegs u t [rngBase b, rngBase b + 0x18] ∧ t.drbgs = u.drbgs) ∧
      (Gives u b → ∃ t v, exec (.rngDataRead a) s = .next t ∧ t.out = u.out ++ [.readData a.who v] ∧ (t.drbg b).state = .seeded ∧
        OnlyDrbg u t b ∧ OnlyRegs u t [rngBase b + 0x14, rngBase b + 0x1C, logBase + 4] ∧ t.wells = u.wells ∧ t.lantus = u.lantus))) ∧
  (∀ (a : RegAccess) (x : Nat) (y : RefuseReason) (s : State), s.accessible a.who = true → s.spotOf a = .register x →
    (s.atReg a x).refuses (accessMaster a.who) x 1 = some y → s.rowOfRead a = .register →
    exec (.registerReadClear a) s = .next (((s.atReg a x).recordRefusal (accessMaster a.who) x y).deliver a 0))

/-- CLOSE_INTAKE in INTAKE without a waiting ROUND_ABORT leaves the round in CLOSING and elsewhere is discarded; ADMISSION_HOLD sets only that bit. INT_ENABLE_WRITE sets the enables and sends the vector when one is set whose status bit stands. SELF_TEST starts the test of a tile that carries no logical tile and is not FAILED. FLUSH empties the merge buffer and leaves every byte reading as before. SCRUB_START starts a pass over the range, or refuses it; SCRUB_ABORT ends a running pass. CLEAR_ALL empties the correctable-error table. ADMIN_DOWN sets each port's bit and takes a port down. Other wells and partitions are as before. -/
def Obligations.RegisterActionsTaken : Prop :=
  ∀ (a : RegAccess) (x : Nat) (r : RegRow) (s : State), Writes s a x r → r.half = .single →
    let u := s.atReg a x
    let v := a.value.toNat
    (∀ p, kindOf x = .rndCtrl p → p < s.parts.length →
      (bit v 1 = true → (s.round p).state = .intake → (s.round p).abortPending = false →
        ∃ t, exec (.closeIntake a) s = .next t ∧ (t.round p).state = .closing ∧ t.regBits (rndBase p + 0x18) 0 0 = v % 2 ∧ OnlyPart u t p ∧ t.qps = u.qps) ∧
      (bit v 1 = true → (s.round p).state ≠ .intake →
        exec (.closeIntake a) s = .next ((u.setBits (rndBase p + 0x18) 0 0 (v % 2)).discard a.who a.bar a.offset 4)) ∧
      (bit v 1 = false →
        ∃ t, exec (.admissionHold a) s = .next t ∧ t.regBits (rndBase p + 0x18) 0 0 = v % 2 ∧ OnlyRegs u t [rndBase p + 0x18] ∧ t = { u with regs := t.regs, fresh := t.fresh })) ∧
    (∀ st f vec, kindOf x = .intEnable st f vec →
      ∃ t, exec (.intEnableWrite a) s = .next t ∧ t.regW x = BitVec.ofNat 32 (r.written (u.reg x) v ||| u.survives r x) ∧ OnlyRegs u t [x] ∧
        (t.reg x &&& (0xFFFFFFFF ^^^ u.reg x) &&& u.reg st = 0 → t.out = u.out ∧ t.fns = u.fns) ∧
        (t.reg x &&& (0xFFFFFFFF ^^^ u.reg x) &&& u.reg st ≠ 0 → u.msixOn f = true → u.host.up = true → u.streamBad f = false → ((look vec (u.fn f).msix).getD {}).masked = false →
          t.out = u.out ++ [.msix f vec])) ∧
    (∀ c, kindOf x = .tileCtrl c → bit v 0 = true → u.logicalOf c = 0x1F → (u.tile c).state ≠ .test → (u.tile c).state ≠ .failed → c.well < s.wells.length →
      c.tile < (s.well c.well).tiles.length →
      ∃ t, exec (.selfTest a) s = .next t ∧ t.tile c = { u.tile c with state := .test, selfTest := some (u.devtime, none) } ∧ (∀ d, d ≠ c → t.tile d = u.tile d) ∧
        t = { u with wells := t.wells }) ∧
    (∀ w, kindOf x = .mergeCtrl w → bit v 0 = true →
      ∃ t, exec (.flush a) s = .next t ∧ (t.well w).merge = [] ∧ ((u.well w).cisOk → ∀ b, (t.well w).seen b = (u.well w).seen b) ∧ OnlyWell u t w ∧
        t.parts = u.parts ∧ t.qps = u.qps ∧ t.lantus = u.lantus) ∧
    (∀ w, kindOf x = .scrubCtrl w → w < s.wells.length → (u.well w).scrub ≠ .running → bit v 0 = true → bit v 1 = false →
      (u.scrubRange w = none → ∃ t, exec (.scrubStart a) s = .next t ∧ t.well w = { u.well w with scrub := .refused } ∧ OnlyWell u t w) ∧
      (∀ lp b e, u.scrubRange w = some (lp, b, e) →
        ∃ t, exec (.scrubStart a) s = .next t ∧ t.well w = { u.well w with scrub := .running, scrubLpx := lp, scrubNext := b, scrubLast := e } ∧ OnlyWell u t w ∧
          t.regW (scrubBase w + 0x18) = regReset (scrubBase w + 0x18) ∧ t.regW (scrubBase w + 0x20) = regReset (scrubBase w + 0x20))) ∧
    (∀ w, kindOf x = .scrubCtrl w → w < s.wells.length → bit v 0 = false → bit v 1 = true →
      ∃ t, exec (.scrubAbort a) s = .next t ∧ (t.well w).scrub = (if (u.well w).scrub = .running then .aborted else (u.well w).scrub) ∧ OnlyWell u t w ∧
        t.regs = u.regs) ∧
    (∀ w, kindOf x = .cetCtrl w → w < s.wells.length → bit v 0 = true →
      ∃ t, exec (.clearAll a) s = .next t ∧ t.well w = { u.well w with cet := List.replicate 16 none } ∧ OnlyWell u t w ∧ t = { u with wells := t.wells }) ∧
    (kindOf x = .portCtrl → 2 ≤ s.ports.length →
      ∃ t, exec (.adminDown a) s = .next t ∧ (t.port 0).admin = bit v 0 ∧ (t.port 1).admin = bit v 1 ∧
        (∀ n, n < 2 → (u.port n).admin = false → bit v n = true → (t.port n).up = false) ∧ t.wells = u.wells ∧ t.lantus = u.lantus)

/-- QUEUE_ENABLE of a DISABLED queue with legal sizes and aligned bases makes it ACTIVE with its indexes at zero and phase 1; illegal sizes are discarded with reason 2 and unaligned bases with reason 4, and a change of sizes or vector of a queue that is not DISABLED with reason 4. QUEUE_DISABLE of an ACTIVE or ERROR queue makes it DRAINING. A doorbell of a queue that is not DISABLED with a legal index moves that index alone; an illegal index of an ACTIVE queue puts it in ERROR with FORMAT, and a doorbell of a DISABLED queue is discarded. EVQ_CONS_WRITE writes the index and, with lost records and space, resets their count. -/
def Obligations.QueueRegistersAndDoorbells : Prop :=
  (∀ (a : RegAccess) (x f q : Nat) (r : RegRow) (s : State), Writes s a x r → kindOf x = .hqCfg f q → r.half = .single → f < s.fns.length →
    q < (s.fn f).queues.length →
    let u := s.atReg a x
    let v := a.value.toNat
    ((u.queue f q).state = .disabled → bit v 31 = true →
      (cfgLegal f v = true → u.sqBase f q % 4096 = 0 → u.cqBase f q % 4096 = 0 →
        ∃ t, exec (.queueEnable a) s = .next t ∧ t.queue f q = ⟨.active, 0, 0, 0, 0, true, (u.queue f q).errStatus⟩ ∧
          (∀ p, p ≠ q → t.queue f p = u.queue f p) ∧ OnlyFn u t f ∧ t.regW x = BitVec.ofNat 32 (r.written (u.reg x) v ||| u.survives r x) ∧ OnlyRegs u t [x] ∧
          t = { u with regs := t.regs, fresh := t.fresh, fns := t.fns }) ∧
      (cfgLegal f v = true → u.sqBase f q % 4096 ≠ 0 ∨ u.cqBase f q % 4096 ≠ 0 →
        exec (.queueEnable a) s = .next (u.discard a.who a.bar a.offset 4)) ∧
      (cfgLegal f v = false → exec (.queueEnable a) s = .next (u.discard a.who a.bar a.offset 2))) ∧
    ((u.queue f q).state ≠ .disabled → v &&& 0x01FF1F1F ≠ u.reg x &&& 0x01FF1F1F → bit v 31 = false →
      exec (.queueDisable a) s = .next (u.discard a.who a.bar a.offset 4)) ∧
    ((u.queue f q).state = .active ∨ (u.queue f q).state = .error → v &&& 0x01FF1F1F = u.reg x &&& 0x01FF1F1F → bit v 31 = false →
      ∃ t, exec (.queueDisable a) s = .next t ∧ t.queue f q = { u.queue f q with state := .draining } ∧ (∀ p, p ≠ q → t.queue f p = u.queue f p) ∧
        OnlyFn u t f ∧ OnlyRegs u t [x] ∧ t = { u with regs := t.regs, fresh := t.fresh, fns := t.fns })) ∧
  (∀ (a : RegAccess) (q : Nat) (s : State), Rings s a q false → a.who < s.fns.length → q < (s.fn a.who).queues.length →
    let u := s.arrive a.who
    let v := a.value.toNat
    (v < 65536 → v < u.sqSize a.who q → (u.queue a.who q).state ≠ .disabled →
      ∃ t, exec (.sqTailDoorbell a) s = .next t ∧ t.queue a.who q = { u.queue a.who q with sqTail := v } ∧
        (∀ p, p ≠ q → t.queue a.who p = u.queue a.who p) ∧ OnlyFn u t a.who ∧ t = { u with fns := t.fns }) ∧
    (v < 65536 → u.sqSize a.who q ≤ v → (u.queue a.who q).state = .active →
      ∃ t, exec (.sqTailDoorbell a) s = .next t ∧ t.queue a.who q = { u.queue a.who q with state := .error, errStatus := .format }) ∧
    ((u.queue a.who q).state = .disabled → exec (.sqTailDoorbell a) s = .next (u.discard a.who a.bar a.offset 4))) ∧
  (∀ (a : RegAccess) (q : Nat) (s : State), Rings s a q true → a.who < s.fns.length → q < (s.fn a.who).queues.length →
    let u := s.arrive a.who
    let v := a.value.toNat
    (v < 65536 → v < u.cqSize a.who q → (v + u.cqSize a.who q - (u.queue a.who q).cqHead) % u.cqSize a.who q ≤ u.cqUsed a.who q →
      (u.queue a.who q).state ≠ .disabled →
      ∃ t, exec (.cqHeadDoorbell a) s = .next t ∧ t.queue a.who q = { u.queue a.who q with cqHead := v } ∧
        (∀ p, p ≠ q → t.queue a.who p = u.queue a.who p) ∧ OnlyFn u t a.who ∧ t = { u with fns := t.fns })) ∧
  (∀ (a : RegAccess) (x p : Nat) (r : RegRow) (s : State), Writes s a x r → kindOf x = .evqCons p → r.half = .single → p < s.parts.length →
    let u := s.atReg a x
    ∃ t, exec (.evqConsWrite a) s = .next t ∧ t.regW x = BitVec.ofNat 32 (r.written (u.reg x) a.value.toNat ||| u.survives r x) ∧ OnlyRegs u t [x, stlpBase p + 0x14] ∧
      OnlyPart u t p ∧ ((u.part p).evqLost = 0 → t = { u with regs := t.regs, fresh := t.fresh }) ∧
      (t.part p).evqLost = (if u.reg (stlpBase p + 0x10) = 0 ∨ u.host.up = false ∨
        (u.setReg x (r.written (u.reg x) a.value.toNat ||| u.survives r x)).ringFull p = true then (u.part p).evqLost else 0) ∧ t.wells = u.wells ∧ t.lantus = u.lantus)

/-- LINK_DOWN with the link up leaves it down, every queue of every function DISABLED, MSI-X off, BARs zero, no IDE key, NumVFs zero, the completion timeout at 50 ms, one link-down counted, and nothing sent to the host. LINK_UP with a supported width, rate and matching FLIT mode leaves the link up with them, and with any other changes nothing. L1_IDLE_ENTRY with ASPM L1 enabled, no command in progress and 32 us without a TLP enters L1. FUNCTION_LEVEL_RESET of a VF leaves its queues DISABLED, its interface unlocked and its configuration at reset and, while no load is in progress, changes no other function; of the PF it does so for every enabled VF, clears NumVFs and ASPM L1 enable and returns the completion timeout to 50 ms. -/
def Obligations.HostLinkChanges : Prop :=
  (∀ (cause : Nat) (s : State), s.host.up = true →
    ∃ t, exec (.linkDown cause) s = .next t ∧ t.host.up = false ∧ t.host.numVfs = 0 ∧ t.host.completionTimeout = 20000000 ∧ t.host.held = [] ∧ (∀ i ∈ t.host.ide, i.keys = [] ∧ i.keySet = none) ∧
      (∀ f, f < 25 → (∀ q ∈ (t.fn f).queues, q.state = .disabled) ∧ (t.fn f).msixEnable = false ∧ (t.fn f).bars = (0, 0)) ∧
      (∀ d ∈ t.cmds, d.fn < 25 → d.orphan = true) ∧ t.reg (hifBase + 8) = min (s.reg (hifBase + 8) + 1) 0xFFFFFFFF ∧ t.out = s.out ∧ t.qps = s.qps ∧
      t.lantus = s.lantus ∧ t.power = s.power) ∧
  (∀ (w r : Nat) (fl : Bool) (s : State), s.alive = true →
    (w = 1 ∨ w = 2 ∨ w = 4 ∨ w = 8 → 1 ≤ r → r ≤ 7 → fl = decide (6 ≤ r) →
      ∃ t, exec (.linkUp w r fl) s = .next t ∧ t.host = { s.host with up := true, width := w, rate := r, flit := fl, lastTlp := s.devtime } ∧
        OnlyRegs s t [logBase + 4] ∧ t = { s with host := t.host, log := t.log, regs := t.regs, fresh := t.fresh }) ∧
    ((w ≠ 1 ∧ w ≠ 2 ∧ w ≠ 4 ∧ w ≠ 8) ∨ r = 0 ∨ 7 < r ∨ fl ≠ decide (6 ≤ r) → exec (.linkUp w r fl) s = .next s)) ∧
  (∀ s : State, exec .l1IdleEntry s =
    .next (if s.host.up = true ∧ s.host.aspmL1 = true ∧ s.cmds = [] ∧ s.host.lastTlp + 12800 ≤ s.devtime then { s with host := { s.host with inL1 := true } } else s)) ∧
  (∀ (fn : Nat) (s : State), s.host.up = true → fn ≠ 0 →
    ∃ t, exec (.functionLevelReset fn) s = .next t ∧ (∀ q ∈ (t.fn fn).queues, q.state = .disabled) ∧ (t.fn fn).tdi = .unlocked ∧
      (t.fn fn).msixEnable = false ∧ (t.fn fn).bars = (0, 0) ∧
      ((∀ c ∈ s.cmds, c.started = true → c.opcode ≠ 0x20 ∧ c.opcode ≠ 0x21) → OnlyFn s t fn) ∧ t.qps = s.qps ∧ t.lantus = s.lantus) ∧
  (∀ s : State, s.host.up = true →
    ∃ t, exec (.functionLevelReset 0) s = .next t ∧ t.host.numVfs = 0 ∧ t.host.aspmL1 = false ∧ t.host.completionTimeout = 20000000 ∧
      (∀ f, f < 25 → f = 0 ∨ f ≤ s.host.numVfs → (∀ q ∈ (t.fn f).queues, q.state = .disabled) ∧ (t.fn f).tdi = .unlocked ∧ (t.fn f).msixEnable = false))

/-- A POWER_STATE that may start, with no entry running: for the state already held it completes with OK; with a refuser it completes with STATE, counts that refuser's refusals and keeps the state; without one, P0 and P1 are reached at once with OK; for P2 and P3 the entry begins: the command is noted, no port trains, no LPDDR5X device is READY and every source is OFF or FATAL, and the state is kept. Taken again by the command whose entry runs, without a refuser, it completes with OK and the target state is reached with the PLL off and the governor's level 0. That the same command commits is the model's choice (log entry 14). -/
def Obligations.PowerStateEntries : Prop :=
  (∀ (c : CmdRef) (k : Cmd) (s : State), s.ready c 0x30 = some k → s.power.enterCmd = none →
    let p := pstateOf (bits k.p0 1 0)
    (p = s.power.state → exec (.powerState c) s = .next ({ s with power := { s.power with target := p } }.complete k .ok 0 0)) ∧
    (∀ r, r < 29 → p ≠ s.power.state → s.refuser p c = some r →
      ∃ u : State, exec (.powerState c) s = .next (u.complete k .state 0 0) ∧ u.power = { s.power with target := p } ∧
        u.reg (pwrBase + 0x200 + 4 * r) = min (s.reg (pwrBase + 0x200 + 4 * r) + 1) 0xFFFFFFFF ∧ u.wells = s.wells ∧ u.sources = s.sources ∧ u.ports = s.ports) ∧
    (p ≠ s.power.state → s.refuser p c = none → p = .p0 ∨ p = .p1 →
      ∃ t, exec (.powerState c) s = .next t ∧ t.power = { s.power with target := p, state := p } ∧ (∀ d ∈ t.cmds, d.is k.ref = false) ∧
        t.wells = s.wells ∧ t.sources = s.sources ∧ t.ports = s.ports) ∧
    (p ≠ s.power.state → s.refuser p c = none → p = .p2 ∨ p = .p3 →
      ∃ t, exec (.powerState c) s = .next t ∧ t.power = { s.power with target := p, enterCmd := some c } ∧ (∀ x ∈ t.ports, x.training = false) ∧
        (∀ w, (t.well w).lpxState ≠ .ready) ∧ (∀ x ∈ t.sources, x.state = .off ∨ x.state = .fatal))) ∧
  (∀ (c : CmdRef) (k : Cmd) (s : State), s.serves = true → s.power.enterCmd = some c → s.refuser s.power.target c = none →
    s.cmds.find? (fun d => d.is c) = some k →
    ∃ t, exec (.powerState c) s = .next t ∧ t.power.state = s.power.target ∧ t.power.enterCmd = none ∧ t.power.pllLocked = false ∧ t.power.g = 0 ∧
      (∀ d ∈ t.cmds, d.is k.ref = false) ∧ t.wells = s.wells ∧ t.lantus = s.lantus)

/-- In P2 and P3, running and with no entry or wake in progress, WAKE_N, an addressed management transaction and the exit of L1 each start the wake: V_run is requested and the cause noted. AVS_VDONE of the requested voltage in time acknowledges it and the wake goes on to the PLL; PLL_LOCK then locks it, where the divider's copies agree; SELF_REFRESH_EXIT_DONE reaches P0, with each device READY or failed, no register access having waited. In P1 an addressed transaction and the exit of L1 reach P0, and WAKE_N does nothing there or in P0. -/
def Obligations.WakeSequence : Prop :=
  (∀ s : State, s.life = .running → s.power.enterCmd = none → s.power.state = .p2 ∨ s.power.state = .p3 → s.power.wake = .none →
    let woken := fun (b : Nat) (t : State) => t.power = { s.power with
        wake := .avs, wakeStart := s.devtime, wakeCauses := 2 ^ b, avsRequested := s.power.vRun, avsWrites := 1, avsTime := s.devtime } ∧ t.out = s.out ++ [.avs s.power.vRun]
    (∃ t, exec .wakeN s = .next t ∧ woken 2 t ∧ t = { s with power := t.power, out := t.out }) ∧
    (∀ d a, d = true ∨ a = s.regBits (pwrBase + 0xC) 6 0 → ∃ t, exec (.mgmtAddressMatch d a) s = .next t ∧ woken 1 t ∧ t = { s with power := t.power, out := t.out }) ∧
    (s.host.up = true → s.host.inL1 = true → ∃ t, exec .pcieL1Exit s = .next t ∧ woken 3 t ∧ t.host.inL1 = false ∧ t.parts = s.parts ∧ t.wells = s.wells)) ∧
  (∀ s : State, s.life = .running → s.power.enterCmd = none → s.power.state = .p1 →
    (exec .wakeN s = .next s) ∧
    (∀ a, ∃ t, exec (.mgmtAddressMatch true a) s = .next t ∧ t.power = { s.power with state := .p0, wakeCauses := 2 }) ∧
    (s.host.up = true → s.host.inL1 = true → ∃ t, exec .pcieL1Exit s = .next t ∧ t.power = { s.power with state := .p0, wakeCauses := 8 })) ∧
  (∀ s : State, s.life = .running → s.power.avsWrites ≠ 0 → s.devtime ≤ s.power.avsTime + 800000 →
    exec (.avsVdone s.power.avsRequested) s = .next { s with power := { s.power with
      avsAcked := s.power.avsRequested, avsWrites := 0, wake := if s.power.wake = .avs then .pll else s.power.wake } }) ∧
  (∀ s : State, s.power.pllLocked = false → agree s.access.divider 0 = true →
    (s.life = .rom → s.lantus.state = .running → exec .pllLock s = .next { s with power := { s.power with pllLocked := true } }) ∧
    (s.life = .running → s.power.wake = .pll → exec .pllLock s = .next { s with power := { s.power with pllLocked := true, wake := .selfRefresh } })) ∧
  (∀ (trained : List Bool) (s : State), s.life = .running → s.power.wake = .selfRefresh → s.host.held = [] →
    ∃ t, exec (.selfRefreshExitDone trained) s = .next t ∧ t.power = { s.power with state := .p0, wake := .none } ∧
      (∀ w, w < 24 → (t.well w).lpxState =
        (if (s.well w).lpxState = .selfRefresh then (if trained.getD w true = true then .ready else .failed) else (s.well w).lpxState)) ∧
      t.lantus = s.lantus ∧ t.host = s.host)

/-- V_RUN_ADJUST 100 ms after the last step, with no request outstanding and the last one acknowledged, moves V_run by 5 mV towards 820 or 680 mV and requests it; at the limit it changes nothing. AVS_TIMEOUT after 2 ms counts, and writes the request again up to the third; the third in a wake stops the device with FAULT_N's cause 3. TELEMETRY_POLL stores the readings in their register, or counts one failure. -/
def Obligations.SupplyAndTelemetry : Prop :=
  (∀ (up : Bool) (s : State), s.life = .running → s.alive = true → s.power.avsWrites = 0 → s.power.vRunTime + 40000000 ≤ s.devtime →
    (s.power.avsRequested = s.power.vRun → s.power.avsAcked = s.power.vRun) →
    let v := if up = true then min 820 (s.power.vRun + 5) else max 680 (s.power.vRun - 5)
    exec (.vRunAdjust up) s = .next (if v = s.power.vRun then s else
      { s with
        power := { s.power with vRunTime := s.devtime, vRun := v, avsRequested := v, avsWrites := 1, avsTime := s.devtime }, out := s.out ++ [.avs v] })) ∧
  (∀ s : State, s.life = .running → s.timeRuns = true → s.power.avsWrites ≠ 0 → s.power.avsTime + 800000 < s.devtime →
    ∃ t, exec .avsTimeout s = .next t ∧ t.reg (pwrBase + 0x14) = min (s.reg (pwrBase + 0x14) + 1) 0xFFFFFFFF ∧
      (s.power.avsWrites < 3 → t.power = { s.power with avsWrites := s.power.avsWrites + 1, avsTime := s.devtime } ∧ t.out = s.out ++ [.avs s.power.avsRequested] ∧
        t.life = .running) ∧
      (3 ≤ s.power.avsWrites → t.power.avsWrites = 0 ∧ t.life = (if s.power.wake = .avs then .stopped else .running)) ∧
      (3 ≤ s.power.avsWrites → s.power.wake = .avs → t.regBits (logBase + 0x804) 3 3 = 1) ∧ t.wells = s.wells ∧ t.parts = s.parts) ∧
  (∀ (pw ca : Nat) (s : State), s.serves = true →
    (∃ t, exec (.telemetryPoll none pw ca) s = .next t ∧ t.reg (pwrBase + 0x18) = 65536 * (ca % 65536) + pw % 65536 ∧ OnlyRegs s t [pwrBase + 0x18] ∧
      t = { s with regs := t.regs, fresh := t.fresh }) ∧
    (∀ e, ∃ t, exec (.telemetryPoll (some e) pw ca) s = .next t ∧ t.reg (pwrBase + 0x1C) = min (s.reg (pwrBase + 0x1C) + 1) 0xFFFFFFFF ∧
      OnlyRegs s t [pwrBase + 0x1C, logBase + 4] ∧ t.power = { s.power with lastPmbus := some s.second }))

/-- THERMAL_SAMPLE stores the readings and keeps the highest of the period and of THM_MAX. GOVERNOR_PERIOD at a millisecond, without VR_ALERT_N in it, moves the level up 20 at 100.0 degrees and above, keeps it above 98.0 and lowers it by 10 otherwise, between 0 and 2,000; with one it keeps the level. VR_ALERT_N sets the level to 2,000. Both leave every partition's last sent stretch at the value of its slack and the level, where that is at most 1,023. STRETCH_ACTIVATION puts what has come due in force and changes no round. -/
def Obligations.GovernorSetsStretch : Prop :=
  (∀ (rs : List Int) (s : State), s.life = .running ∨ s.life = .rom → s.power.state ≠ .p3 → rs.length = 49 → (∀ r ∈ rs, -2048 ≤ r ∧ r < 2048) →
    ∃ t m, exec (.thermalSample rs) s = .next t ∧ m ∈ rs ∧ (∀ r ∈ rs, r ≤ m) ∧ t.power = { s.power with readings := rs, periodMax := some (max (s.power.periodMax.getD m) m) } ∧
      sgn 12 (t.reg (pwrBase + 0x48)) = max (sgn 12 (s.reg (pwrBase + 0x48))) m ∧ OnlyRegs s t [pwrBase + 0x48] ∧ t = { s with power := t.power, regs := t.regs, fresh := t.fresh }) ∧
  (∀ s : State, s.serves = true → s.devtime % 400000 = 0 → s.power.lastPeriod < s.devtime →
    ∃ t, exec .governorPeriod s = .next t ∧ t.power.lastPeriod = s.devtime ∧ t.power.vrAlert = false ∧
      t.power.g = (if s.power.vrAlert = true then s.power.g else nextLevel s.power.g s.periodReading) ∧
      (s.power.vrAlert = false → ∀ p, p < 24 → p < s.parts.length →
        let v := match s.slackOf p with | some k => stretchAt (nextLevel s.power.g s.periodReading) k | none => 0
        v ≤ 1023 → t.lastSent p = v) ∧
      (∀ p, t.round p = s.round p) ∧ t.wells = s.wells ∧ t.lantus = s.lantus ∧ t.qps = s.qps) ∧
  (∀ (g : Nat) (x : Int), (400 ≤ x → nextLevel g x = min 2000 (g + 20)) ∧ (392 < x → x < 400 → nextLevel g x = g) ∧ (x ≤ 392 → nextLevel g x = g - 10)) ∧
  (∀ s : State, s.life = .running → s.alive = true →
    ∃ t, exec .vrAlertN s = .next t ∧ t.power.g = 2000 ∧ t.power.vrAlert = true ∧ t.reg (pwrBase + 0x4C) = min (s.reg (pwrBase + 0x4C) + 1) 0xFFFFFFFF ∧
      (∀ p, p < 24 → p < s.parts.length →
        let v := match s.slackOf p with | some k => sFloor k | none => 0
        v ≤ 1023 → t.lastSent p = v) ∧
      (∀ p, t.round p = s.round p) ∧ t.wells = s.wells ∧ t.lantus = s.lantus ∧ t.qps = s.qps) ∧
  (∀ (p : Nat) (s : State), s.alive = true → p < s.parts.length →
    ∃ t, exec (.stretchActivation p) s = .next t ∧ (t.part p).stretch = s.stretchOf p ∧
      (t.part p).stretchNext = (s.part p).stretchNext.filter (fun e => decide (s.devtime < e.2)) ∧ (∀ q, t.round q = s.round q) ∧ t = { s with parts := t.parts })

/-- THERMAL_TRIP at 115.0 degrees or above and PWR_FAIL_N stop the device, record their cause and leave no session, memory or IDE key. PLL_LOCK_LOST stops it and records its cause. PWR_FAIL_DEASSERT releases the pin and starts nothing. POWER_LOSS and POWER_ON_RESET leave every register at its reset value, DEVTIME zero, no partition or memory contents, and the OTP: slot values, firmware floor and the debug fuse. DEVICE_RESET does the same but keeps DEVTIME and debug arming, and is ignored while THERMTRIP_N is asserted. -/
def Obligations.StopsAndResets : Prop :=
  (∀ s : State, s.life ≠ .off → s.life ≠ .held →
    let gone := fun (t : State) => t.life = .stopped ∧ (∀ p, (t.session p).kLink = [] ∧ (t.session p).kMem = [] ∧ (t.session p).kShare = [] ∧ (t.session p).kIde = []) ∧
      (∀ w, (t.well w).lpxKey = []) ∧ (∀ i ∈ t.host.ide, i.keys = []) ∧ (∀ e ∈ t.qps, e.2.txKey = [] ∧ e.2.rxKey = []) ∧ t.lantus = s.lantus ∧ t.devtime = s.devtime
    (s.power.state ≠ .p3 → s.thermTrip = false → 460 ≤ s.hottest.2 →
      ∃ t, exec .thermalTrip s = .next t ∧ gone t ∧ t.thermTrip = true ∧ t.regBits (logBase + 0x804) 4 4 = 1) ∧
    (∃ t, exec .pwrFailN s = .next t ∧ gone t ∧ t.pwrFailLow = true ∧ t.regBits (logBase + 0x804) 5 5 = 1)) ∧
  (∀ s : State, s.timeRuns = true → s.power.pllLocked = true →
    ∃ t, exec .pllLockLost s = .next t ∧ t.life = .stopped ∧ t.power = { s.power with pllLocked := false } ∧ t.regBits (logBase + 0x804) 1 1 = 1 ∧
      t.parts = s.parts ∧ t.wells = s.wells ∧ t.lantus = s.lantus) ∧
  (∀ s : State, s.life ≠ .off → s.pwrFailLow = true → ∃ t, exec .pwrFailDeassert s = .next t ∧ t.pwrFailLow = false ∧ t.life = s.life ∧
    t = { s with pwrFailLow := false, log := t.log, regs := t.regs, fresh := t.fresh }) ∧
  (∀ s : State,
    let cleared := fun (t : State) => t.regs = [] ∧ t.parts = State.reset.parts ∧ t.wells = State.reset.wells ∧ t.qps = [] ∧ t.cmds = [] ∧ t.plan = {} ∧
      t.access = State.reset.access ∧ t.log = {} ∧ t.lantus.fwFloor = s.lantus.fwFloor ∧ t.lantus.debugDisabled = s.lantus.debugDisabled ∧
      t.lantus.keys.map KeySlot.value = s.lantus.keys.map KeySlot.value ∧ t.lantus.keys.map KeySlot.otp = s.lantus.keys.map KeySlot.otp ∧ t.pending = s.pending
    (s.life ≠ .off → ∃ t, exec .powerLoss s = .next t ∧ t.life = .off ∧ t.devtime = 0 ∧ cleared t) ∧
    (s.life = .off → ∃ t, exec .powerOnReset s = .next t ∧ t.life = .held ∧ t.devtime = 0 ∧ cleared t) ∧
    (s.life ≠ .off → s.thermTrip = false → ∃ t, exec .deviceReset s = .next t ∧ t.life = .held ∧ t.devtime = s.devtime ∧
      t.lantus.debugArmed = s.lantus.debugArmed ∧ t.lantus.debugEnabled = false ∧ cleared t) ∧
    (s.thermTrip = true → exec .deviceReset s = .next s))

/-- RESET_RELEASE of a held device reaches ROM_WAIT with debug enabled exactly when it was armed, and the Lantus source and DRBG start. BOOT_SELFTEST_DONE with firmware and PLL running maps the first 24 passing tiles of each well, puts in service exactly the wells with at least 24 passing tiles and a trained device, and the device runs. TRIPLE_VOTE_SCAN leaves each key slot's copies and the roots as the vote repairs them, a slot whose copies all differ unusable, and stops the device when the divider's copies all differ. LPX_FAILED takes the well out of service. -/
def Obligations.BootSequence : Prop :=
  (∀ s : State, s.life = .held → 25 ≤ s.sources.length → 25 ≤ s.drbgs.length →
    ∃ t, exec .resetRelease s = .next t ∧ t.life = .rom ∧ t.lantus.state = .romWait ∧ t.lantus.debugEnabled = s.lantus.debugArmed ∧ t.lantus.debugArmed = false ∧
      t.resetLow = false ∧ t.pwrFailLow = false ∧ (t.source 24).state = .settle ∧ (t.drbg 24).state = .startup ∧ OnlySource s t 24 ∧ OnlyDrbg s t 24 ∧
      t.wells = s.wells ∧ t.parts = s.parts ∧ t.devtime = s.devtime) ∧
  (∀ (r : List WellTest) (s : State), s.life = .rom → s.lantus.state = .running → s.power.pllLocked = true → r.length = 24 →
    ∃ t, exec (.bootSelftestDone r) s = .next t ∧ t.life = .running ∧
      (∀ (w : Nat) (e : WellTest), r[w]? = some e → w < s.wells.length →
        let pass := (List.range 25).filter (fun k => (e.failedTiles.find? (fun x => x.1 == k)).isNone)
        (t.well w).inService = (decide (24 ≤ pass.length) && e.lpddrTrained) ∧ (t.well w).subst = (pass ++ List.replicate 24 0x1F).take 24 ∧
          (t.well w).lpxState = (if e.lpddrTrained = true then .ready else .failed)) ∧
      t.parts = s.parts ∧ t.lantus = s.lantus ∧ t.power = s.power) ∧
  (∀ s : State, s.serves = true → s.access.roots.length = 3 →
    ∃ t, exec .tripleVoteScan s = .next t ∧
      (∀ n, n < 64 → n < s.lantus.keys.length → (t.slot n).attrs = (votedCopies (s.slot n).attrs 0).1 ∧ (t.slot n).value = (s.slot n).value ∧
        ((votedCopies (s.slot n).attrs 0).2.2 = true → (t.slot n).unusable = true)) ∧
      t.access.roots = (votedCopies s.access.roots 0).1 ∧
      t.life = (if (votedCopies s.access.divider 0).2.2 = true then .stopped else .running) ∧ t.power = s.power ∧ t.devtime = s.devtime) ∧
  (∀ (w : Nat) (s : State), s.alive = true → w < s.wells.length → (s.well w).lpxState = .ready ∨ (s.well w).lpxState = .selfRefresh →
    ∃ t, exec (.lpxFailed w) s = .next t ∧ (t.well w).lpxState = .failed ∧ (t.well w).inService = false ∧ t.lantus = s.lantus ∧ t.power = s.power)

/-- The entry CRC starts at 0xFFFF and takes each byte into its upper half, shifting eight times to the left with the polynomial 0x1021 when the top bit leaves; nothing is reflected or inverted, and over "123456789" it is 0x29B1. Every entry of the log is 32 bytes, the last two being the CRC of the first 30, little-endian. A LOG_DRAIN that may run and waits for no earlier one of its view, over an up link whose stream is secure and of a function that is not in ERROR, and whose length is a multiple of 32 above zero, writes exactly those bytes of the entries it delivers to host memory. -/
def Obligations.LogEntryCrc : Prop :=
  crc16 [] = 0xFFFF ∧
  (let sh := fun c : Nat => if 0x8000 ≤ c then ((c * 2) % 0x10000) ^^^ 0x1021 else (c * 2) % 0x10000
   ∀ (bs : Bytes) (b : Byte), crc16 (bs ++ [b]) = sh (sh (sh (sh (sh (sh (sh (sh (crc16 bs ^^^ (256 * b.toNat)))))))))) ∧
  crc16 (ascii "123456789") = 0x29B1 ∧
  (∀ e : LogEntry, e.bytes.length = 32 ∧ rd e.bytes 0x1E 2 = crc16 (e.bytes.take 0x1E)) ∧
  (∀ (c : CmdRef) (k : Cmd) (s : State), s.ready c 0x39 = some k → s.drainWaits k = false → k.part < 24 ∨ k.part = 0x1F → k.length ≠ 0 → k.length % 32 = 0 → s.streamBad k.fn = false → s.host.up = true → (s.fn k.fn).tdi ≠ .error →
    let v := if k.part = 0x1F then 24 else k.part
    let lost := if (s.view v).lost = 0 then [] else [s.lostEntry v]
    let es := lost ++ (s.pendingOf v).take (k.length / 32 - lost.length)
    es ≠ [] → ∃ t more, exec (.logDrain c) s = .next t ∧ t.out = s.out ++ [.hostWrite k.fn k.addr (es.flatMap LogEntry.bytes)] ++ more)

/-- An event raised with fewer than 64 queued joins the queue with the tick it was raised in, else it is counted. Once a cycle, LOG_WRITE moves the queued entry that comes first by time, source and code into the ring under the next sequence number, over the oldest of 4,096; a view with its interrupt armed and enabled whose severity it meets sends its message and disarms. LOG_DRAIN delivers, after one synthetic entry when entries were lost, the view's pending entries that fit, moves the cursor and arms the interrupt; it waits for an earlier drain of its view, and refuses partition numbers 24 to 30 and lengths that are zero or no multiple of 32. -/
def Obligations.LogEntriesAndViews : Prop :=
  (∀ (s : State) (code part src : Nat) (f : List (Nat × Nat)),
    (s.log.waiting.length < 64 → s.raise code part src f =
      { s with log := { s.log with waiting := s.log.waiting ++ [⟨0, s.devtime, code, eventSeverity code, part, src, packPayload f⟩] } }) ∧
    (64 ≤ s.log.waiting.length → s.raise code part src f = s.count (logBase + 4))) ∧
  (∀ s : State, s.life ≠ .off → s.life ≠ .held →
    (s.timeRuns = true → s.log.wroteAt = some s.devtime → exec .logWrite s = .next s) ∧
    (s.log.waiting = [] → exec .logWrite s = .next s) ∧
    (s.log.wroteAt ≠ some s.devtime ∨ s.timeRuns = false → s.log.waiting ≠ [] → ∃ t, ∃ e ∈ s.log.waiting, exec .logWrite s = .next t ∧ t.log.wroteAt = some s.devtime ∧
      (∀ d ∈ s.log.waiting, e.time < d.time ∨ (e.time = d.time ∧ (e.source < d.source ∨ (e.source = d.source ∧ e.code ≤ d.code)))) ∧
      t.log.ring = (if 4096 ≤ s.log.ring.length then s.log.ring.drop 1 else s.log.ring) ++ [{ e with seq := s.log.nextSeq }] ∧
      t.log.nextSeq = (if s.log.nextSeq = 2 ^ 28 - 1 then 1 else s.log.nextSeq + 1) ∧ t.log.waiting = s.log.waiting.erase e ∧
      (∀ v, v < 25 → v < s.log.views.length → (t.view v).cursor = (s.view v).cursor ∧
        (t.view v).lost = (match s.log.ring.head? with
          | some o => if 4096 ≤ s.log.ring.length ∧ inView v o = true ∧ seqAbove o.seq (s.view v).cursor = true then (s.view v).lost + 1 else (s.view v).lost
          | none => (s.view v).lost) ∧
        (let f := if v = 24 then 0 else v + 1
         let vec := if v = 24 then 1 else 2
         inView v e = true → s.regBits (logvCtrl v) 1 0 ≤ e.severity → s.regBits (logvCtrl v) 1 0 < 3 → (s.view v).armed = true → s.msixOn f = true → s.host.up = true → s.streamBad f = false →
           (t.view v).armed = false ∧ (((look vec (s.fn f).msix).getD {}).masked = false → Output.msix f vec ∈ t.out))) ∧
      (∀ x, (∀ v, v < 25 → x ≠ logvCtrl v + 0xC) → t.reg x = s.reg x) ∧ t = { s with log := t.log, regs := t.regs, fresh := t.fresh, fns := t.fns, out := t.out })) ∧
  (∀ (c : CmdRef) (k : Cmd) (s : State), s.ready c 0x39 = some k →
    ((∃ d ∈ s.cmds.takeWhile (fun d => !d.is k.ref), d.opcode = 0x39 ∧ min d.part 24 = min k.part 24) → exec (.logDrain c) s = .next s)) ∧
  (∀ (c : CmdRef) (k : Cmd) (s : State), s.ready c 0x39 = some k → s.drainWaits k = false →
    (24 ≤ k.part ∧ k.part ≠ 0x1F → exec (.logDrain c) s = .next (s.complete k .notReady 0 0)) ∧
    (k.part < 24 ∨ k.part = 0x1F → k.length = 0 ∨ k.length % 32 ≠ 0 → exec (.logDrain c) s = .next (s.complete k .format 0 0)) ∧
    (k.part < 24 ∨ k.part = 0x1F → k.length ≠ 0 → k.length % 32 = 0 →
      let v := if k.part = 0x1F then 24 else k.part
      let lost := if (s.view v).lost = 0 then [] else
        [⟨(s.view v).firstLost, s.devtime, 0x0D01, 1, k.part, 0, (s.view v).lost % 2 ^ 32⟩]
      let body := (s.pendingOf v).take (k.length / 32 - lost.length)
      let bs := (lost ++ body).flatMap LogEntry.bytes
      ∃ u : State, (v < s.log.views.length → u.view v = { cursor := (body.getLast?.map LogEntry.seq).getD (s.view v).cursor, lost := 0, firstLost := 0, armed := true }) ∧
        (∀ w, w ≠ v → u.view w = s.view w) ∧ u = { s with log := { s.log with views := u.log.views } } ∧
        exec (.logDrain c) s = .next ((if bs.isEmpty then u else u.hostWrite k.fn k.addr bs).complete k .ok bs.length 0))) ∧
  (∀ (s : State) (v : Nat) (e : LogEntry), e ∈ s.pendingOf v ↔
    e ∈ s.log.ring ∧ (v = 24 ∨ e.partition = v ∨ (e.partition = 0x1F ∧ e.code ∈ [0x0701, 0x0801, 0x0802, 0x0A01, 0x0A03, 0x0A04, 0x0A0C, 0x0C01, 0x0C04, 0x0D02])) ∧
      seqAbove e.seq (s.view v).cursor = true)

/-- MERGE_IDLE_TIMEOUT of an entry idle for 512 ticks writes it back: the bucket keeps what software reads and any mark, the entry goes, and one read-modify-write is counted; a younger entry stays. CORRECTED_WORD_WRITEBACK changes no memory and counts the error in its entry, in a free one, or as overflow; of a tile store it is counted, and a double-bit error stands for the next read. SCRUB_READ scans one bucket, counts what it finds, and goes on or ends the pass at the last one; contents stay, and of a device without a key nothing is read. TRANSFER_CHECK_RESULT clears a sender's count on success, and counts a failed check, up to the third in a row, and a full pump's busy report, up to the 63rd. Operands that name array errors are the model's (log entry 74). -/
def Obligations.CisternServiceCommands : Prop :=
  (∀ (well bucket : Nat) (e : MergeEntry) (s : State), s.alive = true → bucket < 2 ^ 21 → well < s.wells.length → (s.well well).cisOk →
    (s.well well).merge.find? (fun e => e.bucket == bucket) = some e →
    (s.devtime < e.lastUse + 512 → exec (.mergeIdleTimeout well bucket) s = .next s) ∧
    (e.lastUse + 512 ≤ s.devtime → ∃ t, exec (.mergeIdleTimeout well bucket) s = .next t ∧ (∀ d ∈ (t.well well).merge, d.bucket ≠ bucket) ∧
      (∀ a, (t.well well).seen a = (s.well well).seen a) ∧ (bucket ∈ (t.well well).cisBad ↔ bucket ∈ (s.well well).cisBad) ∧
      t.reg (cisBase well + 0x10) = min (s.reg (cisBase well + 0x10) + 1) 0xFFFFFFFF ∧ OnlyWell s t well ∧
      OnlyRegs s t [cisBase well + 0x10, cisBase well + 8, cisBase well + 0x18, logBase + 4] ∧ t.parts = s.parts ∧ t.lantus = s.lantus)) ∧
  (∀ (well bucket : Nat) (e : MergeEntry) (s : State), s.alive = true → well < s.wells.length →
    (s.well well).lpxMerge.find? (fun e => e.bucket == bucket) = some e → e.lastUse + 512 ≤ s.devtime →
    ∃ t, exec (.mergeIdleTimeout well (bucket + 2 ^ 21)) s = .next t ∧ (∀ d ∈ (t.well well).lpxMerge, d.bucket ≠ bucket) ∧
      t.reg (lpxBase well + 0x10) = min (s.reg (lpxBase well + 0x10) + 1) 0xFFFFFFFF ∧ OnlyRegs s t [lpxBase well + 0x10] ∧ OnlyWell s t well ∧
      (t.well well).cis = (s.well well).cis ∧ (t.well well).merge = (s.well well).merge) ∧
  (∀ (well bucket word : Nat) (s : State), s.alive = true → well < s.wells.length → (s.well well).inService = true → bucket ∉ (s.well well).cisBad →
    let addr := cisAddr well (bucket * 64)
    let kind := if word = 8 then 5 else 1
    let hit := fun o : Option CetEntry => ∃ x, o = some x ∧ x.addr = addr ∧ x.kind = kind
    ∃ t, exec (.correctedWordWriteback (.cistern well) bucket word) s = .next t ∧ t.well well = { s.well well with cet := (t.well well).cet } ∧ OnlyWell s t well ∧
      OnlyRegs s t [cetBase well, cetBase well + 8, logBase + 4] ∧ t.parts = s.parts ∧
      ((∃ o ∈ (s.well well).cet, hit o) → ∀ i : Nat, (t.well well).cet[i]? = ((s.well well).cet[i]?).map (fun o => o.map (fun x =>
        if x.addr = addr ∧ x.kind = kind then { x with count := min (x.count + 1) 0xFFFF } else x))) ∧
      ((∀ o ∈ (s.well well).cet, ¬ hit o) →
        (∀ i : Nat, (s.well well).cet[i]? = some none → (∀ j, j < i → (s.well well).cet[j]? ≠ some none) → (t.well well).cet = (s.well well).cet.set i (some ⟨addr, kind, 1⟩)) ∧
        (none ∉ (s.well well).cet → (t.well well).cet = (s.well well).cet ∧ t.reg (cetBase well + 8) = min (s.reg (cetBase well + 8) + 1) 0xFFFFFFFF ∧
          t.regBits (cetBase well) 31 31 = 1))) ∧
  (∀ (e : ArrayError) (b word : Nat) (s : State), s.alive = true → (s.well (errorWell e)).inService = true →
    (∀ r, e = .store r → exec (.correctedWordWriteback e b word) s = .next (s.count (tileBase r + 0x28))) ∧
    (∀ w, e = .doubleCistern w → w < s.wells.length →
      ∃ t, exec (.correctedWordWriteback e b word) s = .next t ∧ (∀ c, c ∈ (t.well w).cisBad ↔ c = b ∨ c ∈ (s.well w).cisBad) ∧
        t.well w = { s.well w with cisBad := (t.well w).cisBad } ∧ OnlyWell s t w ∧ t = { s with wells := t.wells }) ∧
    (∀ w, e = .reread w → w < s.wells.length →
      ∃ t, exec (.correctedWordWriteback e b word) s = .next t ∧ t.reg (lpxBase w + 8) = min (s.reg (lpxBase w + 8) + 1) 0xFFFFFFFF ∧
        t.well w = { s.well w with cet := (t.well w).cet } ∧ OnlyWell s t w ∧ t.parts = s.parts)) ∧
  (∀ (well : Nat) (f : EccFound) (s : State), s.alive = true → well < s.wells.length → (s.well well).scrub = .running →
    let x := s.well well
    let barred := x.scrubLpx = true ∧ x.lpxKey = []
    let bad := ¬ barred ∧ (f = .uncorrectable ∨ (x.scrubLpx = false ∧ x.scrubNext ∈ x.cisBad) ∨ (x.scrubLpx = true ∧ x.scrubNext ∈ x.lpxBad))
    ∃ t, exec (.scrubRead well f) s = .next t ∧ OnlyWell s t well ∧ t.parts = s.parts ∧
      t.reg (scrubBase well + 0x18) = (s.reg (scrubBase well + 0x18) + 1) % 2 ^ 32 ∧
      (bad → t.reg (scrubBase well + 0x20) = (s.reg (scrubBase well + 0x20) + 1) % 2 ^ 32 ∧
        t.reg64 (scrubBase well + 0x30) = (if x.scrubLpx = true then lpxAddr well (x.scrubNext * 64) else cisAddr well (x.scrubNext * 64)) % 2 ^ 64 ∧
        t.reg (scrubBase well + 0x1C) = s.reg (scrubBase well + 0x1C) ∧ (x.scrubLpx = false → x.scrubNext ∈ (t.well well).cisBad)) ∧
      (¬ bad → t.reg (scrubBase well + 0x20) = s.reg (scrubBase well + 0x20)) ∧
      (∀ k, ¬ barred → ¬ bad → f = .corrected k → t.reg (scrubBase well + 0x1C) = (s.reg (scrubBase well + 0x1C) + 1) % 2 ^ 32) ∧
      (x.scrubNext < x.scrubLast → (t.well well).scrub = .running ∧ (t.well well).scrubNext = x.scrubNext + 1) ∧
      (x.scrubLast ≤ x.scrubNext → (t.well well).scrub = .done) ∧ (t.well well).scrubLast = x.scrubLast ∧
      (x.cisOk → ∀ a, (t.well well).seen a = x.seen a)) ∧
  (∀ (k : Link) (s : State), s.alive = true → s.linkBusy k = true →
    exec (.transferCheckResult k .passed) s = .next (s.setLinkFails k 0) ∧
    (∃ t d, exec (.transferCheckResult k .failed) s = .next t ∧
      (s.linkFails k < 3 →
        t = (({ s with freeCount := s.freeCount + 1 } : State).noteResend k d).setLinkFails k (s.linkFails k + 1) ∧
        t.reg (cisBase (s.linkAt d k).1 + 0xC) = min (s.reg (cisBase (s.linkAt d k).1 + 0xC) + 1) 0xFFFFFFFF ∧ (∀ p, t.round p = s.round p))) ∧
    (∀ u, k = .pump u → 8 < (s.pump u).queue.length → (s.pump u).busyRow < 63 → u.well < s.wells.length → u.pump < (s.well u.well).pumps.length →
      ∃ t, exec (.transferCheckResult k .busy) s = .next t ∧ t.reg (pumpBase u + 0x14) = min (s.reg (pumpBase u + 0x14) + 1) 0xFFFFFFFF ∧
        (t.pump u).busyRow = (s.pump u).busyRow + 1 ∧ (t.pump u).queue = (s.pump u).queue ∧ (∀ p, t.round p = s.round p)))

/-- SOURCE_SETTLE_END starts a source's startup block. NOISE_SAMPLE counts runs and the window's reference, and shifts the bit through the register of R433. A run of 81 or a count of 840 is counted, recorded and restarts the source through 40,000 ticks of settle; when it comes less than 2^20 samples after the third failure before it, the source and its DRBG go FATAL, the DRBG zeroised. The 1,024th sample without failure ends an accepted block, which enters a pool with fewer than eight, seeds a DRBG in STARTUP with two, or is dropped and counted. DRBG_GENERATE serves the nonce first, then the tile whose turn it is, with 64 bytes; a DRBG without output serves nothing. -/
def Obligations.NoiseSamplesSeedDrbgs : Prop :=
  (∀ (n : Nat) (s : State), n < s.sources.length →
    (s.alive = true → (s.source n).state = .settle → (s.source n).settleEnd ≤ s.devtime →
      ∃ t, exec (.sourceSettleEnd n) s = .next t ∧ t.source n = { s.source n with state := .startup } ∧ OnlySource s t n ∧ t = { s with sources := t.sources }) ∧
    ((s.source n).state ≠ .settle ∨ s.devtime < (s.source n).settleEnd → exec (.sourceSettleEnd n) s = .next s) ∧
    ((s.source n).state ≠ .startup → (s.source n).state ≠ .running → ∀ raw, exec (.noiseSample n raw) s = .next s)) ∧
  (∀ (n : Nat) (raw : Bool) (s : State), s.alive = true → n < 25 → n < s.sources.length → (s.source n).state = .startup ∨ (s.source n).state = .running →
    let x := s.source n
    let run := if x.lastBit = some raw then x.run + 1 else 1
    let ref := if x.inBlock = 0 then 1 else x.refCount + (if raw = x.refBit then 1 else 0)
    let shifted := (x.reg * 2) % 2 ^ 256
    let reg := (if x.reg.testBit 255 = true then shifted ^^^ 0x425 else shifted) ^^^ (if raw = true then 1 else 0)
    let fails := 81 ≤ run ∨ 840 ≤ ref
    let fourth := ∃ f, x.failures[2]? = some f ∧ x.samples + 1 < f + 2 ^ 20
    ∃ t, exec (.noiseSample n raw) s = .next t ∧ OnlySource s t n ∧ (t.source n).samples = x.samples + 1 ∧
      (¬ fails → x.inBlock ≠ 1023 → t = { s with sources := t.sources } ∧
        t.source n = { x with
          samples := x.samples + 1, run := run, lastBit := some raw, refBit := if x.inBlock = 0 then raw else x.refBit, refCount := ref, inBlock := x.inBlock + 1,
          reg := reg }) ∧
      (fails → t.reg (srcBase n + 4) = min (s.reg (srcBase n + 4) + 1) 0xFFFFFFFF ∧ (t.source n).failures = ((x.samples + 1) :: x.failures).take 4 ∧
        (t.source n).lastTest = (if 81 ≤ run then 1 else 0) + (if 840 ≤ ref then 2 else 0) ∧
        (¬ fourth → (t.source n).state = .settle ∧ (t.source n).settleEnd = s.devtime + 40000 ∧ (t.source n).run = 0 ∧ (t.source n).lastBit = none ∧
          (t.source n).inBlock = 0 ∧ t.drbgs = s.drbgs ∧ t.parts = s.parts) ∧
        (fourth → (t.source n).state = .fatal ∧ ∀ b, s.drbgOf n = some b → b < s.drbgs.length →
          (t.drbg b).state = .fatal ∧ (t.drbg b).key = [] ∧ (t.drbg b).v = 0 ∧ (t.drbg b).count = 0 ∧ (t.drbg b).pool = [] ∧ (t.drbg b).buffers = [] ∧
            (t.drbg b).fatalSource = n ∧ OnlyDrbg s t b)) ∧
      (¬ fails → x.inBlock = 1023 →
        t.source n = { x with
          samples := x.samples + 1, run := run, lastBit := some raw, refBit := x.refBit, refCount := 0, inBlock := 0, reg := 0, state := .running } ∧
        t.reg (srcBase n + 8) = min (s.reg (srcBase n + 8) + 1) 0xFFFFFFFF ∧
        ∀ b, s.drbgOf n = some b → b < s.drbgs.length → (s.round b).noisePending = false →
          let d := s.drbg b
          OnlyDrbg s t b ∧
          (d.state = .off ∨ d.state = .fatal → t.drbg b = d) ∧
          (d.state ≠ .off → d.state ≠ .fatal → 8 ≤ d.pool.length → t.drbg b = d ∧ t.reg (srcBase n + 0xC) = min (s.reg (srcBase n + 0xC) + 1) 0xFFFFFFFF) ∧
          (d.state = .seeded → d.pool.length < 8 → t.drbg b = { d with pool := d.pool ++ [(n, toLE reg 32)] }) ∧
          (d.state = .startup → d.pool = [] → t.drbg b = { d with pool := [(n, toLE reg 32)] }) ∧
          (∀ m blk, d.state = .startup → d.pool = [(m, blk)] →
            let kv := drbgInstantiate (blk ++ toLE reg 32 ++ toLE s.devtime 8 ++ toLE (if b = 24 then 0x1F else b) 1 ++ s.personalisation (if b = 24 then 0x1F else b))
            (t.drbg b).state = .seeded ∧ (t.drbg b).key = kv.1 ∧ (t.drbg b).v = kv.2 ∧ (t.drbg b).count = 0 ∧ (t.drbg b).pool = []))) ∧
  (∀ (b : Nat) (s : State), s.alive = true → b < s.drbgs.length →
    let d := { s.drbg b with requests := s.liveRequests (s.drbg b) }
    (d.state ≠ .seeded ∨ d.nextReq = none → ∃ t, exec (.drbgGenerate b) s = .next t ∧ t.drbg b = d ∧ OnlyDrbg s t b ∧ t = { s with drbgs := t.drbgs }) ∧
    (Gives s b → ∀ r, d.nextReq = some r → ∃ (t : State) (out : Bytes), exec (.drbgGenerate b) s = .next t ∧ (t.drbg b).state = .seeded ∧ OnlyDrbg s t b ∧
      (d.count < 65536 → out = (drbgGenerate d.key d.v 64).1 ∧ (t.drbg b).count = d.count + 1) ∧
      (r = .nonce → t.lantus = { s.lantus with dbgNonce := out.take 32 } ∧ (t.drbg b).requests = d.requests.filter (fun q => q ≠ r) ∧ t.wells = s.wells) ∧
      (∀ u w i row left, r = .tile u w i row left → w < s.wells.length → i < (s.well w).tiles.length →
        DrbgReq.nonce ∉ d.requests ∧ (t.drbg b).lastUnit = u ∧ (t.tile ⟨w, i⟩).rngLeft = left - 1 ∧ (t.tile ⟨w, i⟩).store = ((s.tile ⟨w, i⟩).putRows row out).store ∧
          (t.drbg b).requests = (if left ≤ 1 then d.requests.filter (fun q => q ≠ r)
            else d.requests.map (fun q => if q = r then .tile u w i ((row + 1) % 16384) (left - 1) else q)) ∧ t.lantus = s.lantus))) ∧
  (∀ (d : Drbg) (u w i row left u' w' i' row' left' : Nat), d.nextReq = some (.tile u w i row left) → DrbgReq.tile u' w' i' row' left' ∈ d.requests →
    (d.lastUnit < u' → d.lastUnit < u ∧ u ≤ u') ∧ (u ≤ d.lastUnit → u ≤ u'))

/-- FRAME_RECEIVE in P0 on a port that is up counts a frame whose length, FCS or tag is bad; of the rest it keeps exactly the IPv6 UDP frames of R301, in the intake of their priority, whole where its 128 stages have room, else truncated and counted; XOFF follows the high watermark. Every packet row releases a truncated head, and a head whose tag fails, which is counted; it leaves a head of another row alone, and does nothing on an empty intake. PFC_XOFF of a port is high exactly while a priority that its pin mask names has xoff set, out of reset. -/
def Obligations.FramesReceived : Prop :=
  (∀ (port : Nat) (frame : Bytes) (s : State), s.alive = true → s.power.state = .p0 → (s.port port).up = true →
    let f := frame.take (frame.length - 4)
    let bad := frame.length < 64 ∨ 4238 < frame.length ∨ rd frame (frame.length - 4) 4 ≠ crcEthernet f ∨ rdBE f 12 2 ≠ 0x8100
    (bad → exec (.frameReceive port frame) s = .next (s.count (stlBase + 0x30))) ∧
    (¬ bad → s.ipVerdict port f = .discard → exec (.frameReceive port frame) s = .next (s.count (stlBase + 0x30))) ∧
    (¬ bad → s.ipVerdict port f = .badChecksum → exec (.frameReceive port frame) s = .next (s.count (stlBase + 0x34))) ∧
    (¬ bad → s.ipVerdict port f = .keep →
      let prio := rdBE f 14 2 / 8192
      let held := f.take (58 + rdBE f 62 2)
      let occ := (s.intake port prio).occupancy
      port * 8 + prio < s.intakes.length →
      ∃ t, exec (.frameReceive port frame) s = .next t ∧ OnlyIntake s t port prio ∧ t.wells = s.wells ∧ t.parts = s.parts ∧ t.qps = s.qps ∧
        (occ + ceilDiv held.length 64 ≤ 128 → (t.intake port prio).frames = (s.intake port prio).frames ++ [⟨held, false, s.devtime, none⟩] ∧
          (t.intake port prio).xoff = ((s.intake port prio).xoff || (s.pfcOn port prio && decide (s.waterHigh port prio ≤ occ + ceilDiv held.length 64)))) ∧
        (128 < occ + ceilDiv held.length 64 → t.reg (intkBase port prio + 8) = min (s.reg (intkBase port prio + 8) + 1) 0xFFFFFFFF ∧
          ∀ g ∈ (t.intake port prio).frames, g ∈ (s.intake port prio).frames ∨ g.truncated = true))) ∧
  (∀ (s : State) (port : Nat), s.pfcXoffPin port = true ↔ s.life ≠ .off ∧ s.life ≠ .held ∧
    ∃ prio, prio < 8 ∧ s.regBits (stlBase + 0x20 + 4 * port) (16 + prio) (16 + prio) = 1 ∧ (s.intake port prio).xoff = true) ∧
  (∀ (s : State) (port : Nat) (f : Bytes), s.ipVerdict port f = .keep ↔
    rdBE f 16 2 = 0x86DD ∧ bits (rd f 18 1) 7 4 = 6 ∧ 58 + rdBE f 22 2 ≤ f.length ∧ rd f 24 1 = 17 ∧ rdBE f 60 2 = s.regBits (stlBase + 4) 15 0 ∧
      rdBE f 62 2 = rdBE f 22 2 ∧ 8 ≤ rdBE f 62 2 ∧ rdBE f 64 2 ≠ 0 ∧ ipSum f 17 (slice f 58 (rdBE f 62 2)) = 65535) ∧
  (∀ (port prio op : Nat) (i : Instr) (s : State),
    (op, i) ∈ [(0x01, Instr.send port prio), (0x02, .write port prio), (0x03, .readReq port prio), (0x10, .ack port prio), (0x11, .nak port prio),
      (0x12, .complete port prio), (0x14, .close port prio)] →
    ((s.intake port prio).frames = [] → exec i s = .next s) ∧
    (∀ f rest, (s.intake port prio).frames = f :: rest → s.alive = true →
      (f.truncated = true → exec i s = .next (s.release port prio)) ∧
      (f.truncated = false → (packetOf f.bytes).op = op → ∀ n, s.packetQp (packetOf f.bytes) = some n → s.openPacket n (packetOf f.bytes) = none →
        exec i s = .next ((s.authFail n).release port prio) ∧
        (s.authFail n).reg (stlpBase (s.qp n).part + 0x20) = min (s.reg (stlpBase (s.qp n).part + 0x20) + 1) 0xFFFFFFFF) ∧
      (f.truncated = false → (packetOf f.bytes).op ≠ op → (packetOf f.bytes).op ∈ [1, 2, 3, 0x10, 0x11, 0x12, 0x14] → exec i s = .next s)) ∧
    (port * 8 + prio < s.intakes.length → ((s.release port prio).intake port prio).frames = (s.intake port prio).frames.drop 1 ∧
      OnlyIntake s (s.release port prio) port prio))

/-- A SEND of an open message with a buffer, a first SEND that gets one, and a WRITE, each well-formed and in the window, mark the head parsed; a duplicate is acknowledged at once. READ_REQ holds up to 16 reads, one PSN for each response, and is not ready beyond. ACK ends the unanswered packets it covers, and resends or ends the QP for those lost; NAK delays or ends its packet, flushed ones end the QP; COMPLETE ends a send; CLOSE puts the QP in ERROR. PACKET_COMMIT rewinds a packet parsed before a region change, waits for its route, writes a WRITE's or staged SEND's bytes, and holds an opening. -/
def Obligations.ReceivedPacketsAnswered : Prop :=
  (∀ (port prio n : Nat) (k : Packet) (data : Bytes) (s : State), Heads s port prio n k data → port * 8 + prio < s.intakes.length →
    let q := s.qp n
    let marked := fun t : State => ∃ f rest, (s.intake port prio).frames = f :: rest ∧
      (t.intake port prio).frames = { f with parsed := some s.regionChanges } :: rest ∧ OnlyIntake s t port prio ∧ t.wells = s.wells ∧ t.parts = s.parts ∧ t.out = s.out
    let released := fun t : State => (t.intake port prio).frames = (s.intake port prio).frames.drop 1 ∧ OnlyIntake s t port prio
    (k.op = 1 → q.takes k.psn → ∀ e, s.endpointOf q = some e →
      let msn := rd k.ext 0 4
      let off := rd k.ext 4 4
      let len := rd k.ext 8 4
      let idx := rd k.ext 12 4
      let num := (msn + 2 ^ 32 - q.firstMsn) % 2 ^ 32
      uploadRule e off data.length = true → idx ≤ k.psn → num ∉ q.doneMsns → num < 2 ^ 31 →
      (∀ m, q.msg msn = some m → packetFormat k len off idx data.length m.common = none → m.length = len → m.firstPsn + idx = k.psn →
        (∀ st, m.buf ≠ .refused st) → m.buf ≠ .waiting → ∃ t, exec (.send port prio) s = .next t ∧ marked t ∧ t.qps = (s.noted n k).qps) ∧
      (∀ b, q.msg msn = none → packetFormat k len off idx data.length none = none → q.msgs.length < 64 → (s.noted n k).bufferFor n e msn off len = some b →
        ∃ t, exec (.send port prio) s = .next t ∧ marked t ∧ OnlyQp s t n ∧ (t.qp n).msg msn = some
          ⟨msn, b, len, none, k.psn - idx, none, [], [], 0, [], k.psn, k.path, k.sentTime⟩)) ∧
    (k.op = 2 → q.takes k.psn → packetFormat k (rd k.ext 8 4) (rd k.ext 12 4) (rd k.ext 4 4) data.length none = none →
      ∃ t, exec (.write port prio) s = .next t ∧ marked t ∧ t.qps = (s.noted n k).qps) ∧
    (k.psn < q.ePsn.getD 0 0 ∨ k.psn ∈ q.seen.getD 0 [] → ∀ i, (k.op = 1 ∧ i = Instr.send port prio) ∨ (k.op = 2 ∧ i = .write port prio) ∨ (k.op = 3 ∧ i = .readReq port prio) →
      exec i s = .next (((s.noted n k).sendAck n 0 k.path k.sentTime).release port prio)) ∧
    (k.op = 3 → q.takes k.psn → 0 < q.ePsn.length → 0 < q.seen.length →
      let len := rd k.ext 8 4
      0 < len → len ≤ 2147483648 →
      (q.reads.length < 16 → q.controlRoom → ∃ t, exec (.readReq port prio) s = .next t ∧ released t ∧
        (t.qp n).reads = q.reads ++ [⟨k.psn, ceilDiv len 4096, 0, rd k.ext 0 4, rd k.ext 0x10 8, len, (k.path, k.sentTime)⟩] ∧
        (∀ i, i < ceilDiv len 4096 → k.psn + i < (t.qp n).ePsn.getD 0 0 ∨ k.psn + i ∈ (t.qp n).seen.getD 0 []) ∧ OnlyQp s t n ∧ t.wells = s.wells) ∧
      (16 ≤ q.reads.length → exec (.readReq port prio) s = .next (((s.noted n k).sendRnr n k.path k.psn 0 0).release port prio))) ∧
    (k.op = 0x10 → q.state = .active →
      let c := if k.cls = 1 then 1 else 0
      let covered := fun x : SentPkt => x.cls = c ∧ (x.psn < rd k.ext 0 6 ∨ ∃ i, i < 4 ∧ rd k.ext (16 + 8 * i) 6 ≤ x.psn ∧ x.psn < rd k.ext (16 + 8 * i) 6 + rd k.ext (22 + 8 * i) 2)
      let lost := fun x : SentPkt => x ∈ q.sent ∧ x.cls = c ∧ ¬ covered x ∧ x.rnrUntil = none ∧ ∃ y ∈ q.sent, covered y ∧ x.sentTime + 800 ≤ y.sentTime
      ∃ t, exec (.ack port prio) s = .next t ∧ released t ∧ (∀ x, lost x → (t.qp n).state = .error ∨ ∃ y ∈ (t.qp n).sent, y.cls = x.cls ∧ y.psn = x.psn ∧ 1 ≤ y.attempt) ∧
        ((∀ x, ¬ lost x) → (t.qp n).state = .active ∧ ∀ x, x ∈ (t.qp n).sent ↔ x ∈ q.sent ∧ ¬ covered x)) ∧
    (k.op = 0x11 → q.state = .active → ∀ x, q.sent.find? (fun x => x.cls == rd k.ext 6 1 && x.psn == rd k.ext 0 6) = some x →
      let kind := rd k.ext 9 1
      ∃ t, exec (.nak port prio) s = .next t ∧ released t ∧
        (kind = 1 → q.rnrLimit < 7 → q.rnrLimit ≤ x.rnr → (t.qp n).state = .error ∧ (t.qp n).lastStatus = .notReady) ∧
        (kind = 1 → 7 ≤ q.rnrLimit ∨ x.rnr < q.rnrLimit → (t.qp n).sent = q.sent.map (fun y =>
          if y.cls = x.cls ∧ y.psn = x.psn then { y with rnr := y.rnr + 1, rnrUntil := some (s.devtime + 400 * rd k.ext 0x10 4) } else y)) ∧
        (kind ≠ 1 → kind ≠ 4 → q.compat = false → (t.qp n).sent = q.sent.filter (fun y => y != x) ∧ (t.qp n).sends = q.sends.filter (fun m => m != rd k.ext 0xC 4) ∧
          (t.qp n).state = .active) ∧
        (kind = 4 → (t.qp n).state = .error ∧ (t.qp n).lastStatus = .flushed)) ∧
    (k.op = 0x12 → ∃ t, exec (.complete port prio) s = .next t ∧ released t ∧ (t.qp n).sends = q.sends.filter (fun m => m != rd k.ext 0 4) ∧ OnlyQp s t n ∧ t.wells = s.wells ∧
      t.parts = s.parts) ∧
    (k.op = 0x14 → q.state = .active → ∃ t, exec (.close port prio) s = .next t ∧ released t ∧ (t.qp n).state = .error ∧ (t.qp n).records = [] ∧ (t.qp n).sent = [] ∧
      (t.qp n).reads = [] ∧ (t.qp n).posted = [])) ∧
  (∀ (port prio n cnt : Nat) (f : HeldFrame) (rest : List HeldFrame) (data : Bytes) (s : State), s.alive = true → (s.intake port prio).frames = f :: rest → f.parsed = some cnt →
    port * 8 + prio < s.intakes.length → s.packetQp (packetOf f.bytes) = some n → s.openPacket n (packetOf f.bytes) = some data →
    let k := packetOf f.bytes
    let q := s.qp n
    (cnt ≠ s.regionChanges → ∃ t, exec (.packetCommit port prio) s = .next t ∧ (t.intake port prio).frames = { f with parsed := none } :: rest ∧
      t.reg (intkBase port prio + 0x10) = min (s.reg (intkBase port prio + 0x10) + 1) 0xFFFFFFFF ∧ t.wells = s.wells ∧ t.qps = s.qps) ∧
    (cnt = s.regionChanges → (s.headLoads ⟨n, k, data⟩).all (fun e => s.backlogFits q.part e.1 e.2) = false → exec (.packetCommit port prio) s = .next s) ∧
    (cnt = s.regionChanges → (s.headLoads ⟨n, k, data⟩).all (fun e => s.backlogFits q.part e.1 e.2) = true → q.state = .active →
      (k.op = 2 → ∀ a u, rd k.ext 12 4 ≤ rd k.ext 0x10 8 →
        s.regionCheck q.part (match s.endpointOf q with | some e => e.wholeSpace | none => false) (rd k.ext 0 4) (rd k.ext 0x10 8 - rd k.ext 12 4) (rd k.ext 8 4) 2 = (none, a) →
        s.check (strelulMaster q.part) (a + rd k.ext 12 4) data.length 2 = (none, u) →
        ∃ t, exec (.packetCommit port prio) s = .next t ∧ t.wells = (u.devWrite (a + rd k.ext 12 4) data).wells ∧ (t.intake port prio).frames = rest ∧ OnlyQp s t n) ∧
      (k.op ≠ 2 → ∀ m, q.msg (rd k.ext 0 4) = some m →
        (m.buf = .waiting → ∃ t, exec (.packetCommit port prio) s = .next t ∧ (t.intake port prio).frames = rest ∧ t.wells = s.wells ∧ OnlyQp s t n ∧
          ∃ m', (t.qp n).msg (rd k.ext 0 4) = some m' ∧ m' = { m with opening := data, openPsn := k.psn, openPath := k.path, openSent := k.sentTime }) ∧
        (∀ a len u, m.buf = .staging a len → s.check (strelulMaster q.part) (a + rd k.ext 4 4) (min data.length (len - rd k.ext 4 4)) 2 = (none, u) →
          ∃ t, exec (.packetCommit port prio) s = .next t ∧ (t.intake port prio).frames = rest ∧
            t.wells = (u.devWrite (a + rd k.ext 4 4) (data.take (len - rd k.ext 4 4))).wells))))

/-- READ_RESPONSE_SEND sends the next 4,096 bytes of the oldest read and holds the packet until it is answered; a range that fails its test, or an uncorrectable bucket, is answered with a NAK. RECORD_SEND sends the oldest record as a one-packet message. ACK_TIMER acknowledges after 400 ticks. RETRANSMIT_TIMER raises the path's run of expiries, which at three ends its health, doubles the timer up to 4 ms and sends again, or ends the QP with ABORTED past its retry limit. RNR_DELAY_EXPIRY sends again without counting a retry, PATH_PROBE sends one packet on an unhealthy path 1 ms after it went down. -/
def Obligations.TransmitTimersAndPackets : Prop :=
  (∀ (n : Nat) (s : State), s.alive = true → (s.qp n).state = .active →
    let q := s.qp n
    (∀ r rest, q.reads = r :: rest → (q.sent.filter (fun k => k.cls == 1)).length < 8192 →
      let off := 4096 * r.nextIdx
      let len := min 4096 (r.length - off)
      let whole := match s.endpointOf q with | some e => e.wholeSpace | none => false
      let more := if r.nextIdx + 1 < r.count then { r with nextIdx := r.nextIdx + 1 } :: rest else rest
      (2 ^ 48 - 1 ≤ r.psn + r.nextIdx → ∃ t, exec (.readResponseSend n) s = .next t ∧ (t.qp n).state = .error ∧ (t.qp n).lastStatus = .state) ∧
      (∀ st a, r.psn + r.nextIdx < 2 ^ 48 - 1 → s.regionCheck q.part whole r.rkey r.addr r.length 1 = (some st, a) → q.compat = false → q.controlRoom → q.part < 24 →
        ∃ t, exec (.readResponseSend n) s = .next t ∧ (t.qp n).reads = more ∧ t.reg (stlpBase q.part + 0x28) = min (s.reg (stlpBase q.part + 0x28) + 1) 0xFFFFFFFF) ∧
      (∀ a u, r.psn + r.nextIdx < 2 ^ 48 - 1 → s.regionCheck q.part whole r.rkey r.addr r.length 1 = (none, a) →
        s.check (strelulMaster q.part) (a + off) len 1 = (none, u) → (u.devRead 0 (a + off) len).2.1 = false →
        ∃ t pkt, exec (.readResponseSend n) s = .next t ∧ (t.qp n).reads = more ∧ (t.qp n).sent = q.sent ++ [pkt] ∧ pkt.payload = (u.devRead 0 (a + off) len).1 ∧
          pkt.psn = r.psn + r.nextIdx ∧ pkt.cls = 1 ∧ pkt.opcode = 4 ∧ pkt.ext = toLE off 4 ++ toLE r.nextIdx 4 ∧ pkt.attempt = 0 ∧ pkt.sentTime = s.devtime ∧
          pkt.first = (r.nextIdx == 0) ∧ pkt.last = (r.nextIdx + 1 == r.count)) ∧
      (∀ a u, r.psn + r.nextIdx < 2 ^ 48 - 1 → s.regionCheck q.part whole r.rkey r.addr r.length 1 = (none, a) → q.compat = false → q.controlRoom →
        s.check (strelulMaster q.part) (a + off) len 1 = (none, u) → (u.devRead 0 (a + off) len).2.1 = true →
        ∃ t, exec (.readResponseSend n) s = .next t ∧ (t.qp n).reads = rest ∧ (t.qp n).sent = q.sent)) ∧
    (∀ rec rest, q.records = rec :: rest →
      (8192 ≤ (q.sent.filter (fun k => k.cls == 0)).length → exec (.recordSend n) s = .next s) ∧
      ((q.sent.filter (fun k => k.cls == 0)).length < 8192 → 2 ^ 48 - 1 ≤ q.txPsn.getD 0 0 →
        ∃ t, exec (.recordSend n) s = .next t ∧ (t.qp n).state = .error ∧ (t.qp n).lastStatus = .state) ∧
      ((q.sent.filter (fun k => k.cls == 0)).length < 8192 → q.txPsn.getD 0 0 < 2 ^ 48 - 1 →
        ∃ t pkt, exec (.recordSend n) s = .next t ∧ (t.qp n).records = rest ∧ (t.qp n).sends = q.sends ++ [q.nextMsn] ∧ (t.qp n).nextMsn = (q.nextMsn + 1) % 2 ^ 32 ∧
          (t.qp n).sent = q.sent ++ [pkt] ∧ pkt.payload = rec ∧ pkt.psn = q.txPsn.getD 0 0 ∧ pkt.cls = 0 ∧ pkt.opcode = 1 ∧ pkt.first = true ∧ pkt.last = true ∧
          pkt.ext = toLE q.nextMsn 4 ++ toLE 0 4 ++ toLE rec.length 4 ++ toLE 0 4 ∧ OnlyQp s t n ∧ t.wells = s.wells ∧ t.parts = s.parts)) ∧
    (∀ cls, 0 < q.unacked.getD cls 0 → (q.unackedSince.getD cls 0 + 400 ≤ s.devtime → q.controlRoom → ∃ t, exec (.ackTimer n cls) s = .next t ∧ (t.qp n).unacked.getD cls 0 = 0 ∧
        (t.qp n).ceCount = 0 ∧ (t.qp n).ePsn = q.ePsn ∧ (t.qp n).seen = q.seen ∧ OnlyQp s t n ∧ t.wells = s.wells ∧ t.parts = s.parts) ∧
      (s.devtime < q.unackedSince.getD cls 0 + 400 → exec (.ackTimer n cls) s = .next s)) ∧
    (∀ cls psn k, q.sent.find? (fun k => k.cls == cls && k.psn == psn) = some k → k.rnrUntil = none →
      (s.devtime < k.sentTime + k.timer → exec (.retransmitTimer n cls psn) s = .next s) ∧
      (k.sentTime + k.timer ≤ s.devtime → ∃ t, exec (.retransmitTimer n cls psn) s = .next t ∧
        (∀ a, q.paths[k.path]? = some a → ∃ b, (t.qp n).paths[k.path]? = some b ∧ b.expiries = a.expiries + 1 ∧ (2 ≤ a.expiries → b.healthy = false)) ∧
        (k.retries < q.retryLimit → k.attempt < 255 → (t.qp n).state = .active ∧ ∃ y ∈ (t.qp n).sent, y = { k with
          timer := min (2 * k.timer) 1600000, retries := k.retries + 1, attempt := k.attempt + 1, sentTime := s.devtime, path := y.path }) ∧
        (q.retryLimit ≤ k.retries ∨ 255 ≤ k.attempt → (t.qp n).state = .error ∧ (t.qp n).lastStatus = .aborted))) ∧
    (∀ psn k, q.sent.find? (fun k => k.psn == psn && k.rnrUntil.any (fun t => decide (t ≤ s.devtime))) = some k →
      (k.attempt < 255 → ∃ t, exec (.rnrDelayExpiry n psn) s = .next t ∧ (t.qp n).state = .active ∧ ∃ y ∈ (t.qp n).sent, y.psn = k.psn ∧ y.cls = k.cls ∧
        y.attempt = k.attempt + 1 ∧ y.rnrUntil = none ∧ y.sentTime = s.devtime ∧ y = { k with attempt := y.attempt, rnrUntil := none, sentTime := s.devtime, path := y.path }) ∧
      (255 ≤ k.attempt → ∃ t, exec (.rnrDelayExpiry n psn) s = .next t ∧ (t.qp n).state = .error)) ∧
    (∀ path a k, q.paths[path]? = some a → a.healthy = false →
      q.sent.find? (fun k => k.rnrUntil.isNone && decide (k.retries < q.retryLimit) && decide (k.attempt < 255)) = some k →
      (s.devtime < a.downSince + 400000 → exec (.pathProbe n path) s = .next s) ∧
      (a.downSince + 400000 ≤ s.devtime → ∃ t, exec (.pathProbe n path) s = .next t ∧
        (t.qp n).paths[path]? = some { a with probing := some (k.cls, k.psn), downSince := s.devtime } ∧
        (∃ y ∈ (t.qp n).sent, y = { k with attempt := k.attempt + 1, retries := k.retries + 1, sentTime := s.devtime, path := path }) ∧
        OnlyQp s t n ∧ t.wells = s.wells ∧ t.parts = s.parts)))

/-- PFC_REFRESH sends XOFF again after the refresh time, XOFF_LONG notes 1 ms of it once. PFC_FRAME_RECEIVE pauses each enabled, honoured priority for 0.256 tick a quantum, rounded up, and a time of zero sends what waited. PFC_PAUSE_EXPIRY sends what waited. PORT_DOWN empties the port's intakes and queue, and makes the paths of active QPs on it unhealthy; PORT_UP needs training and no admin_down; PORT_RETRAIN trains 100 ms after the port went down. -/
def Obligations.FlowControlPauses : Prop :=
  (∀ (port prio : Nat) (s : State), s.alive = true → (s.intake port prio).xoff = true → port * 8 + prio < s.intakes.length →
    let i := s.intake port prio
    (s.devtime < i.lastPfc + 400 * s.regBits (stlBase + 0x28) 5 0 → exec (.pfcRefresh port prio) s = .next s) ∧
    (i.lastPfc + 400 * s.regBits (stlBase + 0x28) 5 0 ≤ s.devtime → ∃ t, exec (.pfcRefresh port prio) s = .next t ∧
      t.intake port prio = { i with lastPfc := s.devtime } ∧ OnlyIntake s t port prio ∧
      t.out = s.out ++ (if (s.port port).up = true then [.frame port (s.pfcFrame port prio 0xFFFF)] else []) ∧ t = { s with intakes := t.intakes, out := t.out }) ∧
    (i.xoffLogged = true ∨ s.devtime < i.xoffSince + 400000 → exec (.xoffLong port prio) s = .next s) ∧
    (i.xoffLogged = false → i.xoffSince + 400000 ≤ s.devtime → ∃ t, exec (.xoffLong port prio) s = .next t ∧ t.intake port prio = { i with xoffLogged := true } ∧
      OnlyIntake s t port prio ∧ OnlyRegs s t [logBase + 4] ∧ t = { s with intakes := t.intakes, log := t.log, regs := t.regs, fresh := t.fresh })) ∧
  (∀ (port : Nat) (s : State), s.alive = true → port < s.ports.length → (s.port port).up = true →
    (∀ (en : Nat) (qs : List Nat), ∃ t, exec (.pfcFrameReceive port en qs) s = .next t ∧ (∀ q, q ≠ port → t.port q = s.port q) ∧
      (∀ i, i < 8 → i < (s.port port).paused.length → (t.port port).paused.getD i 0 =
        (if bit en i = true ∧ s.pfcHonoured port i = true then s.devtime + (256 * qs.getD i 0 + 999) / 1000 else (s.port port).paused.getD i 0)) ∧
      (t.port port).txq = (s.port port).txq.filter (fun e => !(decide (e.1 < 8) && bit en e.1 && s.pfcHonoured port e.1 && qs.getD e.1 0 == 0)) ∧
      (∀ e ∈ (s.port port).txq, e ∈ (t.port port).txq ∨ Output.frame port e.2 ∈ t.out) ∧ t = { s with ports := t.ports, out := t.out }) ∧
    (∀ prio, (s.devtime < (s.port port).paused.getD prio 0 → exec (.pfcPauseExpiry port prio) s = .next s) ∧
      ((s.port port).paused.getD prio 0 ≤ s.devtime → ∃ t, exec (.pfcPauseExpiry port prio) s = .next t ∧
        t.port port = { s.port port with txq := (s.port port).txq.filter (fun e => e.1 != prio) } ∧
        t.out = s.out ++ ((s.port port).txq.filter (fun e => e.1 == prio)).map (fun e => Output.frame port e.2) ∧ (∀ q, q ≠ port → t.port q = s.port q))) ∧
    (∀ cause, ∃ t, exec (.portDown port cause) s = .next t ∧
      t.port port = { s.port port with up := false, downSince := s.devtime, training := false, txq := [], paused := List.replicate 8 0 } ∧
      (∀ i, i < 8 → port * 8 + i < s.intakes.length → (t.intake port i).frames = [] ∧ (t.intake port i).xoff = false) ∧
      (∀ q i, q ≠ port → i < 8 → t.intake q i = s.intake q i) ∧ (∀ q, q ≠ port → (t.port q).up = (s.port q).up) ∧
      (∀ n j b, (s.qp n).state = .active → j < (s.qp n).pathCount → portOfPath (s.qp n).ports j = port → (t.qp n).paths[j]? = some b → b.healthy = false) ∧
      t.wells = s.wells)) ∧
  (∀ (port : Nat) (s : State), s.alive = true → port < s.ports.length → (s.port port).up = false →
    ((s.port port).admin = true ∨ (s.port port).training = false → exec (.portUp port) s = .next s) ∧
    ((s.port port).admin = false → (s.port port).training = true → ∃ t, exec (.portUp port) s = .next t ∧ t.port port = { s.port port with up := true, training := false } ∧
      (∀ q, q ≠ port → t.port q = s.port q) ∧ t.wells = s.wells ∧ t.qps = s.qps ∧ t.intakes = s.intakes) ∧
    ((s.port port).admin = true ∨ s.devtime < (s.port port).downSince + 40000000 → exec (.portRetrain port) s = .next s) ∧
    ((s.port port).admin = false → (s.port port).downSince + 40000000 ≤ s.devtime → ∃ t, exec (.portRetrain port) s = .next t ∧
      t.port port = { s.port port with training := true, downSince := s.devtime } ∧ (∀ q, q ≠ port → t.port q = s.port q) ∧ t = { s with ports := t.ports }))

/-- ADMISSION_DECISION admits only a whole header of the open round, a client inside the cohort and new, with nothing held or closed and a slot free; it takes the lowest free slot and the next sequence number and queues ADMIT, or counts the refusal and queues REFUSE, leaving the round alone. UPLOAD_WINDOW_EXPIRY abandons an upload whose bytes are late. BATCH_TIMER_EXPIRY closes a batch. A valid UNMASK or DSHARE message is tallied with its holder, any other counted as refused; both end. WINDLASS_ENTRY starts every loaded windlass at its entry step. QUEUE_ENTRY_POSTED posts the oldest entry with room. -/
def Obligations.RoundEventsMoveState : Prop :=
  (∀ (n msn : Nat) (m : OpenMsg) (e : Endpoint) (s : State), s.alive = true → (s.qp n).msg msn = some m → s.endpointOf (s.qp n) = some e → m.buf = .waiting →
    m.opening.isEmpty = false → (s.qp n).state = .active → (s.qp n).compat = false → (s.qp n).records.length < 1024 → (s.qp n).controlRoom →
    let p := (s.qp n).part
    let r := s.round p
    p < 24 → p < s.parts.length →
    (∀ st why, s.admissionTest p (m.opening.take 64) m.length = (st, why) → st ≠ .ok → ∃ t, exec (.admissionDecision n msn) s = .next t ∧
      t.round p = r ∧ t.reg (rndBase p + 0x30) = min (s.reg (rndBase p + 0x30) + 1) 0xFFFFFFFF ∧
      (t.qp n).records = (s.qp n).records ++ [ackRecord 0x02 st p why r.epoch (headerClient m.opening) (headerRound m.opening)
        (if st = .admissionClosed ∨ st = .notReady then s.devtime + 400 * s.regBits (rndBase p + 0x1C) 19 0 else 0) 0] ∧
      OnlyQp s t n ∧ t.parts = s.parts ∧ t.wells = s.wells) ∧
    (∀ why, s.admissionTest p (m.opening.take 64) m.length = (.ok, why) →
      let slot := (s.part p).slotsFree.headD 0
      ∃ t, exec (.admissionDecision n msn) s = .next t ∧ (t.round p).seqLast = r.seqLast + 1 ∧ n ∈ (t.round p).admittedQps ∧
        t.reg (rndBase p + 0x20) = (s.reg (rndBase p + 0x20) + 1) % 2 ^ 32 ∧
        (t.qp n).records = (s.qp n).records ++ [ackRecord 0x01 .ok p 0 r.epoch (headerClient m.opening) r.desc.roundId (s.promiseSpan p m.length) (r.seqLast + 1)] ∧
        ((slot ∉ (t.part p).slotsFree ∧ ∃ u ∈ (t.round p).uploads, u.client = headerClient m.opening ∧ u.slot = slot ∧ u.seq = r.seqLast + 1 ∧ u.admitTime = s.devtime ∧
          u.qpn = n ∧ u.bytes = m.length) ∨ slot ∈ (t.part p).slotsFree) ∧ OnlyPart s t p ∧ OnlyQp s t n)) ∧
  (∀ (s : State) (p : Nat) (hd : Bytes) (len why : Nat), s.admissionTest p hd len = (.ok, why) →
    let r := s.round p
    r.state = .intake ∧ hd.length = 64 ∧ crcEndsOk hd = true ∧ headerRound hd = r.desc.roundId ∧ headerClient hd < r.desc.cohort ∧
      (∀ a ∈ r.accums, a.client ≠ headerClient hd) ∧ (∀ u ∈ r.uploads, u.client ≠ headerClient hd) ∧ (s.part p).holdNow = false ∧ (s.part p).floorClosed = false ∧
      (s.part p).slotsFree ≠ [] ∧ (r.desc.mode = .m → len = 64 + 64 * bucketCount r.desc.coordinates r.desc.ringWidth)) ∧
  (∀ (p client : Nat) (u : Upload) (s : State), s.alive = true → p < s.parts.length → (s.round p).uploads.find? (fun v => v.client == client) = some u →
    (u.lastCommit ≠ none ∨ s.devtime ≤ u.admitTime + 400000 * (s.round p).desc.uploadWindowMs → exec (.uploadWindowExpiry p client) s = .next s) ∧
    (u.lastCommit = none → u.admitTime + 400000 * (s.round p).desc.uploadWindowMs < s.devtime → ∃ t, exec (.uploadWindowExpiry p client) s = .next t ∧
      (t.round p).uploads = (s.round p).uploads.filter (fun v => v.client != u.client) ∧ u.slot ∈ (t.part p).slotsFree ∧ (t.round p).state = (s.round p).state ∧
      OnlyPart s t p ∧ OnlyQp s t u.qpn ∧ (u.live = true → ∀ m ∈ (t.qp u.qpn).msgs, m.msn = u.msn → m.buf = .refused .aborted) ∧ (u.live = false → t.qps = s.qps) ∧
      t.wells = s.wells)) ∧
  (∀ (p : Nat) (x : SchedSet) (s : State), s.alive = true → p < s.parts.length → s.roundSet p = some x → (s.round p).batch ≠ [] →
    (s.devtime < (s.round p).batchStart + x.batchTimer → exec (.batchTimerExpiry p) s = .next s) ∧
    ((s.round p).batchStart + x.batchTimer ≤ s.devtime →
      let ups := (s.round p).uploads.filter (fun u => (s.round p).batch.contains u.client && u.batchNo.isNone)
      ∃ t a, exec (.batchTimerExpiry p) s = .next t ∧ (t.round p).batch = [] ∧ (t.round p).batchNumber = (s.round p).batchNumber + 1 ∧
        (t.part p).due = (s.part p).due ++ [⟨4, (s.round p).batchNumber % 65536, 0, s.devtime, a, (ups.map Upload.bytes).sum, (s.round p).batchNumber + 1, []⟩] ∧
        (∀ u ∈ ups, { u with batchNo := some ((s.round p).batchNumber + 1) } ∈ (t.round p).uploads) ∧
        (∀ u rest, ups = u :: rest → (s.round p).batch.head? = some u.client → a = s.slotAddr p u) ∧ t = { s with parts := t.parts } ∧ OnlyPart s t p)) ∧
  (∀ (n msn : Nat) (m : OpenMsg) (a len : Nat) (s : State),
    let p := (s.qp n).part
    let d := s.devRead 0 a len
    p < 24 → p < s.parts.length → (s.qp n).controlRoom →
    (s.stagedMessage n msn 3 = some (m, a, len) →
      (∀ st why, d.2.1 = false → d.2.2.unmaskTests p d.1 = .error (st, why) → ∃ t, exec (.unmaskMessage n msn) s = .next t ∧ t.round p = s.round p ∧
        t.reg (mskBase p + 0x1C) = min (s.reg (mskBase p + 0x1C) + 1) 0xFFFFFFFF ∧ t.reg (mskBase p + 0x28) = (2 ^ 24 * st.code + rd d.1 4 3) % 2 ^ 32 ∧ (t.qp n).msg msn = none) ∧
      (∀ pt, d.2.1 = false → d.2.2.unmaskTests p d.1 = .ok pt → ∃ t, exec (.unmaskMessage n msn) s = .next t ∧ rd d.1 4 3 ∈ (t.round p).holders ∧
        t.reg (mskBase p + 0x18) = (s.reg (mskBase p + 0x18) + 1) % 2 ^ 32 ∧ (t.qp n).msg msn = none) ∧
      (d.2.1 = true → ∃ t, exec (.unmaskMessage n msn) s = .next t ∧ t.reg (mskBase p + 0x1C) = min (s.reg (mskBase p + 0x1C) + 1) 0xFFFFFFFF ∧ (t.qp n).msg msn = none)) ∧
    (s.stagedMessage n msn 4 = some (m, a, len) →
      (∀ st why, d.2.1 = false → d.2.2.dshareTests p d.1 = .error (st, why) → ∃ t, exec (.dshareMessage n msn) s = .next t ∧ t.round p = s.round p ∧
        t.reg (ctxBase p + 0x54) = min (s.reg (ctxBase p + 0x54) + 1) 0xFFFFFFFF ∧ t.reg (ctxBase p + 0x5C) = (2 ^ 24 * st.code + rd d.1 4 3) % 2 ^ 32 ∧ (t.qp n).msg msn = none) ∧
      (∀ pt, d.2.1 = false → d.2.2.dshareTests p d.1 = .ok pt → ∃ t, exec (.dshareMessage n msn) s = .next t ∧ rd d.1 4 3 ∈ (t.round p).holders ∧
        t.reg (ctxBase p + 0x50) = (s.reg (ctxBase p + 0x50) + 1) % 2 ^ 32 ∧ (t.qp n).msg msn = none ∧
        (t.round p).dshareSet = (if (s.round p).dshareSet.length < (s.round p).desc.threshold then (s.round p).dshareSet ++ [rd d.1 4 3] else (s.round p).dshareSet)) ∧
      (d.2.1 = true → ∃ t, exec (.dshareMessage n msn) s = .next t ∧ t.reg (ctxBase p + 0x54) = min (s.reg (ctxBase p + 0x54) + 1) 0xFFFFFFFF ∧ (t.qp n).msg msn = none))) ∧
  (∀ (p at_ : Nat) (s : State), s.alive = true → p < s.parts.length → (s.round p).startAt = some at_ →
    (s.devtime < at_ → exec (.windlassEntry p) s = .next s) ∧
    (at_ ≤ s.devtime → ∃ t, exec (.windlassEntry p) s = .next t ∧ (t.round p).startAt = none ∧ OnlyPart s t p ∧ t.qps = s.qps ∧
      ∀ r ∈ s.tilesOf p, r.well < s.wells.length → r.tile < (s.well r.well).tiles.length → t.reg64 (tileBase r + 0x18) = 0 ∧
        (∀ e, (s.tile r).entries.find? (fun e => e.set == (s.round p).desc.scheduleSet) = some e → (s.tile r).state = .loaded ∨ (s.tile r).state = .stopped ∨ (s.tile r).state = .trapped →
          (t.tile r).state = .running ∧ (t.tile r).due = 4 * at_ ∧ (t.tile r).loops = [0, 0, 0, 0] ∧ (t.tile r).accs = List.replicate 128 0 ∧
          (t.tile r).next = (if (s.round p).startKind = 0 then e.opening else if (s.round p).startKind = 1 then e.intake else e.closing) ∧
          (t.tile r).store = (s.tile r).store))) ∧
  (∀ (p : Nat) (e : QEntry) (s : State), s.alive = true → p < s.parts.length →
    let x := s.part p
    let r := x.round
    let held := (r.cutDue = true ∧ ∀ c, r.ckpt = some c → c.phase = .complete) ∨ ∃ c, r.ckpt = some c ∧ c.phase = .copying
    let room := fun d : QEntry => (x.queue.filter (fun f => f.source == d.source)).length < 4096 ∧ ¬ (held ∧ d.source = (if r.desc.mode = .h then 4 else 1))
    ((∀ d ∈ x.due, ¬ room d) → exec (.queueEntryPosted p) s = .next s) ∧
    (∀ l₁ l₂, x.due = l₁ ++ e :: l₂ → (∀ d ∈ l₁, ¬ room d) → room e → ∃ t, exec (.queueEntryPosted p) s = .next t ∧ (t.part p).due = x.due.erase e ∧ OnlyPart s t p ∧
      (e.source = 1 → r.desc.mode = .m → ∀ u ∈ r.uploads, u.client = e.client → u.seq = e.seq → { u with posted := true, lastWrite := s.devtime } ∈ (t.round p).uploads) ∧
      ((∀ u ∈ s.tilesOf p, (s.tile u).waiting = none) → (t.part p).queue = x.queue ++ [e] ∧ t.wells = s.wells) ∧
      (∀ u dst, u ∈ s.tilesOf p → (s.tilesOf p).Nodup → (∀ v ∈ s.tilesOf p, v ≠ u → (s.tile v).waiting = none) → (s.tile u).waiting = some (e.source, dst) → 1 ≤ e.source →
        e.source ≤ 4 → e.takenBy = [] → s.nextEntry p e.source (s.unitOf u) = none → u.well < s.wells.length → u.tile < (s.well u.well).tiles.length → (s.tile u).store.wf →
        (t.tile u).state = .running ∧ (t.tile u).waiting = none ∧ (t.tile u).due = max (s.tile u).due s.cycle ∧ (t.tile u).rowsAt dst 64 = e.bytes)))

/-- A row of another opcode, of a step not due or of a windlass that may not issue changes nothing; a bad step traps in any row, which records its cause; the tick's end fails the round with the status of the lowest unit that trapped. An issue notes its index, is late-counted, and the next step falls due gap plus ceil(gap * stretch / 1024) cycles later. LOOP, JUMP, SYNC with its release 16 ticks after the last arrival or its mismatch trap, WAIT, DONE, END and TRAP do as R207 to R220 say; WATCHDOG traps a step stuck for 1,048,576 cycles; WINDLASS_STOP stops and zeroes a called windlass at its step boundary. -/
def Obligations.WindlassStepsAdvance : Prop :=
  (∀ (t : TileRef) (op : Nat) (r : Instr) (s : State), (op, r) ∈ stepRows t →
    (s.alive = false ∨ 24 ≤ s.owner t.well ∨ (s.tile t).state ≠ .running ∨ (s.tile t).stopping = true → exec r s = .next s) ∧
    (Runs s t → 4 * s.devtime + 4 ≤ (s.tile t).due → exec r s = .next s) ∧
    (Runs s t → (s.tile t).due < 4 * s.devtime + 4 →
      let k := (s.tile t).next
      let o := (stepWord ((s.tile t).stepBytes k)).opcode
      (∀ c, (s.tile t).stepFault k = some c → Held s t →
        let st := if c = 3 then Status.format else .uncorrectable
        ∃ v, exec r s = .next v ∧ v = s.trap t (s.owner t.well) c st.code k ∧ (v.tile t).state = .trapped ∧
          v.reg (tileBase t + 8) = 2 ^ 31 + 2 ^ 27 * c + 2 ^ 16 * (k % 2048) + 2 ^ 8 * st.code ∧
          (s.owner t.well < s.parts.length → (s.part (s.owner t.well)).trapDue = none → (v.part (s.owner t.well)).trapDue = some (s.unitOf t, st.code))) ∧
      ((s.tile t).stepFault k = none → o ≠ 0 → o ≠ op → exec r s = .next s))) ∧
  (∀ (p u c : Nat) (s : State), p < 24 → p < s.parts.length → (s.part p).trapDue = some (u, c) → (s.round p).state.failable = true →
    ((s.settleTrap p).round p).state = .failed ∧ ((s.settleTrap p).round p).status = statusOf c ∧ ((s.settleTrap p).part p).trapDue = none ∧
      (s.timeRuns = true → ((tick s).round p).state = .failed)) ∧
  (∀ (p u c unit st : Nat) (s : State), p < s.parts.length → (s.part p).trapDue = some (u, c) →
    ((s.noteTrap p unit st).part p).trapDue = (if unit < u then some (unit, st) else some (u, c))) ∧
  (∀ (t : TileRef) (op : Nat) (i : Issue) (u s : State), Issues s t op i u → Held s t →
    (u.tile t).last = i.idx ∧ (u.tile t).next = (i.idx + 1) % 2048 ∧ (u.tile t).due = i.at_ + i.w.gap + (i.w.gap * s.stretchAt i.part (i.at_ / 4) + 1023) / 1024 ∧
      (u.tile t).store = (s.tile t).store ∧ (u.tile t).accs = (s.tile t).accs ∧ (u.tile t).loops = (s.tile t).loops ∧ (s.tile t).due ≤ i.at_ ∧ i.at_ < 4 * s.devtime + 4 ∧
      i.part = s.owner t.well ∧ i.w.opcode = op ∧ OnlyWell s u t.well ∧
      ((stepWord ((s.tile t).stepBytes (s.tile t).next)).opcode ≠ 0 → i.idx = (s.tile t).next ∧ u.reg64 (tileBase t + 0x18) = (s.reg64 (tileBase t + 0x18) + 1) % 2 ^ 64 ∧
        u.reg (tileBase t + 0x20) = (if (s.tile t).due < i.at_ then min (s.reg (tileBase t + 0x20) + 1) 0xFFFFFFFF else s.reg (tileBase t + 0x20)))) ∧
  (∀ (t : TileRef) (i : Issue) (u s : State), Held s t → i.part < s.parts.length →
    (Issues s t 0x01 i u →
      let c := (u.tile t).loops.getD i.w.level 0
      let n := if c = 0 then i.w.count - 1 else c - 1
      ∃ v, exec (.stepLoop t) s = .next v ∧ (v.tile t).next = (if n = 0 then (i.idx + 1) % 2048 else i.w.target) ∧
        (i.w.level < (u.tile t).loops.length → (v.tile t).loops.getD i.w.level 0 = n) ∧ (v.tile t).store = (s.tile t).store ∧ OnlyWell s v t.well ∧ v = { u with wells := v.wells }) ∧
    (Issues s t 0x02 i u → ∃ v, exec (.stepJump t) s = .next v ∧ v.tile t = { u.tile t with next := i.w.target } ∧ OnlyWell s v t.well ∧ v = { u with wells := v.wells }) ∧
    (Issues s t 0x03 i u → t ∈ s.tilesOf i.part → (∀ q ∈ s.tilesOf i.part, q.tile < 25) →
      let arr := (s.part i.part).arrivals ++ [⟨s.unitOf t, i.w.aux, s.devtime⟩]
      ∃ v, exec (.stepSync t) s = .next v ∧
        ((∀ a ∈ arr, a.ident = i.w.aux) → (v.tile t).state = .waiting ∧ (v.tile t).waiting = some (5, i.w.aux) ∧ (v.part i.part).arrivals = arr ∧
          (v.part i.part).releaseAt = (if (s.tilesOf i.part).length ≤ arr.length then some (s.devtime + 16) else (s.part i.part).releaseAt)) ∧
        ((∃ a ∈ arr, a.ident ≠ i.w.aux) → (v.tile t).state = .trapped ∧
          v.reg (tileBase t + 8) = 2 ^ 31 + 2 ^ 27 * 8 + 2 ^ 16 * (i.idx % 2048) + 2 ^ 8 * 0x0B ∧
          (v.part i.part).trapDue ≠ none)) ∧
    (Issues s t 0x04 i u → i.w.aux % 16 = 0 →
      (bits i.w.aux 7 4 ∈ (s.round i.part).entered → exec (.stepWait t) s = .next u) ∧
      (bits i.w.aux 7 4 ∉ (s.round i.part).entered → ∃ v, exec (.stepWait t) s = .next v ∧ v.tile t = { u.tile t with state := .waiting, waiting := some (0, bits i.w.aux 7 4), serving := none } ∧
        v = { u with wells := v.wells })) ∧
    (Issues s t 0x04 i u → 1 ≤ i.w.aux % 16 → i.w.aux % 16 ≤ 4 →
      (∀ e, u.nextEntry i.part (i.w.aux % 16) (u.unitOf t) = some e → exec (.stepWait t) s = .next (u.takeEntry i.part t e i.w.dst)) ∧
      (u.nextEntry i.part (i.w.aux % 16) (u.unitOf t) = none → ∃ v, exec (.stepWait t) s = .next v ∧
        v.tile t = { u.tile t with state := .waiting, waiting := some (i.w.aux % 16, i.w.dst), serving := none } ∧ v = { u with wells := v.wells })) ∧
    (Issues s t 0x04 i u → 5 ≤ i.w.aux % 16 → ∃ v, exec (.stepWait t) s = .next v ∧ (v.tile t).state = .waiting ∧ v = { u with wells := v.wells }) ∧
    (Issues s t 0x05 i u →
      let d := (i.w.aux % 16, s.unitOf t)
      ∃ w : State, (w.round i.part).doneUnits = (if d ∈ (s.round i.part).doneUnits then (s.round i.part).doneUnits else (s.round i.part).doneUnits ++ [d]) ∧
        w = { u with parts := w.parts, wells := w.wells, regs := w.regs, freeCount := w.freeCount } ∧ (w.tile t) = { u.tile t with serving := none } ∧
        OnlyWell u w t.well ∧ OnlyPart u w i.part ∧ exec (.stepDone t) s = .next (w.advance i.part) ∧
        (w.allDone i.part (s.round i.part).state.code = false → w.advance i.part = w)) ∧
    (Issues s t 0x06 i u → ∃ v, exec (.stepEnd t) s = .next v ∧ (v.tile t).state = .stopped ∧
      ((s.round i.part).abortPending = false → (v.tile t).aesKey = [] ∧ v = { u with wells := v.wells })) ∧
    (Issues s t 0x07 i u → ∃ v, exec (.stepTrap t) s = .next v ∧ v = u.trap t i.part 10 (i.w.aux % 256) i.idx ∧ (v.tile t).state = .trapped)) ∧
  (∀ (p r : Nat) (s : State), s.alive = true → p < s.parts.length → (s.part p).releaseAt = some r →
    (s.devtime < r → exec (.syncRelease p) s = .next s) ∧
    (r ≤ s.devtime → ∃ v, exec (.syncRelease p) s = .next v ∧ (v.part p).arrivals = [] ∧ (v.part p).releaseAt = none ∧ OnlyPart s v p ∧
      (∀ q ∈ s.tilesOf p, Held s q → ∀ d, (s.tile q).waiting = some (5, d) → v.tile q = { s.tile q with state := .running, waiting := none, due := max (s.tile q).due (4 * r) }) ∧
      (∀ q, (∀ d, (s.tile q).waiting ≠ some (5, d)) → v.tile q = s.tile q) ∧ v = { s with wells := v.wells, parts := v.parts })) ∧
  (∀ (t : TileRef) (c k : Nat) (s : State), s.alive = true → (s.tile t).stuckSince = some (c, k) → (s.tile t).state = .running → Held s t →
    (4 * s.devtime < c + 1048576 → exec (.watchdog t) s = .next s) ∧
    (c + 1048576 ≤ 4 * s.devtime → ∃ v, exec (.watchdog t) s = .next v ∧ v = s.trap t (s.owner t.well) 9 0x0B k ∧ (v.tile t).state = .trapped)) ∧
  (∀ (t : TileRef) (s : State), Held s t →
    ((s.tile t).stopping = false → exec (.windlassStop t) s = .next s) ∧
    (s.alive = true → (s.tile t).stopping = true → (s.tile t).state = .running ∨ (s.tile t).state = .waiting →
      let c := 4 * s.devtime + 4
      let quiet := (s.tile t).headerEnd ≤ c ∧ (∀ k b, k < 5 → (s.tile t).busy[k]? = some b → b < c ∨ (k = 4 ∧ (s.tile t).stuckSince ≠ none)) ∧
        ∀ f ∈ (s.tile t).flight, f.cycle + f.span ≤ c
      ((s.tile t).state = .running → ¬ quiet → exec (.windlassStop t) s = .next s) ∧
      ((s.tile t).state = .waiting ∨ quiet → ∃ v, exec (.windlassStop t) s = .next v ∧
        (v.tile t).state = .stopped ∧ (v.tile t).accs = List.replicate 128 0 ∧ (v.tile t).aesKey = [] ∧ (v.tile t).estimates = [] ∧ (v.tile t).armed = none ∧
        (v.tile t).steps = (s.tile t).steps ∧ (v.tile t).tables = (s.tile t).tables ∧
        ((s.tile t).store.wf → ∀ a, memByte (v.tile t).store a = (if (s.tile t).inTable a = true then memByte (s.tile t).store a else 0)) ∧
        ((s.round (s.owner t.well)).abortPending = false → OnlyWell s v t.well ∧ v = { s with wells := v.wells }) ∧
        (s.owner t.well < s.parts.length → (s.round (s.owner t.well)).abortPending = true → (s.round (s.owner t.well)).state.busy = true →
          (s.part (s.owner t.well)).trapDue = none →
          (∀ q ∈ s.tilesOf (s.owner t.well), q ≠ t → (s.tile q).active = false) → (v.round (s.owner t.well)).state = .failed ∧ (v.round (s.owner t.well)).status = .aborted))))

/-- MMUL, MADD, MSUB, MNEG, RADD, RSUB, RNEG and LOGIC run, in every operand form, the word-wise lane operation with the function of R132, R186 or R214 on each word; a function without a defined result gives a free word. The operation on one vector writes exactly its rows of the tile store, with the function of each pair of words, and changes no other tile, register or partition; a double-bit error in a source traps instead. Below q 2^32, redc of an odd q gives the residue r below q with r 2^32 = acc mod q. -/
def Obligations.LaneStepsResult : Prop :=
  (∀ (t : TileRef) (i : Issue) (u s : State),
    let q := u.primeOf i.part i.w.prime
    let w := i.w.aux % 256
    let legal := w = 32 ∨ w = 40 ∨ w = 48 ∨ w = 64
    let wide : LaneOp := { bitsA := 64, bitsB := 64, bitsD := 64, per := if i.w.dstSpace = 0 then 2 else 1 }
    (Issues s t 0x10 i u → exec (.mmul t) s = .next (u.mapLanes t i { lat := 12 } 0 (fun a b => if a * b < 2 ^ 32 * q then some (redc q (a * b)) else none))) ∧
    (Issues s t 0x12 i u → exec (.madd t) s = .next (u.mapLanes t i {} 0 (fun a b => if a < q ∧ b < q then some ((a + b) % q) else none))) ∧
    (Issues s t 0x13 i u → exec (.msub t) s = .next (u.mapLanes t i {} 0 (fun a b => if a < q ∧ b < q then some ((a + (q - b)) % q) else none))) ∧
    (Issues s t 0x14 i u → exec (.mneg t) s = .next (u.mapLanes t i { useB := false } 0 (fun a b => if a < q ∧ b < q then some ((q - a) % q) else none))) ∧
    (Issues s t 0x18 i u → legal → exec (.radd t) s = .next (u.mapLanes t i wide 1 (fun a b => some ((a + b) % 2 ^ w)))) ∧
    (Issues s t 0x19 i u → legal → exec (.rsub t) s = .next (u.mapLanes t i wide 1 (fun a b => some ((a + (2 ^ w - b % 2 ^ w)) % 2 ^ w)))) ∧
    (Issues s t 0x1A i u → legal → exec (.rneg t) s = .next (u.mapLanes t i { wide with useB := false, per := 2 } 1 (fun a _ => some ((2 ^ w - a % 2 ^ w) % 2 ^ w)))) ∧
    (¬ legal → (Issues s t 0x18 i u → exec (.radd t) s = .next (u.mapLanes t i wide 1 (fun _ _ => none))) ∧
      (Issues s t 0x19 i u → exec (.rsub t) s = .next (u.mapLanes t i wide 1 (fun _ _ => none))) ∧
      (Issues s t 0x1A i u → exec (.rneg t) s = .next (u.mapLanes t i { wide with useB := false, per := 2 } 1 (fun _ _ => none)))) ∧
    (Issues s t 0x20 i u → exec (.logic t) s = .next (u.mapLanes t i { wide with useB := decide (i.w.aux % 8 ≠ 4), per := if i.w.aux % 8 ≠ 4 ∧ i.w.dstSpace ≠ 0 then 1 else 2 } 9 (fun a b =>
      if i.w.aux % 8 = 0 then some (a ^^^ b) else if i.w.aux % 8 = 1 then some (a &&& b) else if i.w.aux % 8 = 2 then some (a ||| b)
      else if i.w.aux % 8 = 3 then some (a &&& (b ^^^ (2 ^ 64 - 1))) else if i.w.aux % 8 = 4 then some (rotl64 a (bits i.w.aux 13 8)) else none)))) ∧
  (∀ (t : TileRef) (i : Issue) (o : LaneOp) (mode : Nat) (f : Nat → Nat → Option Nat) (s : State),
    ((s.tile t).badSources o i.w = true → s.mapLanes t i o mode f = s.storeTrap t i) ∧
    (Held s t → (s.tile t).calm → i.w.plain 16 → i.w.mode = mode → o.words = 128 → o.useD = false → o.bitsA = 32 ∨ o.bitsA = 64 → o.bitsB = 32 ∨ o.bitsB = 64 →
      o.bitsD = 32 ∨ o.bitsD = 64 →
      let a := (s.tile t).vec i.w.srcA o.bitsA
      let l := List.zipWith f a (if o.useB = true then (s.tile t).vec i.w.srcB o.bitsB else a)
      (∀ x ∈ l, x ≠ none) →
      let v := s.mapLanes t i o mode f
      (v.tile t).vec i.w.dst o.bitsD = l.map (fun x => x.getD 0 % 2 ^ o.bitsD) ∧ OnlyRows s v t i.w.dst (16 * o.bitsD) ∧ (v.tile t).store.wf ∧
        (v.tile t).accs = (if i.w.accClear = true then List.replicate 128 0 else (s.tile t).accs) ∧ (∀ r, r ≠ t → v.tile r = s.tile r) ∧ OnlyWell s v t.well ∧
        OnlyRegs s v [] ∧ v.parts = s.parts ∧ v.freeCount = s.freeCount)) ∧
  (∀ q acc, q % 2 = 1 → q < 2 ^ 32 → acc < 2 ^ 32 * q → redc q acc < q ∧ (redc q acc * 2 ^ 32) % q = acc % q)

/-- Each of these steps, once issued, leaves a next state in every operand form. On one vector from and to the tile store without pending accesses, FMA writes the rounded A * B + C words and sets their flags, MMAC and DOT add into the accumulators and write them where asked, CVT converts packed and plain words, FEST gives the special results, or an estimate left open but for its error of at most 2^-12, CLMUL and GFRED work over polynomials, KECCAK permutes five states and leaves three words free, and SAMPLE writes the sampler's words of the bits that lie from src_a on. Only the rows named change in the store. -/
def Obligations.VectorStepsResult : Prop :=
  ∀ (t : TileRef) (i : Issue) (u s : State), Held s t →
    let x := u.tile t
    let kept := fun v : State => (∀ r, r ≠ t → v.tile r = u.tile r) ∧ OnlyWell u v t.well ∧ v.parts = u.parts ∧ v.lantus = u.lantus
    (Issues s t 0x1C i u → ∃ v, exec (.fma t) s = .next v ∧ (x.calm → i.w.plain 8 → i.w.mode = 2 →
      let rs := List.zipWith (fun (p : Nat × Nat) c => fma32 p.1 p.2 c) ((x.vec i.w.srcA 32).zip (x.vec i.w.srcB 32)) (x.vec i.w.dst 32)
      (v.tile t).vec i.w.dst 32 = rs.map (fun r => r.val % 2 ^ 32) ∧ OnlyRows u v t i.w.dst 512 ∧ kept v ∧
        ((∀ r ∈ rs, r.flags < 16) → v.reg (tileBase t + 0x34) = u.reg (tileBase t + 0x34) ||| rs.foldl (fun a r => a ||| r.flags) 0))) ∧
    (Issues s t 0x11 i u → ∃ v, exec (.mmac t) s = .next v ∧ (x.calm → i.w.plain 8 →
      let c := if i.w.accClear = true then List.replicate 128 0 else x.accs
      let sums := List.zipWith (fun (c p : Nat) => (c + p) % 2 ^ 256) c (List.zipWith (fun (a b : Nat) => a * b) (x.vec i.w.srcA 32) (x.vec i.w.srcB 32))
      let q := u.primeOf i.part i.w.prime
      (v.tile t).accs = sums ∧ kept v ∧ (i.w.accWrite = false → (v.tile t).store = x.store) ∧
        (i.w.accWrite = true → OnlyRows u v t i.w.dst (sums.length * 4) ∧
          ((∀ a ∈ sums, a < 2 ^ 32 * q) → x.accs.length = 128 → q < 2 ^ 32 → (v.tile t).vec i.w.dst 32 = sums.map (redc q))))) ∧
    (Issues s t 0x1D i u → ∃ v, exec (.dot t) s = .next v ∧ (x.calm → i.w.plain 8 →
      let n := if i.w.mode = 3 then 16 else 8
      let c := if i.w.accClear = true then List.replicate 128 0 else x.accs
      let pairs := chunks (32 / n) ((elems n (x.rowsAt i.w.srcA 512)).zip (elems n (x.rowsAt i.w.srcB 512)))
      let lanes := List.zipWith (fun a ab => dotLane i.w.mode (a % 2 ^ 32) ab) c pairs
      3 ≤ i.w.mode → i.w.mode ≤ 7 → x.accs.length = 128 →
      kept v ∧ (v.tile t).accs = List.zipWith (fun a l => 2 ^ 32 * (a / 2 ^ 32) + (l.elim 0 FRes.val)) c lanes ∧ (i.w.accWrite = false → (v.tile t).store = x.store) ∧
        (i.w.accWrite = true → (v.tile t).vec i.w.dst 32 = (v.tile t).accs.map (fun a => a % 2 ^ 32) ∧ OnlyRows u v t i.w.dst 512))) ∧
    (Issues s t 0x1E i u → ∃ v, exec (.cvt t) s = .next v ∧ (x.calm → i.w.plain 16 →
      let fn := i.w.aux % 16
      let w := if fn = 0 ∨ fn = 3 then 8 * bits i.w.aux 7 4 else 32
      let nD := if fn = 1 then 16 else if fn = 3 then 64 else 32
      let words := if fn = 0 then ((chunks 64 (x.rowsAt i.w.srcA (64 * ((128 + wordsPerBucket w - 1) / wordsPerBucket w)))).flatMap
          (fun b => wordsOf w (wordsPerBucket w) (leNat b))).take 128
        else x.vec i.w.srcA (if fn = 2 then 16 else 32)
      fn ≤ 4 → (fn = 0 → legalWidth w = true) →
      kept v ∧ OnlyRows u v t i.w.dst (16 * nD) ∧ (v.tile t).vec i.w.dst nD = words.map (fun y => (cvtWord fn w (bits i.w.aux 13 8) y).elim 0 (fun r => r.val % 2 ^ nD)))) ∧
    (Issues s t 0x1F i u → ∃ v, exec (.fest t) s = .next v ∧ (x.calm → i.w.plain 8 →
      kept v ∧ OnlyRows u v t i.w.dst 512 ∧ (v.tile t).vec i.w.dst 32 = (x.vec i.w.srcA 32).map (fun y => (festWord (i.w.aux % 2) y).val % 2 ^ 32))) ∧
    (∀ y, (∀ r, festSpecial (i.w.aux % 2) y = some r → festWord (i.w.aux % 2) y = r) ∧
      (festSpecial (i.w.aux % 2) y = none → y % 2 ^ 31 ≠ 0 → festGood (i.w.aux % 2) y (festWord (i.w.aux % 2) y).val = true ∨
        (festWord (i.w.aux % 2) y).val = festRound (i.w.aux % 2) y)) ∧
    (Issues s t 0x21 i u → ∃ v, exec (.clmul t) s = .next v ∧ (x.calm → i.w.plain 16 →
      let c := if i.w.accClear = true then List.replicate 128 0 else x.accs
      kept v ∧ (v.tile t).store = x.store ∧ (v.tile t).accs = List.zipWith (fun (c p : Nat) => c ^^^ (p <<< (64 * (b2n (bit i.w.aux 0) + b2n (bit i.w.aux 1))))) c
        (List.zipWith clmul64 (x.vec i.w.srcA 64) (x.vec i.w.srcB 64)))) ∧
    (Issues s t 0x22 i u → ∃ v, exec (.gfred t) s = .next v ∧ (x.calm → i.w.count = 1 → i.w.dstSpace = 0 → i.w.dst + 32 ≤ 16384 → i.w.accClear = false → x.accs.length = 128 →
      kept v ∧ (v.tile t).accs = x.accs ∧ OnlyRows u v t i.w.dst 2048 ∧ (v.tile t).vec i.w.dst 64 = x.accs.map (fun a => gfReduce a % 2 ^ 64) ∧
        (v.tile t).vec (i.w.dst + 16) 64 = x.accs.map (fun a => gfReduce a / 2 ^ 64 % 2 ^ 64))) ∧
    (Issues s t 0x23 i u → ∃ v, exec (.keccak t) s = .next v ∧ (x.calm → i.w.plain 16 →
      kept v ∧ OnlyRows u v t i.w.dst 1024 ∧
        elems 64 ((v.tile t).rowsAt i.w.dst 1000) = ((chunks 25 ((x.vec i.w.srcA 64).take 125)).flatMap keccakF).map (fun y => y % 2 ^ 64))) ∧
    (Issues s t 0x24 i u → ∃ v, exec (.sample t) s = .next v ∧ (x.calm → i.w.count = 1 → i.w.dstSpace = 0 → i.w.dst + 16 ≤ 16384 →
      let q := if i.w.aux % 256 = 0 then u.reg64 (mskBase i.part + 8) else u.reg64 (ctxBase i.part + 0x18)
      let n := if i.w.aux % 256 = 0 ∧ (u.round i.part).desc.mode = .m then (u.round i.part).desc.ringWidth else 64
      let l := (sampMany (memNat x.store (i.w.srcA * 64) (64 * (16384 - i.w.srcA)), 512 * (16384 - i.w.srcA)) q n 128 0).1
      kept v ∧ OnlyRows u v t i.w.dst 1024 ∧ ((∀ y ∈ l, y ≠ none) → (v.tile t).vec i.w.dst 64 = l.map (fun y => y.getD 0 % 2 ^ 64))))

/-- On one limb without pending accesses and a table to reload, NTT_FWD and NTT_INV write the transform of the limb with the step's twiddle table in place, and AUTO the automorphism's image; no other row changes. A twiddle table that fails its check is counted, marked for reload and poisons the operation. For a prime q and twiddles that are no multiple of q, the inverse transform of the forward one of a block of residues is the block. Every form leaves a next state. -/
def Obligations.TransformStepsResult : Prop :=
  (∀ (t : TileRef) (i : Issue) (u s : State), Held s t →
    let x := u.tile t
    let n := 2 ^ (i.w.aux % 32)
    let q := u.primeOf i.part i.w.prime
    let k := i.w.aux / 256
    let limb := fun row : Nat => (elems 32 (x.rowsAt row (64 * ((n + 15) / 16)))).take n
    (∀ (op : Nat) (r : Instr) (f : Nat → Array Nat → Nat → Nat → List Nat → List Nat),
      (op = 0x28 ∧ r = .nttFwd t ∧ f = nttFwdAux) ∨ (op = 0x29 ∧ r = .nttInv t ∧ f = nttInvAux) →
      Issues s t op i u → ∃ v, exec r s = .next v ∧ (x.calm → x.reload = [] → i.w.count = 1 → q ≠ 0 → ∀ e, x.table k = some e →
        let tw := (elems 32 (x.tableBytes e)).toArray
        (v.tile t).store = (x.putRows i.w.dst (elemBytes 32 (f q tw (i.w.aux % 32) 1 (limb i.w.dst)))).store ∧ OnlyWell u v t.well ∧ v.parts = u.parts ∧
          (x.tableFails k = false → (v.tile t).dataFail = x.dataFail ∧ (v.tile t).reload = [] ∧ v.reg (tileBase t + 0x30) = u.reg (tileBase t + 0x30)) ∧
          (x.tableFails k = true → (v.tile t).dataFail = true ∧ (v.tile t).reload = [k] ∧
            v.reg (tileBase t + 0x30) = min (u.reg (tileBase t + 0x30) + 1) 0xFFFFFFFF))) ∧
    (Issues s t 0x2A i u → ∃ v, exec (.auto t) s = .next v ∧
      let d := u.regBits (ctxBase i.part) 4 0
      (x.calm → i.w.count = 1 → q ≠ 0 →
        let a := (elems 32 (x.rowsAt i.w.srcA (64 * ((2 ^ d + 15) / 16)))).take (2 ^ d)
        (v.tile t).store = (x.putRows i.w.dst (elemBytes 32 (if bit i.w.aux 0 = true then autoEval d i.w.ext a else autoCoef q (2 ^ d) i.w.ext a))).store ∧
          OnlyWell u v t.well ∧ v.parts = u.parts))) ∧
  (∀ (q d : Nat) (tw : Array Nat) (a : List Nat), q.Prime → 2 < q → q < 2 ^ 32 → (∀ k, 1 ≤ k → k < 2 ^ d → tw.getD k 0 < 2 ^ 32 ∧ tw.getD k 0 % q ≠ 0) → a.length = 2 ^ d →
    (∀ y ∈ a, y < q) → nttInvAux q tw d 1 (nttFwdAux q tw d 1 a) = a)

/-- TABLE_RELOAD and a failed TBLCHK bring a table back from its image copy, where the tile's master may read it. BCV_SCALE writes y and leaves the estimates, BCV_OUT consumes those of the same length and writes z. AES_KEY loads a key, AES_CTR writes keystream, GCM_OPEN writes the plaintext and OK when the tag matches, and else nothing but FORMAT in its status byte. HDR writes the header of its class, poisoned exactly when a condition of R145 holds, with the first one's cause, and counts it; a poisoned input to STEP fails the round; the cause of a poisoned input comes first, then differing keys. Gadget digits lie in their range and sum to the rounded word. Every form leaves a next state. -/
def Obligations.EngineStepsResult : Prop :=
  (∀ (t : TileRef) (i : Issue) (u s : State), Held s t →
    let x := u.tile t
    let n := 2 ^ (i.w.aux % 32)
    let k := i.w.aux / 256
    let rows := (n + 15) / 16
    (Issues s t 0x09 i u → ∃ v, exec (.tblchk t) s = .next v ∧ (∀ e, x.table i.w.aux = some e → x.storeBad = [] →
      (x.tableFails i.w.aux = false → (v.tile t).store = x.store) ∧
      (x.tableFails i.w.aux = true → ∀ a m, u.imageArea t.well = some (a, m) →
        let r := u.readBuckets 0 e.rows (cisAddr t.well ((a + e.area) * 64))
        (∃ w, u.check ⟨masterOfTile t, u.owner t.well⟩ (cisAddr t.well ((a + e.area) * 64)) (64 * e.rows) 1 = (none, w)) → r.2.1 = false → (v.tile t).store = (x.putRows e.row r.1).store))) ∧
    (Issues s t 0x30 i u → ∃ v, exec (.bcvScale t) s = .next v ∧ (x.calm → x.reload = [] → i.w.count = 1 → ∀ e, x.table k = some e →
      let y := bcvY (u.primeOf i.part i.w.prime) (rd (x.tableBytes e) 0 4) ((elems 32 (x.rowsAt i.w.srcA (64 * rows))).take n)
      (v.tile t).store = (x.putRows i.w.dst (elemBytes 32 y)).store ∧ (v.tile t).estimates = bcvEstimates [(y, rd (x.tableBytes e) 4 12)] n ∧ (v.tile t).bcvTable = k ∧ (v.tile t).estimatesOf = (i.w.dst, 1, n) ∧
        (v.tile t).dataFail = (x.dataFail || x.tableFails k) ∧ OnlyWell u v t.well ∧ v.parts = u.parts)) ∧
    (Issues s t 0x31 i u → ∃ v, exec (.bcvOut t) s = .next v ∧ (x.calm → x.reload = [] → i.w.count = 1 → ∀ e, x.table x.bcvTable = some e → x.estimates.length = n →
      x.estimatesOf = (i.w.srcA, bits i.w.aux 14 8, n) →
      let a := bits i.w.aux 14 8
      let p := u.primeOf i.part i.w.prime
      let c := bcvDest (x.tableBytes e) a 0
      p ≠ 0 → (v.tile t).store = (x.putRows i.w.dst (elemBytes 32 (bcvZ p ((List.range a).map (fun j => (elems 32 (x.rowsAt (i.w.srcA + j * rows) (64 * rows))).take n)) c.1 c.2
        x.estimates))).store ∧ OnlyWell u v t.well ∧ v.parts = u.parts)) ∧
    (Issues s t 0x38 i u → ∃ v, exec (.aesKey t) s = .next v ∧ (x.calm → (v.tile t).aesKey = x.rowsAt i.w.srcA 32 ∧ (v.tile t).store = x.store ∧ OnlyWell u v t.well ∧
      v.parts = u.parts)) ∧
    (Issues s t 0x39 i u → ∃ v, exec (.aesCtr t) s = .next v ∧ (x.calm → i.w.dstSpace = 0 →
      let first := x.rowsAt i.w.srcB 16
      (v.tile t).store = (x.putRows i.w.dst ((List.range i.w.count).flatMap (fun j => aesBlock (aesRoundKeys x.aesKey)
        (if bit i.w.aux 0 = true then first.take 12 ++ toBE ((beNat (first.drop 12) + j) % 2 ^ 32) 4 else toLE (rd first 0 8 + j) 8 ++ first.drop 8)))).store ∧
      OnlyWell u v t.well ∧ v.parts = u.parts)) ∧
    (Issues s t 0x3A i u → ∃ v, exec (.gcmOpen t) s = .next v ∧ (x.calm →
      let len := 16 * i.w.count
      let stat := i.w.aux % 16384 * 64
      let aad := x.rowsAt i.w.srcB 64
      (∀ pt, gcmOpen x.aesKey (slice aad 0x18 12) aad (x.rowsAt i.w.srcA len) (slice (x.rowsAt i.w.srcA (len + 16)) len 16) = some pt →
        (v.tile t).store = memWrite (x.putRows i.w.dst pt).store stat [0x00]) ∧
      (gcmOpen x.aesKey (slice aad 0x18 12) aad (x.rowsAt i.w.srcA len) (slice (x.rowsAt i.w.srcA (len + 16)) len 16) = none →
        memByte (v.tile t).store stat = 0x0A ∧ ∀ a, a ≠ stat → memByte (v.tile t).store a = memByte x.store a) ∧ OnlyWell u v t.well ∧ v.parts = u.parts)) ∧
    (Issues s t 0x08 i u → ∃ v d, exec (.hdr t) s = .next v ∧ (x.calm → ∀ c, c = hdrClass (i.w.aux % 32) →
      let ins := (if i.w.aSpace = 0 then [ctHeader (x.rowsAt i.w.srcA 64)] else []) ++
        (if c.binary = true ∧ i.w.bSpace = 0 then [ctHeader (x.rowsAt i.w.srcB 64)] else [])
      let arg := i.w.aux / 256
      let f := x.found c
      let cause := settleCause c ins arg f.1 f.2
      let h := settleOut c ins arg (u.primeOf i.part) d
      let clean := ∀ g ∈ ins, g.poisoned = false
      let differ := ∃ g ∈ ins, g.keyId ≠ (ins.headD g).keyId
      (c ∉ [HdrClass.export_, .extract, .refresh, .repack, .undefined] →
        ((u.round i.part).state ≠ .step ∨ clean →
          (v.tile t).keyFail = x.keyFail ∧ (v.tile t).dataFail = false ∧ (v.tile t).mute = false ∧
          (v.tile t).store = (x.putRows i.w.dst (CtHeader.bytes { h with
            special := 0, unmetered := ins.any (fun g => g.unmetered) || bit i.w.aux 5, poisoned := cause.isSome, cause := cause.getD 0,
            origin := 0xFF000000 + u.unitOf t % 1024, roundId := (u.round i.part).desc.roundId })).store ∧
          v.reg (ctxBase i.part + 0x30) = (if cause = none then u.reg (ctxBase i.part + 0x30) else min (u.reg (ctxBase i.part + 0x30) + 1) 0xFFFFFFFF) ∧
          (clean → differ → v.reg (ctxBase i.part + 0x34) = min (u.reg (ctxBase i.part + 0x34) + 1) 0xFFFFFFFF) ∧
          (clean → cause = some 4 → v.reg (ctxBase i.part + 0x38) = min (u.reg (ctxBase i.part + 0x38) + 1) 0xFFFFFFFF) ∧
          (¬ clean ∨ cause ≠ some 4 → v.reg (ctxBase i.part + 0x38) = u.reg (ctxBase i.part + 0x38))) ∧
        ((u.round i.part).state = .step → ¬ clean → i.part < u.parts.length →
          (v.round i.part).state = .failed ∧ (v.round i.part).status = .poisonedInput)) ∧
      (c = .export_ → (v.tile t).store = x.store ∧ (v.tile t).mute = ins.any (fun g => g.poisoned) ∧
        (v.tile t).exportStatus = (if ins.any (fun g => g.poisoned) = true then .poisonedInput else .ok) ∧
        v.reg (ctxBase i.part + 0x40) = (if ins.any (fun g => g.poisoned) = true then min (u.reg (ctxBase i.part + 0x40) + 1) 0xFFFFFFFF else u.reg (ctxBase i.part + 0x40))) ∧
      (c = .repack → OnlyRows u v t i.w.dst 64 ∧ v.reg (rfsBase i.part + 0x14) = min (u.reg (rfsBase i.part + 0x14) + 1) 0xFFFFFFFF) ∧
      (c = .extract → i.w.count = 1 → OnlyRows u v t i.w.dst 64) ∧
      (c = .refresh → i.w.count = 1 → OnlyRows u v t i.w.dst 64 ∧ v.reg (rfsBase i.part + 0x10) = min (u.reg (rfsBase i.part + 0x10) + 1) 0xFFFFFFFF ∧
        (crcEndsOk (x.rowsAt i.w.srcA 24) = true → (v.tile t).rowsAt i.w.dst 24 =
          LweTag.bytes (refreshTag (u.regBits (rfsBase i.part) 31 21) f (lweTag (x.rowsAt i.w.srcA 64)))))))) ∧
  (∀ (x m beta d : Nat), 1 ≤ beta → 0 < m →
    let ds := decompose x m beta d
    ds.length = d ∧ (∀ e ∈ ds, -(2 ^ (beta - 1) : Int) ≤ e ∧ e < 2 ^ (beta - 1)) ∧
      (ds.foldl (fun (a : Int) e => a * 2 ^ beta + e) 0 - ((x * (2 ^ beta) ^ d * 2 + m) / (2 * m) : Nat)) % (2 ^ (beta * d) : Int) = 0) ∧
  (∀ (t : TileRef) (k : Nat) (rest : List Nat) (s : State), Held s t →
    ((s.tile t).reload = [] → exec (.tableReload t) s = .next s) ∧
    (s.alive = true → (s.tile t).reload = k :: rest → ∃ v, exec (.tableReload t) s = .next v ∧ (v.tile t).tables = (s.tile t).tables ∧
      ((s.tile t).table k = none → k ∉ (v.tile t).reload) ∧
      ∀ e a m, (s.tile t).table k = some e → s.imageArea t.well = some (a, m) →
        let r := s.readBuckets 0 e.rows (cisAddr t.well ((a + e.area) * 64))
        let c := s.check ⟨masterOfTile t, s.owner t.well⟩ (cisAddr t.well ((a + e.area) * 64)) (64 * e.rows) 1
        (c.1 = none → k ∉ (v.tile t).reload ∧ (r.2.1 = false → (v.tile t).store = ((s.tile t).putRows e.row r.1).store)) ∧
        (∀ st, c.1 = some st → v = c.2))) ∧
  (∀ (k : HdrClass) (ins : List CtHeader) (arg f : Nat) (bad : Bool),
    (∀ l₁ h l₂, ins = l₁ ++ h :: l₂ → (∀ g ∈ l₁, g.poisoned = false) → h.poisoned = true → settleCause k ins arg f bad = some h.cause) ∧
    ((∀ g ∈ ins, g.poisoned = false) → ∀ a b, a ∈ ins → b ∈ ins → a.keyId ≠ b.keyId → settleCause k ins arg f bad = some 3) ∧
    (settleCause k ins arg f bad = none ↔ (∀ g ∈ ins, g.poisoned = false) ∧ (∀ a ∈ ins, ∀ b ∈ ins, a.keyId = b.keyId ∧ a.logN = b.logN ∧ a.encoding = b.encoding) ∧
      (∀ a ∈ ins, k.fits a.components = true ∧ (a.unmetered = false → k.need a.encoding arg ≤ a.level)) ∧
      (k = .add ∨ k = .sub → ∀ b ∈ ins, b.encoding = 1 → b.unmetered = false → (ins.headD b).unmetered = false → (ins.headD b).scaleLog = b.scaleLog) ∧ f = 0 ∧ bad = false))

/-- LOAD and TURN bring buckets into the rows of dst, STORE writes rows to memory, PUMP hands units to the pump of their bucket, SEND fills an armed port or waits on its way to an unarmed one, where it is counted and gone once it has arrived, RECV arms the port, STEPFETCH keeps its half busy until 24 cycles after its last slot, RNG_READ queues its request, and KEYSTREAM of kinds 1 to 3 writes its payload only when the segment passes its checks. A refused access traps, one unit without a slot leaves the step standing still. Every form leaves a next state. -/
def Obligations.TransferStepsMoveUnits : Prop :=
  ∀ (t : TileRef) (i : Issue) (u s : State), Held s t →
    let x := u.tile t
    let b := i.w.ext % 2 ^ 21
    let slot := slotCycles (x.patterns.getD i.w.pattern []) i.at_ 1 ≠ []
    let near := i.w.ext / 2 ^ 29 = 0 ∧ i.w.count = 1
    let row := rowOf i.w.srcA i.w.strideA 0
    let data := x.rowsAt row 128
    let land := rowOf i.w.dst i.w.strideD 0
    (∀ op r, (op, r) ∈ [(0x40, Instr.load t), (0x41, .store t), (0x42, .pump t), (0x43, .tileSend t), (0x46, .turn t)] → Issues s t op i u →
      ∃ v, exec r s = .next v ∧ (i.w.count = 1 → slotCycles (x.patterns.getD i.w.pattern []) i.at_ 1 = [] → v.tile t = { x with stuckSince := some (i.at_, i.idx) } ∧ OnlyWell u v t.well)) ∧
    (Issues s t 0x40 i u → ∃ v, exec (.load t) s = .next v ∧ (near → slot →
      let a := u.readBuckets 0 1 (cisAddr t.well (b * 64))
      let c := a.2.2.readBuckets 0 1 (cisAddr t.well (b * 64) + 64)
      (∀ st w, u.check (u.tileMaster t) (cisAddr t.well (b * 64)) 128 1 = (some st, w) → v = w.trap t i.part (if st = .notReady then 6 else 5) st.code i.idx) ∧
      (∀ w, u.check (u.tileMaster t) (cisAddr t.well (b * 64)) 128 1 = (none, w) → a.2.1 = false → c.2.1 = false → land < 16383 →
        (v.tile t).store = ((x.putRows land a.1).putRows (land + 1) c.1).store ∧ ∀ w, w ≠ t.well → v.well w = u.well w))) ∧
    (Issues s t 0x41 i u → ∃ v, exec (.store t) s = .next v ∧ (near → slot → b + 2 ≤ 2 ^ 21 → row < 16383 → x.calm → x.mute = false → (u.well t.well).cisOk → t.well < 24 →
      ∀ w, u.check (u.tileMaster t) (cisAddr t.well (b * 64)) 128 2 = (none, w) →
        (∀ a, b * 64 ≤ a → a < b * 64 + 128 → (v.well t.well).seen a = data.getD (a - b * 64) 0) ∧
        (∀ a, a < b * 64 ∨ b * 64 + 128 ≤ a → (v.well t.well).seen a = (u.well t.well).seen a) ∧ (v.tile t).store = x.store ∧ OnlyWell u v t.well)) ∧
    (Issues s t 0x42 i u → ∃ v, exec (.pump t) s = .next v ∧ (i.w.count = 1 → slot → x.calm → (u.well t.well).inService = true → i.w.op2 / 16 % 16 ≠ 8 →
      u.tableRefuses (u.tileMaster t) (4 * t.well + 2) (some t.well) 2 = none →
      let e : PumpUnit := ⟨i.w.op2, i.w.prime, b, data, t.tile, (u.well t.well).crossed, x.serving⟩
      let p : PumpRef := ⟨t.well, u.pumpOf t.well b⟩
      p.pump < (u.well t.well).pumps.length → (u.pump p).halted = false →
      (v.well t.well).crossed = (u.well t.well).crossed + 1 ∧ (v.pump p).queue = (u.pump p).queue ++ [e] ∧ (∀ q : PumpRef, q ≠ p → v.pump q = u.pump q) ∧ (v.tile t).store = x.store)) ∧
    (Issues s t 0x43 i u → ∃ v, exec (.tileSend t) s = .next v ∧ (i.w.count = 1 → slot → x.calm → x.mute = false → i.w.ext / 2 ^ 29 = 3 → u.peerWell i.part i.w.peerWell = some t.well →
      i.w.peerTile < 24 →
      let r : TileRef := ⟨t.well, u.physOf t.well i.w.peerTile⟩
      r ≠ t → Held u r →
      (∀ d left stride, (u.tile r).armed = some (d, left, stride) → (v.tile r).store = ((u.tile r).putRows d data).store ∧
        (v.tile r).armed = (if left ≤ 1 then none else some ((d + stride) % 16384, left - 1, stride)) ∧ (v.tile t).store = x.store) ∧
      ((u.tile r).armed = none → ∀ c, slotCycles (x.patterns.getD i.w.pattern []) i.at_ 1 = [c] → v.tile r = { u.tile r with inbox := (u.tile r).inbox ++ [(c, data)] }))) ∧
    (∀ (r : TileRef) (c till : Nat) (d : Bytes), Held u r → (u.tile r).inbox = [(c, d)] →
      (c < till → ((u.settlePort r till).tile r) = { u.tile r with inbox := [] } ∧
        (u.settlePort r till).reg (tileBase r + 0x2C) = min (u.reg (tileBase r + 0x2C) + 1) 0xFFFFFFFF) ∧
      (till ≤ c → u.settlePort r till = u)) ∧
    (Issues s t 0x44 i u → ∃ v, exec (.recv t) s = .next v ∧ (x.inbox = [] → v = u.modTile t (fun x => { x with
      armed := some (i.w.dst, i.w.count, unsgn 14 i.w.strideD), stuckSince := some (i.at_, i.idx) })) ∧
      (∀ c d, x.inbox = [(c, d)] → i.at_ ≤ c → x.calm → (v.tile t).store = (x.putRows i.w.dst d).store ∧ (v.tile t).inbox = [])) ∧
    (Issues s t 0x46 i u → ∃ v, exec (.turn t) s = .next v ∧ (i.w.count = 1 → slot → land < 16383 →
      let k := bits i.w.ext 23 21
      let base := u.reg (cisBase t.well + 0x200 + 0x10 * k)
      let nc := u.reg (cisBase t.well + 0x204 + 0x10 * k)
      let nr := u.reg (cisBase t.well + 0x208 + 0x10 * k)
      2 ≤ nr →
      let a := cisAddr t.well ((base + b) * 64)
      let c := cisAddr t.well ((base + nc + b) * 64)
      let p := u.readBuckets 0 1 a
      let q := p.2.2.readBuckets 0 1 c
      ∀ w w', u.check (u.tileMaster t) a 64 1 = (none, w) → u.check (u.tileMaster t) c 64 1 = (none, w') → p.2.1 = false → q.2.1 = false →
        (v.tile t).store = ((x.putRows land p.1).putRows (land + 1) q.1).store)) ∧
    (Issues s t 0x47 i u → ∃ v, exec (.stepfetch t) s = .next v ∧ (i.w.aux % 2 < x.halves.length →
      (∀ c, (slotCycles (x.patterns.getD i.w.pattern []) i.at_ 256).getLast? = some c → (v.tile t).halves.getD (i.w.aux % 2) 0 = c + 24) ∧
      (slotCycles (x.patterns.getD i.w.pattern []) i.at_ 256 = [] → (v.tile t).halves.getD (i.w.aux % 2) 0 = i.at_ + 2 ^ 64 ∧ (v.tile t).steps = x.steps))) ∧
    (Issues s t 0x48 i u → i.part < u.drbgs.length → ∃ v, exec (.rngRead t) s = .next v ∧ v.tile t = { x with rngLeft := i.w.count } ∧
      v.drbg i.part = { u.drbg i.part with requests := (u.drbg i.part).requests ++ [.tile (u.unitOf t) t.well t.tile i.w.dst i.w.count] } ∧ OnlyDrbg u v i.part ∧ OnlyWell u v t.well) ∧
    (Issues s t 0x45 i u → ∃ v, exec (.keystream t) s = .next v ∧ (x.calm → near → slot → i.w.op2 < 4 →
      let head := x.rowsAt i.w.srcA 64
      let g := { segmentOf (x.rowsAt i.w.srcB 64) with kind := i.w.op2 }
      let at_ := cisAddr t.well (b * 64)
      let d := u.devRead 0 at_ (64 + g.payload)
      let why := segmentReason (d.1.take 64) g (rd head 0x18 8)
      (∀ st w, u.check (u.tileMaster t) at_ (64 + g.payload) 1 = (some st, w) → (v.tile t).state = .trapped ∧ (v.tile t).store = x.store) ∧
      (∀ w, u.check (u.tileMaster t) at_ (64 + g.payload) 1 = (none, w) →
        (why = 0 → d.2.1 = false → (v.tile t).store = (x.putRows i.w.dst (d.1.drop 64)).store) ∧
        (why ≠ 0 → (v.tile t).store = x.store ∧ (v.tile t).keyFail = why ∧ v.reg (ctxBase i.part + 0x34) = min (u.reg (ctxBase i.part + 0x34) + 1) 0xFFFFFFFF) ∧
        (why = 0 → (v.tile t).keyFail = (if g.segment = 0 then 0 else x.keyFail)) ∧
        (v.tile t).passFail = ((if g.segment = 0 then false else x.passFail) || d.2.1))))

/-- RING_ADD to SMAX take the next unit of their operation and write its result of buckets a and a + 1 and its operands, and nothing else software reads; an uncorrectable bucket halts the pump, unchanged. Words of a bucket are combined one by one, what is left over is zero. AXPY waits for an earlier SET_COEF of its pair, SET_COEF for earlier AXPY units. ZERO clears the pump's part of its ranges, where its master may. COPY queues its descriptors while the channel's 64 places hold them, a bad one halts the channel. A copy descriptor starts once earlier pump writes are done, copies every bucket and is running until COPY_DESCRIPTOR_DONE, which comes once its units have moved. -/
def Obligations.PumpUnitsApplied : Prop :=
  (∀ (u : PumpRef) (e : PumpUnit) (rest : List PumpUnit) (s : State), s.alive = true → u.well < 24 → u.well < s.wells.length → u.pump < 16 → u.pump < (s.well u.well).pumps.length →
    (s.pump u).queue = e :: rest → (s.well u.well).cisOk →
    let x := s.well u.well
    let bucket := fun b : Nat => (List.range 64).map (fun j => x.seen (b * 64 + j))
    (∀ k r, (k, r) ∈ [(1, Instr.ringAdd u), (2, .ringSub u), (3, .modAdd u), (4, .modSub u), (5, .axpy u), (6, .smin u), (7, .smax u)] →
      (e.kind ≠ k → exec r s = .next s) ∧
      (e.kind = k → (k = 5 → s.pairBusy u.well 10 (e.op % 16) e.stamp = false) → e.aux < 128 → e.addr + 2 ≤ 2 ^ 21 →
        ∀ w, (s.dropUnit u).check ⟨masterOfPump u, s.owner u.well⟩ (cisAddr u.well (e.addr * 64)) 128 3 = (none, w) →
        (e.addr ∉ x.cisBad → e.addr + 1 ∉ x.cisBad → ∃ v m, exec r s = .next v ∧ (v.pump u).queue = rest ∧
          (∀ j, j < 64 → (v.well u.well).seen (e.addr * 64 + j) = (s.pumpWord u.well e (bucket e.addr) (e.data.take 64)).1.getD j 0) ∧
          (k ≠ 3 → k ≠ 4 → m = s) ∧ m.regs = s.regs ∧
          (∀ j, j < 64 → (v.well u.well).seen (e.addr * 64 + 64 + j) = (m.pumpWord u.well e (bucket (e.addr + 1)) (e.data.drop 64)).1.getD j 0) ∧
          (∀ a, a < e.addr * 64 ∨ e.addr * 64 + 128 ≤ a → (v.well u.well).seen a = x.seen a) ∧
          v.reg (pumpBase u + 0x10) = min (s.reg (pumpBase u + 0x10) + 1) 0xFFFFFFFF ∧ OnlyWell s v u.well ∧ (e.tag = none → v.parts = s.parts) ∧
          (∀ p, (v.round p).state = (s.round p).state) ∧ (v.well u.well).tiles = x.tiles ∧
          (∀ q : PumpRef, q ≠ u → v.pump q = s.pump q)) ∧
        (e.addr ∈ x.cisBad → (s.pump u).halted = false → ∃ v, exec r s = .next v ∧ (v.pump u).halted = true ∧ (v.pump u).haltStatus = .uncorrectable))) ∧
    (e.kind = 5 → s.pairBusy u.well 10 (e.op % 16) e.stamp = true → exec (.axpy u) s = .next s) ∧
    (e.kind = 10 →
      let j := e.op % 16
      (s.pairBusy u.well 5 j e.stamp = true → exec (.setCoef u) s = .next s) ∧
      (s.pairBusy u.well 5 j e.stamp = false → ∃ v, exec (.setCoef u) s = .next v ∧ (v.pump u).queue = rest ∧ v.reg (cisBase u.well + 0x100 + 8 * j) = rd e.data 0 4 ∧
        v.reg (cisBase u.well + 0x104 + 8 * j) = rd e.data 4 4 ∧ OnlyRegs s v [cisBase u.well + 0x100 + 8 * j, cisBase u.well + 0x104 + 8 * j, pumpBase u + 0x10] ∧
        OnlyWell s v u.well ∧ (v.well u.well).cis = x.cis)) ∧
    (e.kind = 8 → ∃ v, exec (.zeroOp u) s = .next v ∧ (v.pump u).queue = rest ∧ OnlyWell s v u.well ∧ v.parts = s.parts ∧
      ((∀ d ∈ unitDescriptors e.data, ∀ b, rd d 0xC 4 ≤ b → b < rd d 0xC 4 + rd d 4 4 → s.pumpOf u.well b = u.pump →
        s.refuses ⟨masterOfPump u, s.owner u.well⟩ (cisAddr u.well (b * 64)) 3 = none) → ∀ a,
      ((∃ d ∈ unitDescriptors e.data, rd d 0xC 4 ≤ a / 64 ∧ a / 64 < rd d 0xC 4 + rd d 4 4 ∧ s.pumpOf u.well (a / 64) = u.pump) → (v.well u.well).seen a = 0) ∧
      ((∀ d ∈ unitDescriptors e.data, ¬ (rd d 0xC 4 ≤ a / 64 ∧ a / 64 < rd d 0xC 4 + rd d 4 4 ∧ s.pumpOf u.well (a / 64) = u.pump)) → (v.well u.well).seen a = x.seen a))) ∧
    (e.kind = 9 → e.op % 2 < x.copy.length → (s.chan u.well (e.op % 2)).halted = false →
      (64 < (s.chan u.well (e.op % 2)).queue.length + (unitDescriptors e.data).length → exec (.copyOp u) s = .next s) ∧
      ((s.chan u.well (e.op % 2)).queue.length + (unitDescriptors e.data).length ≤ 64 → ((∀ d ∈ unitDescriptors e.data, descriptorBad 2 d = false) → ∃ v, exec (.copyOp u) s = .next v ∧ (v.pump u).queue = rest ∧ v.regs = s.regs ∧
        v.chan u.well (e.op % 2) = { s.chan u.well (e.op % 2) with
          queue := (s.chan u.well (e.op % 2)).queue ++ (unitDescriptors e.data).map (fun d => ⟨rd d 8 4, rd d 0xC 4, rd d 4 4, bit (rd d 2 2) 0, rd d 1 1, e.stamp⟩) }) ∧
      ((∃ d ∈ unitDescriptors e.data, descriptorBad 2 d = true) → ∃ v, exec (.copyOp u) s = .next v ∧ (v.chan u.well (e.op % 2)).halted = true ∧
        (v.chan u.well (e.op % 2)).haltStatus = .format ∧ (v.chan u.well (e.op % 2)).queue = [])))) ∧
  (∀ (w k : Nat) (f : Nat → Nat → Nat) (a x : Bytes), 0 < w → w * k ≤ 512 → a.length = 64 → x.length = 64 →
    (mapWords w k f a x).length = 64 ∧
    (∀ j, j < k → bits (leNat (mapWords w k f a x)) (w * j + w - 1) (w * j) =
      f (bits (leNat a) (w * j + w - 1) (w * j)) (bits (leNat x) (w * j + w - 1) (w * j)) % 2 ^ w) ∧ leNat (mapWords w k f a x) < 2 ^ (w * k)) ∧
  (∀ (well c : Nat) (d : CopyDesc) (rest : List CopyDesc) (s : State), s.alive = true → well < 24 → well < s.wells.length → c < (s.well well).copy.length →
    let x := s.well well
    (s.chan well c).queue = d :: rest →
    ((s.chan well c).halted = true ∨ (s.chan well c).running ≠ none ∨ s.pumpsPast well d.stamp = false → exec (.copyDescriptorStart well c) s = .next s) ∧
    ((s.chan well c).halted = false → (s.chan well c).running = none → s.pumpsPast well d.stamp = true → ∃ v, exec (.copyDescriptorStart well c) s = .next v ∧
      (s.copyEnd well c d = none → (v.chan well c).running = some d ∧ (v.chan well c).queue = rest ∧ (v.well well).cis = x.cis ∧ (v.well well).lpx = x.lpx) ∧
      (let m : Master := ⟨0x2000 + well * 16 + c, s.owner well⟩
       s.copyEnd well c d ≠ none → s.refusesRange m 1 d.count (d.srcAddr well) = none → s.refusesRange m 2 d.count (d.dstAddr well) = none → x.cisOk → d.direction = 0 →
        (∀ j, j < d.count → d.src + j ∉ x.cisBad) →
        x.lpx.wf → (v.chan well c).running = some d ∧ (v.chan well c).queue = rest ∧ (∀ a, (v.well well).seen a = x.seen a) ∧
        (∀ j k, j < d.count → k < 64 → memByte (v.well well).lpx ((d.dst + j) * 64 + k) = x.seen ((d.src + j) * 64 + k)) ∧
        (∀ a, a < d.dst * 64 ∨ (d.dst + d.count) * 64 ≤ a → memByte (v.well well).lpx a = memByte x.lpx a) ∧ OnlyWell s v well ∧
        v.reg (cisBase well + 0x310 + 0x20 * c) = min (s.reg (cisBase well + 0x310 + 0x20 * c) + (d.count + 1) / 2) 0xFFFFFFFF))) ∧
  (∀ (well c : Nat) (s : State), s.alive = true → well < s.wells.length → c < (s.well well).copy.length →
    ((s.chan well c).running = none → exec (.copyDescriptorDone well c) s = .next s) ∧
    (∀ d, (s.chan well c).running = some d → s.devtime < (s.chan well c).doneAt → exec (.copyDescriptorDone well c) s = .next s) ∧
    (∀ d, (s.chan well c).running = some d → (s.chan well c).doneAt ≤ s.devtime → ∃ v, exec (.copyDescriptorDone well c) s = .next v ∧ v.chan well c = { s.chan well c with running := none } ∧ OnlyWell s v well ∧
      (d.notify = false → v.parts = s.parts) ∧ (v.well well).cis = (s.well well).cis ∧ (v.well well).lpx = (s.well well).lpx ∧
      (∀ k, d.notify = true → s.owner well < 24 → s.owner well < s.parts.length → (s.round (s.owner well)).ckpt = some k → k.phase = .copying →
        ∃ k', (v.round (s.owner well)).ckpt = some k' ∧ well ∈ k'.notified ∧
          (k'.phase = .sealing ↔ ∀ w ∈ s.wellsOf (s.owner well), w ∈ insertNat well k.notified))))

/-- In State.reset, DEVTIME is 0 and the device is held in reset; every partition is IDLE without a session or image, every queue DISABLED, every source and DRBG OFF, and every QP and port is without work; no floor plan is in force, the access tables are those of R511, and only key slots 0 and 1 are not blank; the governor level is 0; the cisterns have their canonical form; V_run (720 mV, log entry 5) and the firmware floor (0) lie within the limits of statement LimitsKept. That a register, a key value or a byte of memory without a reset value in the spec holds zero is this model's choice (log entries 2 and 4). -/
def Obligations.ResetStateValues : Prop :=
  State.reset.devtime = 0 ∧ State.reset.life = .held ∧ State.reset.pending = [] ∧ State.reset.cmds = [] ∧ State.reset.qps = [] ∧
  (∀ p, (State.reset.part p).round.state = .idle ∧ (State.reset.part p).session.state = .none ∧ (State.reset.part p).image.state = .empty) ∧
  State.reset.opSession.state = .none ∧ (∀ fn q, (State.reset.queue fn q).state = .disabled) ∧
  (∀ n, (State.reset.source n).state = .off) ∧ (∀ b, (State.reset.drbg b).state = .off) ∧
  State.reset.plan.inForce = false ∧ State.reset.access.tables = resetTables ∧
  (∀ k < 64, attrState (State.reset.slot k).attrWord ≠ 0 ↔ k < 2) ∧ State.reset.lantus.state = .off ∧ State.reset.power.g = 0 ∧
  (∀ x, State.reset.regW x = regReset x) ∧ (∀ w, (State.reset.well w).cisOk) ∧ State.reset.withinLimits

/-- For every state s, if V_run lies from 680 mV to 820 mV, the governor level from 0 to 2,000 and the firmware floor from 0 to 64, and step of s answers a next state t, then the same holds of t; for every command and for the tick of an empty queue. That an empty queue ticks is log entry 7. -/
def Obligations.LimitsKept : Prop :=
  ∀ s t : State, s.withinLimits → step s = .next t → t.withinLimits

/-- Whenever a command c takes a state s to a next state t: the queue is unchanged; DEVTIME is unchanged but by POWER_LOSS and POWER_ON_RESET; the firmware floor never falls and changes only by FW_FLOOR_ADVANCE; the debug-disable fuse, once burned, stays burned, and only DEBUG_DISABLE burns it; outside the three resets, V_run changes only by VRUN_ADJUST and by at most 5 mV, and the governor level only by GOVERNOR_PERIOD, VR_ALERT_N (to 2,000) and POWER_STATE (to 0); outside the resets, the floor plan in force, its records and the access tables change only by FLOORPLAN_LOAD and by the commands that end its host read (HOST_READ_COMPLETION, COMPLETION_TIMEOUT, LINK_DOWN, FUNCTION_LEVEL_RESET). -/
def Obligations.OnlyTheseCommandsChange : Prop :=
  ∀ (c : Instr) (s t : State), exec c s = .next t →
    t.pending = s.pending ∧
    (c ≠ .powerLoss → c ≠ .powerOnReset → t.devtime = s.devtime) ∧
    s.lantus.fwFloor ≤ t.lantus.fwFloor ∧ ((∀ d, c ≠ .fwFloorAdvance d) → t.lantus.fwFloor = s.lantus.fwFloor) ∧
    (s.lantus.debugDisabled = true → t.lantus.debugDisabled = true) ∧ (c ≠ .debugDisable → t.lantus.debugDisabled = s.lantus.debugDisabled) ∧
    (c ≠ .powerLoss → c ≠ .powerOnReset → c ≠ .deviceReset →
      (t.power.vRun ≠ s.power.vRun → (∃ up, c = .vRunAdjust up) ∧ t.power.vRun ≤ max 680 (s.power.vRun + 5) ∧ min 820 (s.power.vRun - 5) ≤ t.power.vRun) ∧
      (t.power.g ≠ s.power.g → c = .governorPeriod ∨ (c = .vrAlertN ∧ t.power.g = 2000) ∨ ((∃ r, c = .powerState r) ∧ t.power.g = 0)) ∧
      ((∀ r, c ≠ .floorplanLoad r) → (∀ r d, c ≠ .hostReadCompletion r d) → (∀ r, c ≠ .completionTimeout r) → (∀ k, c ≠ .linkDown k) →
        (∀ f, c ≠ .functionLevelReset f) →
        t.plan.inForce = s.plan.inForce ∧ t.plan.serial = s.plan.serial ∧ t.plan.records = s.plan.records ∧ t.access.tables = s.access.tables))
end

