-- ==== Sys2Proof/Laws/Crypto.lean ====
section
/-! SUPPORT. Laws of the cryptographic functions: lengths, and that GCM opens what it sealed (R333, R108, R74). -/

namespace Sys2Proof.Machine

open Sys2Proof

/-! ## Pieces -/

/-- Every piece of a string whose length the piece size divides is whole. -/
theorem mem_chunksAux_length {α : Type} (n : Nat) (hn : 0 < n) : ∀ (fuel : Nat) (l : List α), n ∣ l.length → ∀ c ∈ chunksAux n fuel l, c.length = n
  | 0, _, _, c, hc => by simp [chunksAux] at hc
  | fuel + 1, l, hd, c, hc => by
    unfold chunksAux at hc
    split at hc
    · simp at hc
    · rename_i hne
      have hl : 0 < l.length := by cases l with | nil => simp_all | cons => simp
      have hle : n ≤ l.length := Nat.le_of_dvd hl hd
      rcases List.mem_cons.1 hc with rfl | h
      · simp [hle]
      · exact mem_chunksAux_length n hn fuel _ (by rw [List.length_drop]; exact Nat.dvd_sub hd (Nat.dvd_refl n)) c h

theorem mem_chunks_length {α : Type} (n : Nat) (hn : 0 < n) (l : List α) (hd : n ∣ l.length) (c : List α) (hc : c ∈ chunks n l) : c.length = n :=
  mem_chunksAux_length n hn _ l hd c hc

/-- A slice that lies in the first part of a string. -/
theorem slice_append_left (a b : Bytes) (off len : Nat) (h : off + len ≤ a.length) : slice (a ++ b) off len = slice a off len := by
  simp only [slice]
  rw [List.drop_append_of_le_length (by omega), List.take_append_of_le_length (by simp; omega)]

@[simp] theorem length_xorBytes (a b : Bytes) : (xorBytes a b).length = min a.length b.length := by simp [xorBytes]

/-- XOR with one string twice gives the string back. -/
theorem xorBytes_twice : ∀ (a s : Bytes), a.length ≤ s.length → xorBytes (xorBytes a s) s = a
  | [], _, _ => by simp [xorBytes]
  | x :: a, [], h => by simp at h
  | x :: a, y :: s, h => by
    have := xorBytes_twice a s (by simpa using h)
    simp only [xorBytes, List.zipWith_cons_cons] at this ⊢
    rw [this, BitVec.xor_assoc, BitVec.xor_self, BitVec.xor_zero]

@[simp] theorem length_toLE : ∀ (m n : Nat), (toLE m n).length = n
  | _, 0 => rfl
  | m, n + 1 => by simp [toLE, length_toLE (m / 256) n]

@[simp] theorem length_toBE (m n : Nat) : (toBE m n).length = n := by simp [toBE]

@[simp] theorem length_fit (bs : Bytes) (n : Nat) : (fit bs n).length = n := by simp [fit, zeros]; omega

/-- The number of pieces of a string of whole pieces. -/
theorem length_chunksAux {α : Type} (n : Nat) (hn : 0 < n) : ∀ (k fuel : Nat) (l : List α), l.length = n * k → l.length ≤ fuel → (chunksAux n fuel l).length = k
  | 0, fuel, l, h, _ => by
    have : l = [] := List.eq_nil_of_length_eq_zero (by simpa using h)
    subst this
    cases fuel <;> simp [chunksAux]
  | k + 1, fuel, l, h, hf => by
    have hle : n ≤ l.length := h ▸ Nat.le_mul_of_pos_right n (Nat.succ_pos k)
    match fuel with
    | 0 => omega
    | fuel + 1 =>
      have hne : l.isEmpty = false := by cases l with | nil => simp at hle; omega | cons => rfl
      simp only [chunksAux, hne, Bool.false_eq_true, if_false, List.length_cons]
      rw [length_chunksAux n hn k fuel (l.drop n) (by rw [List.length_drop, h, Nat.mul_succ]; omega) (by rw [List.length_drop]; omega)]

theorem length_chunks {α : Type} (n k : Nat) (hn : 0 < n) (l : List α) (h : l.length = n * k) : (chunks n l).length = k :=
  length_chunksAux n hn k _ l h (Nat.le_refl _)

/-! ## AES-256 and GCM -/

/-- Eight words of four bytes. -/
def KeyWords (w : List (List Nat)) : Prop := w.length = 8 ∧ ∀ x ∈ w, x.length = 4

theorem keyWords_next (rc : Nat) (w : List (List Nat)) (h : KeyWords w) : KeyWords (aesKeyNext rc w) := by
  obtain ⟨h8, h4⟩ := h
  match w, h8 with
  | [a, b, c, d, e, f, g, x], _ =>
    simp only [List.mem_cons, List.not_mem_nil, or_false, forall_eq_or_imp, forall_eq] at h4
    obtain ⟨ha, hb, hc, hd, he, hf, hg, hx⟩ := h4
    match x, hx with
    | [p, q, r, s], _ => simp [KeyWords, aesKeyNext, ha, hb, hc, hd, he, hf, hg]

theorem keyWords_schedule : ∀ (n rc : Nat) (w : List (List Nat)), KeyWords w → (aesSchedule n rc w).length = 8 * n ∧ ∀ x ∈ aesSchedule n rc w, x.length = 4
  | 0, _, _, _ => by simp [aesSchedule]
  | n + 1, rc, w, h => by
    have h1 := keyWords_next rc w h
    have h2 := keyWords_schedule n (rc * 2) _ h1
    simp only [aesSchedule]
    refine ⟨by rw [List.length_append, h1.1, h2.1]; omega, fun x hx => ?_⟩
    rcases List.mem_append.1 hx with h | h
    · exact h1.2 x h
    · exact h2.2 x h

theorem length_flatten_of {α : Type} (n : Nat) : ∀ l : List (List α), (∀ x ∈ l, x.length = n) → l.flatten.length = n * l.length
  | [], _ => by simp
  | x :: l, h => by
    rw [List.flatten_cons, List.length_append, length_flatten_of n l (fun y hy => h y (by simp [hy])), h x (by simp), List.length_cons, Nat.mul_succ]
    omega

/-- A key has 15 round keys of 16 bytes. -/
theorem aesRoundKeys_form (key : Bytes) : (aesRoundKeys key).length = 15 ∧ ∀ k ∈ aesRoundKeys key, k.length = 16 := by
  have hw : KeyWords (chunks 4 ((fit key 32).map BitVec.toNat)) :=
    ⟨length_chunks 4 8 (by omega) _ (by simp), mem_chunks_length 4 (by omega) _ (by simp)⟩
  have hs := keyWords_schedule 7 1 _ hw
  have hl : ((chunks 4 ((fit key 32).map BitVec.toNat) ++ aesSchedule 7 1 (chunks 4 ((fit key 32).map BitVec.toNat))).flatten.take 240).length = 240 := by
    rw [List.length_take, length_flatten_of 4, List.length_append, hw.1, hs.1]
    · rfl
    · intro x hx
      rcases List.mem_append.1 hx with h | h
      · exact hw.2 x h
      · exact hs.2 x h
  exact ⟨length_chunks 16 15 (by omega) _ hl, mem_chunks_length 16 (by omega) _ (by rw [hl]; decide)⟩

theorem length_aesRounds : ∀ (ks : List (List Nat)) (s : List Nat), ks ≠ [] → (∀ k ∈ ks, k.length = 16) → (aesRounds ks s).length = 16
  | [], _, h, _ => absurd rfl h
  | [k], s, _, h => by simp [aesRounds, aesShiftRows, h k (by simp)]
  | _ :: k :: ks, s, _, h => length_aesRounds (k :: ks) _ (by simp) (fun x hx => h x (by simp [hx]))

@[simp] theorem length_aesBlock (key blk : Bytes) : (aesBlock (aesRoundKeys key) blk).length = 16 := by
  obtain ⟨hl, hk⟩ := aesRoundKeys_form key
  match h : aesRoundKeys key, hl with
  | a :: b :: ks, _ =>
    rw [h] at hk
    simp only [aesBlock, bytesOf, List.length_map]
    exact length_aesRounds (b :: ks) _ (by simp) (fun x hx => hk x (List.mem_cons_of_mem a hx))

@[simp] theorem length_gcmStream (key : Bytes) : ∀ n c : Nat, (gcmStream (aesRoundKeys key) n c).length = 16 * n
  | 0, _ => rfl
  | n + 1, c => by simp [gcmStream, length_gcmStream key n]; omega

theorem le_ceilDiv (a : Nat) : a ≤ 16 * ceilDiv a 16 := by unfold ceilDiv; omega

/-- The ciphertext is as long as the plaintext. -/
@[simp] theorem length_gcmSeal_fst (key nonce aad pt : Bytes) : (gcmSeal key nonce aad pt).1.length = pt.length := by
  have := le_ceilDiv pt.length
  simp [gcmSeal]
  omega

/-- A tag has 16 bytes. -/
@[simp] theorem length_gcmSeal_snd (key nonce aad pt : Bytes) : (gcmSeal key nonce aad pt).2.length = 16 := by simp [gcmSeal, gcmTag]

/-- What GCM sealed, it opens. -/
theorem gcmOpen_gcmSeal (key nonce aad pt : Bytes) : gcmOpen key nonce aad (gcmSeal key nonce aad pt).1 (gcmSeal key nonce aad pt).2 = some pt := by
  have hl := length_gcmSeal_fst key nonce aad pt
  unfold gcmOpen
  rw [if_pos (by rfl), hl]
  have := le_ceilDiv pt.length
  simp only [gcmSeal, Option.some.injEq]
  exact xorBytes_twice _ _ (by simp; omega)

/-! ## Packets (R302, R325) -/

/-- The fields of a packet whose payload and tag are given apart. -/
theorem packetOf_append (a body tag : Bytes) (c e : Nat) (hop : opcodeForm (rd a 66 1) = some (c, e)) (ha : a.length = 98 + e) (ht : tag.length = 16) :
    packetOf (a ++ (body ++ tag)) =
      { src := slice a 26 16, dst := slice a 42 16, ce := bits (rdBE a 18 4) 21 20 == 3, header := slice a 66 32, ext := slice a 98 e, body := body, tag := tag } := by
  have h1 : rd (a ++ (body ++ tag)) 66 1 = rd a 66 1 := by simp only [rd]; rw [slice_append_left _ _ _ _ (by omega)]
  have h2 : rdBE (a ++ (body ++ tag)) 18 4 = rdBE a 18 4 := by simp only [rdBE]; rw [slice_append_left _ _ _ _ (by omega)]
  have h3 : (a ++ (body ++ tag)).drop (98 + e) = body ++ tag := by rw [← ha, List.drop_left]
  simp only [packetOf, h1, hop, h2, h3]
  rw [slice_append_left _ _ _ _ (by omega), slice_append_left _ _ _ _ (by omega), slice_append_left _ _ _ _ (by omega), slice_append_left _ _ _ _ (by omega)]
  have h4 : (a ++ (body ++ tag)).length - 16 - (98 + e) = body.length := by simp; omega
  have h5 : (a ++ (body ++ tag)).length - 16 = (a ++ body).length := by simp; omega
  rw [h4, h5, List.take_left, ← List.append_assoc, List.drop_left]

/-- Steps 2 to 4 of R333 read only the lengths of payload and tag. -/
theorem packetQp_lengths (s : State) (k : Packet) : s.packetQp k = s.packetQp { k with body := zeros k.body.length, tag := zeros k.tag.length } := by
  simp [State.packetQp, zeros, Packet.op, Packet.cls, Packet.version, Packet.dstQpn, Packet.srcQpn, Packet.payloadLength]

/-- A packet sealed with the receive key of its queue pair is authentic. -/
theorem openPacket_seal (s : State) (n : Nat) (k : Packet) (pt : Bytes)
    (h : (k.body, k.tag) = gcmSeal (s.qp n).rxKey (packetIv k.psn k.attempt k.cls) (k.header ++ k.ext) pt) : s.openPacket n k = some pt := by
  have h1 : k.body = (gcmSeal (s.qp n).rxKey (packetIv k.psn k.attempt k.cls) (k.header ++ k.ext) pt).1 := congrArg Prod.fst h
  have h2 : k.tag = (gcmSeal (s.qp n).rxKey (packetIv k.psn k.attempt k.cls) (k.header ++ k.ext) pt).2 := congrArg Prod.snd h
  unfold State.openPacket
  rw [h1, h2]
  exact gcmOpen_gcmSeal _ _ _ _

/-! ## Sealed checkpoints and messages (R74, R107) -/

/-- The bytes after a first part of known length. -/
theorem drop_append_at (a b : Bytes) (n : Nat) (h : a.length = n) : (a ++ b).drop n = b := by rw [← h, List.drop_left]

/-- A little-endian number of `n` bytes below its bound reads back. -/
theorem leNat_toLE : ∀ (n m : Nat), m < 256 ^ n → leNat (toLE m n) = m
  | 0, m, h => by simp at h; simp [toLE, leNat, h]
  | n + 1, m, h => by
    have h1 : m / 256 < 256 ^ n := by rw [Nat.pow_succ] at h; exact Nat.div_lt_of_lt_mul (by omega)
    simp only [toLE, leNat, leNat_toLE n _ h1, BitVec.toNat_ofNat]
    omega

/-- A sealed checkpoint splits into header, body and tag. -/
theorem sealedParts_append (hd body tag : Bytes) (hn : hd.length < 2 ^ 32) (ht : tag.length = 16) :
    sealedParts (toLE hd.length 4 ++ (hd ++ (body ++ tag))) = ⟨hd, body, tag⟩ := by
  have h1 : rd (toLE hd.length 4 ++ (hd ++ (body ++ tag))) 0 4 = hd.length := by
    simp only [rd]
    rw [slice_append_left _ _ _ _ (by simp)]
    have : slice (toLE hd.length 4) 0 4 = toLE hd.length 4 := by simp [slice, List.take_of_length_le]
    rw [this, leNat_toLE 4 _ (by omega)]
  have h2 : slice (toLE hd.length 4 ++ (hd ++ (body ++ tag))) 4 hd.length = hd := by
    simp only [slice]
    rw [drop_append_at _ _ 4 (by simp), List.take_left]
  have h3 : (toLE hd.length 4 ++ (hd ++ (body ++ tag))).drop (4 + hd.length) = body ++ tag := by
    rw [← List.append_assoc, drop_append_at _ _ _ (by simp)]
  have h4 : (toLE hd.length 4 ++ (hd ++ (body ++ tag))).length - 4 - hd.length - 16 = body.length := by simp; omega
  have h5 : (toLE hd.length 4 ++ (hd ++ (body ++ tag))).drop ((toLE hd.length 4 ++ (hd ++ (body ++ tag))).length - 16) = tag := by
    rw [← List.append_assoc, ← List.append_assoc]
    exact drop_append_at _ _ _ (by simp; omega)
  simp only [sealedParts, h1, h2, h3, h4, h5, List.take_left]

/-- A sealed message splits into header, sealed part and tag. -/
theorem messageParts_append (hd body tag : Bytes) (hh : hd.length = 64) (ht : tag.length = 16) :
    messageParts (hd ++ (body ++ tag)) = (hd, body, tag) := by
  have h1 : (hd ++ (body ++ tag)).length - 80 = body.length := by simp; omega
  have h2 : (hd ++ (body ++ tag)).drop ((hd ++ (body ++ tag)).length - 16) = tag := by
    rw [← List.append_assoc]
    exact drop_append_at _ _ _ (by simp; omega)
  simp only [messageParts, h1, h2]
  rw [drop_append_at _ _ 64 hh, List.take_left, ← hh, List.take_left]

/-- A message sealed with its holder's key opens while there is a share key (R108). -/
theorem openMessage_seal (kShare hd pt : Bytes) (label : String) (hk : kShare.isEmpty = false) (hh : hd.length = 64) :
    openMessage kShare (hd ++ ((gcmSeal (holderKey kShare (rd hd 4 3) label) (slice hd 0x18 12) hd pt).1 ++
      (gcmSeal (holderKey kShare (rd hd 4 3) label) (slice hd 0x18 12) hd pt).2)) label = some pt := by
  unfold openMessage
  simp only [messageParts_append hd _ _ hh (length_gcmSeal_snd _ _ _ _), hk, Bool.false_eq_true, if_false]
  exact gcmOpen_gcmSeal _ _ _ _

end Sys2Proof.Machine
end

