-- ==== Sys2Proof/Laws/Slow.lean ====
section
/-! SUPPORT. The state that few commands change, and when an answer leaves it as it was. -/

namespace Sys2Proof.Machine

open Sys2Proof

def State.slow (s : State) : Nat × List Instr × Nat × Nat × Nat × Bool × Bool × Nat × List PlanRecord × List Bytes :=
  (s.devtime, s.pending, s.power.vRun, s.power.g, s.lantus.fwFloor, s.lantus.debugDisabled, s.plan.inForce, s.plan.serial, s.plan.records, s.access.tables)

def Keeps (s : State) (r : Result) : Prop := ∀ t, r = .next t → t.slow = s.slow

@[simp] theorem keeps_next (s t : State) : Keeps s (.next t) ↔ t.slow = s.slow := by
  constructor
  · intro h; exact h t rfl
  · intro h u hu; cases hu; exact h

@[simp] theorem slow_eta (s : State) : (s.devtime, s.pending, s.power.vRun, s.power.g, s.lantus.fwFloor, s.lantus.debugDisabled, s.plan.inForce, s.plan.serial, s.plan.records, s.access.tables) = s.slow := rfl

@[simp] theorem each_slow {α : Type} (s : State) (l : List α) (f : State → α → State) (h : ∀ t a, (f t a).slow = t.slow) : (s.each l f).slow = s.slow := by
  unfold State.each
  induction l generalizing s with
  | nil => rfl
  | cons a l ih => simp only [List.foldl_cons]; rw [ih, h]

@[simp] theorem slow_mk (devtime : Nat) (life : Life) (resetLow : Bool) (pwrFailLow : Bool) (faultN : Bool) (thermTrip : Bool) (regs : List (Nat × W32)) (readLatch : List (Nat × Nat × W32)) (writeLatch : List (Nat × Nat × W32)) (fresh : Nat × List (Nat × Nat × Nat)) (lockGlobal : Bool) (lockParts : List Nat) (access : Access) (plan : FloorPlan) (parts : List Partition) (wells : List Well) (fns : List Function) (host : HostIf) (cmds : List Cmd) (ports : List Port) (intakes : List Intake) (qps : List (Nat × Qp)) (commits : List Commit) (regionChanges : Nat) (lantus : Lantus) (opSession : Session) (sources : List Source) (drbgs : List Drbg) (power : Power) (log : LogState) (pending : List Instr) (out : List Output) (freeCount : Nat) :
    (State.mk devtime life resetLow pwrFailLow faultN thermTrip regs readLatch writeLatch fresh lockGlobal lockParts access plan parts wells fns host cmds ports intakes qps commits regionChanges lantus opSession sources drbgs power log pending out freeCount).slow = (devtime, pending, power.vRun, power.g, lantus.fwFloor, lantus.debugDisabled, plan.inForce, plan.serial, plan.records, access.tables) := rfl

@[simp] theorem foldl_slow {α : Type} (l : List α) (f : State → α → State) (s : State) (h : ∀ t a, (f t a).slow = t.slow) :
    (l.foldl f s).slow = s.slow := by
  induction l generalizing s with
  | nil => rfl
  | cons a l ih => simp only [List.foldl_cons]; rw [ih, h]

@[simp] theorem slow_ite (c : Prop) [Decidable c] (a b : State) : (if c then a else b).slow = if c then a.slow else b.slow := by split <;> rfl

@[simp] theorem keeps_ite (s : State) (c : Prop) [Decidable c] (a b : Result) : Keeps s (if c then a else b) ↔ (c → Keeps s a) ∧ (¬c → Keeps s b) := by
  split <;> simp_all

@[simp] theorem State.modPower_slow (s : State) (f : Power → Power) (h1 : (f s.power).vRun = s.power.vRun) (h2 : (f s.power).g = s.power.g) :
    (s.modPower f).slow = s.slow := by
  simp only [State.modPower, State.slow, h1, h2]

@[simp] theorem State.modLantus_slow (s : State) (f : Lantus → Lantus) (h1 : (f s.lantus).fwFloor = s.lantus.fwFloor)
    (h2 : (f s.lantus).debugDisabled = s.lantus.debugDisabled) : (s.modLantus f).slow = s.slow := by
  simp only [State.modLantus, State.slow, h1, h2]

@[simp] theorem foldl_snd_slow {α β : Type} (l : List α) (f : β × State → α → β × State) (a : β × State) (h : ∀ a k, (f a k).2.slow = a.2.slow) :
    (l.foldl f a).2.slow = a.2.slow := by
  induction l generalizing a with
  | nil => rfl
  | cons x l ih => simp only [List.foldl_cons]; rw [ih, h]

@[simp] theorem foldl_fst_slow {α β : Type} (l : List α) (f : State × β → α → State × β) (a : State × β) (h : ∀ a k, (f a k).1.slow = a.1.slow) :
    (l.foldl f a).1.slow = a.1.slow := by
  induction l generalizing a with
  | nil => rfl
  | cons x l ih => simp only [List.foldl_cons]; rw [ih, h]

end Sys2Proof.Machine
end

