-- ==== Sys2Proof/Laws/SlowOps.lean ====
section
/-! SUPPORT. What the meanings leave unchanged: queue, DEVTIME, V_run, governor level, firmware floor, debug fuse, floor plan and access tables (Ops, Access, Queues, Keys, Rng, Packets, Cistern, Windlass). -/

namespace Sys2Proof.Machine

open Sys2Proof

@[simp] theorem State.modPart_slow (s : State) (p : Nat) (f : Partition → Partition) : (State.modPart s p f).slow = s.slow := by simp [State.modPart]

@[simp] theorem State.modRound_slow (s : State) (p : Nat) (f : Round → Round) : (State.modRound s p f).slow = s.slow := by simp [State.modRound]

@[simp] theorem State.modWell_slow (s : State) (w : Nat) (f : Well → Well) : (State.modWell s w f).slow = s.slow := by simp [State.modWell]

@[simp] theorem State.modTile_slow (s : State) (t : TileRef) (f : Tile → Tile) : (State.modTile s t f).slow = s.slow := by simp [State.modTile]

@[simp] theorem State.modPump_slow (s : State) (u : PumpRef) (f : Pump → Pump) : (State.modPump s u f).slow = s.slow := by simp [State.modPump]

@[simp] theorem State.modChan_slow (s : State) (w c : Nat) (f : CopyChan → CopyChan) : (State.modChan s w c f).slow = s.slow := by simp [State.modChan]

@[simp] theorem State.modFn_slow (s : State) (f : Nat) (g : Function → Function) : (State.modFn s f g).slow = s.slow := by simp [State.modFn]

@[simp] theorem State.modQueue_slow (s : State) (f q : Nat) (g : Queue → Queue) : (State.modQueue s f q g).slow = s.slow := by simp [State.modQueue]

@[simp] theorem State.modSource_slow (s : State) (n : Nat) (f : Source → Source) : (State.modSource s n f).slow = s.slow := by simp [State.modSource]

@[simp] theorem State.modDrbg_slow (s : State) (b : Nat) (f : Drbg → Drbg) : (State.modDrbg s b f).slow = s.slow := by simp [State.modDrbg]

@[simp] theorem State.modPort_slow (s : State) (n : Nat) (f : Port → Port) : (State.modPort s n f).slow = s.slow := by simp [State.modPort]

@[simp] theorem State.modIntake_slow (s : State) (port prio : Nat) (f : Intake → Intake) : (State.modIntake s port prio f).slow = s.slow := by simp [State.modIntake]

@[simp] theorem State.setQp_slow (s : State) (n : Nat) (q : Qp) : (State.setQp s n q).slow = s.slow := by simp [State.setQp]

@[simp] theorem State.modQp_slow (s : State) (n : Nat) (f : Qp → Qp) : (State.modQp s n f).slow = s.slow := by simp [State.modQp]

@[simp] theorem State.modSession_slow (s : State) (p : Nat) (f : Session → Session) : (State.modSession s p f).slow = s.slow := by simp [State.modSession]

@[simp] theorem State.emit_slow (s : State) (o : Output) : (State.emit s o).slow = s.slow := by simp [State.emit]

@[simp] theorem State.draw_slow (s : State) : (State.draw s).2.slow = s.slow := by simp [State.draw]

@[simp] theorem State.setReg_slow (s : State) (x v : Nat) : (State.setReg s x v).slow = s.slow := by simp [State.setReg]

@[simp] theorem State.noteFresh_slow (s : State) (x n before : Nat) : (State.noteFresh s x n before).slow = s.slow := by simp [State.noteFresh]

@[simp] theorem State.noteSet_slow (s : State) (x b : Nat) : (State.noteSet s x b).slow = s.slow := by simp [State.noteSet]

@[simp] theorem State.noteCount_slow (s : State) (x n : Nat) : (State.noteCount s x n).slow = s.slow := by simp [State.noteCount]

@[simp] theorem State.setBits_slow (s : State) (x hi lo v : Nat) : (State.setBits s x hi lo v).slow = s.slow := by simp [State.setBits]

@[simp] theorem State.setRecord_slow (s : State) (x v : Nat) : (State.setRecord s x v).slow = s.slow := by simp [State.setRecord]

@[simp] theorem State.countBy_slow (s : State) (x n : Nat) : (State.countBy s x n).slow = s.slow := by simp [State.countBy]

@[simp] theorem State.count_slow (s : State) (x : Nat) : (State.count s x).slow = s.slow := by simp [State.count]

@[simp] theorem State.setReg64_slow (s : State) (x v : Nat) : (State.setReg64 s x v).slow = s.slow := by simp [State.setReg64]

@[simp] theorem State.clearRegs_slow (s : State) (lo hi : Nat) : (State.clearRegs s lo hi).slow = s.slow := by simp [State.clearRegs]

@[simp] theorem State.raise_slow (s : State) (code part src : Nat) (payload : List (Nat × Nat)) : (State.raise s code part src payload).slow = s.slow := by simp [State.raise]

@[simp] theorem State.assertFault_slow (s : State) (cause : Nat) : (State.assertFault s cause).slow = s.slow := by simp [State.assertFault]

@[simp] theorem State.msix_slow (s : State) (f v : Nat) : (State.msix s f v).slow = s.slow := by simp [State.msix]

@[simp] theorem State.roundInt_slow (s : State) (p b : Nat) : (State.roundInt s p b).slow = s.slow := by simp [State.roundInt]

@[simp] theorem State.powerInt_slow (s : State) (b : Nat) : (State.powerInt s b).slow = s.slow := by simp [State.powerInt]

@[simp] theorem State.activity_slow (s : State) : (State.activity s).slow = s.slow := by simp [State.activity]

@[simp] theorem State.firstIn_slow (s : State) (p kind obj period : Nat) : (State.firstIn s p kind obj period).2.slow = s.slow := by
  simp only [State.firstIn]
  split <;> simp

@[simp] theorem State.refusedAt_slow (s : State) (target : Nat) (m : Master) (addr : Nat) (r : RefuseReason) : (State.refusedAt s target m addr r).slow = s.slow := by simp [State.refusedAt]

@[simp] theorem State.recordRefusal_slow (s : State) (m : Master) (addr : Nat) (r : RefuseReason) : (State.recordRefusal s m addr r).slow = s.slow := by simp [State.recordRefusal]

@[simp] theorem State.tripleEvent_slow (s : State) (part ident : Nat) (fixed : Option Nat) : (State.tripleEvent s part ident fixed).slow = s.slow := by
  simp only [State.tripleEvent]
  split <;> simp

@[simp] theorem State.repairOwner_slow (s : State) (w : Nat) : (State.repairOwner s w).slow = s.slow := by simp [State.repairOwner]

@[simp] theorem State.repairRoots_slow (s : State) : (State.repairRoots s).slow = s.slow := by simp [State.repairRoots]

@[simp] theorem State.voteDivider_slow (s : State) : (State.voteDivider s).slow = s.slow := by simp [State.voteDivider]

@[simp] theorem State.repairImage_slow (s : State) (p : Nat) : (State.repairImage s p).slow = s.slow := by simp [State.repairImage]

@[simp] theorem State.repairPlan_slow (s : State) : (State.repairPlan s).slow = s.slow := by simp [State.repairPlan]

@[simp] theorem State.repairSlot_slow (s : State) (n : Nat) : (State.repairSlot s n).slow = s.slow := by simp [State.repairSlot]

@[simp] theorem State.repairWords_slow (s : State) (p : Nat) : (State.repairWords s p).slow = s.slow := by simp [State.repairWords]

@[simp] theorem State.votesFor_slow (s : State) (addr : Nat) : (State.votesFor s addr).slow = s.slow := by
  simp only [State.votesFor]
  (repeat' split) <;> simp

@[simp] theorem State.check_slow (s : State) (m : Master) (addr len need : Nat) : (State.check s m addr len need).2.slow = s.slow := by
  simp only [State.check]
  split <;> simp

@[simp] theorem State.discard_slow (s : State) (who bar off reason : Nat) : (State.discard s who bar off reason).slow = s.slow := by simp [State.discard]

@[simp] theorem State.modCmd_slow (s : State) (r : CmdRef) (f : Cmd → Cmd) : (State.modCmd s r f).slow = s.slow := by simp [State.modCmd]

@[simp] theorem State.startCmd_slow (s : State) (r : CmdRef) : (State.startCmd s r).slow = s.slow := by simp [State.startCmd]

@[simp] theorem State.hostWrite_slow (s : State) (f addr : Nat) (bs : Bytes) : (State.hostWrite s f addr bs).slow = s.slow := by simp [State.hostWrite]

@[simp] theorem State.complete_slow (s : State) (c : Cmd) (st : Status) (result detail : Nat) : (State.complete s c st result detail).slow = s.slow := by simp [State.complete]

@[simp] theorem State.queueError_slow (s : State) (f q : Nat) (st : Status) : (State.queueError s f q st).slow = s.slow := by simp [State.queueError]

@[simp] theorem State.fetchCommand_slow (s : State) (fn q : Nat) (entry : Option Bytes) : (State.fetchCommand s fn q entry).slow = s.slow := by
  simp only [State.fetchCommand]
  (repeat' split) <;> simp

@[simp] theorem execQueueDrained_slow (fn q : Nat) (s : State) : Keeps s (execQueueDrained fn q s) := by simp [execQueueDrained]

@[simp] theorem State.readFails_slow (s : State) (c : Cmd) : (State.readFails s c).slow = s.slow := by simp [State.readFails]

@[simp] theorem execNop_slow (c : CmdRef) (s : State) : Keeps s (execNop c s) := by
  simp only [execNop]
  split <;> simp

@[simp] theorem State.orphanCmds_slow (s : State) (f : Nat) : (State.orphanCmds s f).slow = s.slow := by simp [State.orphanCmds]

@[simp] theorem State.disableQueues_slow (s : State) (f : Nat) : (State.disableQueues s f).slow = s.slow := by simp [State.disableQueues]

@[simp] theorem State.cutReads_slow (s : State) (f : Nat) : (State.cutReads s f).slow = s.slow := by simp [State.cutReads]

@[simp] theorem State.resetConfig_slow (s : State) (f : Nat) : (State.resetConfig s f).slow = s.slow := by simp [State.resetConfig]

@[simp] theorem State.tdiError_slow (s : State) (f cause : Nat) : (State.tdiError s f cause).slow = s.slow := by simp [State.tdiError]

@[simp] theorem State.setMsix_slow (s : State) (fn vec : Nat) (e : MsixEntry) : (State.setMsix s fn vec e).slow = s.slow := by
  simp only [State.setMsix]
  (repeat' split) <;> simp

@[simp] theorem execMsixUnmask_slow (fn vec : Nat) (s : State) : Keeps s (execMsixUnmask fn vec s) := by simp [execMsixUnmask]

@[simp] theorem execLinkUp_slow (width rate : Nat) (flit : Bool) (s : State) : Keeps s (execLinkUp width rate flit s) := by simp [execLinkUp]

@[simp] theorem execL1IdleEntry_slow (s : State) : Keeps s (execL1IdleEntry s) := by simp [execL1IdleEntry]

@[simp] theorem State.dropDoe_slow (s : State) (f : Nat) : (State.dropDoe s f).slow = s.slow := by simp [State.dropDoe]

@[simp] theorem State.resetFn_slow (s : State) (f : Nat) : (State.resetFn s f).slow = s.slow := by simp [State.resetFn]

@[simp] theorem execIdeIntegrityFail_slow (stream : Nat) (s : State) : Keeps s (execIdeIntegrityFail stream s) := by
  simp only [execIdeIntegrityFail]
  split <;> simp

@[simp] theorem execTdiConfigChange_slow (fn : Nat) (ch : ConfigChange) (s : State) : Keeps s (execTdiConfigChange fn ch s) := by
  simp only [execTdiConfigChange]
  (repeat' split) <;> simp

@[simp] theorem State.instantiate_slow (s : State) (b : Nat) : (State.instantiate s b).slow = s.slow := by simp [State.instantiate]

@[simp] theorem State.reseed_slow (s : State) (b : Nat) : (State.reseed s b).slow = s.slow := by simp [State.reseed]

@[simp] theorem State.atLimit_slow (s : State) (b : Nat) : (State.atLimit s b).slow = s.slow := by simp [State.atLimit]

@[simp] theorem State.generate_slow (s : State) (b : Nat) : (State.generate s b).2.slow = s.slow := by
  simp only [State.generate]
  split <;> simp

@[simp] theorem State.pool_slow (s : State) (n : Nat) (blk : Bytes) : (State.pool s n blk).slow = s.slow := by
  simp only [State.pool]
  split <;> simp

@[simp] theorem execSourceSettleEnd_slow (n : Nat) (s : State) : Keeps s (execSourceSettleEnd n s) := by simp [execSourceSettleEnd]

@[simp] theorem State.healthFail_slow (s : State) (n t : Nat) : (State.healthFail s n t).slow = s.slow := by simp [State.healthFail]

@[simp] theorem State.blockAccepted_slow (s : State) (n : Nat) : (State.blockAccepted s n).slow = s.slow := by simp [State.blockAccepted]

@[simp] theorem State.formSeed_slow (s : State) (b : Nat) : (State.formSeed s b).slow = s.slow := by simp [State.formSeed]

@[simp] theorem State.rearmSources_slow (s : State) (p : Nat) : (State.rearmSources s p).slow = s.slow := by simp [State.rearmSources]

@[simp] theorem State.readRandom_slow (s : State) (b who : Nat) : (State.readRandom s b who).2.slow = s.slow := by
  have h := State.generate_slow s b
  simp only [State.readRandom]
  split
  · rfl
  · split
    · simp
    · split
      · rename_i out s1 hg
        rw [hg] at h
        simp only
        split
        · rw [State.modDrbg_slow]; exact h
        · exact h
      · rename_i s1 hg
        rw [hg] at h
        exact h

@[simp] theorem State.sendFrame_slow (s : State) (port prio : Nat) (frame : Bytes) : (State.sendFrame s port prio frame).slow = s.slow := by simp [State.sendFrame]

@[simp] theorem State.sendPacket_slow (s : State) (n op : Nat) (first last ackReq : Bool) (path cls attempt psn : Nat) (ext payload : Bytes) : (State.sendPacket s n op first last ackReq path cls attempt psn ext payload).slow = s.slow := by
  simp only [State.sendPacket]
  split <;> simp

@[simp] theorem State.nextPsn_slow (s : State) (n cls : Nat) : (State.nextPsn s n cls).2.slow = s.slow := by simp [State.nextPsn]

@[simp] theorem State.controlOut_slow (s : State) (n op path : Nat) (ext payload : Bytes) : (State.controlOut s n op path ext payload).slow = s.slow := by simp [State.controlOut]

@[simp] theorem State.sendNew_slow (s : State) (n op cls psn : Nat) (first last ackReq : Bool) (ext payload : Bytes) : (State.sendNew s n op cls psn first last ackReq ext payload).slow = s.slow := by simp [State.sendNew]

@[simp] theorem State.ringWrite_slow (s : State) (p : Nat) (rec : Bytes) : (State.ringWrite s p rec).slow = s.slow := by simp [State.ringWrite]

@[simp] theorem State.eventRecord_slow (s : State) (p kind : Nat) (st : Status) (object a b : Nat) : (State.eventRecord s p kind st object a b).slow = s.slow := by simp [State.eventRecord]

@[simp] theorem State.recordLost_slow (s : State) (p n k : Nat) : (State.recordLost s p n k).slow = s.slow := by
  simp only [State.recordLost]
  (repeat' split) <;> simp

@[simp] theorem State.abandonUpload_slow (s : State) (p : Nat) (u : Upload) : (State.abandonUpload s p u).slow = s.slow := by simp [State.abandonUpload]

@[simp] theorem State.qpError_slow (s : State) (n : Nat) (st : Status) (kind : Nat) : (State.qpError s n st kind).slow = s.slow := by simp [State.qpError]

@[simp] theorem State.sendControl_slow (s : State) (n op path : Nat) (ext payload : Bytes) : (State.sendControl s n op path ext payload).slow = s.slow := by
  simp only [State.sendControl]
  split <;> simp

@[simp] theorem State.queueRecord_slow (s : State) (p n : Nat) (rec : Bytes) : (State.queueRecord s p n rec).slow = s.slow := by simp [State.queueRecord]

@[simp] theorem State.recordFor_slow (s : State) (p n : Nat) (live : Bool) (rec : Bytes) : (State.recordFor s p n live rec).slow = s.slow := by simp [State.recordFor]

@[simp] theorem State.forgetQp_slow (s : State) (p n : Nat) : (State.forgetQp s p n).slow = s.slow := by simp [State.forgetQp]

@[simp] theorem execRecordSend_slow (qpn : Nat) (s : State) : Keeps s (execRecordSend qpn s) := by
  simp only [execRecordSend]
  split <;> simp

@[simp] theorem State.cetAdd_slow (s : State) (w addr kind : Nat) : (State.cetAdd s w addr kind).slow = s.slow := by
  simp only [State.cetAdd]
  (repeat' split) <;> simp

@[simp] theorem State.cisUncorrectable_slow (s : State) (w b kind : Nat) : (State.cisUncorrectable s w b kind).slow = s.slow := by simp [State.cisUncorrectable]

@[simp] theorem State.lpxUncorrectable_slow (s : State) (w b : Nat) : (State.lpxUncorrectable s w b).slow = s.slow := by simp [State.lpxUncorrectable]

@[simp] theorem State.putBucket_slow (s : State) (lp : Bool) (w b : Nat) (data : Bytes) : (State.putBucket s lp w b data).slow = s.slow := by simp [State.putBucket]

@[simp] theorem State.bankRead_slow (s : State) (lp : Bool) (w b : Nat) : (State.bankRead s lp w b).2.slow = s.slow := by
  simp only [State.bankRead]
  (repeat' split) <;> simp

@[simp] theorem State.writeBack_slow (s : State) (lp : Bool) (w : Nat) (e : MergeEntry) : (State.writeBack s lp w e).slow = s.slow := by simp [State.writeBack]

@[simp] theorem State.settleEntry_slow (s : State) (lp : Bool) (w b : Nat) : (State.settleEntry s lp w b).slow = s.slow := by
  simp only [State.settleEntry]
  split <;> simp

@[simp] theorem State.flushMerge_slow (s : State) (lp : Bool) (w : Nat) : (State.flushMerge s lp w).slow = s.slow := by simp [State.flushMerge]

@[simp] theorem State.partialWrite_slow (s : State) (lp : Bool) (w b off : Nat) (bs : Bytes) : (State.partialWrite s lp w b off bs).slow = s.slow := by
  simp only [State.partialWrite]
  (repeat' split) <;> simp

@[simp] theorem State.lpxReadFails_slow (s : State) (w b : Nat) : (State.lpxReadFails s w b).slow = s.slow := by simp [State.lpxReadFails]

@[simp] theorem State.bucketRead_slow (s : State) (lp : Bool) (w b kind : Nat) : (State.bucketRead s lp w b kind).2.2.slow = s.slow := by
  simp only [State.bucketRead]
  (repeat' split) <;> simp

@[simp] theorem State.bucketWrite_slow (s : State) (lp : Bool) (w b off : Nat) (bs : Bytes) : (State.bucketWrite s lp w b off bs).slow = s.slow := by simp [State.bucketWrite]

@[simp] theorem State.readBuckets_slow (s : State) (kind : Nat) (a0 : Nat) (a1 : Nat) : (State.readBuckets s kind a0 a1).2.2.slow = s.slow := by
  induction a0 generalizing s a1 with
  | zero => rfl
  | succ n ih =>
    simp only [State.readBuckets]
    split <;> simp [ih]

@[simp] theorem State.devRead_slow (s : State) (kind addr len : Nat) : (State.devRead s kind addr len).2.2.slow = s.slow := by simp [State.devRead]

@[simp] theorem State.devWriteAux_slow (s : State) (a0 : Nat) (a1 : Nat) (a2 : Bytes) : (State.devWriteAux s a0 a1 a2).slow = s.slow := by
  induction a0 generalizing s a1 a2 with
  | zero => rfl
  | succ n ih =>
    simp only [State.devWriteAux]
    split <;> simp [ih]

@[simp] theorem State.devWrite_slow (s : State) (addr : Nat) (bs : Bytes) : (State.devWrite s addr bs).slow = s.slow := by simp [State.devWrite]

@[simp] theorem execMergeIdleTimeout_slow (well bucket : Nat) (s : State) : Keeps s (execMergeIdleTimeout well bucket s) := by
  simp only [execMergeIdleTimeout]
  split <;> simp

@[simp] theorem State.arrayError_slow (s : State) (b k : Nat) (a0 : ArrayError) : (State.arrayError s b k a0).slow = s.slow := by
  simp only [State.arrayError]
  split <;> simp

@[simp] theorem execCorrectedWordWriteback_slow (e : ArrayError) (b k : Nat) (s : State) : Keeps s (execCorrectedWordWriteback e b k s) := by simp [execCorrectedWordWriteback]

@[simp] theorem State.stopWindlasses_slow (s : State) (p : Nat) : (State.stopWindlasses s p).slow = s.slow := by simp [State.stopWindlasses]

@[simp] theorem State.callStop_slow (s : State) (p : Nat) : (State.callStop s p).slow = s.slow := by simp [State.callStop]

@[simp] theorem State.callEntry_slow (s : State) (p : Nat) (e : QEntry) : (State.callEntry s p e).slow = s.slow := by simp [State.callEntry]

@[simp] theorem State.takeEntry_slow (s : State) (p : Nat) (t : TileRef) (e : QEntry) (dst : Nat) : (State.takeEntry s p t e dst).slow = s.slow := by simp [State.takeEntry]

@[simp] theorem State.serveWaits_slow (s : State) (p : Nat) : (State.serveWaits s p).slow = s.slow := by
  unfold State.serveWaits
  apply each_slow
  intro t r
  split
  · split <;> simp
  · split
    · split <;> simp
    · rfl
  · rfl

@[simp] theorem execWindlassEntry_slow (p : Nat) (s : State) : Keeps s (execWindlassEntry p s) := by
  simp only [execWindlassEntry]
  split <;> simp

end Sys2Proof.Machine
end

