-- ==== Sys2Proof/Laws/SlowRound.lean ====
section
/-! SUPPORT. What the meanings leave unchanged: queue, DEVTIME, V_run, governor level, firmware floor, debug fuse, floor plan and access tables (Header, Poly, Round, Operands). -/

namespace Sys2Proof.Machine

open Sys2Proof

@[simp] theorem State.partCmd_slow (s : State) (r : CmdRef) (op : Nat) (k : Cmd → Result) (h : ∀ c, Keeps s (k c)) : Keeps s (State.partCmd s r op k) := by
  simp only [State.partCmd]
  split
  · simp
  · split
    · exact h _
    · simp

@[simp] theorem State.withData_slow (s : State) (c : Cmd) (k : Bytes → Result) (h : ∀ b, Keeps s (k b)) : Keeps s (State.withData s c k) := by
  simp only [State.withData]
  split
  · simp
  · split
    · simp
    · exact h _

@[simp] theorem State.showState_slow (s : State) (p : Nat) (st : RoundState) : (State.showState s p st).slow = s.slow := by simp [State.showState]

@[simp] theorem State.releaseState_slow (s : State) (p : Nat) : (State.releaseState s p).slow = s.slow := by simp [State.releaseState]

@[simp] theorem State.enterState_slow (s : State) (p : Nat) (st : RoundState) : (State.enterState s p st).slow = s.slow := by simp [State.enterState]

@[simp] theorem State.wipeRanges_slow (s : State) (p : Nat) : (State.wipeRanges s p).slow = s.slow := by simp [State.wipeRanges]

@[simp] theorem State.wipeTiles_slow (s : State) (p : Nat) : (State.wipeTiles s p).slow = s.slow := by simp [State.wipeTiles]

@[simp] theorem State.dropUploads_slow (s : State) (p : Nat) : (State.dropUploads s p).slow = s.slow := by simp [State.dropUploads]

@[simp] theorem State.completeAborts_slow (s : State) (p : Nat) : (State.completeAborts s p).slow = s.slow := by simp [State.completeAborts]

@[simp] theorem State.failNow_slow (s : State) (p : Nat) (st : Status) : (State.failNow s p st).slow = s.slow := by simp [State.failNow]

@[simp] theorem State.finishRound_slow (s : State) (p : Nat) (st : Status) : (State.finishRound s p st).slow = s.slow := by simp [State.finishRound]

@[simp] theorem State.failRound_slow (s : State) (p : Nat) (st : Status) : (State.failRound s p st).slow = s.slow := by simp [State.failRound]

@[simp] theorem State.trapAct_slow (s : State) (p status : Nat) : (State.trapAct s p status).slow = s.slow := by simp [State.trapAct]

@[simp] theorem State.noteTrap_slow (s : State) (p unit status : Nat) : (State.noteTrap s p unit status).slow = s.slow := by simp [State.noteTrap]

@[simp] theorem State.settleTrap_slow (s : State) (p : Nat) : (State.settleTrap s p).slow = s.slow := by
  simp only [State.settleTrap]
  split <;> simp

@[simp] theorem State.faultCause_slow (s : State) (p : Nat) (st : Status) : (State.faultCause s p st).slow = s.slow := by simp [State.faultCause]

@[simp] theorem State.storeSubstCrc_slow (s : State) (w : Nat) : (State.storeSubstCrc s w).slow = s.slow := by simp [State.storeSubstCrc]

@[simp] theorem State.wellOut_slow (s : State) (w cause : Nat) : (State.wellOut s w cause).slow = s.slow := by simp [State.wellOut]

@[simp] theorem State.checkSubst_slow (s : State) (w : Nat) : (State.checkSubst s w).slow = s.slow := by simp [State.checkSubst]

@[simp] theorem State.publish_slow (s : State) (p : Nat) (bs : Bytes) : (State.publish s p bs).slow = s.slow := by
  simp only [State.publish]
  (repeat' split) <;> simp

@[simp] theorem State.writeShareKey_slow (s : State) (p : Nat) : (State.writeShareKey s p).slow = s.slow := by simp [State.writeShareKey]

@[simp] theorem State.enterSettle_slow (s : State) (p : Nat) : (State.enterSettle s p).slow = s.slow := by simp [State.enterSettle]

@[simp] theorem State.poisonBlock_slow (s : State) (p b cause : Nat) : (State.poisonBlock s p b cause).slow = s.slow := by
  simp only [State.poisonBlock]
  split <;> simp

@[simp] theorem State.blockComponent_slow (s : State) (p b c : Nat) : (State.blockComponent s p b c).2.slow = s.slow := by
  simp only [State.blockComponent]
  split <;> simp

@[simp] theorem State.publishAt_slow (s : State) (p off : Nat) (bs : Bytes) : (State.publishAt s p off bs).slow = s.slow := by
  simp only [State.publishAt]
  (repeat' split) <;> simp

@[simp] theorem State.writeComponents_slow (s : State) (p m size : Nat) : (State.writeComponents s p m size).slow = s.slow := by simp [State.writeComponents]

@[simp] theorem State.publishComponents_slow (s : State) (p : Nat) : (State.publishComponents s p).slow = s.slow := by
  simp only [State.publishComponents]
  split <;> simp

@[simp] theorem State.enterCombine_slow (s : State) (p : Nat) : (State.enterCombine s p).slow = s.slow := by
  simp only [State.enterCombine]
  split <;> simp

@[simp] theorem State.decodeBlock_slow (s : State) (p b : Nat) (vs : List Int) (q : Nat) : (State.decodeBlock s p b vs q).2.slow = s.slow := by
  simp only [State.decodeBlock]
  (repeat' split) <;> simp

@[simp] theorem State.combineBlock_slow (s : State) (p b : Nat) : (State.combineBlock s p b).slow = s.slow := by simp [State.combineBlock]

@[simp] theorem State.raiseTally_slow (s : State) (a hi : Nat) : (State.raiseTally s a hi).slow = s.slow := by simp [State.raiseTally]

@[simp] theorem State.secretsDone_slow (s : State) (p : Nat) : (State.secretsDone s p).slow = s.slow := by simp [State.secretsDone]

@[simp] theorem State.fixSurvivors_slow (s : State) (p : Nat) : (State.fixSurvivors s p).slow = s.slow := by simp [State.fixSurvivors]

@[simp] theorem State.checkClosing_slow (s : State) (p : Nat) : (State.checkClosing s p).slow = s.slow := by simp [State.checkClosing]

@[simp] theorem State.closeIntake_slow (s : State) (p trigger : Nat) : (State.closeIntake s p trigger).slow = s.slow := by simp [State.closeIntake]

@[simp] theorem State.enterNoise_slow (s : State) (p : Nat) : (State.enterNoise s p).slow = s.slow := by simp [State.enterNoise]

@[simp] theorem State.advance_slow (s : State) (p : Nat) : (State.advance s p).slow = s.slow := by
  simp only [State.advance]
  (repeat' split) <;> simp

@[simp] theorem State.startRound_slow (s : State) (p kind : Nat) : (State.startRound s p kind).slow = s.slow := by simp [State.startRound]

@[simp] theorem State.openRegs_slow (s : State) (p : Nat) (d : Descriptor) (x : SchedSet) : (State.openRegs s p d x).slow = s.slow := by simp [State.openRegs]

@[simp] theorem State.openRound_slow (s : State) (p : Nat) (d : Descriptor) (x : SchedSet) : (State.openRound s p d x).slow = s.slow := by simp [State.openRound]

@[simp] theorem execRoundOpen_slow (c : CmdRef) (s : State) : Keeps s (execRoundOpen c s) := by
  simp only [execRoundOpen]
  apply State.partCmd_slow
  intro c
  apply State.withData_slow
  intro b
  (repeat' split) <;> simp

@[simp] theorem execRoundCloseIntake_slow (c : CmdRef) (s : State) : Keeps s (execRoundCloseIntake c s) := by simp [execRoundCloseIntake]

@[simp] theorem State.finishAbort_slow (s : State) (p : Nat) : (State.finishAbort s p).slow = s.slow := by simp [State.finishAbort]

@[simp] theorem execRoundAbort_slow (c : CmdRef) (s : State) : Keeps s (execRoundAbort c s) := by simp [execRoundAbort]

@[simp] theorem execIntakeCloseTime_slow (p : Nat) (s : State) : Keeps s (execIntakeCloseTime p s) := by simp [execIntakeCloseTime]

@[simp] theorem execSettleWindowExpiry_slow (p : Nat) (s : State) : Keeps s (execSettleWindowExpiry p s) := by simp [execSettleWindowExpiry]

@[simp] theorem execWindlassStop_slow (t : TileRef) (s : State) : Keeps s (execWindlassStop t s) := by simp [execWindlassStop]

@[simp] theorem State.trapMark_slow (s : State) (t : TileRef) (p cause status idx : Nat) : (State.trapMark s t p cause status idx).slow = s.slow := by simp [State.trapMark]

@[simp] theorem State.trap_slow (s : State) (t : TileRef) (p cause status idx : Nat) : (State.trap s t p cause status idx).slow = s.slow := by simp [State.trap]

@[simp] theorem State.touch_slow (s : State) (t : TileRef) (i : Issue) (all : List Touch) : (State.touch s t i all).2.slow = s.slow := by simp [State.touch]

@[simp] theorem State.rowsRead_slow (s : State) (t : TileRef) (c row n : Nat) : (State.rowsRead s t c row n).2.slow = s.slow := by
  simp only [State.rowsRead]
  split <;> simp

@[simp] theorem State.rowsWrite_slow (s : State) (t : TileRef) (row : Nat) (bs : Bytes) : (State.rowsWrite s t row bs).slow = s.slow := by simp [State.rowsWrite]

@[simp] theorem State.issued_slow (s : State) (t : TileRef) (k at_ gap stretch : Nat) : (State.issued s t k at_ gap stretch).slow = s.slow := by simp [State.issued]

@[simp] theorem State.noteLate_slow (s : State) (t : TileRef) (p k late : Nat) : (State.noteLate s t p k late).slow = s.slow := by simp [State.noteLate]

@[simp] theorem State.skipNops_slow (s : State) (t : TileRef) (p : Nat) (a0 : Nat) : (State.skipNops s t p a0).slow = s.slow := by
  induction a0 generalizing s with
  | zero => rfl
  | succ n ih =>
    simp only [State.skipNops]
    split
    · rw [ih]; simp
    · rfl

@[simp] theorem State.execStep_slow (s : State) (t : TileRef) (op : Nat) (run : TileRef → Issue → State → State)
    (h : ∀ i u, (run t i u).slow = u.slow) : Keeps s (State.execStep s t op run) := by
  simp only [State.execStep]
  split
  · simp
  · split
    · simp
    · split
      · simp
      · split
        · simp
        · simp [h]

@[simp] theorem State.storeTrap_slow (s : State) (t : TileRef) (i : Issue) : (State.storeTrap s t i).slow = s.slow := by simp [State.storeTrap]

@[simp] theorem State.operand_slow (s : State) (t : TileRef) (space c row bits n : Nat) : (State.operand s t space c row bits n).2.slow = s.slow := by
  simp only [State.operand]
  (repeat' split) <;> simp

@[simp] theorem State.fillFree_slow (s : State) (bits : Nat) (l : List (Option Nat)) : (State.fillFree s bits l).2.slow = s.slow := by
  simp only [State.fillFree]
  split <;> simp

@[simp] theorem State.result_slow (s : State) (t : TileRef) (space row bits : Nat) (l : List Nat) : (State.result s t space row bits l).slow = s.slow := by simp [State.result]

end Sys2Proof.Machine
end

