-- ==== Sys2Proof/Laws/SlowEngine.lean ====
section
/-! SUPPORT. What the meanings leave unchanged: queue, DEVTIME, V_run, governor level, firmware floor, debug fuse, floor plan and access tables (Strelul, Receive, Transmit, Checkpoint, Masked). -/

namespace Sys2Proof.Machine

open Sys2Proof

@[simp] theorem State.sendPfc_slow (s : State) (port prio quanta : Nat) : (State.sendPfc s port prio quanta).slow = s.slow := by simp [State.sendPfc]

@[simp] theorem State.pfcRise_slow (s : State) (port prio : Nat) : (State.pfcRise s port prio).slow = s.slow := by simp [State.pfcRise]

@[simp] theorem State.pfcFall_slow (s : State) (port prio : Nat) : (State.pfcFall s port prio).slow = s.slow := by simp [State.pfcFall]

@[simp] theorem State.release_slow (s : State) (port prio : Nat) : (State.release s port prio).slow = s.slow := by simp [State.release]

@[simp] theorem State.intakeWrite_slow (s : State) (port prio : Nat) (bytes : Bytes) : (State.intakeWrite s port prio bytes).slow = s.slow := by simp [State.intakeWrite]

@[simp] theorem State.authFail_slow (s : State) (n : Nat) : (State.authFail s n).slow = s.slow := by simp [State.authFail]

@[simp] theorem State.sendAck_slow (s : State) (n cls path sentTime : Nat) : (State.sendAck s n cls path sentTime).slow = s.slow := by simp [State.sendAck]

@[simp] theorem State.acknowledge_slow (s : State) (n : Nat) (k : Packet) : (State.acknowledge s n k).slow = s.slow := by simp [State.acknowledge]

@[simp] theorem State.noteRefusal_slow (s : State) (n : Nat) (st : Status) : (State.noteRefusal s n st).slow = s.slow := by simp [State.noteRefusal]

@[simp] theorem State.sendRnr_slow (s : State) (n path psn cls msn : Nat) : (State.sendRnr s n path psn cls msn).slow = s.slow := by simp [State.sendRnr]

@[simp] theorem State.sendNak_slow (s : State) (n path psn cls : Nat) (st : Status) (kind msn : Nat) : (State.sendNak s n path psn cls st kind msn).slow = s.slow := by simp [State.sendNak]

@[simp] theorem State.checkPieces_slow (s : State) (p : Nat) (a0 : List (Nat × Bytes)) : (State.checkPieces s p a0).2.slow = s.slow := by
  induction a0 generalizing s with
  | nil => rfl
  | cons e l ih =>
    have h := State.check_slow s (strelulMaster p) e.1 e.2.length 2
    simp only [State.checkPieces]
    split
    · rename_i st t hc
      rw [hc] at h
      exact h
    · rename_i t hc
      rw [hc] at h
      rw [ih]
      exact h

@[simp] theorem State.writePieces_slow (s : State) (l : List (Nat × Bytes)) : (State.writePieces s l).slow = s.slow := by simp [State.writePieces]

@[simp] theorem State.prune_slow (s : State) : (State.prune s).slow = s.slow := by simp [State.prune]

@[simp] theorem State.commit_slow (s : State) (p n : Nat) (region : Option Nat) (rank bytes : Nat) : (State.commit s p n region rank bytes).slow = s.slow := by simp [State.commit]

@[simp] theorem State.commitLoads_slow (s : State) (p n : Nat) (region : Option Nat) (loads : List (Nat × Nat)) : (State.commitLoads s p n region loads).slow = s.slow := by
  simp [State.commitLoads]

@[simp] theorem execFrameReceive_slow (port : Nat) (frame : Bytes) (s0 : State) : Keeps s0 (execFrameReceive port frame s0) := by
  simp only [execFrameReceive]
  (repeat' split) <;> simp

@[simp] theorem State.onHead_slow (s : State) (port prio op : Nat) (run : Head → State → State)
    (h : ∀ k u, (run k u).slow = u.slow) : Keeps s (State.onHead s port prio op run) := by
  simp only [State.onHead]
  split
  · simp
  · split
    · simp
    · split
      · simp
      · split
        · simp
        · split
          · simp
          · split
            · simp
            · split <;> split <;> simp [h]

@[simp] theorem State.windowed_slow (s : State) (port prio : Nat) (h : Head) (msn : Nat) (go : State → State)
    (hg : (go s).slow = s.slow) : (State.windowed s port prio h msn go).slow = s.slow := by
  simp only [State.windowed]
  split
  · simp
  · simp
  · split
    · simp
    · exact hg

@[simp] theorem State.markParsed_slow (s : State) (port prio : Nat) : (State.markParsed s port prio).slow = s.slow := by simp [State.markParsed]

@[simp] theorem State.modMsg_slow (s : State) (n msn : Nat) (f : OpenMsg → OpenMsg) : (State.modMsg s n msn f).slow = s.slow := by simp [State.modMsg]

@[simp] theorem State.closeMsg_slow (s : State) (n msn : Nat) : (State.closeMsg s n msn).slow = s.slow := by simp [State.closeMsg]

@[simp] theorem State.sendComplete_slow (s : State) (n msn : Nat) (st : Status) (bytes : Nat) : (State.sendComplete s n msn st bytes).slow = s.slow := by simp [State.sendComplete]

@[simp] theorem State.uploadComplete_slow (s : State) (p : Nat) (u : Upload) : (State.uploadComplete s p u).slow = s.slow := by simp [State.uploadComplete]

@[simp] theorem State.closeBatch_slow (s : State) (p : Nat) : (State.closeBatch s p).slow = s.slow := by simp [State.closeBatch]

@[simp] theorem State.fillBatch_slow (s : State) (p : Nat) : (State.fillBatch s p).slow = s.slow := by
  simp only [State.fillBatch]
  split <;> simp

@[simp] theorem State.messageDone_slow (s : State) (n msn : Nat) : (State.messageDone s n msn).slow = s.slow := by
  simp only [State.messageDone]
  (repeat' split) <;> simp

@[simp] theorem State.refusePacket_slow (s : State) (n : Nat) (k : Packet) (msn idx : Nat) (st : Status) : (State.refusePacket s n k msn idx st).slow = s.slow := by
  simp only [State.refusePacket]
  (repeat' split) <;> simp

@[simp] theorem State.sendPacketIn_slow (s : State) (port prio : Nat) (h : Head) : (State.sendPacketIn s port prio h).slow = s.slow := by
  unfold State.sendPacketIn
  extract_lets k n q msn off len idx num m
  clear_value k n q msn off len idx num m
  apply State.windowed_slow
  beta_reduce
  split
  · simp
  · extract_lets fmt rnr
    have hr : rnr.slow = s.slow := by simp [rnr]
    clear_value fmt rnr
    split
    · simp
    · split
      · simp
      · split
        · split
          · simp
          · split
            · simp
            · exact hr
          · simp
        · split
          · exact hr
          · split
            · exact hr
            · simp

@[simp] theorem execSend_slow (port prio : Nat) (s : State) : Keeps s (execSend port prio s) := by simp [execSend]

@[simp] theorem execWrite_slow (port prio : Nat) (s : State) : Keeps s (execWrite port prio s) := by
  simp only [execWrite]
  apply State.onHead_slow
  intro k u
  (repeat' split) <;> simp

@[simp] theorem execReadReq_slow (port prio : Nat) (s : State) : Keeps s (execReadReq port prio s) := by
  simp only [execReadReq]
  apply State.onHead_slow
  intro k u
  (repeat' split) <;> simp

@[simp] theorem State.placedPacket_slow (s : State) (n : Nat) (k : Packet) (msn idx plen bytes : Nat) : (State.placedPacket s n k msn idx plen bytes).slow = s.slow := by simp [State.placedPacket]

@[simp] theorem State.commitSend_slow (s : State) (h : Head) (m : OpenMsg) : (State.commitSend s h m).slow = s.slow := by
  have hplace : ∀ (t : State) (region : Option Nat) (l : List (Nat × Bytes)) (n : Nat),
      (match t.checkPieces (s.qp h.n).part l with
        | (some st, u) => u.refusePacket h.n h.k m.msn (rd h.k.ext 12 4) st
        | (none, u) =>
          ((u.writePieces l).commitLoads (s.qp h.n).part h.n region (u.loadsOf l)).placedPacket h.n h.k m.msn (rd h.k.ext 12 4) h.data.length
            n).slow = t.slow := by
    intro t region l n
    have hc := State.checkPieces_slow t (s.qp h.n).part l
    split
    · rename_i st u he
      rw [he] at hc
      simpa using hc
    · rename_i u he
      rw [he] at hc
      simpa using hc
  unfold State.commitSend
  extract_lets k n q p off idx place
  have hp : ∀ t region l, (place t region l).slow = t.slow := by
    intro t region l
    exact hplace t region l _
  clear_value place
  split
  · simp
  · exact hp _ _ _
  · exact hp _ _ _
  · extract_lets g
    split
    · simp
    · exact hp _ _ _
  · simp
  · rfl

@[simp] theorem State.commitWrite_slow (s : State) (h : Head) : (State.commitWrite s h).slow = s.slow := by
  simp only [State.commitWrite]
  split
  · simp
  · split
    · simp
    · rename_i a _
      have hc := State.check_slow s (strelulMaster (s.qp h.n).part) (a + rd h.k.ext 12 4) h.data.length 2
      split
      · rename_i st t he
        rw [he] at hc
        simpa using hc
      · rename_i t he
        rw [he] at hc
        simpa using hc

@[simp] theorem execPacketCommit_slow (port prio : Nat) (s : State) : Keeps s (execPacketCommit port prio s) := by
  simp only [execPacketCommit]
  (repeat' split) <;> simp

@[simp] theorem State.refuseUpload_slow (s : State) (n : Nat) (m : OpenMsg) (st : Status) (reason : Nat) : (State.refuseUpload s n m st reason).slow = s.slow := by simp [State.refuseUpload]

@[simp] theorem State.admitUpload_slow (s : State) (n : Nat) (m : OpenMsg) (e : Endpoint) : (State.admitUpload s n m e).slow = s.slow := by
  simp only [State.admitUpload]
  generalize hq : State.modMsg _ _ _ _ = s5
  have h5 : s5.slow = s.slow := by
    rw [← hq]
    split <;> simp
  generalize State.uploadPieces _ _ _ _ _ _ = l
  have hc := State.checkPieces_slow s5 (s.qp n).part l
  split
  · rename_i st t he
    rw [he] at hc
    simpa [h5] using hc
  · rename_i t he
    rw [he] at hc
    simpa [h5] using hc

@[simp] theorem execAdmissionDecision_slow (qpn msn : Nat) (s : State) : Keeps s (execAdmissionDecision qpn msn s) := by
  simp only [execAdmissionDecision]
  (repeat' split) <;> simp

@[simp] theorem execUploadWindowExpiry_slow (p client : Nat) (s : State) : Keeps s (execUploadWindowExpiry p client s) := by
  simp only [execUploadWindowExpiry]
  split <;> simp

@[simp] theorem execBatchTimerExpiry_slow (p : Nat) (s : State) : Keeps s (execBatchTimerExpiry p s) := by
  simp only [execBatchTimerExpiry]
  split <;> simp

@[simp] theorem execQueueEntryPosted_slow (p : Nat) (s : State) : Keeps s (execQueueEntryPosted p s) := by
  simp only [execQueueEntryPosted]
  split <;> simp

@[simp] theorem State.pathDown_slow (s : State) (n j : Nat) : (State.pathDown s n j).slow = s.slow := by simp [State.pathDown]

@[simp] theorem State.pathAnswered_slow (s : State) (n : Nat) (k : SentPkt) : (State.pathAnswered s n k).slow = s.slow := by simp [State.pathAnswered]

@[simp] theorem State.modSent_slow (s : State) (n cls psn : Nat) (f : SentPkt → SentPkt) : (State.modSent s n cls psn f).slow = s.slow := by simp [State.modSent]

@[simp] theorem State.resendOn_slow (s : State) (n : Nat) (k : SentPkt) (path : Nat) : (State.resendOn s n k path).slow = s.slow := by simp [State.resendOn]

@[simp] theorem State.resend_slow (s : State) (n : Nat) (k : SentPkt) : (State.resend s n k).slow = s.slow := by simp [State.resend]

@[simp] theorem State.declareLost_slow (s : State) (n : Nat) (k : SentPkt) : (State.declareLost s n k).slow = s.slow := by simp [State.declareLost]

@[simp] theorem State.answered_slow (s : State) (n : Nat) (ks : List SentPkt) : (State.answered s n ks).slow = s.slow := by simp [State.answered]

@[simp] theorem State.ackIn_slow (s : State) (n : Nat) (k : Packet) : (State.ackIn s n k).slow = s.slow := by simp [State.ackIn]

@[simp] theorem execAck_slow (port prio : Nat) (s : State) : Keeps s (execAck port prio s) := by simp [execAck]

@[simp] theorem State.nakIn_slow (s : State) (n : Nat) (k : Packet) : (State.nakIn s n k).slow = s.slow := by
  simp only [State.nakIn]
  split <;> simp

@[simp] theorem execNak_slow (port prio : Nat) (s : State) : Keeps s (execNak port prio s) := by simp [execNak]

@[simp] theorem execComplete_slow (port prio : Nat) (s : State) : Keeps s (execComplete port prio s) := by simp [execComplete]

@[simp] theorem execClose_slow (port prio : Nat) (s : State) : Keeps s (execClose port prio s) := by simp [execClose]

@[simp] theorem execReadResponseSend_slow (qpn : Nat) (s : State) : Keeps s (execReadResponseSend qpn s) := by
  simp only [execReadResponseSend]
  split
  · simp
  · rename_i r rest _
    split
    · simp
    · split
      · simp
      · split
        · simp
        · rename_i a _
          have hc := State.check_slow s (strelulMaster (s.qp qpn).part) (a + 4096 * r.nextIdx) (min 4096 (r.length - 4096 * r.nextIdx)) 1
          split
          · rename_i st t he
            rw [he] at hc
            simpa using hc
          · rename_i t he
            rw [he] at hc
            split
            · simpa using hc
            · simpa using hc

@[simp] theorem execAckTimer_slow (qpn cls : Nat) (s : State) : Keeps s (execAckTimer qpn cls s) := by simp [execAckTimer]

@[simp] theorem execRetransmitTimer_slow (qpn cls psn : Nat) (s : State) : Keeps s (execRetransmitTimer qpn cls psn s) := by
  simp only [execRetransmitTimer]
  split <;> simp

@[simp] theorem execRnrDelayExpiry_slow (qpn psn : Nat) (s : State) : Keeps s (execRnrDelayExpiry qpn psn s) := by
  simp only [execRnrDelayExpiry]
  split <;> simp

@[simp] theorem execPathProbe_slow (qpn path : Nat) (s : State) : Keeps s (execPathProbe qpn path s) := by
  simp only [execPathProbe]
  split <;> simp

@[simp] theorem execPfcRefresh_slow (port prio : Nat) (s : State) : Keeps s (execPfcRefresh port prio s) := by simp [execPfcRefresh]

@[simp] theorem execXoffLong_slow (port prio : Nat) (s : State) : Keeps s (execXoffLong port prio s) := by simp [execXoffLong]

@[simp] theorem State.resumePrio_slow (s : State) (port prio : Nat) : (State.resumePrio s port prio).slow = s.slow := by simp [State.resumePrio]

@[simp] theorem execPfcFrameReceive_slow (port enables : Nat) (quanta : List Nat) (s : State) : Keeps s (execPfcFrameReceive port enables quanta s) := by simp [execPfcFrameReceive]

@[simp] theorem execPfcPauseExpiry_slow (port prio : Nat) (s : State) : Keeps s (execPfcPauseExpiry port prio s) := by simp [execPfcPauseExpiry]

@[simp] theorem State.qpPortDown_slow (s : State) (port n : Nat) : (State.qpPortDown s port n).slow = s.slow := by simp [State.qpPortDown]

@[simp] theorem State.dropPort_slow (s : State) (port : Nat) : (State.dropPort s port).slow = s.slow := by simp [State.dropPort]

@[simp] theorem execPortDown_slow (port _cause : Nat) (s : State) : Keeps s (execPortDown port _cause s) := by simp [execPortDown]

@[simp] theorem execPortUp_slow (port : Nat) (s : State) : Keeps s (execPortUp port s) := by simp [execPortUp]

@[simp] theorem execPortRetrain_slow (port : Nat) (s : State) : Keeps s (execPortRetrain port s) := by simp [execPortRetrain]

@[simp] theorem execQpCreate_slow (c : CmdRef) (s : State) : Keeps s (execQpCreate c s) := by
  simp only [execQpCreate]
  apply State.partCmd_slow
  intro c
  apply State.withData_slow
  intro b
  (repeat' split) <;> simp

@[simp] theorem execQpDestroy_slow (c : CmdRef) (s : State) : Keeps s (execQpDestroy c s) := by simp [execQpDestroy]

@[simp] theorem State.completeRef_slow (s : State) (r : Option CmdRef) (st : Status) (result : Nat) : (State.completeRef s r st result).slow = s.slow := by
  simp only [State.completeRef]
  (repeat' split) <;> simp

@[simp] theorem execQpDrainComplete_slow (qpn : Nat) (s : State) : Keeps s (execQpDrainComplete qpn s) := by simp [execQpDrainComplete]

@[simp] theorem State.setRegion_slow (s : State) (p r : Nat) (g : Region) : (State.setRegion s p r g).slow = s.slow := by simp [State.setRegion]

@[simp] theorem State.registerRegion_slow (s : State) (p : Nat) (b : Bytes) : (State.registerRegion s p b).slow = s.slow := by simp [State.registerRegion]

@[simp] theorem execRegionRegister_slow (c : CmdRef) (s : State) : Keeps s (execRegionRegister c s) := by
  simp only [execRegionRegister]
  apply State.partCmd_slow
  intro c
  apply State.withData_slow
  intro b
  (repeat' split) <;> simp

@[simp] theorem execRegionRevoke_slow (c : CmdRef) (s : State) : Keeps s (execRegionRevoke c s) := by simp [execRegionRevoke]

@[simp] theorem execRegionInflightZero_slow (p region : Nat) (s : State) : Keeps s (execRegionInflightZero p region s) := by simp [execRegionInflightZero]

@[simp] theorem execRecvPost_slow (c : CmdRef) (s : State) : Keeps s (execRecvPost c s) := by
  simp only [execRecvPost]
  apply State.partCmd_slow
  intro c
  (repeat' split) <;> simp

@[simp] theorem execUploadAccumulated_slow (p client : Nat) (s : State) : Keeps s (execUploadAccumulated p client s) := by
  simp only [execUploadAccumulated]
  split <;> simp

@[simp] theorem execPromiseDeadline_slow (p client : Nat) (s : State) : Keeps s (execPromiseDeadline p client s) := by
  simp only [execPromiseDeadline]
  (repeat' split) <;> simp

@[simp] theorem execAdmissionReopen_slow (p : Nat) (s : State) : Keeps s (execAdmissionReopen p s) := by simp [execAdmissionReopen]

@[simp] theorem execCheckpointInterval_slow (p : Nat) (s : State) : Keeps s (execCheckpointInterval p s) := by simp [execCheckpointInterval]

@[simp] theorem execCheckpointCut_slow (p : Nat) (s : State) : Keeps s (execCheckpointCut p s) := by simp [execCheckpointCut]

@[simp] theorem State.ckptCopy_slow (s : State) (c : Ckpt) : (State.ckptCopy s c).2.slow = s.slow := by
  unfold State.ckptCopy
  generalize hb : ([] : Bytes) = b0
  clear hb
  induction c.ranges generalizing s b0 with
  | nil => rfl
  | cons g l ih =>
    simp only [List.foldl_cons]
    rw [ih]
    simp

@[simp] theorem execCheckpointSealed_slow (p : Nat) (s : State) : Keeps s (execCheckpointSealed p s) := by
  simp only [execCheckpointSealed]
  split <;> simp

@[simp] theorem execCheckpointRead_slow (c : CmdRef) (s : State) : Keeps s (execCheckpointRead c s) := by
  simp only [execCheckpointRead]
  apply State.partCmd_slow
  intro c
  (repeat' split) <;> simp

@[simp] theorem State.completeCkpt_slow (s : State) (p : Nat) (c : Ckpt) : (State.completeCkpt s p c).slow = s.slow := by simp [State.completeCkpt]

@[simp] theorem execCheckpointStored_slow (c : CmdRef) (s : State) : Keeps s (execCheckpointStored c s) := by
  simp only [execCheckpointStored]
  apply State.partCmd_slow
  intro c
  (repeat' split) <;> simp

@[simp] theorem State.refuseResume_slow (s : State) (k : Cmd) (roundId : Nat) (st : Status) : (State.refuseResume s k roundId st).slow = s.slow := by simp [State.refuseResume]

@[simp] theorem State.restoreRanges_slow (s : State) (p : Nat) (a0 : List (Nat × Nat × Nat)) (a1 : Bytes) : (State.restoreRanges s p a0 a1).slow = s.slow := by
  induction a0 generalizing s a1 with
  | nil => rfl
  | cons g l ih =>
    obtain ⟨rank, src, n⟩ := g
    simp only [State.restoreRanges]
    rw [ih]
    simp

@[simp] theorem State.resumeRound_slow (s : State) (p intakeClose : Nat) (d : Descriptor) (x : SchedSet) (hd body : Bytes) : (State.resumeRound s p intakeClose d x hd body).slow = s.slow := by simp [State.resumeRound]

@[simp] theorem execRoundResume_slow (c : CmdRef) (s : State) : Keeps s (execRoundResume c s) := by
  simp only [execRoundResume]
  apply State.partCmd_slow
  intro k
  split
  · apply State.withData_slow
    intro b
    (repeat' split) <;> simp
  · simp

@[simp] theorem State.modSecret_slow (s : State) (p owner : Nat) (peer : Option Nat) (f : Secret → Secret) : (State.modSecret s p owner peer f).slow = s.slow := by simp [State.modSecret]

@[simp] theorem State.commitMismatch_slow (s : State) (p owner : Nat) : (State.commitMismatch s p owner).slow = s.slow := by simp [State.commitMismatch]

@[simp] theorem State.reconstruct_slow (s : State) (p : Nat) (x : Secret) : (State.reconstruct s p x).slow = s.slow := by simp [State.reconstruct]

@[simp] theorem State.acceptShare_slow (s : State) (p holder : Nat) (e : ShareEntry) : (State.acceptShare s p holder e).slow = s.slow := by
  simp only [State.acceptShare]
  split <;> simp

@[simp] theorem State.takeEntries_slow (s : State) (p holder : Nat) (a0 : List ShareEntry) (a1 : List ShareEntry) (a2 : List (Nat × Nat)) : (State.takeEntries s p holder a0 a1 a2).1.slow = s.slow := by
  induction a0 generalizing s a1 a2 with
  | nil => rfl
  | cons e l ih =>
    simp only [State.takeEntries]
    split <;> rw [ih] <;> simp

@[simp] theorem State.takeShares_slow (s : State) (p holder : Nat) (pt : Bytes) : (State.takeShares s p holder pt).slow = s.slow := by
  simp only [State.takeShares]
  split <;> simp

@[simp] theorem State.messageAccepted_slow (s : State) (p holder addr len msn : Nat) : (State.messageAccepted s p holder addr len msn).slow = s.slow := by simp [State.messageAccepted]

@[simp] theorem State.endMessage_slow (s : State) (n : Nat) (m : OpenMsg) (st : Status) : (State.endMessage s n m st).slow = s.slow := by simp [State.endMessage]

@[simp] theorem State.refuseUnmask_slow (s : State) (p holder test : Nat) (st : Status) : (State.refuseUnmask s p holder test st).slow = s.slow := by simp [State.refuseUnmask]

@[simp] theorem execUnmaskMessage_slow (qpn msn : Nat) (s : State) : Keeps s (execUnmaskMessage qpn msn s) := by
  simp only [execUnmaskMessage]
  (repeat' split) <;> simp

@[simp] theorem State.refuseDshare_slow (s : State) (p holder test : Nat) (st : Status) : (State.refuseDshare s p holder test st).slow = s.slow := by simp [State.refuseDshare]

@[simp] theorem execDshareMessage_slow (qpn msn : Nat) (s : State) : Keeps s (execDshareMessage qpn msn s) := by
  simp only [execDshareMessage]
  (repeat' split) <;> simp

end Sys2Proof.Machine
end

