-- ==== Sys2Proof/Laws/SlowMove.lean ====
section
/-! SUPPORT. What the meanings leave unchanged: queue, DEVTIME, V_run, governor level, firmware floor, debug fuse, floor plan and access tables (Pumps, Flags, Lanes, Convert). -/

namespace Sys2Proof.Machine

open Sys2Proof

@[simp] theorem State.pumpHalt_slow (s : State) (u : PumpRef) (st : Status) (bucket : Nat) : (State.pumpHalt s u st bucket).slow = s.slow := by simp [State.pumpHalt]

@[simp] theorem State.copyHalt_slow (s : State) (w c : Nat) (st : Status) (addr : Nat) : (State.copyHalt s w c st addr).slow = s.slow := by simp [State.copyHalt]

@[simp] theorem State.enqueue_slow (s : State) (u : PumpRef) (e : PumpUnit) : (State.enqueue s u e).slow = s.slow := by simp [State.enqueue]

@[simp] theorem State.cross_slow (s : State) (w op aux addr tile : Nat) (data : Bytes) : (State.cross s w op aux addr tile data).slow = s.slow := by simp [State.cross]

@[simp] theorem State.modWords_slow (s : State) (sub : Bool) (q : Nat) (a0 : List Nat) (a1 : List Nat) : (State.modWords s sub q a0 a1).2.slow = s.slow := by
  induction a0 generalizing s a1 with
  | nil => cases a1 <;> rfl
  | cons a l ih =>
    cases a1 with
    | nil => rfl
    | cons x xs =>
      simp only [State.modWords]
      split <;> simp [ih]

@[simp] theorem State.pumpWord_slow (s : State) (w : Nat) (u : PumpUnit) (a x : Bytes) : (State.pumpWord s w u a x).2.slow = s.slow := by
  simp only [State.pumpWord]
  split <;> first | rfl | exact State.modWords_slow _ _ _ _ _

@[simp] theorem State.dropUnit_slow (s : State) (u : PumpRef) : (State.dropUnit s u).slow = s.slow := by simp [State.dropUnit]

@[simp] theorem State.applyPair_slow (s : State) (u : PumpRef) (e : PumpUnit) : (State.applyPair s u e).slow = s.slow := by
  simp only [State.applyPair]
  split
  · rw [State.pumpHalt_slow, State.bucketRead_slow]
  · split
    · rw [State.pumpHalt_slow, State.bucketRead_slow, State.bucketRead_slow]
    · rw [State.count_slow, State.putBucket_slow, State.putBucket_slow, State.pumpWord_slow, State.pumpWord_slow, State.bucketRead_slow, State.bucketRead_slow]

@[simp] theorem State.noteWrite_slow (s : State) (p : Nat) (tag : Option (Nat × Nat)) : (State.noteWrite s p tag).slow = s.slow := by simp [State.noteWrite]

@[simp] theorem State.applyUnit_slow (s : State) (u : PumpRef) (e : PumpUnit) : (State.applyUnit s u e).slow = s.slow := by simp [State.applyUnit]

@[simp] theorem State.pumpRow_slow (s : State) (u : PumpRef) (kind : Nat) : Keeps s (State.pumpRow s u kind) := by
  simp only [State.pumpRow]
  split <;> simp

@[simp] theorem execRingAdd_slow (u : PumpRef) (s : State) : Keeps s (execRingAdd u s) := by simp [execRingAdd]

@[simp] theorem execRingSub_slow (u : PumpRef) (s : State) : Keeps s (execRingSub u s) := by simp [execRingSub]

@[simp] theorem execModAdd_slow (u : PumpRef) (s : State) : Keeps s (execModAdd u s) := by simp [execModAdd]

@[simp] theorem execModSub_slow (u : PumpRef) (s : State) : Keeps s (execModSub u s) := by simp [execModSub]

@[simp] theorem execAxpy_slow (u : PumpRef) (s : State) : Keeps s (execAxpy u s) := by
  simp only [execAxpy]
  split <;> simp

@[simp] theorem execSmin_slow (u : PumpRef) (s : State) : Keeps s (execSmin u s) := by simp [execSmin]

@[simp] theorem execSmax_slow (u : PumpRef) (s : State) : Keeps s (execSmax u s) := by simp [execSmax]

@[simp] theorem execSetCoef_slow (u : PumpRef) (s : State) : Keeps s (execSetCoef u s) := by
  simp only [execSetCoef]
  split <;> simp

@[simp] theorem State.zeroPart_slow (s : State) (u : PumpRef) (b n : Nat) : (State.zeroPart s u b n).slow = s.slow := by
  simp only [State.zeroPart]
  (repeat' split) <;> simp

@[simp] theorem execZeroOp_slow (u : PumpRef) (s : State) : Keeps s (execZeroOp u s) := by
  simp only [execZeroOp]
  split <;> simp

@[simp] theorem execCopyOp_slow (u : PumpRef) (s : State) : Keeps s (execCopyOp u s) := by
  simp only [execCopyOp]
  split <;> simp

@[simp] theorem State.copyBuckets_slow (s : State) (w c : Nat) (d : CopyDesc) (a0 : Nat) (a1 : Nat) : (State.copyBuckets s w c d a0 a1).2.slow = s.slow := by
  induction a0 generalizing s a1 with
  | zero => rfl
  | succ n ih =>
    simp only [State.copyBuckets]
    split
    · simp
    · rw [ih]; split <;> simp

@[simp] theorem State.noteRange_slow (s : State) (w : Nat) (d : CopyDesc) : (State.noteRange s w d).slow = s.slow := by simp [State.noteRange]

@[simp] theorem execCopyDescriptorStart_slow (well chan : Nat) (s : State) : Keeps s (execCopyDescriptorStart well chan s) := by
  simp only [execCopyDescriptorStart]
  (repeat' split) <;> simp

@[simp] theorem State.copyReported_slow (s : State) (w : Nat) : (State.copyReported s w).slow = s.slow := by simp [State.copyReported]

@[simp] theorem execCopyDescriptorDone_slow (well chan : Nat) (s : State) : Keeps s (execCopyDescriptorDone well chan s) := by
  simp only [execCopyDescriptorDone]
  split <;> simp

@[simp] theorem execScrubRead_slow (well : Nat) (found : EccFound) (s : State) : Keeps s (execScrubRead well found s) := by
  simp only [execScrubRead]
  (repeat' split) <;> simp

@[simp] theorem State.retire_slow (s : State) (w b : Nat) : (State.retire s w b).slow = s.slow := by simp [State.retire]

@[simp] theorem execBucketRetire_slow (c : CmdRef) (s : State) : Keeps s (execBucketRetire c s) := by
  simp only [execBucketRetire]
  split <;> simp

@[simp] theorem State.setFlags_slow (s : State) (t : TileRef) (f : Nat) : (State.setFlags s t f).slow = s.slow := by simp [State.setFlags]

@[simp] theorem State.accClear_slow (s : State) (t : TileRef) (w : StepWord) : (State.accClear s t w).slow = s.slow := by simp [State.accClear]

@[simp] theorem State.runLanes_slow (s : State) (t : TileRef) (i : Issue) (o : LaneOp) (f : Nat → List Nat → List Nat → List Nat → State → Option (List Nat) × State)
    (h : ∀ k a b d u, (f k a b d u).2.slow = u.slow) : (State.runLanes s t i o f).slow = s.slow := by
  simp only [State.runLanes]
  split
  · simp
  · simp only [State.modTile_slow, State.touch_slow]
    rw [foldl_fst_slow]
    · simp
    · intro a k
      (repeat' split) <;> simp [h]

@[simp] theorem State.mapLanes_slow (s : State) (t : TileRef) (i : Issue) (o : LaneOp) (mode : Nat) (f : Nat → Nat → Option Nat) : (State.mapLanes s t i o mode f).slow = s.slow := by simp [State.mapLanes]

@[simp] theorem execMmul_slow (t : TileRef) (s : State) : Keeps s (execMmul t s) := by simp [execMmul]

@[simp] theorem State.accWrite_slow (s : State) (t : TileRef) (w : StepWord) (bits : Nat) (g : Nat → Option Nat) : (State.accWrite s t w bits g).slow = s.slow := by simp [State.accWrite]

@[simp] theorem State.accTouch_slow (s : State) (t : TileRef) (i : Issue) (lat rows : Nat) : (State.accTouch s t i lat rows).slow = s.slow := by simp [State.accTouch]

@[simp] theorem execMmac_slow (t : TileRef) (s : State) : Keeps s (execMmac t s) := by simp [execMmac]

@[simp] theorem execMadd_slow (t : TileRef) (s : State) : Keeps s (execMadd t s) := by simp [execMadd]

@[simp] theorem execMsub_slow (t : TileRef) (s : State) : Keeps s (execMsub t s) := by simp [execMsub]

@[simp] theorem execMneg_slow (t : TileRef) (s : State) : Keeps s (execMneg t s) := by simp [execMneg]

@[simp] theorem execRadd_slow (t : TileRef) (s : State) : Keeps s (execRadd t s) := by simp [execRadd]

@[simp] theorem execRsub_slow (t : TileRef) (s : State) : Keeps s (execRsub t s) := by simp [execRsub]

@[simp] theorem execRneg_slow (t : TileRef) (s : State) : Keeps s (execRneg t s) := by simp [execRneg]

@[simp] theorem execFma_slow (t : TileRef) (s : State) : Keeps s (execFma t s) := by
  simp only [execFma]
  apply State.execStep_slow
  intro i u
  apply State.runLanes_slow
  intro k a b d v
  split <;> simp

@[simp] theorem execDot_slow (t : TileRef) (s : State) : Keeps s (execDot t s) := by simp [execDot]

@[simp] theorem execCvt_slow (t : TileRef) (s : State) : Keeps s (execCvt t s) := by simp [execCvt]

@[simp] theorem execFest_slow (t : TileRef) (s : State) : Keeps s (execFest t s) := by simp [execFest]

@[simp] theorem execLogic_slow (t : TileRef) (s : State) : Keeps s (execLogic t s) := by simp [execLogic]

@[simp] theorem execClmul_slow (t : TileRef) (s : State) : Keeps s (execClmul t s) := by simp [execClmul]

@[simp] theorem execGfred_slow (t : TileRef) (s : State) : Keeps s (execGfred t s) := by simp [execGfred]

@[simp] theorem execKeccak_slow (t : TileRef) (s : State) : Keeps s (execKeccak t s) := by simp [execKeccak]

@[simp] theorem execSample_slow (t : TileRef) (s : State) : Keeps s (execSample t s) := by simp [execSample]

@[simp] theorem State.loadTable_slow (s : State) (t : TileRef) (k : Nat) : (State.loadTable s t k).slow = s.slow := by
  simp only [State.loadTable]
  split <;> simp

@[simp] theorem State.reloadTable_slow (s : State) (t : TileRef) (k : Nat) : (State.reloadTable s t k).slow = s.slow := by
  simp only [State.reloadTable]
  split <;> simp

@[simp] theorem State.reloadPending_slow (s : State) (t : TileRef) : (State.reloadPending s t).slow = s.slow := by simp [State.reloadPending]

@[simp] theorem State.tableMismatch_slow (s : State) (t : TileRef) (p k counter event : Nat) : (State.tableMismatch s t p k counter event).slow = s.slow := by simp [State.tableMismatch]

@[simp] theorem execTableReload_slow (t : TileRef) (s : State) : Keeps s (execTableReload t s) := by
  simp only [execTableReload]
  split <;> simp

@[simp] theorem execTblchk_slow (t : TileRef) (s : State) : Keeps s (execTblchk t s) := by
  simp only [execTblchk]
  apply State.execStep_slow
  intro i u
  generalize (u.tile t).table i.w.aux = tb
  cases tb with
  | none => simp
  | some e => simp

@[simp] theorem State.runLimbs_slow (s : State) (t : TileRef) (i : Issue) (unit src dst n busy lat : Nat) (f : List Nat → Option (List Nat)) : (State.runLimbs s t i unit src dst n busy lat f).slow = s.slow := by
  simp only [State.runLimbs]
  split
  · simp
  · simp only [State.modTile_slow, State.touch_slow]
    rw [foldl_slow]
    intro u k
    rw [State.rowsWrite_slow]
    split <;> simp

@[simp] theorem State.runNtt_slow (s : State) (t : TileRef) (i : Issue) (f : Nat → Array Nat → Nat → List Nat → List Nat) : (State.runNtt s t i f).slow = s.slow := by
  simp only [State.runNtt]
  split <;> simp

@[simp] theorem execNttFwd_slow (t : TileRef) (s : State) : Keeps s (execNttFwd t s) := by simp [execNttFwd]

@[simp] theorem execNttInv_slow (t : TileRef) (s : State) : Keeps s (execNttInv t s) := by simp [execNttInv]

@[simp] theorem execAuto_slow (t : TileRef) (s : State) : Keeps s (execAuto t s) := by simp [execAuto]

@[simp] theorem execBcvScale_slow (t : TileRef) (s : State) : Keeps s (execBcvScale t s) := by
  simp only [execBcvScale]
  apply State.execStep_slow
  intro i u
  generalize ((u.reloadPending t).tile t).table (i.w.aux / 256) = tb
  cases tb with
  | none => simp only; split <;> simp
  | some e =>
    simp only
    split
    · simp
    · split <;> simp

@[simp] theorem execBcvOut_slow (t : TileRef) (s : State) : Keeps s (execBcvOut t s) := by
  simp only [execBcvOut]
  apply State.execStep_slow
  intro i u
  generalize ((u.reloadPending t).tile t).table ((u.reloadPending t).tile t).bcvTable = tb
  cases tb with
  | none =>
    simp only
    split
    · simp
    · simp only [Option.isSome_none, Bool.and_false, Bool.false_and, Bool.false_eq_true, if_false, State.modTile_slow, State.touch_slow]
      rw [foldl_slow]
      · simp
      · intro u k
        rw [State.rowsWrite_slow]
        simp
  | some e =>
    simp only
    split
    · simp
    · split <;>
      · simp only [State.tableMismatch_slow, State.modTile_slow, State.touch_slow]
        rw [foldl_slow]
        · simp
        · intro u k
          rw [State.rowsWrite_slow]
          split <;> simp

@[simp] theorem execAesKey_slow (t : TileRef) (s : State) : Keeps s (execAesKey t s) := by simp [execAesKey]

@[simp] theorem execGcmOpen_slow (t : TileRef) (s : State) : Keeps s (execGcmOpen t s) := by
  simp only [execGcmOpen]
  apply State.execStep_slow
  intro i u
  split
  · simp
  · simp only [State.modTile_slow, State.touch_slow]
    split <;> simp

end Sys2Proof.Machine
end

