-- ==== Sys2Proof/Laws/SlowTile.lean ====
section
/-! SUPPORT. What the meanings leave unchanged: queue, DEVTIME, V_run, governor level, firmware floor, debug fuse, floor plan and access tables (Refresh, Transfer, KeyStream, Control). -/

namespace Sys2Proof.Machine

open Sys2Proof

@[simp] theorem State.wordsRead_slow (s : State) (t : TileRef) (c row off n : Nat) : (State.wordsRead s t c row off n).2.slow = s.slow := by simp [State.wordsRead]

@[simp] theorem State.wordsWrite_slow (s : State) (t : TileRef) (row off : Nat) (l : List Nat) : (State.wordsWrite s t row off l).slow = s.slow := by simp [State.wordsWrite]

@[simp] theorem State.wordsPut_slow (s : State) (t : TileRef) (row off n : Nat) (l : Option (List Nat)) : (State.wordsPut s t row off n l).slow = s.slow := by
  simp only [State.wordsPut]
  split <;> simp

@[simp] theorem State.limbsRead_slow (s : State) (t : TileRef) (c row off count n : Nat) : (State.limbsRead s t c row off count n).2.slow = s.slow := by simp [State.limbsRead]

@[simp] theorem State.rotateInput_slow (s : State) (t : TileRef) (i : Issue) (b : Nat) (start whole : Bool) (segs : List (Nat × Nat × List Nat)) : (State.rotateInput s t i b start whole segs).slow = s.slow := by simp [State.rotateInput]

@[simp] theorem State.rotated_slow (s : State) (t : TileRef) (i : Issue) (b : Nat) : (State.rotated s t i b).2.slow = s.slow := by simp [State.rotated]

@[simp] theorem State.reduced_slow (s : State) (t : TileRef) (i : Issue) (h : CtHeader) (c : Nat) : (State.reduced s t i h c).2.slow = s.slow := by simp [State.reduced]

@[simp] theorem State.extracted_slow (s : State) (t : TileRef) (i : Issue) (j : Nat) : (State.extracted s t i j).2.slow = s.slow := by simp [State.extracted]

@[simp] theorem State.switchInput_slow (s : State) (t : TileRef) (i : Issue) (part b : Nat) (start : Bool) (segs : List (Nat × Nat × List Nat)) : (State.switchInput s t i part b start segs).slow = s.slow := by
  simp only [State.switchInput]
  split <;> simp

@[simp] theorem State.endBatch_slow (s : State) (t : TileRef) (i : Issue) : (State.endBatch s t i).slow = s.slow := by simp [State.endBatch]

@[simp] theorem State.inputsRead_slow (s : State) (t : TileRef) (i : Issue) : (State.inputsRead s t i).2.slow = s.slow := by simp [State.inputsRead]

@[simp] theorem State.repackBatch_slow (s : State) (t : TileRef) (i : Issue) (start whole : Bool) (segs : List (Nat × Nat × List Nat)) : (State.repackBatch s t i start whole segs).slow = s.slow := by simp [State.repackBatch]

@[simp] theorem State.polyCheck_slow (s : State) (t : TileRef) (i : Issue) : (State.polyCheck s t i).slow = s.slow := by simp [State.polyCheck]

@[simp] theorem State.applyStream_slow (s : State) (t : TileRef) (i : Issue) (kind part first : Nat) (segs : List (Nat × Nat × List Nat)) : (State.applyStream s t i kind part first segs).slow = s.slow := by simp [State.applyStream]

@[simp] theorem State.accessTrap_slow (s : State) (t : TileRef) (i : Issue) (st : Status) : (State.accessTrap s t i st).slow = s.slow := by simp [State.accessTrap]

theorem State.check_eq_slow (s v : State) (m : Master) (addr len need : Nat) (o : Option Status) (h : s.check m addr len need = (o, v)) : v.slow = s.slow := by
  have hc := State.check_slow s m addr len need
  rw [h] at hc
  exact hc

@[simp] theorem State.guarded_slow (s : State) (t : TileRef) (i : Issue) (addr len need : Nat) (k : State → Bool × State)
    (hk : ∀ v, (k v).2.slow = v.slow) : (State.guarded s t i addr len need k).2.slow = s.slow := by
  have hc := State.check_slow s (s.tileMaster t) addr len need
  simp only [State.guarded]
  split
  · rename_i st v he
    rw [he] at hc
    simpa using hc
  · rename_i v he
    rw [he] at hc
    rw [hk]
    exact hc

@[simp] theorem State.runUnits_slow (s : State) (f : Nat → Nat → State → Bool × State) (l : List Nat) (j : Nat)
    (h : ∀ j c u, (f j c u).2.slow = u.slow) : (State.runUnits s f l j).2.slow = s.slow := by
  induction l generalizing s j with
  | nil => rfl
  | cons c cs ih =>
    simp only [State.runUnits]
    split
    · rw [ih, h]
    · rw [h]

@[simp] theorem State.runTransfer_slow (s : State) (t : TileRef) (i : Issue) (units : Nat) (rows : Nat → Nat × Nat × Bool) (f : Nat → Nat → State → Bool × State)
    (h : ∀ j c u, (f j c u).2.slow = u.slow) : (State.runTransfer s t i units rows f).slow = s.slow := by
  simp only [State.runTransfer]
  split
  · simp
  · split
    · exact State.runUnits_slow s f _ _ h
    · simp [h]

@[simp] theorem State.landBucket_slow (s : State) (t : TileRef) (row : Nat) (bs : Bytes) (bad : Bool) : (State.landBucket s t row bs bad).slow = s.slow := by simp [State.landBucket]

@[simp] theorem State.landUnit_slow (s : State) (t : TileRef) (row addr : Nat) : (State.landUnit s t row addr).slow = s.slow := by simp [State.landUnit]

@[simp] theorem State.loadUnit_slow (s : State) (t : TileRef) (i : Issue) (j c : Nat) : (State.loadUnit s t i j c).2.slow = s.slow := by
  simp only [State.loadUnit]
  (repeat' split) <;> simp

@[simp] theorem execLoad_slow (t : TileRef) (s : State) : Keeps s (execLoad t s) := by
  simp only [execLoad]
  apply State.execStep_slow
  intro i u
  apply State.runTransfer_slow
  intro j c v
  (repeat' split) <;> simp

@[simp] theorem State.unitData_slow (s : State) (t : TileRef) (i : Issue) (j c : Nat) (k : Bytes → State → Bool × State)
    (h : ∀ b v, (k b v).2.slow = v.slow) : (State.unitData s t i j c k).2.slow = s.slow := by
  simp only [State.unitData]
  split
  · simp
  · rw [h]; simp

@[simp] theorem State.landInbound_slow (s : State) (v : TileRef) (p c : Nat) (data : Bytes) (row left stride : Nat) : (State.landInbound s v p c data row left stride).slow = s.slow := by simp [State.landInbound]

@[simp] theorem State.inbound_slow (s : State) (v : TileRef) (p c : Nat) (data : Bytes) : (State.inbound s v p c data).slow = s.slow := by
  simp only [State.inbound]
  split <;> simp

@[simp] theorem State.dropInbound_slow (s : State) (v : TileRef) (c : Nat) : (State.dropInbound s v c).slow = s.slow := by simp [State.dropInbound]

@[simp] theorem State.settlePort_slow (s : State) (v : TileRef) (till : Nat) : (State.settlePort s v till).slow = s.slow := by simp [State.settlePort]

@[simp] theorem State.settlePorts_slow (s : State) (w : Nat) : (State.settlePorts s w).slow = s.slow := by simp [State.settlePorts]

@[simp] theorem State.sendUnit_slow (s : State) (t : TileRef) (i : Issue) (j c : Nat) (data : Bytes) : (State.sendUnit s t i j c data).2.slow = s.slow := by
  simp only [State.sendUnit]
  (repeat' split) <;> simp

@[simp] theorem execStore_slow (t : TileRef) (s : State) : Keeps s (execStore t s) := by
  simp only [execStore]
  apply State.execStep_slow
  intro i u
  (repeat' split) <;> simp

@[simp] theorem execTileSend_slow (t : TileRef) (s : State) : Keeps s (execTileSend t s) := by
  simp only [execTileSend]
  apply State.execStep_slow
  intro i u
  (repeat' split) <;> simp

@[simp] theorem State.pumpUnit_slow (s0 : State) (t : TileRef) (i : Issue) (j : Nat) (data : Bytes) : (State.pumpUnit s0 t i j data).2.slow = s0.slow := by
  simp only [State.pumpUnit]
  split <;> simp

@[simp] theorem execPump_slow (t : TileRef) (s : State) : Keeps s (execPump t s) := by
  simp only [execPump]
  apply State.execStep_slow
  intro i u
  (repeat' split) <;> simp

@[simp] theorem execRecv_slow (t : TileRef) (s : State) : Keeps s (execRecv t s) := by simp [execRecv]

@[simp] theorem execTurn_slow (t : TileRef) (s : State) : Keeps s (execTurn t s) := by
  simp only [execTurn]
  apply State.execStep_slow
  intro i u
  apply State.runTransfer_slow
  intro j c v
  (repeat' split) <;> simp

@[simp] theorem execStepfetch_slow (t : TileRef) (s : State) : Keeps s (execStepfetch t s) := by
  simp only [execStepfetch]
  apply State.execStep_slow
  intro i u
  (repeat' split) <;> simp

@[simp] theorem execRngRead_slow (t : TileRef) (s : State) : Keeps s (execRngRead t s) := by simp [execRngRead]

@[simp] theorem execAesCtr_slow (t : TileRef) (s : State) : Keeps s (execAesCtr t s) := by simp [execAesCtr]

@[simp] theorem State.setLinkFails_slow (s : State) (k : Link) (n : Nat) : (State.setLinkFails s k n).slow = s.slow := by
  simp only [State.setLinkFails]
  split <;> simp

@[simp] theorem State.resendExhausted_slow (s : State) (k : Link) (d : Nat) : (State.resendExhausted s k d).slow = s.slow := by
  simp only [State.resendExhausted]
  split <;> simp

@[simp] theorem State.sendAgain_slow (s : State) (k : Link) (d : Nat) : (State.sendAgain s k d).slow = s.slow := by
  simp only [State.sendAgain]
  split <;> simp

@[simp] theorem State.noteResend_slow (s : State) (k : Link) (d : Nat) : (State.noteResend s k d).slow = s.slow := by simp [State.noteResend]

@[simp] theorem State.pumpBusy_slow (s : State) (u : PumpRef) (d : Nat) : (State.pumpBusy s u d).slow = s.slow := by simp [State.pumpBusy]

@[simp] theorem execTransferCheckResult_slow (k : Link) (r : CheckResult) (s : State) : Keeps s (execTransferCheckResult k r s) := by
  simp only [execTransferCheckResult]
  (repeat' split) <;> simp

@[simp] theorem State.keyMismatch_slow (s : State) (t : TileRef) (p reason : Nat) (g : Segment) : (State.keyMismatch s t p reason g).slow = s.slow := by simp [State.keyMismatch]

@[simp] theorem State.readSegments_slow (s : State) (t : TileRef) (size : Nat) (a0 : List Segment) (a1 : Nat) (a2 : List (Segment × Bytes × Bool)) :
    (State.readSegments s t size a0 a1 a2).2.slow = s.slow := by
  induction a0 generalizing s a1 a2 with
  | nil => rfl
  | cons g gs ih =>
    simp only [State.readSegments]
    split
    · simp
    · rw [ih]; simp

@[simp] theorem State.landSegments_slow (s : State) (t : TileRef) (row : Nat) (l : List (Segment × Bytes × Bool)) : (State.landSegments s t row l).slow = s.slow := by simp [State.landSegments]

@[simp] theorem State.takeSegments_slow (s : State) (t : TileRef) (i : Issue) (first : Segment) (l : List (Segment × Bytes × Bool)) : (State.takeSegments s t i first l).slow = s.slow := by simp [State.takeSegments]

@[simp] theorem State.passStart_slow (s : State) (t : TileRef) (g : Segment) : (State.passStart s t g).slow = s.slow := by simp [State.passStart]

@[simp] theorem execKeystream_slow (t : TileRef) (s : State) : Keeps s (execKeystream t s) := by
  simp only [execKeystream]
  apply State.execStep_slow
  intro i u
  (repeat' split) <;> simp

@[simp] theorem execStepLoop_slow (t : TileRef) (s : State) : Keeps s (execStepLoop t s) := by simp [execStepLoop]

@[simp] theorem execStepJump_slow (t : TileRef) (s : State) : Keeps s (execStepJump t s) := by simp [execStepJump]

@[simp] theorem State.syncMismatch_slow (s : State) (p : Nat) : (State.syncMismatch s p).slow = s.slow := by simp [State.syncMismatch]

@[simp] theorem execStepSync_slow (t : TileRef) (s : State) : Keeps s (execStepSync t s) := by simp [execStepSync]

@[simp] theorem execSyncRelease_slow (p : Nat) (s : State) : Keeps s (execSyncRelease p s) := by
  simp only [execSyncRelease]
  split
  · split
    · simp
    · simp only [keeps_next, State.modPart_slow]
      apply each_slow
      intro u q
      split <;> simp
  · simp

@[simp] theorem execStepWait_slow (t : TileRef) (s : State) : Keeps s (execStepWait t s) := by
  simp only [execStepWait]
  apply State.execStep_slow
  intro i u
  (repeat' split) <;> simp

@[simp] theorem State.tallyDone_slow (s : State) (p code u : Nat) : (State.tallyDone s p code u).slow = s.slow := by
  simp only [State.tallyDone]
  (repeat' split) <;> simp

@[simp] theorem execStepDone_slow (t : TileRef) (s : State) : Keeps s (execStepDone t s) := by simp [execStepDone]

@[simp] theorem execStepEnd_slow (t : TileRef) (s : State) : Keeps s (execStepEnd t s) := by simp [execStepEnd]

@[simp] theorem execStepTrap_slow (t : TileRef) (s : State) : Keeps s (execStepTrap t s) := by simp [execStepTrap]

@[simp] theorem execWatchdog_slow (t : TileRef) (s : State) : Keeps s (execWatchdog t s) := by
  simp only [execWatchdog]
  split <;> simp

@[simp] theorem State.notePoison_slow (s : State) (t : TileRef) (p cause : Nat) : (State.notePoison s t p cause).slow = s.slow := by simp [State.notePoison]

@[simp] theorem State.noteLwePoison_slow (s : State) (t : TileRef) (p cause n : Nat) : (State.noteLwePoison s t p cause n).slow = s.slow := by simp [State.noteLwePoison]

@[simp] theorem State.noteLevel_slow (s : State) (t : TileRef) (p cls : Nat) (ins : List CtHeader) (cause : Nat) : (State.noteLevel s t p cls ins cause).slow = s.slow := by simp [State.noteLevel]

@[simp] theorem State.headersIn_slow (s : State) (t : TileRef) (i : Issue) (k : HdrClass) : (State.headersIn s t i k).2.2.slow = s.slow := by
  simp only [State.headersIn]
  (repeat' split) <;> simp

@[simp] theorem State.settled_slow (s : State) (t : TileRef) (i : Issue) (rows : List (Nat × Bytes)) : (State.settled s t i rows).slow = s.slow := by simp [State.settled]

@[simp] theorem State.settlePoison_slow (s : State) (t : TileRef) (p : Nat) (k : HdrClass) (cls arg : Nat) (ins : List CtHeader) (cause : Nat) : (State.settlePoison s t p k cls arg ins cause).slow = s.slow := by simp [State.settlePoison]

@[simp] theorem State.settleCiphertext_slow (s : State) (t : TileRef) (i : Issue) (k : HdrClass) : (State.settleCiphertext s t i k).slow = s.slow := by
  simp only [State.settleCiphertext]
  (repeat' split) <;> simp

@[simp] theorem State.settleExport_slow (s : State) (t : TileRef) (i : Issue) : (State.settleExport s t i).slow = s.slow := by
  simp only [State.settleExport]
  (repeat' split) <;> simp

@[simp] theorem State.settleExtract_slow (s : State) (t : TileRef) (i : Issue) : (State.settleExtract s t i).slow = s.slow := by
  simp only [State.settleExtract]
  (repeat' split) <;> simp

@[simp] theorem State.tagsIn_slow (s : State) (t : TileRef) (i : Issue) : (State.tagsIn s t i).2.slow = s.slow := by
  simp only [State.tagsIn]
  split <;> simp

@[simp] theorem State.settleRefresh_slow (s : State) (t : TileRef) (i : Issue) : (State.settleRefresh s t i).slow = s.slow := by
  simp only [State.settleRefresh]
  (repeat' split) <;> simp

@[simp] theorem State.settleRepack_slow (s : State) (t : TileRef) (i : Issue) : (State.settleRepack s t i).slow = s.slow := by
  simp only [State.settleRepack]
  (repeat' split) <;> simp

@[simp] theorem execHdr_slow (t : TileRef) (s : State) : Keeps s (execHdr t s) := by
  simp only [execHdr]
  apply State.execStep_slow
  intro i u
  (repeat' split) <;> simp

end Sys2Proof.Machine
end

