-- ==== Sys2Proof/Laws/SlowNoise.lean ====
section
/-! SUPPORT. What the meanings leave unchanged: queue, DEVTIME, V_run, governor level, firmware floor, debug fuse, floor plan and access tables (Noise, Partition, Container, StepCheck, Legal, ImageCheck). -/

namespace Sys2Proof.Machine

open Sys2Proof

@[simp] theorem State.fatalAlarm_slow (s : State) (n : Nat) : (State.fatalAlarm s n).slow = s.slow := by
  simp only [State.fatalAlarm]
  split <;> simp

@[simp] theorem State.seededNow_slow (s : State) (n : Nat) : (State.seededNow s n).slow = s.slow := by
  simp only [State.seededNow]
  split <;> simp

@[simp] theorem execNoiseSample_slow (n : Nat) (raw : Bool) (s : State) : Keeps s (execNoiseSample n raw s) := by simp [execNoiseSample]

@[simp] theorem State.serveTile_slow (s : State) (b unit w t row left : Nat) (out : Bytes) : (State.serveTile s b unit w t row left out).slow = s.slow := by simp [State.serveTile]

@[simp] theorem execDrbgGenerate_slow (b : Nat) (s : State) : Keeps s (execDrbgGenerate b s) := by
  have h0 : (s.modDrbg b (fun d => { d with requests := s.liveRequests d })).slow = s.slow := by simp
  simp only [execDrbgGenerate]
  generalize s.modDrbg b (fun d => { d with requests := s.liveRequests d }) = s0 at h0
  split
  · simp
  · split
    · simpa using h0
    · have hg := State.generate_slow s0 b
      split
      · simpa using h0
      · rename_i out s1 he
        rw [he] at hg
        split
        · simpa [h0] using hg
        · simpa [h0] using hg

@[simp] theorem State.imageRecord_slow (s : State) (p : Nat) (st : Status) (check sec : Nat) : (State.imageRecord s p st check sec).slow = s.slow := by simp [State.imageRecord]

@[simp] theorem State.clearAreas_slow (s : State) (p : Nat) : (State.clearAreas s p).slow = s.slow := by
  unfold State.clearAreas
  apply each_slow
  intro t e
  split <;> simp

@[simp] theorem State.clearImageRegs_slow (s : State) (p : Nat) : (State.clearImageRegs s p).slow = s.slow := by simp [State.clearImageRegs]

@[simp] theorem State.dropImage_slow (s : State) (p : Nat) : (State.dropImage s p).slow = s.slow := by simp [State.dropImage]

@[simp] theorem State.imageFail_slow (s : State) (p : Nat) (st : Status) (check sec : Nat) : (State.imageFail s p st check sec).slow = s.slow := by
  simp only [State.imageFail]
  (repeat' split) <;> simp

@[simp] theorem State.imageUnload_slow (s : State) (p cause : Nat) : (State.imageUnload s p cause).slow = s.slow := by simp [State.imageUnload]

@[simp] theorem State.abortCmds_slow (s : State) (p : Nat) (keep reset : Option CmdRef) : (State.abortCmds s p keep reset).slow = s.slow := by simp [State.abortCmds]

@[simp] theorem State.disableVf_slow (s : State) (p : Nat) (keep : Option CmdRef) : (State.disableVf s p keep).slow = s.slow := by simp [State.disableVf]

@[simp] theorem State.resetWellRegs_slow (s : State) (w : Nat) : (State.resetWellRegs s w).slow = s.slow := by simp [State.resetWellRegs]

@[simp] theorem State.endSession_slow (s : State) (p cause : Nat) : (State.endSession s p cause).slow = s.slow := by simp [State.endSession]

@[simp] theorem State.resetStrelul_slow (s : State) (p : Nat) : (State.resetStrelul s p).slow = s.slow := by simp [State.resetStrelul]

@[simp] theorem State.resetPartRegs_slow (s : State) (p : Nat) : (State.resetPartRegs s p).slow = s.slow := by simp [State.resetPartRegs]

@[simp] theorem State.zeroIde_slow (s : State) (k : Nat) : (State.zeroIde s k).slow = s.slow := by simp [State.zeroIde]

@[simp] theorem State.resetImage_slow (s : State) (p cause : Nat) : (State.resetImage s p cause).slow = s.slow := by
  simp only [State.resetImage]
  split <;> simp

@[simp] theorem State.partitionReset_slow (s : State) (p cause ended : Nat) (keep reset : Option CmdRef) : (State.partitionReset s p cause ended keep reset).slow = s.slow := by simp [State.partitionReset]

@[simp] theorem execPartitionReset_slow (c : CmdRef) (s : State) : Keeps s (execPartitionReset c s) := by simp [execPartitionReset]

@[simp] theorem State.putFields_slow (s : State) (x v : Nat) : (State.putFields s x v).slow = s.slow := by
  simp only [State.putFields]
  split <;> simp

@[simp] theorem State.unstage_slow (s : State) (who lo : Nat) : (State.unstage s who lo).slow = s.slow := by simp [State.unstage]

@[simp] theorem State.stage_slow (s : State) (who lo v : Nat) : (State.stage s who lo v).slow = s.slow := by simp [State.stage]

@[simp] theorem State.regPut_slow (s : State) (who x v : Nat) : (State.regPut s who x v).slow = s.slow := by
  simp only [State.regPut]
  split <;> simp

@[simp] theorem State.putPresets_slow (s : State) (p : Nat) (b : Bytes) : (State.putPresets s p b).slow = s.slow := by
  unfold State.putPresets
  apply each_slow
  intro t e
  split <;> simp

theorem State.putRegions_slow (s t : State) (p : Nat) (l : List Bytes) (h : State.putRegions s p l = some t) : t.slow = s.slow := by
  induction l generalizing s with
  | nil => simp only [State.putRegions, Option.some.injEq] at h; rw [h]
  | cons r rs ih =>
    simp only [State.putRegions] at h
    split at h
    · rw [ih _ h]; simp
    · cases h

@[simp] theorem State.putRegions_getD_slow (s : State) (p : Nat) (l : List Bytes) : ((State.putRegions s p l).getD s).slow = s.slow := by
  cases h : State.putRegions s p l with
  | none => rfl
  | some t => exact State.putRegions_slow s t p l h

end Sys2Proof.Machine
end

