-- ==== Sys2Proof/Laws/SlowImage.lean ====
section
/-! SUPPORT. What the meanings leave unchanged: queue, DEVTIME, V_run, governor level, firmware floor, debug fuse, floor plan and access tables (Image, Floor, Tiles). -/

namespace Sys2Proof.Machine

open Sys2Proof

@[simp] theorem State.armAreas_slow (s : State) (p : Nat) (b : Bytes) : (State.armAreas s p b).slow = s.slow := by simp [State.armAreas]

@[simp] theorem State.imageArrived_slow (s : State) (p : Nat) : (State.imageArrived s p).slow = s.slow := by
  simp only [State.imageArrived]
  (repeat' split) <;> simp

@[simp] theorem execImageLoad_slow (c : CmdRef) (s : State) : Keeps s (execImageLoad c s) := by
  simp only [execImageLoad]
  (repeat' split) <;> simp

@[simp] theorem State.stageSections_slow (s : State) (p : Nat) (b : Bytes) : (State.stageSections s p b).slow = s.slow := by
  simp only [State.stageSections]
  apply each_slow
  intro t e
  apply each_slow
  intro u x
  apply each_slow
  intro v c
  split <;> simp

@[simp] theorem State.putPrimes_slow (s : State) (p : Nat) (b : Bytes) : (State.putPrimes s p b).slow = s.slow := by
  simp only [State.putPrimes]
  split
  · rfl
  · rw [State.raise_slow, State.setReg_slow]
    apply each_slow
    intro t w
    apply each_slow
    intro u k
    apply each_slow
    intro v e
    simp

@[simp] theorem State.putLookups_slow (s : State) (p : Nat) (b : Bytes) : (State.putLookups s p b).slow = s.slow := by
  have h1 : ∀ (l : List (Nat × Nat)) (f : State → Nat × Nat → State), (∀ t e, (f t e).slow = t.slow) → (s.each l f).slow = s.slow :=
    fun l f h => each_slow s l f h
  simp only [State.putLookups]
  split
  all_goals
    try rw [State.raise_slow, State.setReg_slow, State.setReg_slow]
    apply h1
    intro t e
    apply each_slow
    intro u k
    apply each_slow
    intro v d
    split
    · apply each_slow
      intro y c
      simp
    · rfl

@[simp] theorem State.loadTables_slow (s : State) (t : TileRef) : (State.loadTables s t).slow = s.slow := by simp [State.loadTables]

@[simp] theorem State.installTiles_slow (s : State) (p : Nat) (b : Bytes) : (State.installTiles s p b).slow = s.slow := by simp [State.installTiles]

@[simp] theorem State.imageRegs_slow (s : State) (p : Nat) (b : Bytes) : (State.imageRegs s p b).slow = s.slow := by simp [State.imageRegs]

@[simp] theorem State.installImage_slow (s : State) (p : Nat) (c : Cmd) (b : Bytes) : (State.installImage s p c b).slow = s.slow := by simp [State.installImage]

@[simp] theorem State.imageVerdict_slow (s : State) (p : Nat) (c : Cmd) (rec : PlanRecord) : (State.imageVerdict s p c rec).slow = s.slow := by
  simp only [State.imageVerdict]
  (repeat' split) <;> simp

@[simp] theorem execImageInstall_slow (p : Nat) (s : State) : Keeps s (execImageInstall p s) := by
  simp only [execImageInstall]
  split <;> simp

@[simp] theorem State.restartSource_slow (s : State) (w owner : Nat) : (State.restartSource s w owner).slow = s.slow := by simp [State.restartSource]

@[simp] theorem State.reformDrbg_slow (s : State) (p : Nat) (was now : Bool) : (State.reformDrbg s p was now).slow = s.slow := by simp [State.reformDrbg]

@[simp] theorem State.planStatus_slow (s : State) (st : Status) (ch : Nat) : (State.planStatus s st ch).slow = s.slow := by simp [State.planStatus]

@[simp] theorem State.planRegs_slow (s : State) (serial : Nat) (d : Bytes) : (State.planRegs s serial d).slow = s.slow := by simp [State.planRegs]

@[simp] theorem State.refusePlan_slow (s : State) (c : Cmd) (st : Status) (ch sec : Nat) : (State.refusePlan s c st ch sec).slow = s.slow := by simp [State.refusePlan]

@[simp] theorem execSlotOwnerSwitch_slow (s : State) : Keeps s (execSlotOwnerSwitch s) := by
  simp only [execSlotOwnerSwitch]
  split <;> simp

@[simp] theorem State.readSection_slow (s : State) (w base : Nat) (x : SectionInfo) : (State.readSection s w base x).2.2.slow = s.slow := by simp [State.readSection]

@[simp] theorem State.gateFails_slow (s : State) (w base : Nat) (xs : List SectionInfo) : (State.gateFails s w base xs).2.slow = s.slow := by simp [State.gateFails]

@[simp] theorem State.markFailed_slow (s : State) (t : TileRef) : (State.markFailed s t).slow = s.slow := by simp [State.markFailed]

@[simp] theorem State.mapTile_slow (s : State) (w lt new : Nat) : (State.mapTile s w lt new).slow = s.slow := by simp [State.mapTile]

@[simp] theorem State.fillTile_slow (s : State) (p w lt : Nat) : (State.fillTile s p w lt).slow = s.slow := by
  simp only [State.fillTile]
  split <;> simp

@[simp] theorem State.remap_slow (s : State) (w lt new : Nat) (k : Cmd) : (State.remap s w lt new k).slow = s.slow := by
  simp only [State.remap]
  split <;> simp

@[simp] theorem State.retireWell_slow (s : State) (w lt : Nat) (k : Cmd) : (State.retireWell s w lt k).slow = s.slow := by simp [State.retireWell]

@[simp] theorem execTileRemap_slow (c : CmdRef) (s : State) : Keeps s (execTileRemap c s) := by
  simp only [execTileRemap]
  (repeat' split) <;> simp

@[simp] theorem State.startSelfTest_slow (s : State) (t : TileRef) (k : Option CmdRef) : (State.startSelfTest s t k).1.slow = s.slow := by
  simp only [State.startSelfTest]
  split <;> simp

@[simp] theorem execTileSelftest_slow (c : CmdRef) (s : State) : Keeps s (execTileSelftest c s) := by
  simp only [execTileSelftest]
  split <;> simp

@[simp] theorem execTileSelftestDone_slow (t : TileRef) (failing : Nat) (s : State) : Keeps s (execTileSelftestDone t failing s) := by
  simp only [execTileSelftestDone]
  (repeat' split) <;> simp

end Sys2Proof.Machine
end

