-- ==== Sys2Proof/Laws/SlowLantus.lean ====
section
/-! SUPPORT. What the meanings leave unchanged: queue, DEVTIME, V_run, governor level, firmware floor, debug fuse, floor plan and access tables (Mailbox, Report, Session, Power, Thermal, Boot, Service). -/

namespace Sys2Proof.Machine

open Sys2Proof

@[simp] theorem State.mbxComplete_slow (s : State) (st : Status) : (State.mbxComplete s st).slow = s.slow := by simp [State.mbxComplete]

@[simp] theorem State.mailbox_slow (s : State) (op : Nat) (data : Option Bytes) (k : Bytes → Result) (h : ∀ b, Keeps s (k b)) :
    Keeps s (State.mailbox s op data k) := by
  simp only [State.mailbox]
  split
  · simp
  · split
    · simp
    · split
      · simp
      · split
        · simp
        · split
          · simp
          · exact h _

@[simp] theorem execFwLoad_slow (data : Option Bytes) (s : State) : Keeps s (execFwLoad data s) := by
  simp only [execFwLoad]
  apply State.mailbox_slow
  intro b
  (repeat' split) <;> simp

@[simp] theorem execFwVerifyDone_slow (pauseUs : Nat) (s : State) : Keeps s (execFwVerifyDone pauseUs s) := by
  simp only [execFwVerifyDone]
  split <;> simp

@[simp] theorem execLantusFetchError_slow (_data : Bool) (s : State) : Keeps s (execLantusFetchError _data s) := by simp [execLantusFetchError]

@[simp] theorem execFwCopyVerified_slow (ok : Bool) (s : State) : Keeps s (execFwCopyVerified ok s) := by simp [execFwCopyVerified]

@[simp] theorem execKeyProgram_slow (data : Option Bytes) (s : State) : Keeps s (execKeyProgram data s) := by
  simp only [execKeyProgram]
  apply State.mailbox_slow
  intro b
  (repeat' split) <;> simp

@[simp] theorem execKeyInvalidate_slow (data : Option Bytes) (s : State) : Keeps s (execKeyInvalidate data s) := by simp [execKeyInvalidate]

@[simp] theorem execDebugUnlock_slow (data : Option Bytes) (s : State) : Keeps s (execDebugUnlock data s) := by
  simp only [execDebugUnlock]
  apply State.mailbox_slow
  intro b
  (repeat' split) <;> simp

@[simp] theorem execCertInstall_slow (data : Option Bytes) (s : State) : Keeps s (execCertInstall data s) := by simp [execCertInstall]

theorem State.sign_slow (s : State) (p : Nat) (kex : Bool) (nonce ek : Bytes) (r : Bytes × State) (h : State.sign s p kex nonce ek = some r) :
    r.2.slow = s.slow := by
  have hg := State.generate_slow s 24
  simp only [State.sign] at h
  split at h
  · cases h
  · rename_i out s1 he
    rw [he] at hg
    rw [Option.some.injEq] at h
    subst h
    simpa using hg

@[simp] theorem State.noEntropyEnd_slow (s : State) (p kind : Nat) : (State.noEntropyEnd s p kind).slow = s.slow := by simp [State.noEntropyEnd]

theorem State.finishReport_slow (s : State) (c : Cmd) (t : State) (h : State.finishReport s c = some t) : t.slow = s.slow := by
  simp only [State.finishReport, Option.map_eq_some_iff] at h
  obtain ⟨r, hr, rfl⟩ := h
  simpa using State.sign_slow _ _ _ _ _ r hr

@[simp] theorem execAttestReport_slow (c : CmdRef) (s : State) : Keeps s (execAttestReport c s) := by
  simp only [execAttestReport]
  split
  · simp
  · split
    · simp
    · split
      · simp
      · split
        · simp
        · split
          · rename_i t ht
            simpa using State.finishReport_slow _ _ t ht
          · simp

@[simp] theorem State.dropReport_slow (s : State) (c : CmdRef) : (State.dropReport s c).slow = s.slow := by simp [State.dropReport]

@[simp] theorem execReportSign_slow (c : CmdRef) (s : State) : Keeps s (execReportSign c s) := by
  simp only [execReportSign]
  split
  · simp
  · split
    · simp
    · split
      · simp
      · split
        · rename_i t ht
          simpa using State.finishReport_slow _ _ t ht
        · simp

@[simp] theorem execReportEntropyTimeout_slow (c : CmdRef) (s : State) : Keeps s (execReportEntropyTimeout c s) := by
  simp only [execReportEntropyTimeout]
  split <;> simp

@[simp] theorem State.spdmAnswer_slow (s : State) (f : Nat) (r : SpdmReply) : Keeps s (State.spdmAnswer s f r) := by simp [State.spdmAnswer]

@[simp] theorem execDoeDiscovery_slow (fn index : Nat) (s : State) : Keeps s (execDoeDiscovery fn index s) := by simp [execDoeDiscovery]

@[simp] theorem execGetVersion_slow (fn : Nat) (s : State) : Keeps s (execGetVersion fn s) := by simp [execGetVersion]

@[simp] theorem execGetCapabilities_slow (fn : Nat) (s : State) : Keeps s (execGetCapabilities fn s) := by simp [execGetCapabilities]

@[simp] theorem execNegotiateAlgorithms_slow (fn : Nat) (s : State) : Keeps s (execNegotiateAlgorithms fn s) := by simp [execNegotiateAlgorithms]

@[simp] theorem execGetDigests_slow (fn : Nat) (s : State) : Keeps s (execGetDigests fn s) := by simp [execGetDigests]

@[simp] theorem execGetCertificate_slow (fn offset length : Nat) (s : State) : Keeps s (execGetCertificate fn offset length s) := by
  simp only [execGetCertificate]
  split <;> simp

@[simp] theorem execChallenge_slow (fn : Nat) (nonce : Bytes) (s : State) : Keeps s (execChallenge fn nonce s) := by
  have hg := State.generate_slow s 24
  simp only [execChallenge]
  split
  · simp
  · split
    · simp
    · split
      · simp
      · rename_i r s1 he
        rw [he] at hg
        simpa using hg

@[simp] theorem execGetMeasurements_slow (fn index : Nat) (s : State) : Keeps s (execGetMeasurements fn index s) := by
  simp only [execGetMeasurements]
  (repeat' split) <;> simp

@[simp] theorem execUnsupportedRequest_slow (fn _code : Nat) (s : State) : Keeps s (execUnsupportedRequest fn _code s) := by simp [execUnsupportedRequest]

@[simp] theorem State.sesError_slow (s : State) (fn i : Nat) (msg : Bytes) (st : Status) : (State.sesError s fn i msg st).slow = s.slow := by simp [State.sesError]

@[simp] theorem State.sesReply_slow (s : State) (fn i mtype sid : Nat) (body : Bytes) : (State.sesReply s fn i mtype sid body).slow = s.slow := by simp [State.sesReply]

@[simp] theorem State.sesTake_slow (s : State) (fn mtype : Nat) (msg : Bytes) (k : Nat → Result) (h : ∀ i, Keeps s (k i)) :
    Keeps s (State.sesTake s fn mtype msg k) := by
  simp only [State.sesTake]
  split
  · simp
  · split
    · simp
    · split
      · simp
      · split
        · simp
        · split
          · exact h _
          · simp

@[simp] theorem State.sesNone_slow (s : State) (i : Nat) : (State.sesNone s i).slow = s.slow := by simp [State.sesNone]

theorem State.kexReport_slow (s : State) (fn i : Nat) (start : Bytes) (t : State) (h : State.kexReport s fn i start = some t) : t.slow = s.slow := by
  have hg := State.generate_slow s i
  simp only [State.kexReport] at h
  split at h
  · cases h
  · rename_i dz s1 he
    rw [he] at hg
    split at h
    · cases h
    · rename_i rep s2 hs
      have h2 := State.sign_slow _ _ _ _ _ _ hs
      rw [Option.some.injEq] at h
      subst h
      simp only [State.emit_slow, State.modSession_slow, State.draw_slow]
      exact h2.trans hg

theorem State.kexGo_slow (s : State) (fn i : Nat) (msg : Bytes) (t : State) (h : State.kexGo s fn i msg = some t) : t.slow = s.slow := by
  simp only [State.kexGo] at h
  split at h
  · rw [Option.some.injEq] at h; subst h; simp
  · split at h
    · rw [Option.some.injEq] at h; subst h; simp
    · exact State.kexReport_slow _ _ _ _ _ h

@[simp] theorem execKexStart_slow (fn : Nat) (msg : Bytes) (s : State) : Keeps s (execKexStart fn msg s) := by
  simp only [execKexStart]
  apply State.sesTake_slow
  intro i
  (repeat' split) <;> first | simp; done | (rename_i t ht; simpa using State.kexGo_slow _ _ _ _ t ht)

@[simp] theorem execKexReport_slow (p : Nat) (s : State) : Keeps s (execKexReport p s) := by
  simp only [execKexReport]
  split
  · simp
  · split
    · simp
    · split
      · rename_i t ht
        simpa using State.kexGo_slow _ _ _ _ t ht
      · simp

@[simp] theorem execKexEntropyTimeout_slow (p : Nat) (s : State) : Keeps s (execKexEntropyTimeout p s) := by
  simp only [execKexEntropyTimeout]
  split <;> simp

@[simp] theorem execSessionStartExpiry_slow (p : Nat) (s : State) : Keeps s (execSessionStartExpiry p s) := by simp [execSessionStartExpiry]

@[simp] theorem State.installMemKey_slow (s : State) (i : Nat) : (State.installMemKey s i).slow = s.slow := by simp [State.installMemKey]

@[simp] theorem execKexFinish_slow (fn : Nat) (msg : Bytes) (s : State) : Keeps s (execKexFinish fn msg s) := by
  simp only [execKexFinish]
  apply State.sesTake_slow
  intro b
  (repeat' split) <;> simp

@[simp] theorem execEndSession_slow (fn : Nat) (msg : Bytes) (s : State) : Keeps s (execEndSession fn msg s) := by simp [execEndSession]

@[simp] theorem execSecMsg_slow (fn : Nat) (msg : Bytes) (s : State) : Keeps s (execSecMsg fn msg s) := by
  simp only [execSecMsg]
  apply State.sesTake_slow
  intro b
  (repeat' split) <;> simp

@[simp] theorem State.secReply_slow (s : State) (i proto fn : Nat) (answer : Bytes) : (State.secReply s i proto fn answer).slow = s.slow := by simp [State.secReply]

@[simp] theorem execIdeKm_slow (p : Nat) (m : IdeKm) (s : State) : Keeps s (execIdeKm p m s) := by
  simp only [execIdeKm]
  split <;> simp

@[simp] theorem State.tdisp_slow (s : State) (p fn : Nat) (f : TdiState → TdiState × TdispReply) : Keeps s (State.tdisp s p fn f) := by
  simp only [State.tdisp]
  split <;> simp

@[simp] theorem execLockInterfaceRequest_slow (p fn : Nat) (s : State) : Keeps s (execLockInterfaceRequest p fn s) := by simp [execLockInterfaceRequest]

@[simp] theorem execStartInterfaceRequest_slow (p fn : Nat) (s : State) : Keeps s (execStartInterfaceRequest p fn s) := by simp [execStartInterfaceRequest]

@[simp] theorem execStopInterfaceRequest_slow (p fn : Nat) (s : State) : Keeps s (execStopInterfaceRequest p fn s) := by simp [execStopInterfaceRequest]

@[simp] theorem execGetDeviceInterfaceReport_slow (p fn : Nat) (s : State) : Keeps s (execGetDeviceInterfaceReport p fn s) := by simp [execGetDeviceInterfaceReport]

@[simp] theorem State.avsRequest_slow (s : State) (mv n : Nat) : (State.avsRequest s mv n).slow = s.slow := by simp [State.avsRequest]

@[simp] theorem execAvsVdone_slow (mv : Nat) (s : State) : Keeps s (execAvsVdone mv s) := by simp [execAvsVdone]

@[simp] theorem execAvsTimeout_slow (s : State) : Keeps s (execAvsTimeout s) := by simp [execAvsTimeout]

@[simp] theorem State.powerRefused_slow (s : State) (k : Cmd) (kind r : Nat) : (State.powerRefused s k kind r).slow = s.slow := by simp [State.powerRefused]

@[simp] theorem State.reached_slow (s : State) (t : PState) : (State.reached s t).slow = s.slow := by simp [State.reached]

@[simp] theorem State.wakeSources_slow (s : State) : (State.wakeSources s).slow = s.slow := by simp [State.wakeSources]

@[simp] theorem State.trainPorts_slow (s : State) : (State.trainPorts s).slow = s.slow := by simp [State.trainPorts]

@[simp] theorem State.lpxMove_slow (s : State) (a b : LpxState) : (State.lpxMove s a b).slow = s.slow := by simp [State.lpxMove]

@[simp] theorem State.beginEntry_slow (s : State) (c : CmdRef) : (State.beginEntry s c).slow = s.slow := by simp [State.beginEntry]

@[simp] theorem State.abortEntry_slow (s : State) (r : Nat) : (State.abortEntry s r).slow = s.slow := by
  simp only [State.abortEntry]
  split <;> simp

@[simp] theorem execCommandFetch_slow (fn q : Nat) (entry : Option Bytes) (s : State) : Keeps s (execCommandFetch fn q entry s) := by simp [execCommandFetch]

@[simp] theorem State.wakeCause_slow (s : State) (b : Nat) : (State.wakeCause s b).slow = s.slow := by simp [State.wakeCause]

@[simp] theorem execWakeN_slow (s : State) : Keeps s (execWakeN s) := by simp [execWakeN]

@[simp] theorem execMgmtAddressMatch_slow (dynamic : Bool) (addr : Nat) (s : State) : Keeps s (execMgmtAddressMatch dynamic addr s) := by simp [execMgmtAddressMatch]

@[simp] theorem execPcieL1Exit_slow (s : State) : Keeps s (execPcieL1Exit s) := by simp [execPcieL1Exit]

@[simp] theorem State.startClocks_slow (s : State) (wake : WakePhase) : (State.startClocks s wake).slow = s.slow := by simp [State.startClocks]

@[simp] theorem execPllLock_slow (s : State) : Keeps s (execPllLock s) := by simp [execPllLock]

@[simp] theorem execPllLockLost_slow (s : State) : Keeps s (execPllLockLost s) := by simp [execPllLockLost]

@[simp] theorem State.lpxFail_slow (s : State) (w reason : Nat) : (State.lpxFail s w reason).slow = s.slow := by simp [State.lpxFail]

@[simp] theorem State.lpxReadLimit_slow (s : State) (w : Nat) : (State.lpxReadLimit s w).slow = s.slow := by simp [State.lpxReadLimit]

@[simp] theorem execLpxFailed_slow (well : Nat) (s : State) : Keeps s (execLpxFailed well s) := by simp [execLpxFailed]

@[simp] theorem execTelemetryPoll_slow (fail : Option (Nat × Nat)) (powerW currentA : Nat) (s : State) : Keeps s (execTelemetryPoll fail powerW currentA s) := by
  simp only [execTelemetryPoll]
  (repeat' split) <;> simp

@[simp] theorem State.sendStretch_slow (s : State) (p v : Nat) : (State.sendStretch s p v).slow = s.slow := by simp [State.sendStretch]

@[simp] theorem State.watchFloor_slow (s : State) : (State.watchFloor s).slow = s.slow := by simp [State.watchFloor]

@[simp] theorem State.closeFloor_slow (s : State) : (State.closeFloor s).slow = s.slow := by simp [State.closeFloor]

@[simp] theorem execThermalSample_slow (readings : List Int) (s : State) : Keeps s (execThermalSample readings s) := by simp [execThermalSample]

@[simp] theorem execStretchActivation_slow (p : Nat) (s : State) : Keeps s (execStretchActivation p s) := by simp [execStretchActivation]

@[simp] theorem State.zeroKeys_slow (s : State) : (State.zeroKeys s).slow = s.slow := by simp [State.zeroKeys]

@[simp] theorem execThermalTrip_slow (s : State) : Keeps s (execThermalTrip s) := by simp [execThermalTrip]

@[simp] theorem execPwrFailN_slow (s : State) : Keeps s (execPwrFailN s) := by simp [execPwrFailN]

@[simp] theorem execPwrFailDeassert_slow (s : State) : Keeps s (execPwrFailDeassert s) := by simp [execPwrFailDeassert]

@[simp] theorem State.voteSlot_slow (s : State) (n : Nat) : (State.voteSlot s n).slow = s.slow := by simp [State.voteSlot]

@[simp] theorem State.voteSlots_slow (s : State) : (State.voteSlots s).slow = s.slow := by simp [State.voteSlots]

@[simp] theorem State.voteOwner_slow (s : State) (w : Nat) : (State.voteOwner s w).slow = s.slow := by simp [State.voteOwner]

@[simp] theorem State.voteRoots_slow (s : State) : (State.voteRoots s).slow = s.slow := by simp [State.voteRoots]

@[simp] theorem State.tilesOff_slow (s : State) (p : Nat) : (State.tilesOff s p).slow = s.slow := by simp [State.tilesOff]

@[simp] theorem State.voteImage_slow (s : State) (p : Nat) : (State.voteImage s p).slow = s.slow := by simp [State.voteImage]

@[simp] theorem State.votePlan_slow (s : State) : (State.votePlan s).slow = s.slow := by simp [State.votePlan]

@[simp] theorem execTripleVoteScan_slow (s : State) : Keeps s (execTripleVoteScan s) := by simp [execTripleVoteScan]

@[simp] theorem execResetRelease_slow (s : State) : Keeps s (execResetRelease s) := by simp [execResetRelease]

@[simp] theorem State.bootWell_slow (s : State) (w : Nat) (r : WellTest) : (State.bootWell s w r).slow = s.slow := by
  have hl : ∀ (l : List Nat) (f : State → Nat → State) (t : State), (∀ u b, (f u b).slow = u.slow) → (l.foldl f t).slow = t.slow :=
    fun l f t h => foldl_slow l f t h
  have h1 : (s.each (List.range 25) (fun t k =>
      match r.failedTiles.find? (fun e => e.1 == k) with
      | some e =>
        ((t.setReg (tileBase ⟨w, k⟩ + 0x3C) (2 ^ 31 + e.2 % 256)).markFailed ⟨w, k⟩).raise 0x0506 (t.planOwner w) 0 [(8, w), (8, k), (8, e.2)]
      | none => t.setReg (tileBase ⟨w, k⟩ + 0x3C) (3 * 2 ^ 30))).slow = s.slow := by
    apply each_slow
    intro t k
    split <;> simp
  simp only [State.bootWell]
  generalize s.each (List.range 25) _ = s1 at h1 ⊢
  simp only [State.modWell_slow]
  generalize hu : State.storeSubstCrc _ _ = u
  have hu' : u.slow = s.slow := by rw [← hu]; simpa using h1
  generalize hv : List.foldl _ u r.badBuckets = v
  have hv' : v.slow = s.slow := by
    rw [← hv, hl]
    · exact hu'
    · intro x b; split <;> simp
  clear hu hv
  split <;> split <;> simpa using hv'

@[simp] theorem execBootSelftestDone_slow (r : List WellTest) (s : State) : Keeps s (execBootSelftestDone r s) := by simp [execBootSelftestDone]

@[simp] theorem State.modView_slow (s : State) (v : Nat) (f : LogView → LogView) : (State.modView s v f).slow = s.slow := by simp [State.modView]

@[simp] theorem State.loseEntry_slow (s : State) (e : LogEntry) : (State.loseEntry s e).slow = s.slow := by simp [State.loseEntry]

@[simp] theorem State.viewInterrupt_slow (s : State) (v : Nat) (e : LogEntry) : (State.viewInterrupt s v e).slow = s.slow := by simp [State.viewInterrupt]

@[simp] theorem execLogWrite_slow (s : State) : Keeps s (execLogWrite s) := by
  simp only [execLogWrite]
  (repeat' split) <;> simp

@[simp] theorem execLogDrain_slow (c : CmdRef) (s : State) : Keeps s (execLogDrain c s) := by
  simp only [execLogDrain]
  split <;> simp

end Sys2Proof.Machine
end

