-- ==== Sys2Proof/Laws/SlowRegs.lean ====
section
/-! SUPPORT. What the meanings leave unchanged: queue, DEVTIME, V_run, governor level, firmware floor, debug fuse, floor plan and access tables (RegView, RegAccess, HostDma, Wake, Tick). -/

namespace Sys2Proof.Machine

open Sys2Proof

@[simp] theorem State.hold_slow (s : State) (write : Bool) (a : RegAccess) : (State.hold s write a).slow = s.slow := by simp [State.hold]

@[simp] theorem State.arrive_slow (s : State) (who : Nat) : (State.arrive s who).slow = s.slow := by simp [State.arrive]

@[simp] theorem State.typedWrite_slow (s : State) (x v : Nat) : (State.typedWrite s x v).slow = s.slow := by
  simp only [State.typedWrite]
  split <;> simp

@[simp] theorem State.writeRndCtrl_slow (s : State) (a : RegAccess) (p : Nat) : (State.writeRndCtrl s a p).slow = s.slow := by simp [State.writeRndCtrl]

@[simp] theorem State.writeIntEnable_slow (s : State) (x v status fn vec : Nat) : (State.writeIntEnable s x v status fn vec).slow = s.slow := by simp [State.writeIntEnable]

@[simp] theorem State.scrubStop_slow (s : State) (w : Nat) : (State.scrubStop s w).slow = s.slow := by simp [State.scrubStop]

@[simp] theorem State.scrubBegin_slow (s : State) (a : RegAccess) (w : Nat) : (State.scrubBegin s a w).slow = s.slow := by
  simp only [State.scrubBegin]
  (repeat' split) <;> simp

@[simp] theorem State.writeScrub_slow (s : State) (a : RegAccess) (w : Nat) : (State.writeScrub s a w).slow = s.slow := by simp [State.writeScrub]

@[simp] theorem State.adminPort_slow (s : State) (n : Nat) (down : Bool) : (State.adminPort s n down).slow = s.slow := by simp [State.adminPort]

@[simp] theorem State.writePorts_slow (s : State) (x v : Nat) : (State.writePorts s x v).slow = s.slow := by simp [State.writePorts]

@[simp] theorem State.enableQueue_slow (s : State) (f q : Nat) : (State.enableQueue s f q).slow = s.slow := by simp [State.enableQueue]

@[simp] theorem State.writeCfg_slow (s : State) (a : RegAccess) (f q x : Nat) : (State.writeCfg s a f q x).slow = s.slow := by simp [State.writeCfg]

@[simp] theorem State.writeEvqCons_slow (s : State) (x v p : Nat) : (State.writeEvqCons s x v p).slow = s.slow := by simp [State.writeEvqCons]

@[simp] theorem State.writeMbx_slow (s : State) (a : RegAccess) : (State.writeMbx s a).slow = s.slow := by simp [State.writeMbx]

@[simp] theorem State.actOn_slow (s : State) (a : RegAccess) (x : Nat) : (State.actOn s a x).slow = s.slow := by
  simp only [State.actOn]
  split <;> simp

@[simp] theorem State.writePair_slow (s : State) (a : RegAccess) (r : RegRow) (x : Nat) : (State.writePair s a r x).slow = s.slow := by simp [State.writePair]

@[simp] theorem State.putReg_slow (s : State) (a : RegAccess) (x : Nat) : (State.putReg s a x).slow = s.slow := by
  simp only [State.putReg]
  split <;> simp

@[simp] theorem State.doorbell_slow (s : State) (a : RegAccess) (q : Nat) (cq : Bool) : (State.doorbell s a q cq).slow = s.slow := by simp [State.doorbell]

@[simp] theorem State.memoryWrite_slow (s : State) (a : RegAccess) (addr : Nat) : (State.memoryWrite s a addr).slow = s.slow := by simp [State.memoryWrite]

@[simp] theorem State.writeMsixWord_slow (s : State) (f vec word v : Nat) : (State.writeMsixWord s f vec word v).slow = s.slow := by simp [State.writeMsixWord]

@[simp] theorem State.placeWrite_slow (s1 : State) (a : RegAccess) : (State.placeWrite s1 a).slow = s1.slow := by
  simp only [State.placeWrite]
  (repeat' split) <;> simp

@[simp] theorem State.writeAt_slow (s : State) (a : RegAccess) : (State.writeAt s a).slow = s.slow := by
  simp only [State.writeAt]
  (repeat' split) <;> simp

@[simp] theorem State.writeAs_slow (s : State) (row : WriteRow) (a : RegAccess) : (State.writeAs s row a).slow = s.slow := by simp [State.writeAs]

@[simp] theorem execRegisterWrite_slow (a : RegAccess) (s : State) : Keeps s (execRegisterWrite a s) := by simp [execRegisterWrite]

@[simp] theorem execHiWrite_slow (a : RegAccess) (s : State) : Keeps s (execHiWrite a s) := by simp [execHiWrite]

@[simp] theorem execCloseIntake_slow (a : RegAccess) (s : State) : Keeps s (execCloseIntake a s) := by simp [execCloseIntake]

@[simp] theorem execAdmissionHold_slow (a : RegAccess) (s : State) : Keeps s (execAdmissionHold a s) := by simp [execAdmissionHold]

@[simp] theorem execIntEnableWrite_slow (a : RegAccess) (s : State) : Keeps s (execIntEnableWrite a s) := by simp [execIntEnableWrite]

@[simp] theorem execSelfTest_slow (a : RegAccess) (s : State) : Keeps s (execSelfTest a s) := by simp [execSelfTest]

@[simp] theorem execFlush_slow (a : RegAccess) (s : State) : Keeps s (execFlush a s) := by simp [execFlush]

@[simp] theorem execScrubStart_slow (a : RegAccess) (s : State) : Keeps s (execScrubStart a s) := by simp [execScrubStart]

@[simp] theorem execScrubAbort_slow (a : RegAccess) (s : State) : Keeps s (execScrubAbort a s) := by simp [execScrubAbort]

@[simp] theorem execClearAll_slow (a : RegAccess) (s : State) : Keeps s (execClearAll a s) := by simp [execClearAll]

@[simp] theorem execAdminDown_slow (a : RegAccess) (s : State) : Keeps s (execAdminDown a s) := by simp [execAdminDown]

@[simp] theorem execQueueEnable_slow (a : RegAccess) (s : State) : Keeps s (execQueueEnable a s) := by simp [execQueueEnable]

@[simp] theorem execQueueDisable_slow (a : RegAccess) (s : State) : Keeps s (execQueueDisable a s) := by simp [execQueueDisable]

@[simp] theorem execSqTailDoorbell_slow (a : RegAccess) (s : State) : Keeps s (execSqTailDoorbell a s) := by simp [execSqTailDoorbell]

@[simp] theorem execCqHeadDoorbell_slow (a : RegAccess) (s : State) : Keeps s (execCqHeadDoorbell a s) := by simp [execCqHeadDoorbell]

@[simp] theorem execEvqConsWrite_slow (a : RegAccess) (s : State) : Keeps s (execEvqConsWrite a s) := by simp [execEvqConsWrite]

@[simp] theorem State.deliver_slow (s : State) (a : RegAccess) (v : Nat) : (State.deliver s a v).slow = s.slow := by simp [State.deliver]

@[simp] theorem State.latch_slow (s : State) (who lo v : Nat) : (State.latch s who lo v).slow = s.slow := by simp [State.latch]

@[simp] theorem State.readClears_slow (s : State) (r : RegRow) (x : Nat) : (State.readClears s r x).slow = s.slow := by
  simp only [State.readClears]
  (repeat' split) <;> simp

@[simp] theorem State.readReg_slow (s : State) (who x : Nat) : (State.readReg s who x).2.slow = s.slow := by
  simp only [State.readReg]
  split
  · rfl
  · split
    · rfl
    · split
      · have hr := State.readRandom_slow s ((x - 0x30000) / 0x100) who
        split
        · rename_i v s1 he
          rw [he] at hr
          simpa using hr
        · rename_i s1 he
          rw [he] at hr
          simpa using hr
      · simp
    · simp

@[simp] theorem State.memoryRead_slow (s : State) (a : RegAccess) (addr : Nat) : (State.memoryRead s a addr).slow = s.slow := by simp [State.memoryRead]

@[simp] theorem State.readAt_slow (s : State) (a : RegAccess) : (State.readAt s a).slow = s.slow := by
  simp only [State.readAt]
  (repeat' split) <;> simp

@[simp] theorem State.readAs_slow (s : State) (row : ReadRow) (a : RegAccess) : (State.readAs s row a).slow = s.slow := by simp [State.readAs]

@[simp] theorem execRegisterReadClear_slow (a : RegAccess) (s : State) : Keeps s (execRegisterReadClear a s) := by simp [execRegisterReadClear]

@[simp] theorem execLoRead_slow (a : RegAccess) (s : State) : Keeps s (execLoRead a s) := by simp [execLoRead]

@[simp] theorem execRngDataRead_slow (a : RegAccess) (s : State) : Keeps s (execRngDataRead a s) := by simp [execRngDataRead]

@[simp] theorem State.dmaRefusal_slow (s : State) (k : Cmd) (need : Nat) : (State.dmaRefusal s k need).2.slow = s.slow := by
  simp only [State.dmaRefusal]
  (repeat' split) <;> simp

@[simp] theorem State.dmaWrite_slow (s : State) (k : Cmd) (bs : Bytes) : (State.dmaWrite s k bs).slow = s.slow := by simp [State.dmaWrite]

@[simp] theorem State.dmaReadRegs_slow (s : State) (k : Cmd) : (State.dmaReadRegs s k).2.slow = s.slow := by simp [State.dmaReadRegs]

@[simp] theorem State.dmaFailed_slow (s : State) (k : Cmd) (moved : Nat) : (State.dmaFailed s k moved).slow = s.slow := by simp [State.dmaFailed]

@[simp] theorem execDmaToDevice_slow (c : CmdRef) (s : State) : Keeps s (execDmaToDevice c s) := by
  simp only [execDmaToDevice]
  split
  · simp
  · rename_i k _
    have hc := State.dmaRefusal_slow s k 2
    split
    · rename_i st t he
      rw [he] at hc
      simpa using hc
    · rename_i t he
      rw [he] at hc
      split
      · simpa using hc
      · split
        · simp
        · simpa using hc

@[simp] theorem State.readGood_slow (s : State) (a0 : Nat) (a1 : Nat) : (State.readGood s a0 a1).2.2.slow = s.slow := by
  induction a0 generalizing s a1 with
  | zero => rfl
  | succ n ih =>
    simp only [State.readGood]
    split
    · simp
    · rw [ih]; simp

@[simp] theorem execDmaToHost_slow (c : CmdRef) (s : State) : Keeps s (execDmaToHost c s) := by
  simp only [execDmaToHost]
  split
  · simp
  · rename_i k _
    have hc := State.dmaRefusal_slow s k 1
    split
    · simp
    · split
      · rename_i st t he
        rw [he] at hc
        simpa using hc
      · rename_i t he
        rw [he] at hc
        have hr : (t.readGood (bucketsOf k.p1 k.length) (k.p1 / 64 * 64)).2.2.slow = s.slow := (State.readGood_slow _ _ _).trans hc
        have hw : (t.dmaReadRegs k).2.slow = s.slow := (State.dmaReadRegs_slow _ _).trans hc
        generalize t.readGood (bucketsOf k.p1 k.length) (k.p1 / 64 * 64) = r at hr
        (repeat' split) <;> first | simpa using hr | simpa using hw

@[simp] theorem State.serveHeld_slow (s : State) : (State.serveHeld s).slow = s.slow := by simp [State.serveHeld]

@[simp] theorem execSelfRefreshExitDone_slow (trained : List Bool) (s : State) : Keeps s (execSelfRefreshExitDone trained s) := by simp [execSelfRefreshExitDone]

@[simp] theorem State.tickPart_slow (s : State) (p : Nat) : (State.tickPart s p).slow = s.slow := by simp [State.tickPart]

@[simp] theorem State.settleTraps_slow (s : State) : (State.settleTraps s).slow = s.slow := by simp [State.settleTraps]

@[simp] theorem State.settleTick_slow (s : State) : (State.settleTick s).slow = s.slow := by simp [State.settleTick]

end Sys2Proof.Machine
end

