-- ==== Sys2Proof/Laws/SlowChange.lean ====
section
/-! SUPPORT. What the few commands that do change the slow state leave unchanged, and what they change it to. -/

namespace Sys2Proof.Machine

open Sys2Proof

/-- The slow state without the floor plan and the access tables. -/
def State.core (s : State) : Nat × List Instr × Nat × Nat × Nat × Bool :=
  (s.devtime, s.pending, s.power.vRun, s.power.g, s.lantus.fwFloor, s.lantus.debugDisabled)

/-- The floor plan and the access tables. -/
def State.planned (s : State) : Bool × Nat × List PlanRecord × List Bytes := (s.plan.inForce, s.plan.serial, s.plan.records, s.access.tables)

theorem slow_iff (s t : State) : t.slow = s.slow ↔ t.core = s.core ∧ t.planned = s.planned := by
  simp only [State.slow, State.core, State.planned, Prod.mk.injEq]
  tauto

/-- An answer whose next state, if any, has the slow core of `s`. -/
def KeepsCore (s : State) (r : Result) : Prop := ∀ t, r = .next t → t.core = s.core

@[simp] theorem keepsCore_next (s t : State) : KeepsCore s (.next t) ↔ t.core = s.core := by
  constructor
  · intro h; exact h t rfl
  · intro h u hu; cases hu; exact h

theorem core_of_slow (s t : State) (h : t.slow = s.slow) : t.core = s.core := ((slow_iff s t).mp h).1

theorem each_core {α : Type} (s : State) (l : List α) (f : State → α → State) (h : ∀ t a, (f t a).core = t.core) : (s.each l f).core = s.core := by
  unfold State.each
  induction l generalizing s with
  | nil => rfl
  | cons a l ih => simp only [List.foldl_cons]; rw [ih, h]

/-! ## Floor plan -/

theorem State.installPlan_core (s : State) (c : Cmd) (b : Bytes) : (s.installPlan c b).core = s.core := by
  have h : ∀ t : State, t.core = s.core →
      ((((t.each ((List.range 24).filter (fun w => s.owner w != ((List.range 24).map (recordOwner (planRecords b))).getD w 0x1F))
          (fun t w => t.restartSource w (((List.range 24).map (recordOwner (planRecords b))).getD w 0x1F))).each (List.range 24)
          (fun t p => t.reformDrbg p (((List.range 24).map s.formed).getD p false) (t.formed p))).planRegs (headerOf b).serial (imageDigest b))).core = s.core := by
    intro t ht
    rw [← ht]
    apply core_of_slow
    simp
  simp only [State.installPlan]
  rw [core_of_slow _ _ (State.complete_slow _ _ _ _ _), core_of_slow _ _ (State.raise_slow _ _ _ _ _)]
  exact h _ rfl

theorem State.planArrived_core (s : State) : s.planArrived.core = s.core := by
  have hr := fun c st ch sec => core_of_slow _ _ (State.refusePlan_slow s c st ch sec)
  simp only [State.planArrived]
  (repeat' split) <;> first
    | with_reducible rfl
    | with_reducible exact hr _ _ _ _
    | with_reducible exact State.installPlan_core _ _ _
    | rfl

theorem State.loadsFollow_core (s : State) (c : CmdRef) : (s.loadsFollow c).core = s.core := by
  simp only [State.loadsFollow]
  split
  · split
    · rfl
    · split
      · exact core_of_slow _ _ (State.imageArrived_slow _ _)
      · split
        · exact State.planArrived_core s
        · rfl
  · rfl

theorem State.endFailedLoads_core (s : State) : s.endFailedLoads.core = s.core := each_core _ _ _ (fun t c => State.loadsFollow_core t c.ref)

theorem execFloorplanLoad_core (c : CmdRef) (s : State) : KeepsCore s (execFloorplanLoad c s) := by
  simp only [execFloorplanLoad]
  split
  · simp
  · split
    · simp only [keepsCore_next]
      exact core_of_slow _ _ (by simp [execFloorplanLoad.refuseOther])
    · simp only [keepsCore_next]
      rw [State.planArrived_core]
      exact core_of_slow s (s.startCmd c) (by simp)

theorem execHostReadCompletion_core (c : CmdRef) (data : Option Bytes) (s : State) : KeepsCore s (execHostReadCompletion c data s) := by
  simp only [execHostReadCompletion]
  (repeat' split) <;> simp only [keepsCore_next, State.loadsFollow_core]
  all_goals first
    | rfl
    | exact core_of_slow _ _ (by simp)

theorem execCompletionTimeout_core (c : CmdRef) (s : State) : KeepsCore s (execCompletionTimeout c s) := by
  simp only [execCompletionTimeout]
  (repeat' split) <;> simp only [keepsCore_next, State.loadsFollow_core]
  exact core_of_slow _ _ (by simp)

theorem execLinkDown_core (cause : Nat) (s : State) : KeepsCore s (execLinkDown cause s) := by
  simp only [execLinkDown]
  split
  · simp
  · simp only [keepsCore_next, State.endFailedLoads_core]
    exact core_of_slow _ _ (by simp)

theorem execFunctionLevelReset_core (fn : Nat) (s : State) : KeepsCore s (execFunctionLevelReset fn s) := by
  simp only [execFunctionLevelReset]
  split
  · simp
  · split
    · simp only [keepsCore_next, State.endFailedLoads_core]
      refine core_of_slow _ _ ?_
      simp only [slow_mk, slow_eta]
      apply each_slow
      intro t f
      split <;> simp
    · simp only [keepsCore_next, State.endFailedLoads_core]
      exact core_of_slow _ _ (by simp)

/-! ## Power, thermal, security -/

theorem State.setLevel_slow (s : State) (g : Nat) : (s.setLevel g).slow = (s.modPower (fun x => { x with g := g })).slow := by
  simp only [State.setLevel]
  generalize hm : s.modPower (fun x => { x with g := g, engagedAt := if s.power.g = 0 ∧ 0 < g then s.devtime else x.engagedAt }) = s1
  have h : s1.slow = (s.modPower (fun x => { x with g := g })).slow := by
    rw [← hm]
    simp only [State.slow, State.modPower]
  clear hm
  (repeat' split) <;> simpa using h

theorem execGovernorPeriod_slow (s t : State) (h : execGovernorPeriod s = .next t) :
    t.slow = s.slow ∨ t.slow = (s.modPower (fun x => { x with g := nextLevel s.power.g s.periodReading })).slow := by
  have hf := fun (u : State) => State.closeFloor_slow u
  unfold execGovernorPeriod at h
  extract_lets x t0 s0 s1 s2 s3 at h
  have h0 : s0.slow = s.slow := by simp [s0]
  have h1 : s1.slow = s.slow := by
    simp only [s1]
    split
    · rw [hf, h0]
    · exact h0
  have h2 : s2.slow = (s.modPower (fun x => { x with g := nextLevel s.power.g s.periodReading })).slow := by
    simp only [s2]
    rw [State.setLevel_slow]
    simp only [State.slow, Prod.mk.injEq] at h1
    simp [State.slow, State.modPower, h1, x, t0]
  have h3 : s3.slow = s2.slow := by
    simp only [s3]
    exact each_slow _ _ _ (fun u p => by simp)
  clear_value s0 s1 s2 s3
  split at h
  · rw [Host.Outcome.next.injEq] at h; subst h; exact .inl rfl
  · split at h
    · rw [Host.Outcome.next.injEq] at h; subst h; exact .inl (by simpa using h0)
    · rw [Host.Outcome.next.injEq] at h; subst h; exact .inr (by rw [State.watchFloor_slow, h3, h2])

theorem execVrAlertN_slow (s t : State) (h : execVrAlertN s = .next t) :
    t.slow = s.slow ∨ t.slow = (s.modPower (fun x => { x with g := 2000 })).slow := by
  unfold execVrAlertN at h
  extract_lets s1 s2 at h
  have h1 : s1.slow = (s.modPower (fun x => { x with g := 2000 })).slow := by
    simp only [s1]
    rw [State.setLevel_slow]
    have := State.raise_slow ((s.count (pwrBase + 0x4C)).powerInt 3) 0x0C0B 0x1F 0 []
    rw [State.powerInt_slow, State.count_slow] at this
    simp only [State.slow, Prod.mk.injEq] at this
    simp [State.slow, State.modPower, this]
  have h2 : s2.slow = s1.slow := by simp [s2]
  clear_value s1 s2
  split at h
  · rw [Host.Outcome.next.injEq] at h; subst h; exact .inl rfl
  · rw [Host.Outcome.next.injEq] at h; subst h
    right
    rw [each_slow _ _ _ (fun u p => by simp), h2, h1]

theorem State.commitEntry_slow (s : State) : s.commitEntry.slow = s.slow ∨ s.commitEntry.slow = (s.modPower (fun x => { x with g := 0 })).slow := by
  simp only [State.commitEntry]
  split
  · exact .inl rfl
  · split
    · exact .inl (by simp)
    · split
      · exact .inl (by simp)
      · rename_i k _
        right
        simp only [State.reached_slow, State.avsRequest_slow]
        have := State.complete_slow s k .ok 0 0
        simp only [State.slow, State.modPower, Prod.mk.injEq] at this ⊢
        simp [this]

theorem execPowerState_slow (c : CmdRef) (s t : State) (h : execPowerState c s = .next t) :
    t.slow = s.slow ∨ t.slow = (s.modPower (fun x => { x with g := 0 })).slow := by
  simp only [execPowerState] at h
  split at h
  · split at h
    · cases h; exact State.commitEntry_slow s
    · cases h; exact .inl rfl
  · left
    split at h
    · cases h; rfl
    · (repeat' split at h) <;> (cases h; simp)

theorem execVRunAdjust_slow (up : Bool) (s t : State) (h : execVRunAdjust up s = .next t) :
    t.slow = s.slow ∨ t.slow = (s.modPower (fun x => { x with vRun := if up then min 820 (x.vRun + 5) else max 680 (x.vRun - 5) })).slow := by
  simp only [execVRunAdjust] at h
  split at h
  · cases h; exact .inl rfl
  · split at h
    · cases h; exact .inl (by simp)
    · split at h
      · split at h
        · cases h; exact .inl rfl
        · cases h
          right
          rw [State.avsRequest_slow]
          simp [State.slow, State.modPower, *]
      · split at h
        · cases h; exact .inl rfl
        · cases h
          right
          rw [State.avsRequest_slow]
          simp [State.slow, State.modPower, *]

theorem execDebugDisable_slow (s t : State) (h : execDebugDisable s = .next t) :
    t.slow = s.slow ∨ t.slow = (s.modLantus (fun x => { x with debugDisabled := true })).slow := by
  simp only [execDebugDisable, State.mailbox] at h
  (repeat' split at h) <;> cases h <;> first
    | (left; simp; done)
    | (right; simp; done)

theorem execFwFloorAdvance_slow (data : Option Bytes) (s t : State) (h : execFwFloorAdvance data s = .next t) :
    t.slow = s.slow ∨ ∃ n, s.lantus.fwFloor < n ∧ n ≤ 64 ∧ t.slow = (s.modLantus (fun x => { x with fwFloor := n })).slow := by
  simp only [execFwFloorAdvance, State.mailbox] at h
  split at h
  · cases h; exact .inl rfl
  · split at h
    · cases h; exact .inl (by simp)
    · split at h
      · cases h; exact .inl (by simp)
      · split at h
        · cases h; exact .inl (by simp)
        · split at h
          · cases h; exact .inl rfl
          · split at h
            · rename_i b _ _ hc
              cases h
              exact .inr ⟨rd b 0 4, hc.1, hc.2.1, by simp⟩
            · cases h; exact .inl (by simp)

/-! ## Resets -/

@[simp] theorem State.atReset_slow (s : State) : s.atReset.slow = (0, s.pending, 720, 0, s.lantus.fwFloor, s.lantus.debugDisabled, State.reset.planned) := by
  rfl

/-! ## The tick -/

theorem State.tickPower_slow (s : State) : s.tickPower.slow = s.slow ∨ s.tickPower.slow = (s.modPower (fun x => { x with g := 0 })).slow := by
  simp only [State.tickPower]
  split
  · split
    · exact State.commitEntry_slow s
    · split
      · exact .inl (by simp)
      · exact .inl rfl
  · exact .inl rfl

@[simp] theorem State.nextPeriod_slow (s : State) : s.nextPeriod.slow = s.slow := by
  simp only [State.nextPeriod]
  split
  · rfl
  · rfl

/-- Of a change of DEVTIME, the slow state of the result depends on the slow state alone. -/
theorem slow_devtime (s u : State) (n : Nat) (h : u.slow = s.slow) : ({ u with devtime := n } : State).slow = ({ s with devtime := n } : State).slow := by
  simp only [State.slow, Prod.mk.injEq] at h ⊢
  simp [h]

theorem slow_power (s u : State) (f : Power → Power) (h : u.slow = s.slow) (hv : ∀ x, (f x).vRun = x.vRun) (hg : ∀ x y, (f x).g = (f y).g) :
    (u.modPower f).slow = (s.modPower f).slow := by
  simp only [State.slow, Prod.mk.injEq] at h ⊢
  simp [State.modPower, hv, h, hg u.power s.power]

/-- While DEVTIME runs, a tick moves it on by the length of a tick, and of the slow state it may change the governor level only, to zero. -/
theorem tick_slow (s : State) (h : s.timeRuns = true) :
    (tick s).slow = { s with devtime := s.devtime + s.tickLength }.slow ∨
      (tick s).slow = ({ s with devtime := s.devtime + s.tickLength }.modPower (fun x => { x with g := 0 })).slow := by
  rw [tick, if_pos h]
  have hs := slow_devtime s s.settleTick.nextPeriod (s.devtime + s.tickLength) (by simp)
  generalize ({ s.settleTick.nextPeriod with devtime := s.devtime + s.tickLength } : State) = v at hs ⊢
  have h0 : (v.each (List.range 24) State.tickPart).watchFloor.slow = v.slow := by
    rw [State.watchFloor_slow, each_slow _ _ _ (fun t p => State.tickPart_slow t p)]
  generalize (v.each (List.range 24) State.tickPart).watchFloor = u at h0 ⊢
  rcases State.tickPower_slow u with h1 | h1
  · exact .inl (h1.trans (h0.trans hs))
  · exact .inr (h1.trans (slow_power _ _ _ (h0.trans hs) (fun _ => rfl) (fun _ _ => rfl)))

end Sys2Proof.Machine
end

