-- ==== Sys2Proof/Laws/State.lean ====
section
/-! SUPPORT. What each named update of the state leaves alone and, for the updates of one record, what it changes: one lemma per field. -/

namespace Sys2Proof.Machine

open Sys2Proof

/-! ## State.modPart -/

@[simp] theorem State.modPart_devtime (s : State) (p : Nat) (f : Partition → Partition) : (s.modPart p f).devtime = s.devtime := rfl
@[simp] theorem State.modPart_life (s : State) (p : Nat) (f : Partition → Partition) : (s.modPart p f).life = s.life := rfl
@[simp] theorem State.modPart_resetLow (s : State) (p : Nat) (f : Partition → Partition) : (s.modPart p f).resetLow = s.resetLow := rfl
@[simp] theorem State.modPart_pwrFailLow (s : State) (p : Nat) (f : Partition → Partition) : (s.modPart p f).pwrFailLow = s.pwrFailLow := rfl
@[simp] theorem State.modPart_faultN (s : State) (p : Nat) (f : Partition → Partition) : (s.modPart p f).faultN = s.faultN := rfl
@[simp] theorem State.modPart_thermTrip (s : State) (p : Nat) (f : Partition → Partition) : (s.modPart p f).thermTrip = s.thermTrip := rfl
@[simp] theorem State.modPart_regs (s : State) (p : Nat) (f : Partition → Partition) : (s.modPart p f).regs = s.regs := rfl
@[simp] theorem State.modPart_readLatch (s : State) (p : Nat) (f : Partition → Partition) : (s.modPart p f).readLatch = s.readLatch := rfl
@[simp] theorem State.modPart_writeLatch (s : State) (p : Nat) (f : Partition → Partition) : (s.modPart p f).writeLatch = s.writeLatch := rfl
@[simp] theorem State.modPart_fresh (s : State) (p : Nat) (f : Partition → Partition) : (s.modPart p f).fresh = s.fresh := rfl
@[simp] theorem State.modPart_lockGlobal (s : State) (p : Nat) (f : Partition → Partition) : (s.modPart p f).lockGlobal = s.lockGlobal := rfl
@[simp] theorem State.modPart_lockParts (s : State) (p : Nat) (f : Partition → Partition) : (s.modPart p f).lockParts = s.lockParts := rfl
@[simp] theorem State.modPart_access (s : State) (p : Nat) (f : Partition → Partition) : (s.modPart p f).access = s.access := rfl
@[simp] theorem State.modPart_plan (s : State) (p : Nat) (f : Partition → Partition) : (s.modPart p f).plan = s.plan := rfl
@[simp] theorem State.modPart_wells (s : State) (p : Nat) (f : Partition → Partition) : (s.modPart p f).wells = s.wells := rfl
@[simp] theorem State.modPart_fns (s : State) (p : Nat) (f : Partition → Partition) : (s.modPart p f).fns = s.fns := rfl
@[simp] theorem State.modPart_host (s : State) (p : Nat) (f : Partition → Partition) : (s.modPart p f).host = s.host := rfl
@[simp] theorem State.modPart_cmds (s : State) (p : Nat) (f : Partition → Partition) : (s.modPart p f).cmds = s.cmds := rfl
@[simp] theorem State.modPart_ports (s : State) (p : Nat) (f : Partition → Partition) : (s.modPart p f).ports = s.ports := rfl
@[simp] theorem State.modPart_intakes (s : State) (p : Nat) (f : Partition → Partition) : (s.modPart p f).intakes = s.intakes := rfl
@[simp] theorem State.modPart_qps (s : State) (p : Nat) (f : Partition → Partition) : (s.modPart p f).qps = s.qps := rfl
@[simp] theorem State.modPart_commits (s : State) (p : Nat) (f : Partition → Partition) : (s.modPart p f).commits = s.commits := rfl
@[simp] theorem State.modPart_regionChanges (s : State) (p : Nat) (f : Partition → Partition) : (s.modPart p f).regionChanges = s.regionChanges := rfl
@[simp] theorem State.modPart_lantus (s : State) (p : Nat) (f : Partition → Partition) : (s.modPart p f).lantus = s.lantus := rfl
@[simp] theorem State.modPart_opSession (s : State) (p : Nat) (f : Partition → Partition) : (s.modPart p f).opSession = s.opSession := rfl
@[simp] theorem State.modPart_sources (s : State) (p : Nat) (f : Partition → Partition) : (s.modPart p f).sources = s.sources := rfl
@[simp] theorem State.modPart_drbgs (s : State) (p : Nat) (f : Partition → Partition) : (s.modPart p f).drbgs = s.drbgs := rfl
@[simp] theorem State.modPart_power (s : State) (p : Nat) (f : Partition → Partition) : (s.modPart p f).power = s.power := rfl
@[simp] theorem State.modPart_log (s : State) (p : Nat) (f : Partition → Partition) : (s.modPart p f).log = s.log := rfl
@[simp] theorem State.modPart_pending (s : State) (p : Nat) (f : Partition → Partition) : (s.modPart p f).pending = s.pending := rfl
@[simp] theorem State.modPart_out (s : State) (p : Nat) (f : Partition → Partition) : (s.modPart p f).out = s.out := rfl
@[simp] theorem State.modPart_freeCount (s : State) (p : Nat) (f : Partition → Partition) : (s.modPart p f).freeCount = s.freeCount := rfl

/-! ## State.modRound -/

@[simp] theorem State.modRound_devtime (s : State) (p : Nat) (f : Round → Round) : (s.modRound p f).devtime = s.devtime := rfl
@[simp] theorem State.modRound_life (s : State) (p : Nat) (f : Round → Round) : (s.modRound p f).life = s.life := rfl
@[simp] theorem State.modRound_resetLow (s : State) (p : Nat) (f : Round → Round) : (s.modRound p f).resetLow = s.resetLow := rfl
@[simp] theorem State.modRound_pwrFailLow (s : State) (p : Nat) (f : Round → Round) : (s.modRound p f).pwrFailLow = s.pwrFailLow := rfl
@[simp] theorem State.modRound_faultN (s : State) (p : Nat) (f : Round → Round) : (s.modRound p f).faultN = s.faultN := rfl
@[simp] theorem State.modRound_thermTrip (s : State) (p : Nat) (f : Round → Round) : (s.modRound p f).thermTrip = s.thermTrip := rfl
@[simp] theorem State.modRound_regs (s : State) (p : Nat) (f : Round → Round) : (s.modRound p f).regs = s.regs := rfl
@[simp] theorem State.modRound_readLatch (s : State) (p : Nat) (f : Round → Round) : (s.modRound p f).readLatch = s.readLatch := rfl
@[simp] theorem State.modRound_writeLatch (s : State) (p : Nat) (f : Round → Round) : (s.modRound p f).writeLatch = s.writeLatch := rfl
@[simp] theorem State.modRound_fresh (s : State) (p : Nat) (f : Round → Round) : (s.modRound p f).fresh = s.fresh := rfl
@[simp] theorem State.modRound_lockGlobal (s : State) (p : Nat) (f : Round → Round) : (s.modRound p f).lockGlobal = s.lockGlobal := rfl
@[simp] theorem State.modRound_lockParts (s : State) (p : Nat) (f : Round → Round) : (s.modRound p f).lockParts = s.lockParts := rfl
@[simp] theorem State.modRound_access (s : State) (p : Nat) (f : Round → Round) : (s.modRound p f).access = s.access := rfl
@[simp] theorem State.modRound_plan (s : State) (p : Nat) (f : Round → Round) : (s.modRound p f).plan = s.plan := rfl
@[simp] theorem State.modRound_wells (s : State) (p : Nat) (f : Round → Round) : (s.modRound p f).wells = s.wells := rfl
@[simp] theorem State.modRound_fns (s : State) (p : Nat) (f : Round → Round) : (s.modRound p f).fns = s.fns := rfl
@[simp] theorem State.modRound_host (s : State) (p : Nat) (f : Round → Round) : (s.modRound p f).host = s.host := rfl
@[simp] theorem State.modRound_cmds (s : State) (p : Nat) (f : Round → Round) : (s.modRound p f).cmds = s.cmds := rfl
@[simp] theorem State.modRound_ports (s : State) (p : Nat) (f : Round → Round) : (s.modRound p f).ports = s.ports := rfl
@[simp] theorem State.modRound_intakes (s : State) (p : Nat) (f : Round → Round) : (s.modRound p f).intakes = s.intakes := rfl
@[simp] theorem State.modRound_qps (s : State) (p : Nat) (f : Round → Round) : (s.modRound p f).qps = s.qps := rfl
@[simp] theorem State.modRound_commits (s : State) (p : Nat) (f : Round → Round) : (s.modRound p f).commits = s.commits := rfl
@[simp] theorem State.modRound_regionChanges (s : State) (p : Nat) (f : Round → Round) : (s.modRound p f).regionChanges = s.regionChanges := rfl
@[simp] theorem State.modRound_lantus (s : State) (p : Nat) (f : Round → Round) : (s.modRound p f).lantus = s.lantus := rfl
@[simp] theorem State.modRound_opSession (s : State) (p : Nat) (f : Round → Round) : (s.modRound p f).opSession = s.opSession := rfl
@[simp] theorem State.modRound_sources (s : State) (p : Nat) (f : Round → Round) : (s.modRound p f).sources = s.sources := rfl
@[simp] theorem State.modRound_drbgs (s : State) (p : Nat) (f : Round → Round) : (s.modRound p f).drbgs = s.drbgs := rfl
@[simp] theorem State.modRound_power (s : State) (p : Nat) (f : Round → Round) : (s.modRound p f).power = s.power := rfl
@[simp] theorem State.modRound_log (s : State) (p : Nat) (f : Round → Round) : (s.modRound p f).log = s.log := rfl
@[simp] theorem State.modRound_pending (s : State) (p : Nat) (f : Round → Round) : (s.modRound p f).pending = s.pending := rfl
@[simp] theorem State.modRound_out (s : State) (p : Nat) (f : Round → Round) : (s.modRound p f).out = s.out := rfl
@[simp] theorem State.modRound_freeCount (s : State) (p : Nat) (f : Round → Round) : (s.modRound p f).freeCount = s.freeCount := rfl

/-! ## State.modWell -/

@[simp] theorem State.modWell_devtime (s : State) (w : Nat) (f : Well → Well) : (s.modWell w f).devtime = s.devtime := rfl
@[simp] theorem State.modWell_life (s : State) (w : Nat) (f : Well → Well) : (s.modWell w f).life = s.life := rfl
@[simp] theorem State.modWell_resetLow (s : State) (w : Nat) (f : Well → Well) : (s.modWell w f).resetLow = s.resetLow := rfl
@[simp] theorem State.modWell_pwrFailLow (s : State) (w : Nat) (f : Well → Well) : (s.modWell w f).pwrFailLow = s.pwrFailLow := rfl
@[simp] theorem State.modWell_faultN (s : State) (w : Nat) (f : Well → Well) : (s.modWell w f).faultN = s.faultN := rfl
@[simp] theorem State.modWell_thermTrip (s : State) (w : Nat) (f : Well → Well) : (s.modWell w f).thermTrip = s.thermTrip := rfl
@[simp] theorem State.modWell_regs (s : State) (w : Nat) (f : Well → Well) : (s.modWell w f).regs = s.regs := rfl
@[simp] theorem State.modWell_readLatch (s : State) (w : Nat) (f : Well → Well) : (s.modWell w f).readLatch = s.readLatch := rfl
@[simp] theorem State.modWell_writeLatch (s : State) (w : Nat) (f : Well → Well) : (s.modWell w f).writeLatch = s.writeLatch := rfl
@[simp] theorem State.modWell_fresh (s : State) (w : Nat) (f : Well → Well) : (s.modWell w f).fresh = s.fresh := rfl
@[simp] theorem State.modWell_lockGlobal (s : State) (w : Nat) (f : Well → Well) : (s.modWell w f).lockGlobal = s.lockGlobal := rfl
@[simp] theorem State.modWell_lockParts (s : State) (w : Nat) (f : Well → Well) : (s.modWell w f).lockParts = s.lockParts := rfl
@[simp] theorem State.modWell_access (s : State) (w : Nat) (f : Well → Well) : (s.modWell w f).access = s.access := rfl
@[simp] theorem State.modWell_plan (s : State) (w : Nat) (f : Well → Well) : (s.modWell w f).plan = s.plan := rfl
@[simp] theorem State.modWell_parts (s : State) (w : Nat) (f : Well → Well) : (s.modWell w f).parts = s.parts := rfl
@[simp] theorem State.modWell_fns (s : State) (w : Nat) (f : Well → Well) : (s.modWell w f).fns = s.fns := rfl
@[simp] theorem State.modWell_host (s : State) (w : Nat) (f : Well → Well) : (s.modWell w f).host = s.host := rfl
@[simp] theorem State.modWell_cmds (s : State) (w : Nat) (f : Well → Well) : (s.modWell w f).cmds = s.cmds := rfl
@[simp] theorem State.modWell_ports (s : State) (w : Nat) (f : Well → Well) : (s.modWell w f).ports = s.ports := rfl
@[simp] theorem State.modWell_intakes (s : State) (w : Nat) (f : Well → Well) : (s.modWell w f).intakes = s.intakes := rfl
@[simp] theorem State.modWell_qps (s : State) (w : Nat) (f : Well → Well) : (s.modWell w f).qps = s.qps := rfl
@[simp] theorem State.modWell_commits (s : State) (w : Nat) (f : Well → Well) : (s.modWell w f).commits = s.commits := rfl
@[simp] theorem State.modWell_regionChanges (s : State) (w : Nat) (f : Well → Well) : (s.modWell w f).regionChanges = s.regionChanges := rfl
@[simp] theorem State.modWell_lantus (s : State) (w : Nat) (f : Well → Well) : (s.modWell w f).lantus = s.lantus := rfl
@[simp] theorem State.modWell_opSession (s : State) (w : Nat) (f : Well → Well) : (s.modWell w f).opSession = s.opSession := rfl
@[simp] theorem State.modWell_sources (s : State) (w : Nat) (f : Well → Well) : (s.modWell w f).sources = s.sources := rfl
@[simp] theorem State.modWell_drbgs (s : State) (w : Nat) (f : Well → Well) : (s.modWell w f).drbgs = s.drbgs := rfl
@[simp] theorem State.modWell_power (s : State) (w : Nat) (f : Well → Well) : (s.modWell w f).power = s.power := rfl
@[simp] theorem State.modWell_log (s : State) (w : Nat) (f : Well → Well) : (s.modWell w f).log = s.log := rfl
@[simp] theorem State.modWell_pending (s : State) (w : Nat) (f : Well → Well) : (s.modWell w f).pending = s.pending := rfl
@[simp] theorem State.modWell_out (s : State) (w : Nat) (f : Well → Well) : (s.modWell w f).out = s.out := rfl
@[simp] theorem State.modWell_freeCount (s : State) (w : Nat) (f : Well → Well) : (s.modWell w f).freeCount = s.freeCount := rfl

/-! ## State.modTile -/

@[simp] theorem State.modTile_devtime (s : State) (t : TileRef) (f : Tile → Tile) : (s.modTile t f).devtime = s.devtime := rfl
@[simp] theorem State.modTile_life (s : State) (t : TileRef) (f : Tile → Tile) : (s.modTile t f).life = s.life := rfl
@[simp] theorem State.modTile_resetLow (s : State) (t : TileRef) (f : Tile → Tile) : (s.modTile t f).resetLow = s.resetLow := rfl
@[simp] theorem State.modTile_pwrFailLow (s : State) (t : TileRef) (f : Tile → Tile) : (s.modTile t f).pwrFailLow = s.pwrFailLow := rfl
@[simp] theorem State.modTile_faultN (s : State) (t : TileRef) (f : Tile → Tile) : (s.modTile t f).faultN = s.faultN := rfl
@[simp] theorem State.modTile_thermTrip (s : State) (t : TileRef) (f : Tile → Tile) : (s.modTile t f).thermTrip = s.thermTrip := rfl
@[simp] theorem State.modTile_regs (s : State) (t : TileRef) (f : Tile → Tile) : (s.modTile t f).regs = s.regs := rfl
@[simp] theorem State.modTile_readLatch (s : State) (t : TileRef) (f : Tile → Tile) : (s.modTile t f).readLatch = s.readLatch := rfl
@[simp] theorem State.modTile_writeLatch (s : State) (t : TileRef) (f : Tile → Tile) : (s.modTile t f).writeLatch = s.writeLatch := rfl
@[simp] theorem State.modTile_fresh (s : State) (t : TileRef) (f : Tile → Tile) : (s.modTile t f).fresh = s.fresh := rfl
@[simp] theorem State.modTile_lockGlobal (s : State) (t : TileRef) (f : Tile → Tile) : (s.modTile t f).lockGlobal = s.lockGlobal := rfl
@[simp] theorem State.modTile_lockParts (s : State) (t : TileRef) (f : Tile → Tile) : (s.modTile t f).lockParts = s.lockParts := rfl
@[simp] theorem State.modTile_access (s : State) (t : TileRef) (f : Tile → Tile) : (s.modTile t f).access = s.access := rfl
@[simp] theorem State.modTile_plan (s : State) (t : TileRef) (f : Tile → Tile) : (s.modTile t f).plan = s.plan := rfl
@[simp] theorem State.modTile_parts (s : State) (t : TileRef) (f : Tile → Tile) : (s.modTile t f).parts = s.parts := rfl
@[simp] theorem State.modTile_fns (s : State) (t : TileRef) (f : Tile → Tile) : (s.modTile t f).fns = s.fns := rfl
@[simp] theorem State.modTile_host (s : State) (t : TileRef) (f : Tile → Tile) : (s.modTile t f).host = s.host := rfl
@[simp] theorem State.modTile_cmds (s : State) (t : TileRef) (f : Tile → Tile) : (s.modTile t f).cmds = s.cmds := rfl
@[simp] theorem State.modTile_ports (s : State) (t : TileRef) (f : Tile → Tile) : (s.modTile t f).ports = s.ports := rfl
@[simp] theorem State.modTile_intakes (s : State) (t : TileRef) (f : Tile → Tile) : (s.modTile t f).intakes = s.intakes := rfl
@[simp] theorem State.modTile_qps (s : State) (t : TileRef) (f : Tile → Tile) : (s.modTile t f).qps = s.qps := rfl
@[simp] theorem State.modTile_commits (s : State) (t : TileRef) (f : Tile → Tile) : (s.modTile t f).commits = s.commits := rfl
@[simp] theorem State.modTile_regionChanges (s : State) (t : TileRef) (f : Tile → Tile) : (s.modTile t f).regionChanges = s.regionChanges := rfl
@[simp] theorem State.modTile_lantus (s : State) (t : TileRef) (f : Tile → Tile) : (s.modTile t f).lantus = s.lantus := rfl
@[simp] theorem State.modTile_opSession (s : State) (t : TileRef) (f : Tile → Tile) : (s.modTile t f).opSession = s.opSession := rfl
@[simp] theorem State.modTile_sources (s : State) (t : TileRef) (f : Tile → Tile) : (s.modTile t f).sources = s.sources := rfl
@[simp] theorem State.modTile_drbgs (s : State) (t : TileRef) (f : Tile → Tile) : (s.modTile t f).drbgs = s.drbgs := rfl
@[simp] theorem State.modTile_power (s : State) (t : TileRef) (f : Tile → Tile) : (s.modTile t f).power = s.power := rfl
@[simp] theorem State.modTile_log (s : State) (t : TileRef) (f : Tile → Tile) : (s.modTile t f).log = s.log := rfl
@[simp] theorem State.modTile_pending (s : State) (t : TileRef) (f : Tile → Tile) : (s.modTile t f).pending = s.pending := rfl
@[simp] theorem State.modTile_out (s : State) (t : TileRef) (f : Tile → Tile) : (s.modTile t f).out = s.out := rfl
@[simp] theorem State.modTile_freeCount (s : State) (t : TileRef) (f : Tile → Tile) : (s.modTile t f).freeCount = s.freeCount := rfl

/-! ## State.modPump -/

@[simp] theorem State.modPump_devtime (s : State) (u : PumpRef) (f : Pump → Pump) : (s.modPump u f).devtime = s.devtime := rfl
@[simp] theorem State.modPump_life (s : State) (u : PumpRef) (f : Pump → Pump) : (s.modPump u f).life = s.life := rfl
@[simp] theorem State.modPump_resetLow (s : State) (u : PumpRef) (f : Pump → Pump) : (s.modPump u f).resetLow = s.resetLow := rfl
@[simp] theorem State.modPump_pwrFailLow (s : State) (u : PumpRef) (f : Pump → Pump) : (s.modPump u f).pwrFailLow = s.pwrFailLow := rfl
@[simp] theorem State.modPump_faultN (s : State) (u : PumpRef) (f : Pump → Pump) : (s.modPump u f).faultN = s.faultN := rfl
@[simp] theorem State.modPump_thermTrip (s : State) (u : PumpRef) (f : Pump → Pump) : (s.modPump u f).thermTrip = s.thermTrip := rfl
@[simp] theorem State.modPump_regs (s : State) (u : PumpRef) (f : Pump → Pump) : (s.modPump u f).regs = s.regs := rfl
@[simp] theorem State.modPump_readLatch (s : State) (u : PumpRef) (f : Pump → Pump) : (s.modPump u f).readLatch = s.readLatch := rfl
@[simp] theorem State.modPump_writeLatch (s : State) (u : PumpRef) (f : Pump → Pump) : (s.modPump u f).writeLatch = s.writeLatch := rfl
@[simp] theorem State.modPump_fresh (s : State) (u : PumpRef) (f : Pump → Pump) : (s.modPump u f).fresh = s.fresh := rfl
@[simp] theorem State.modPump_lockGlobal (s : State) (u : PumpRef) (f : Pump → Pump) : (s.modPump u f).lockGlobal = s.lockGlobal := rfl
@[simp] theorem State.modPump_lockParts (s : State) (u : PumpRef) (f : Pump → Pump) : (s.modPump u f).lockParts = s.lockParts := rfl
@[simp] theorem State.modPump_access (s : State) (u : PumpRef) (f : Pump → Pump) : (s.modPump u f).access = s.access := rfl
@[simp] theorem State.modPump_plan (s : State) (u : PumpRef) (f : Pump → Pump) : (s.modPump u f).plan = s.plan := rfl
@[simp] theorem State.modPump_parts (s : State) (u : PumpRef) (f : Pump → Pump) : (s.modPump u f).parts = s.parts := rfl
@[simp] theorem State.modPump_fns (s : State) (u : PumpRef) (f : Pump → Pump) : (s.modPump u f).fns = s.fns := rfl
@[simp] theorem State.modPump_host (s : State) (u : PumpRef) (f : Pump → Pump) : (s.modPump u f).host = s.host := rfl
@[simp] theorem State.modPump_cmds (s : State) (u : PumpRef) (f : Pump → Pump) : (s.modPump u f).cmds = s.cmds := rfl
@[simp] theorem State.modPump_ports (s : State) (u : PumpRef) (f : Pump → Pump) : (s.modPump u f).ports = s.ports := rfl
@[simp] theorem State.modPump_intakes (s : State) (u : PumpRef) (f : Pump → Pump) : (s.modPump u f).intakes = s.intakes := rfl
@[simp] theorem State.modPump_qps (s : State) (u : PumpRef) (f : Pump → Pump) : (s.modPump u f).qps = s.qps := rfl
@[simp] theorem State.modPump_commits (s : State) (u : PumpRef) (f : Pump → Pump) : (s.modPump u f).commits = s.commits := rfl
@[simp] theorem State.modPump_regionChanges (s : State) (u : PumpRef) (f : Pump → Pump) : (s.modPump u f).regionChanges = s.regionChanges := rfl
@[simp] theorem State.modPump_lantus (s : State) (u : PumpRef) (f : Pump → Pump) : (s.modPump u f).lantus = s.lantus := rfl
@[simp] theorem State.modPump_opSession (s : State) (u : PumpRef) (f : Pump → Pump) : (s.modPump u f).opSession = s.opSession := rfl
@[simp] theorem State.modPump_sources (s : State) (u : PumpRef) (f : Pump → Pump) : (s.modPump u f).sources = s.sources := rfl
@[simp] theorem State.modPump_drbgs (s : State) (u : PumpRef) (f : Pump → Pump) : (s.modPump u f).drbgs = s.drbgs := rfl
@[simp] theorem State.modPump_power (s : State) (u : PumpRef) (f : Pump → Pump) : (s.modPump u f).power = s.power := rfl
@[simp] theorem State.modPump_log (s : State) (u : PumpRef) (f : Pump → Pump) : (s.modPump u f).log = s.log := rfl
@[simp] theorem State.modPump_pending (s : State) (u : PumpRef) (f : Pump → Pump) : (s.modPump u f).pending = s.pending := rfl
@[simp] theorem State.modPump_out (s : State) (u : PumpRef) (f : Pump → Pump) : (s.modPump u f).out = s.out := rfl
@[simp] theorem State.modPump_freeCount (s : State) (u : PumpRef) (f : Pump → Pump) : (s.modPump u f).freeCount = s.freeCount := rfl

/-! ## State.modChan -/

@[simp] theorem State.modChan_devtime (s : State) (w c : Nat) (f : CopyChan → CopyChan) : (s.modChan w c f).devtime = s.devtime := rfl
@[simp] theorem State.modChan_life (s : State) (w c : Nat) (f : CopyChan → CopyChan) : (s.modChan w c f).life = s.life := rfl
@[simp] theorem State.modChan_resetLow (s : State) (w c : Nat) (f : CopyChan → CopyChan) : (s.modChan w c f).resetLow = s.resetLow := rfl
@[simp] theorem State.modChan_pwrFailLow (s : State) (w c : Nat) (f : CopyChan → CopyChan) : (s.modChan w c f).pwrFailLow = s.pwrFailLow := rfl
@[simp] theorem State.modChan_faultN (s : State) (w c : Nat) (f : CopyChan → CopyChan) : (s.modChan w c f).faultN = s.faultN := rfl
@[simp] theorem State.modChan_thermTrip (s : State) (w c : Nat) (f : CopyChan → CopyChan) : (s.modChan w c f).thermTrip = s.thermTrip := rfl
@[simp] theorem State.modChan_regs (s : State) (w c : Nat) (f : CopyChan → CopyChan) : (s.modChan w c f).regs = s.regs := rfl
@[simp] theorem State.modChan_readLatch (s : State) (w c : Nat) (f : CopyChan → CopyChan) : (s.modChan w c f).readLatch = s.readLatch := rfl
@[simp] theorem State.modChan_writeLatch (s : State) (w c : Nat) (f : CopyChan → CopyChan) : (s.modChan w c f).writeLatch = s.writeLatch := rfl
@[simp] theorem State.modChan_fresh (s : State) (w c : Nat) (f : CopyChan → CopyChan) : (s.modChan w c f).fresh = s.fresh := rfl
@[simp] theorem State.modChan_lockGlobal (s : State) (w c : Nat) (f : CopyChan → CopyChan) : (s.modChan w c f).lockGlobal = s.lockGlobal := rfl
@[simp] theorem State.modChan_lockParts (s : State) (w c : Nat) (f : CopyChan → CopyChan) : (s.modChan w c f).lockParts = s.lockParts := rfl
@[simp] theorem State.modChan_access (s : State) (w c : Nat) (f : CopyChan → CopyChan) : (s.modChan w c f).access = s.access := rfl
@[simp] theorem State.modChan_plan (s : State) (w c : Nat) (f : CopyChan → CopyChan) : (s.modChan w c f).plan = s.plan := rfl
@[simp] theorem State.modChan_parts (s : State) (w c : Nat) (f : CopyChan → CopyChan) : (s.modChan w c f).parts = s.parts := rfl
@[simp] theorem State.modChan_fns (s : State) (w c : Nat) (f : CopyChan → CopyChan) : (s.modChan w c f).fns = s.fns := rfl
@[simp] theorem State.modChan_host (s : State) (w c : Nat) (f : CopyChan → CopyChan) : (s.modChan w c f).host = s.host := rfl
@[simp] theorem State.modChan_cmds (s : State) (w c : Nat) (f : CopyChan → CopyChan) : (s.modChan w c f).cmds = s.cmds := rfl
@[simp] theorem State.modChan_ports (s : State) (w c : Nat) (f : CopyChan → CopyChan) : (s.modChan w c f).ports = s.ports := rfl
@[simp] theorem State.modChan_intakes (s : State) (w c : Nat) (f : CopyChan → CopyChan) : (s.modChan w c f).intakes = s.intakes := rfl
@[simp] theorem State.modChan_qps (s : State) (w c : Nat) (f : CopyChan → CopyChan) : (s.modChan w c f).qps = s.qps := rfl
@[simp] theorem State.modChan_commits (s : State) (w c : Nat) (f : CopyChan → CopyChan) : (s.modChan w c f).commits = s.commits := rfl
@[simp] theorem State.modChan_regionChanges (s : State) (w c : Nat) (f : CopyChan → CopyChan) : (s.modChan w c f).regionChanges = s.regionChanges := rfl
@[simp] theorem State.modChan_lantus (s : State) (w c : Nat) (f : CopyChan → CopyChan) : (s.modChan w c f).lantus = s.lantus := rfl
@[simp] theorem State.modChan_opSession (s : State) (w c : Nat) (f : CopyChan → CopyChan) : (s.modChan w c f).opSession = s.opSession := rfl
@[simp] theorem State.modChan_sources (s : State) (w c : Nat) (f : CopyChan → CopyChan) : (s.modChan w c f).sources = s.sources := rfl
@[simp] theorem State.modChan_drbgs (s : State) (w c : Nat) (f : CopyChan → CopyChan) : (s.modChan w c f).drbgs = s.drbgs := rfl
@[simp] theorem State.modChan_power (s : State) (w c : Nat) (f : CopyChan → CopyChan) : (s.modChan w c f).power = s.power := rfl
@[simp] theorem State.modChan_log (s : State) (w c : Nat) (f : CopyChan → CopyChan) : (s.modChan w c f).log = s.log := rfl
@[simp] theorem State.modChan_pending (s : State) (w c : Nat) (f : CopyChan → CopyChan) : (s.modChan w c f).pending = s.pending := rfl
@[simp] theorem State.modChan_out (s : State) (w c : Nat) (f : CopyChan → CopyChan) : (s.modChan w c f).out = s.out := rfl
@[simp] theorem State.modChan_freeCount (s : State) (w c : Nat) (f : CopyChan → CopyChan) : (s.modChan w c f).freeCount = s.freeCount := rfl

/-! ## State.modFn -/

@[simp] theorem State.modFn_devtime (s : State) (n : Nat) (f : Function → Function) : (s.modFn n f).devtime = s.devtime := rfl
@[simp] theorem State.modFn_life (s : State) (n : Nat) (f : Function → Function) : (s.modFn n f).life = s.life := rfl
@[simp] theorem State.modFn_resetLow (s : State) (n : Nat) (f : Function → Function) : (s.modFn n f).resetLow = s.resetLow := rfl
@[simp] theorem State.modFn_pwrFailLow (s : State) (n : Nat) (f : Function → Function) : (s.modFn n f).pwrFailLow = s.pwrFailLow := rfl
@[simp] theorem State.modFn_faultN (s : State) (n : Nat) (f : Function → Function) : (s.modFn n f).faultN = s.faultN := rfl
@[simp] theorem State.modFn_thermTrip (s : State) (n : Nat) (f : Function → Function) : (s.modFn n f).thermTrip = s.thermTrip := rfl
@[simp] theorem State.modFn_regs (s : State) (n : Nat) (f : Function → Function) : (s.modFn n f).regs = s.regs := rfl
@[simp] theorem State.modFn_readLatch (s : State) (n : Nat) (f : Function → Function) : (s.modFn n f).readLatch = s.readLatch := rfl
@[simp] theorem State.modFn_writeLatch (s : State) (n : Nat) (f : Function → Function) : (s.modFn n f).writeLatch = s.writeLatch := rfl
@[simp] theorem State.modFn_fresh (s : State) (n : Nat) (f : Function → Function) : (s.modFn n f).fresh = s.fresh := rfl
@[simp] theorem State.modFn_lockGlobal (s : State) (n : Nat) (f : Function → Function) : (s.modFn n f).lockGlobal = s.lockGlobal := rfl
@[simp] theorem State.modFn_lockParts (s : State) (n : Nat) (f : Function → Function) : (s.modFn n f).lockParts = s.lockParts := rfl
@[simp] theorem State.modFn_access (s : State) (n : Nat) (f : Function → Function) : (s.modFn n f).access = s.access := rfl
@[simp] theorem State.modFn_plan (s : State) (n : Nat) (f : Function → Function) : (s.modFn n f).plan = s.plan := rfl
@[simp] theorem State.modFn_parts (s : State) (n : Nat) (f : Function → Function) : (s.modFn n f).parts = s.parts := rfl
@[simp] theorem State.modFn_wells (s : State) (n : Nat) (f : Function → Function) : (s.modFn n f).wells = s.wells := rfl
@[simp] theorem State.modFn_host (s : State) (n : Nat) (f : Function → Function) : (s.modFn n f).host = s.host := rfl
@[simp] theorem State.modFn_cmds (s : State) (n : Nat) (f : Function → Function) : (s.modFn n f).cmds = s.cmds := rfl
@[simp] theorem State.modFn_ports (s : State) (n : Nat) (f : Function → Function) : (s.modFn n f).ports = s.ports := rfl
@[simp] theorem State.modFn_intakes (s : State) (n : Nat) (f : Function → Function) : (s.modFn n f).intakes = s.intakes := rfl
@[simp] theorem State.modFn_qps (s : State) (n : Nat) (f : Function → Function) : (s.modFn n f).qps = s.qps := rfl
@[simp] theorem State.modFn_commits (s : State) (n : Nat) (f : Function → Function) : (s.modFn n f).commits = s.commits := rfl
@[simp] theorem State.modFn_regionChanges (s : State) (n : Nat) (f : Function → Function) : (s.modFn n f).regionChanges = s.regionChanges := rfl
@[simp] theorem State.modFn_lantus (s : State) (n : Nat) (f : Function → Function) : (s.modFn n f).lantus = s.lantus := rfl
@[simp] theorem State.modFn_opSession (s : State) (n : Nat) (f : Function → Function) : (s.modFn n f).opSession = s.opSession := rfl
@[simp] theorem State.modFn_sources (s : State) (n : Nat) (f : Function → Function) : (s.modFn n f).sources = s.sources := rfl
@[simp] theorem State.modFn_drbgs (s : State) (n : Nat) (f : Function → Function) : (s.modFn n f).drbgs = s.drbgs := rfl
@[simp] theorem State.modFn_power (s : State) (n : Nat) (f : Function → Function) : (s.modFn n f).power = s.power := rfl
@[simp] theorem State.modFn_log (s : State) (n : Nat) (f : Function → Function) : (s.modFn n f).log = s.log := rfl
@[simp] theorem State.modFn_pending (s : State) (n : Nat) (f : Function → Function) : (s.modFn n f).pending = s.pending := rfl
@[simp] theorem State.modFn_out (s : State) (n : Nat) (f : Function → Function) : (s.modFn n f).out = s.out := rfl
@[simp] theorem State.modFn_freeCount (s : State) (n : Nat) (f : Function → Function) : (s.modFn n f).freeCount = s.freeCount := rfl

/-! ## State.modQueue -/

@[simp] theorem State.modQueue_devtime (s : State) (n q : Nat) (f : Queue → Queue) : (s.modQueue n q f).devtime = s.devtime := rfl
@[simp] theorem State.modQueue_life (s : State) (n q : Nat) (f : Queue → Queue) : (s.modQueue n q f).life = s.life := rfl
@[simp] theorem State.modQueue_resetLow (s : State) (n q : Nat) (f : Queue → Queue) : (s.modQueue n q f).resetLow = s.resetLow := rfl
@[simp] theorem State.modQueue_pwrFailLow (s : State) (n q : Nat) (f : Queue → Queue) : (s.modQueue n q f).pwrFailLow = s.pwrFailLow := rfl
@[simp] theorem State.modQueue_faultN (s : State) (n q : Nat) (f : Queue → Queue) : (s.modQueue n q f).faultN = s.faultN := rfl
@[simp] theorem State.modQueue_thermTrip (s : State) (n q : Nat) (f : Queue → Queue) : (s.modQueue n q f).thermTrip = s.thermTrip := rfl
@[simp] theorem State.modQueue_regs (s : State) (n q : Nat) (f : Queue → Queue) : (s.modQueue n q f).regs = s.regs := rfl
@[simp] theorem State.modQueue_readLatch (s : State) (n q : Nat) (f : Queue → Queue) : (s.modQueue n q f).readLatch = s.readLatch := rfl
@[simp] theorem State.modQueue_writeLatch (s : State) (n q : Nat) (f : Queue → Queue) : (s.modQueue n q f).writeLatch = s.writeLatch := rfl
@[simp] theorem State.modQueue_fresh (s : State) (n q : Nat) (f : Queue → Queue) : (s.modQueue n q f).fresh = s.fresh := rfl
@[simp] theorem State.modQueue_lockGlobal (s : State) (n q : Nat) (f : Queue → Queue) : (s.modQueue n q f).lockGlobal = s.lockGlobal := rfl
@[simp] theorem State.modQueue_lockParts (s : State) (n q : Nat) (f : Queue → Queue) : (s.modQueue n q f).lockParts = s.lockParts := rfl
@[simp] theorem State.modQueue_access (s : State) (n q : Nat) (f : Queue → Queue) : (s.modQueue n q f).access = s.access := rfl
@[simp] theorem State.modQueue_plan (s : State) (n q : Nat) (f : Queue → Queue) : (s.modQueue n q f).plan = s.plan := rfl
@[simp] theorem State.modQueue_parts (s : State) (n q : Nat) (f : Queue → Queue) : (s.modQueue n q f).parts = s.parts := rfl
@[simp] theorem State.modQueue_wells (s : State) (n q : Nat) (f : Queue → Queue) : (s.modQueue n q f).wells = s.wells := rfl
@[simp] theorem State.modQueue_host (s : State) (n q : Nat) (f : Queue → Queue) : (s.modQueue n q f).host = s.host := rfl
@[simp] theorem State.modQueue_cmds (s : State) (n q : Nat) (f : Queue → Queue) : (s.modQueue n q f).cmds = s.cmds := rfl
@[simp] theorem State.modQueue_ports (s : State) (n q : Nat) (f : Queue → Queue) : (s.modQueue n q f).ports = s.ports := rfl
@[simp] theorem State.modQueue_intakes (s : State) (n q : Nat) (f : Queue → Queue) : (s.modQueue n q f).intakes = s.intakes := rfl
@[simp] theorem State.modQueue_qps (s : State) (n q : Nat) (f : Queue → Queue) : (s.modQueue n q f).qps = s.qps := rfl
@[simp] theorem State.modQueue_commits (s : State) (n q : Nat) (f : Queue → Queue) : (s.modQueue n q f).commits = s.commits := rfl
@[simp] theorem State.modQueue_regionChanges (s : State) (n q : Nat) (f : Queue → Queue) : (s.modQueue n q f).regionChanges = s.regionChanges := rfl
@[simp] theorem State.modQueue_lantus (s : State) (n q : Nat) (f : Queue → Queue) : (s.modQueue n q f).lantus = s.lantus := rfl
@[simp] theorem State.modQueue_opSession (s : State) (n q : Nat) (f : Queue → Queue) : (s.modQueue n q f).opSession = s.opSession := rfl
@[simp] theorem State.modQueue_sources (s : State) (n q : Nat) (f : Queue → Queue) : (s.modQueue n q f).sources = s.sources := rfl
@[simp] theorem State.modQueue_drbgs (s : State) (n q : Nat) (f : Queue → Queue) : (s.modQueue n q f).drbgs = s.drbgs := rfl
@[simp] theorem State.modQueue_power (s : State) (n q : Nat) (f : Queue → Queue) : (s.modQueue n q f).power = s.power := rfl
@[simp] theorem State.modQueue_log (s : State) (n q : Nat) (f : Queue → Queue) : (s.modQueue n q f).log = s.log := rfl
@[simp] theorem State.modQueue_pending (s : State) (n q : Nat) (f : Queue → Queue) : (s.modQueue n q f).pending = s.pending := rfl
@[simp] theorem State.modQueue_out (s : State) (n q : Nat) (f : Queue → Queue) : (s.modQueue n q f).out = s.out := rfl
@[simp] theorem State.modQueue_freeCount (s : State) (n q : Nat) (f : Queue → Queue) : (s.modQueue n q f).freeCount = s.freeCount := rfl

/-! ## State.modSource -/

@[simp] theorem State.modSource_devtime (s : State) (n : Nat) (f : Source → Source) : (s.modSource n f).devtime = s.devtime := rfl
@[simp] theorem State.modSource_life (s : State) (n : Nat) (f : Source → Source) : (s.modSource n f).life = s.life := rfl
@[simp] theorem State.modSource_resetLow (s : State) (n : Nat) (f : Source → Source) : (s.modSource n f).resetLow = s.resetLow := rfl
@[simp] theorem State.modSource_pwrFailLow (s : State) (n : Nat) (f : Source → Source) : (s.modSource n f).pwrFailLow = s.pwrFailLow := rfl
@[simp] theorem State.modSource_faultN (s : State) (n : Nat) (f : Source → Source) : (s.modSource n f).faultN = s.faultN := rfl
@[simp] theorem State.modSource_thermTrip (s : State) (n : Nat) (f : Source → Source) : (s.modSource n f).thermTrip = s.thermTrip := rfl
@[simp] theorem State.modSource_regs (s : State) (n : Nat) (f : Source → Source) : (s.modSource n f).regs = s.regs := rfl
@[simp] theorem State.modSource_readLatch (s : State) (n : Nat) (f : Source → Source) : (s.modSource n f).readLatch = s.readLatch := rfl
@[simp] theorem State.modSource_writeLatch (s : State) (n : Nat) (f : Source → Source) : (s.modSource n f).writeLatch = s.writeLatch := rfl
@[simp] theorem State.modSource_fresh (s : State) (n : Nat) (f : Source → Source) : (s.modSource n f).fresh = s.fresh := rfl
@[simp] theorem State.modSource_lockGlobal (s : State) (n : Nat) (f : Source → Source) : (s.modSource n f).lockGlobal = s.lockGlobal := rfl
@[simp] theorem State.modSource_lockParts (s : State) (n : Nat) (f : Source → Source) : (s.modSource n f).lockParts = s.lockParts := rfl
@[simp] theorem State.modSource_access (s : State) (n : Nat) (f : Source → Source) : (s.modSource n f).access = s.access := rfl
@[simp] theorem State.modSource_plan (s : State) (n : Nat) (f : Source → Source) : (s.modSource n f).plan = s.plan := rfl
@[simp] theorem State.modSource_parts (s : State) (n : Nat) (f : Source → Source) : (s.modSource n f).parts = s.parts := rfl
@[simp] theorem State.modSource_wells (s : State) (n : Nat) (f : Source → Source) : (s.modSource n f).wells = s.wells := rfl
@[simp] theorem State.modSource_fns (s : State) (n : Nat) (f : Source → Source) : (s.modSource n f).fns = s.fns := rfl
@[simp] theorem State.modSource_host (s : State) (n : Nat) (f : Source → Source) : (s.modSource n f).host = s.host := rfl
@[simp] theorem State.modSource_cmds (s : State) (n : Nat) (f : Source → Source) : (s.modSource n f).cmds = s.cmds := rfl
@[simp] theorem State.modSource_ports (s : State) (n : Nat) (f : Source → Source) : (s.modSource n f).ports = s.ports := rfl
@[simp] theorem State.modSource_intakes (s : State) (n : Nat) (f : Source → Source) : (s.modSource n f).intakes = s.intakes := rfl
@[simp] theorem State.modSource_qps (s : State) (n : Nat) (f : Source → Source) : (s.modSource n f).qps = s.qps := rfl
@[simp] theorem State.modSource_commits (s : State) (n : Nat) (f : Source → Source) : (s.modSource n f).commits = s.commits := rfl
@[simp] theorem State.modSource_regionChanges (s : State) (n : Nat) (f : Source → Source) : (s.modSource n f).regionChanges = s.regionChanges := rfl
@[simp] theorem State.modSource_lantus (s : State) (n : Nat) (f : Source → Source) : (s.modSource n f).lantus = s.lantus := rfl
@[simp] theorem State.modSource_opSession (s : State) (n : Nat) (f : Source → Source) : (s.modSource n f).opSession = s.opSession := rfl
@[simp] theorem State.modSource_drbgs (s : State) (n : Nat) (f : Source → Source) : (s.modSource n f).drbgs = s.drbgs := rfl
@[simp] theorem State.modSource_power (s : State) (n : Nat) (f : Source → Source) : (s.modSource n f).power = s.power := rfl
@[simp] theorem State.modSource_log (s : State) (n : Nat) (f : Source → Source) : (s.modSource n f).log = s.log := rfl
@[simp] theorem State.modSource_pending (s : State) (n : Nat) (f : Source → Source) : (s.modSource n f).pending = s.pending := rfl
@[simp] theorem State.modSource_out (s : State) (n : Nat) (f : Source → Source) : (s.modSource n f).out = s.out := rfl
@[simp] theorem State.modSource_freeCount (s : State) (n : Nat) (f : Source → Source) : (s.modSource n f).freeCount = s.freeCount := rfl

/-! ## State.modDrbg -/

@[simp] theorem State.modDrbg_devtime (s : State) (b : Nat) (f : Drbg → Drbg) : (s.modDrbg b f).devtime = s.devtime := rfl
@[simp] theorem State.modDrbg_life (s : State) (b : Nat) (f : Drbg → Drbg) : (s.modDrbg b f).life = s.life := rfl
@[simp] theorem State.modDrbg_resetLow (s : State) (b : Nat) (f : Drbg → Drbg) : (s.modDrbg b f).resetLow = s.resetLow := rfl
@[simp] theorem State.modDrbg_pwrFailLow (s : State) (b : Nat) (f : Drbg → Drbg) : (s.modDrbg b f).pwrFailLow = s.pwrFailLow := rfl
@[simp] theorem State.modDrbg_faultN (s : State) (b : Nat) (f : Drbg → Drbg) : (s.modDrbg b f).faultN = s.faultN := rfl
@[simp] theorem State.modDrbg_thermTrip (s : State) (b : Nat) (f : Drbg → Drbg) : (s.modDrbg b f).thermTrip = s.thermTrip := rfl
@[simp] theorem State.modDrbg_regs (s : State) (b : Nat) (f : Drbg → Drbg) : (s.modDrbg b f).regs = s.regs := rfl
@[simp] theorem State.modDrbg_readLatch (s : State) (b : Nat) (f : Drbg → Drbg) : (s.modDrbg b f).readLatch = s.readLatch := rfl
@[simp] theorem State.modDrbg_writeLatch (s : State) (b : Nat) (f : Drbg → Drbg) : (s.modDrbg b f).writeLatch = s.writeLatch := rfl
@[simp] theorem State.modDrbg_fresh (s : State) (b : Nat) (f : Drbg → Drbg) : (s.modDrbg b f).fresh = s.fresh := rfl
@[simp] theorem State.modDrbg_lockGlobal (s : State) (b : Nat) (f : Drbg → Drbg) : (s.modDrbg b f).lockGlobal = s.lockGlobal := rfl
@[simp] theorem State.modDrbg_lockParts (s : State) (b : Nat) (f : Drbg → Drbg) : (s.modDrbg b f).lockParts = s.lockParts := rfl
@[simp] theorem State.modDrbg_access (s : State) (b : Nat) (f : Drbg → Drbg) : (s.modDrbg b f).access = s.access := rfl
@[simp] theorem State.modDrbg_plan (s : State) (b : Nat) (f : Drbg → Drbg) : (s.modDrbg b f).plan = s.plan := rfl
@[simp] theorem State.modDrbg_parts (s : State) (b : Nat) (f : Drbg → Drbg) : (s.modDrbg b f).parts = s.parts := rfl
@[simp] theorem State.modDrbg_wells (s : State) (b : Nat) (f : Drbg → Drbg) : (s.modDrbg b f).wells = s.wells := rfl
@[simp] theorem State.modDrbg_fns (s : State) (b : Nat) (f : Drbg → Drbg) : (s.modDrbg b f).fns = s.fns := rfl
@[simp] theorem State.modDrbg_host (s : State) (b : Nat) (f : Drbg → Drbg) : (s.modDrbg b f).host = s.host := rfl
@[simp] theorem State.modDrbg_cmds (s : State) (b : Nat) (f : Drbg → Drbg) : (s.modDrbg b f).cmds = s.cmds := rfl
@[simp] theorem State.modDrbg_ports (s : State) (b : Nat) (f : Drbg → Drbg) : (s.modDrbg b f).ports = s.ports := rfl
@[simp] theorem State.modDrbg_intakes (s : State) (b : Nat) (f : Drbg → Drbg) : (s.modDrbg b f).intakes = s.intakes := rfl
@[simp] theorem State.modDrbg_qps (s : State) (b : Nat) (f : Drbg → Drbg) : (s.modDrbg b f).qps = s.qps := rfl
@[simp] theorem State.modDrbg_commits (s : State) (b : Nat) (f : Drbg → Drbg) : (s.modDrbg b f).commits = s.commits := rfl
@[simp] theorem State.modDrbg_regionChanges (s : State) (b : Nat) (f : Drbg → Drbg) : (s.modDrbg b f).regionChanges = s.regionChanges := rfl
@[simp] theorem State.modDrbg_lantus (s : State) (b : Nat) (f : Drbg → Drbg) : (s.modDrbg b f).lantus = s.lantus := rfl
@[simp] theorem State.modDrbg_opSession (s : State) (b : Nat) (f : Drbg → Drbg) : (s.modDrbg b f).opSession = s.opSession := rfl
@[simp] theorem State.modDrbg_sources (s : State) (b : Nat) (f : Drbg → Drbg) : (s.modDrbg b f).sources = s.sources := rfl
@[simp] theorem State.modDrbg_power (s : State) (b : Nat) (f : Drbg → Drbg) : (s.modDrbg b f).power = s.power := rfl
@[simp] theorem State.modDrbg_log (s : State) (b : Nat) (f : Drbg → Drbg) : (s.modDrbg b f).log = s.log := rfl
@[simp] theorem State.modDrbg_pending (s : State) (b : Nat) (f : Drbg → Drbg) : (s.modDrbg b f).pending = s.pending := rfl
@[simp] theorem State.modDrbg_out (s : State) (b : Nat) (f : Drbg → Drbg) : (s.modDrbg b f).out = s.out := rfl
@[simp] theorem State.modDrbg_freeCount (s : State) (b : Nat) (f : Drbg → Drbg) : (s.modDrbg b f).freeCount = s.freeCount := rfl

/-! ## State.modPort -/

@[simp] theorem State.modPort_devtime (s : State) (n : Nat) (f : Port → Port) : (s.modPort n f).devtime = s.devtime := rfl
@[simp] theorem State.modPort_life (s : State) (n : Nat) (f : Port → Port) : (s.modPort n f).life = s.life := rfl
@[simp] theorem State.modPort_resetLow (s : State) (n : Nat) (f : Port → Port) : (s.modPort n f).resetLow = s.resetLow := rfl
@[simp] theorem State.modPort_pwrFailLow (s : State) (n : Nat) (f : Port → Port) : (s.modPort n f).pwrFailLow = s.pwrFailLow := rfl
@[simp] theorem State.modPort_faultN (s : State) (n : Nat) (f : Port → Port) : (s.modPort n f).faultN = s.faultN := rfl
@[simp] theorem State.modPort_thermTrip (s : State) (n : Nat) (f : Port → Port) : (s.modPort n f).thermTrip = s.thermTrip := rfl
@[simp] theorem State.modPort_regs (s : State) (n : Nat) (f : Port → Port) : (s.modPort n f).regs = s.regs := rfl
@[simp] theorem State.modPort_readLatch (s : State) (n : Nat) (f : Port → Port) : (s.modPort n f).readLatch = s.readLatch := rfl
@[simp] theorem State.modPort_writeLatch (s : State) (n : Nat) (f : Port → Port) : (s.modPort n f).writeLatch = s.writeLatch := rfl
@[simp] theorem State.modPort_fresh (s : State) (n : Nat) (f : Port → Port) : (s.modPort n f).fresh = s.fresh := rfl
@[simp] theorem State.modPort_lockGlobal (s : State) (n : Nat) (f : Port → Port) : (s.modPort n f).lockGlobal = s.lockGlobal := rfl
@[simp] theorem State.modPort_lockParts (s : State) (n : Nat) (f : Port → Port) : (s.modPort n f).lockParts = s.lockParts := rfl
@[simp] theorem State.modPort_access (s : State) (n : Nat) (f : Port → Port) : (s.modPort n f).access = s.access := rfl
@[simp] theorem State.modPort_plan (s : State) (n : Nat) (f : Port → Port) : (s.modPort n f).plan = s.plan := rfl
@[simp] theorem State.modPort_parts (s : State) (n : Nat) (f : Port → Port) : (s.modPort n f).parts = s.parts := rfl
@[simp] theorem State.modPort_wells (s : State) (n : Nat) (f : Port → Port) : (s.modPort n f).wells = s.wells := rfl
@[simp] theorem State.modPort_fns (s : State) (n : Nat) (f : Port → Port) : (s.modPort n f).fns = s.fns := rfl
@[simp] theorem State.modPort_host (s : State) (n : Nat) (f : Port → Port) : (s.modPort n f).host = s.host := rfl
@[simp] theorem State.modPort_cmds (s : State) (n : Nat) (f : Port → Port) : (s.modPort n f).cmds = s.cmds := rfl
@[simp] theorem State.modPort_intakes (s : State) (n : Nat) (f : Port → Port) : (s.modPort n f).intakes = s.intakes := rfl
@[simp] theorem State.modPort_qps (s : State) (n : Nat) (f : Port → Port) : (s.modPort n f).qps = s.qps := rfl
@[simp] theorem State.modPort_commits (s : State) (n : Nat) (f : Port → Port) : (s.modPort n f).commits = s.commits := rfl
@[simp] theorem State.modPort_regionChanges (s : State) (n : Nat) (f : Port → Port) : (s.modPort n f).regionChanges = s.regionChanges := rfl
@[simp] theorem State.modPort_lantus (s : State) (n : Nat) (f : Port → Port) : (s.modPort n f).lantus = s.lantus := rfl
@[simp] theorem State.modPort_opSession (s : State) (n : Nat) (f : Port → Port) : (s.modPort n f).opSession = s.opSession := rfl
@[simp] theorem State.modPort_sources (s : State) (n : Nat) (f : Port → Port) : (s.modPort n f).sources = s.sources := rfl
@[simp] theorem State.modPort_drbgs (s : State) (n : Nat) (f : Port → Port) : (s.modPort n f).drbgs = s.drbgs := rfl
@[simp] theorem State.modPort_power (s : State) (n : Nat) (f : Port → Port) : (s.modPort n f).power = s.power := rfl
@[simp] theorem State.modPort_log (s : State) (n : Nat) (f : Port → Port) : (s.modPort n f).log = s.log := rfl
@[simp] theorem State.modPort_pending (s : State) (n : Nat) (f : Port → Port) : (s.modPort n f).pending = s.pending := rfl
@[simp] theorem State.modPort_out (s : State) (n : Nat) (f : Port → Port) : (s.modPort n f).out = s.out := rfl
@[simp] theorem State.modPort_freeCount (s : State) (n : Nat) (f : Port → Port) : (s.modPort n f).freeCount = s.freeCount := rfl

/-! ## State.modIntake -/

@[simp] theorem State.modIntake_devtime (s : State) (port prio : Nat) (f : Intake → Intake) : (s.modIntake port prio f).devtime = s.devtime := rfl
@[simp] theorem State.modIntake_life (s : State) (port prio : Nat) (f : Intake → Intake) : (s.modIntake port prio f).life = s.life := rfl
@[simp] theorem State.modIntake_resetLow (s : State) (port prio : Nat) (f : Intake → Intake) : (s.modIntake port prio f).resetLow = s.resetLow := rfl
@[simp] theorem State.modIntake_pwrFailLow (s : State) (port prio : Nat) (f : Intake → Intake) : (s.modIntake port prio f).pwrFailLow = s.pwrFailLow := rfl
@[simp] theorem State.modIntake_faultN (s : State) (port prio : Nat) (f : Intake → Intake) : (s.modIntake port prio f).faultN = s.faultN := rfl
@[simp] theorem State.modIntake_thermTrip (s : State) (port prio : Nat) (f : Intake → Intake) : (s.modIntake port prio f).thermTrip = s.thermTrip := rfl
@[simp] theorem State.modIntake_regs (s : State) (port prio : Nat) (f : Intake → Intake) : (s.modIntake port prio f).regs = s.regs := rfl
@[simp] theorem State.modIntake_readLatch (s : State) (port prio : Nat) (f : Intake → Intake) : (s.modIntake port prio f).readLatch = s.readLatch := rfl
@[simp] theorem State.modIntake_writeLatch (s : State) (port prio : Nat) (f : Intake → Intake) : (s.modIntake port prio f).writeLatch = s.writeLatch := rfl
@[simp] theorem State.modIntake_fresh (s : State) (port prio : Nat) (f : Intake → Intake) : (s.modIntake port prio f).fresh = s.fresh := rfl
@[simp] theorem State.modIntake_lockGlobal (s : State) (port prio : Nat) (f : Intake → Intake) : (s.modIntake port prio f).lockGlobal = s.lockGlobal := rfl
@[simp] theorem State.modIntake_lockParts (s : State) (port prio : Nat) (f : Intake → Intake) : (s.modIntake port prio f).lockParts = s.lockParts := rfl
@[simp] theorem State.modIntake_access (s : State) (port prio : Nat) (f : Intake → Intake) : (s.modIntake port prio f).access = s.access := rfl
@[simp] theorem State.modIntake_plan (s : State) (port prio : Nat) (f : Intake → Intake) : (s.modIntake port prio f).plan = s.plan := rfl
@[simp] theorem State.modIntake_parts (s : State) (port prio : Nat) (f : Intake → Intake) : (s.modIntake port prio f).parts = s.parts := rfl
@[simp] theorem State.modIntake_wells (s : State) (port prio : Nat) (f : Intake → Intake) : (s.modIntake port prio f).wells = s.wells := rfl
@[simp] theorem State.modIntake_fns (s : State) (port prio : Nat) (f : Intake → Intake) : (s.modIntake port prio f).fns = s.fns := rfl
@[simp] theorem State.modIntake_host (s : State) (port prio : Nat) (f : Intake → Intake) : (s.modIntake port prio f).host = s.host := rfl
@[simp] theorem State.modIntake_cmds (s : State) (port prio : Nat) (f : Intake → Intake) : (s.modIntake port prio f).cmds = s.cmds := rfl
@[simp] theorem State.modIntake_ports (s : State) (port prio : Nat) (f : Intake → Intake) : (s.modIntake port prio f).ports = s.ports := rfl
@[simp] theorem State.modIntake_qps (s : State) (port prio : Nat) (f : Intake → Intake) : (s.modIntake port prio f).qps = s.qps := rfl
@[simp] theorem State.modIntake_commits (s : State) (port prio : Nat) (f : Intake → Intake) : (s.modIntake port prio f).commits = s.commits := rfl
@[simp] theorem State.modIntake_regionChanges (s : State) (port prio : Nat) (f : Intake → Intake) : (s.modIntake port prio f).regionChanges = s.regionChanges := rfl
@[simp] theorem State.modIntake_lantus (s : State) (port prio : Nat) (f : Intake → Intake) : (s.modIntake port prio f).lantus = s.lantus := rfl
@[simp] theorem State.modIntake_opSession (s : State) (port prio : Nat) (f : Intake → Intake) : (s.modIntake port prio f).opSession = s.opSession := rfl
@[simp] theorem State.modIntake_sources (s : State) (port prio : Nat) (f : Intake → Intake) : (s.modIntake port prio f).sources = s.sources := rfl
@[simp] theorem State.modIntake_drbgs (s : State) (port prio : Nat) (f : Intake → Intake) : (s.modIntake port prio f).drbgs = s.drbgs := rfl
@[simp] theorem State.modIntake_power (s : State) (port prio : Nat) (f : Intake → Intake) : (s.modIntake port prio f).power = s.power := rfl
@[simp] theorem State.modIntake_log (s : State) (port prio : Nat) (f : Intake → Intake) : (s.modIntake port prio f).log = s.log := rfl
@[simp] theorem State.modIntake_pending (s : State) (port prio : Nat) (f : Intake → Intake) : (s.modIntake port prio f).pending = s.pending := rfl
@[simp] theorem State.modIntake_out (s : State) (port prio : Nat) (f : Intake → Intake) : (s.modIntake port prio f).out = s.out := rfl
@[simp] theorem State.modIntake_freeCount (s : State) (port prio : Nat) (f : Intake → Intake) : (s.modIntake port prio f).freeCount = s.freeCount := rfl

/-! ## State.setQp -/

@[simp] theorem State.setQp_devtime (s : State) (n : Nat) (q : Qp) : (s.setQp n q).devtime = s.devtime := rfl
@[simp] theorem State.setQp_life (s : State) (n : Nat) (q : Qp) : (s.setQp n q).life = s.life := rfl
@[simp] theorem State.setQp_resetLow (s : State) (n : Nat) (q : Qp) : (s.setQp n q).resetLow = s.resetLow := rfl
@[simp] theorem State.setQp_pwrFailLow (s : State) (n : Nat) (q : Qp) : (s.setQp n q).pwrFailLow = s.pwrFailLow := rfl
@[simp] theorem State.setQp_faultN (s : State) (n : Nat) (q : Qp) : (s.setQp n q).faultN = s.faultN := rfl
@[simp] theorem State.setQp_thermTrip (s : State) (n : Nat) (q : Qp) : (s.setQp n q).thermTrip = s.thermTrip := rfl
@[simp] theorem State.setQp_regs (s : State) (n : Nat) (q : Qp) : (s.setQp n q).regs = s.regs := rfl
@[simp] theorem State.setQp_readLatch (s : State) (n : Nat) (q : Qp) : (s.setQp n q).readLatch = s.readLatch := rfl
@[simp] theorem State.setQp_writeLatch (s : State) (n : Nat) (q : Qp) : (s.setQp n q).writeLatch = s.writeLatch := rfl
@[simp] theorem State.setQp_fresh (s : State) (n : Nat) (q : Qp) : (s.setQp n q).fresh = s.fresh := rfl
@[simp] theorem State.setQp_lockGlobal (s : State) (n : Nat) (q : Qp) : (s.setQp n q).lockGlobal = s.lockGlobal := rfl
@[simp] theorem State.setQp_lockParts (s : State) (n : Nat) (q : Qp) : (s.setQp n q).lockParts = s.lockParts := rfl
@[simp] theorem State.setQp_access (s : State) (n : Nat) (q : Qp) : (s.setQp n q).access = s.access := rfl
@[simp] theorem State.setQp_plan (s : State) (n : Nat) (q : Qp) : (s.setQp n q).plan = s.plan := rfl
@[simp] theorem State.setQp_parts (s : State) (n : Nat) (q : Qp) : (s.setQp n q).parts = s.parts := rfl
@[simp] theorem State.setQp_wells (s : State) (n : Nat) (q : Qp) : (s.setQp n q).wells = s.wells := rfl
@[simp] theorem State.setQp_fns (s : State) (n : Nat) (q : Qp) : (s.setQp n q).fns = s.fns := rfl
@[simp] theorem State.setQp_host (s : State) (n : Nat) (q : Qp) : (s.setQp n q).host = s.host := rfl
@[simp] theorem State.setQp_cmds (s : State) (n : Nat) (q : Qp) : (s.setQp n q).cmds = s.cmds := rfl
@[simp] theorem State.setQp_ports (s : State) (n : Nat) (q : Qp) : (s.setQp n q).ports = s.ports := rfl
@[simp] theorem State.setQp_intakes (s : State) (n : Nat) (q : Qp) : (s.setQp n q).intakes = s.intakes := rfl
@[simp] theorem State.setQp_commits (s : State) (n : Nat) (q : Qp) : (s.setQp n q).commits = s.commits := rfl
@[simp] theorem State.setQp_regionChanges (s : State) (n : Nat) (q : Qp) : (s.setQp n q).regionChanges = s.regionChanges := rfl
@[simp] theorem State.setQp_lantus (s : State) (n : Nat) (q : Qp) : (s.setQp n q).lantus = s.lantus := rfl
@[simp] theorem State.setQp_opSession (s : State) (n : Nat) (q : Qp) : (s.setQp n q).opSession = s.opSession := rfl
@[simp] theorem State.setQp_sources (s : State) (n : Nat) (q : Qp) : (s.setQp n q).sources = s.sources := rfl
@[simp] theorem State.setQp_drbgs (s : State) (n : Nat) (q : Qp) : (s.setQp n q).drbgs = s.drbgs := rfl
@[simp] theorem State.setQp_power (s : State) (n : Nat) (q : Qp) : (s.setQp n q).power = s.power := rfl
@[simp] theorem State.setQp_log (s : State) (n : Nat) (q : Qp) : (s.setQp n q).log = s.log := rfl
@[simp] theorem State.setQp_pending (s : State) (n : Nat) (q : Qp) : (s.setQp n q).pending = s.pending := rfl
@[simp] theorem State.setQp_out (s : State) (n : Nat) (q : Qp) : (s.setQp n q).out = s.out := rfl
@[simp] theorem State.setQp_freeCount (s : State) (n : Nat) (q : Qp) : (s.setQp n q).freeCount = s.freeCount := rfl

/-! ## State.modQp -/

@[simp] theorem State.modQp_devtime (s : State) (n : Nat) (f : Qp → Qp) : (s.modQp n f).devtime = s.devtime := rfl
@[simp] theorem State.modQp_life (s : State) (n : Nat) (f : Qp → Qp) : (s.modQp n f).life = s.life := rfl
@[simp] theorem State.modQp_resetLow (s : State) (n : Nat) (f : Qp → Qp) : (s.modQp n f).resetLow = s.resetLow := rfl
@[simp] theorem State.modQp_pwrFailLow (s : State) (n : Nat) (f : Qp → Qp) : (s.modQp n f).pwrFailLow = s.pwrFailLow := rfl
@[simp] theorem State.modQp_faultN (s : State) (n : Nat) (f : Qp → Qp) : (s.modQp n f).faultN = s.faultN := rfl
@[simp] theorem State.modQp_thermTrip (s : State) (n : Nat) (f : Qp → Qp) : (s.modQp n f).thermTrip = s.thermTrip := rfl
@[simp] theorem State.modQp_regs (s : State) (n : Nat) (f : Qp → Qp) : (s.modQp n f).regs = s.regs := rfl
@[simp] theorem State.modQp_readLatch (s : State) (n : Nat) (f : Qp → Qp) : (s.modQp n f).readLatch = s.readLatch := rfl
@[simp] theorem State.modQp_writeLatch (s : State) (n : Nat) (f : Qp → Qp) : (s.modQp n f).writeLatch = s.writeLatch := rfl
@[simp] theorem State.modQp_fresh (s : State) (n : Nat) (f : Qp → Qp) : (s.modQp n f).fresh = s.fresh := rfl
@[simp] theorem State.modQp_lockGlobal (s : State) (n : Nat) (f : Qp → Qp) : (s.modQp n f).lockGlobal = s.lockGlobal := rfl
@[simp] theorem State.modQp_lockParts (s : State) (n : Nat) (f : Qp → Qp) : (s.modQp n f).lockParts = s.lockParts := rfl
@[simp] theorem State.modQp_access (s : State) (n : Nat) (f : Qp → Qp) : (s.modQp n f).access = s.access := rfl
@[simp] theorem State.modQp_plan (s : State) (n : Nat) (f : Qp → Qp) : (s.modQp n f).plan = s.plan := rfl
@[simp] theorem State.modQp_parts (s : State) (n : Nat) (f : Qp → Qp) : (s.modQp n f).parts = s.parts := rfl
@[simp] theorem State.modQp_wells (s : State) (n : Nat) (f : Qp → Qp) : (s.modQp n f).wells = s.wells := rfl
@[simp] theorem State.modQp_fns (s : State) (n : Nat) (f : Qp → Qp) : (s.modQp n f).fns = s.fns := rfl
@[simp] theorem State.modQp_host (s : State) (n : Nat) (f : Qp → Qp) : (s.modQp n f).host = s.host := rfl
@[simp] theorem State.modQp_cmds (s : State) (n : Nat) (f : Qp → Qp) : (s.modQp n f).cmds = s.cmds := rfl
@[simp] theorem State.modQp_ports (s : State) (n : Nat) (f : Qp → Qp) : (s.modQp n f).ports = s.ports := rfl
@[simp] theorem State.modQp_intakes (s : State) (n : Nat) (f : Qp → Qp) : (s.modQp n f).intakes = s.intakes := rfl
@[simp] theorem State.modQp_commits (s : State) (n : Nat) (f : Qp → Qp) : (s.modQp n f).commits = s.commits := rfl
@[simp] theorem State.modQp_regionChanges (s : State) (n : Nat) (f : Qp → Qp) : (s.modQp n f).regionChanges = s.regionChanges := rfl
@[simp] theorem State.modQp_lantus (s : State) (n : Nat) (f : Qp → Qp) : (s.modQp n f).lantus = s.lantus := rfl
@[simp] theorem State.modQp_opSession (s : State) (n : Nat) (f : Qp → Qp) : (s.modQp n f).opSession = s.opSession := rfl
@[simp] theorem State.modQp_sources (s : State) (n : Nat) (f : Qp → Qp) : (s.modQp n f).sources = s.sources := rfl
@[simp] theorem State.modQp_drbgs (s : State) (n : Nat) (f : Qp → Qp) : (s.modQp n f).drbgs = s.drbgs := rfl
@[simp] theorem State.modQp_power (s : State) (n : Nat) (f : Qp → Qp) : (s.modQp n f).power = s.power := rfl
@[simp] theorem State.modQp_log (s : State) (n : Nat) (f : Qp → Qp) : (s.modQp n f).log = s.log := rfl
@[simp] theorem State.modQp_pending (s : State) (n : Nat) (f : Qp → Qp) : (s.modQp n f).pending = s.pending := rfl
@[simp] theorem State.modQp_out (s : State) (n : Nat) (f : Qp → Qp) : (s.modQp n f).out = s.out := rfl
@[simp] theorem State.modQp_freeCount (s : State) (n : Nat) (f : Qp → Qp) : (s.modQp n f).freeCount = s.freeCount := rfl

/-! ## State.modLantus -/

@[simp] theorem State.modLantus_devtime (s : State) (f : Lantus → Lantus) : (s.modLantus f).devtime = s.devtime := rfl
@[simp] theorem State.modLantus_life (s : State) (f : Lantus → Lantus) : (s.modLantus f).life = s.life := rfl
@[simp] theorem State.modLantus_resetLow (s : State) (f : Lantus → Lantus) : (s.modLantus f).resetLow = s.resetLow := rfl
@[simp] theorem State.modLantus_pwrFailLow (s : State) (f : Lantus → Lantus) : (s.modLantus f).pwrFailLow = s.pwrFailLow := rfl
@[simp] theorem State.modLantus_faultN (s : State) (f : Lantus → Lantus) : (s.modLantus f).faultN = s.faultN := rfl
@[simp] theorem State.modLantus_thermTrip (s : State) (f : Lantus → Lantus) : (s.modLantus f).thermTrip = s.thermTrip := rfl
@[simp] theorem State.modLantus_regs (s : State) (f : Lantus → Lantus) : (s.modLantus f).regs = s.regs := rfl
@[simp] theorem State.modLantus_readLatch (s : State) (f : Lantus → Lantus) : (s.modLantus f).readLatch = s.readLatch := rfl
@[simp] theorem State.modLantus_writeLatch (s : State) (f : Lantus → Lantus) : (s.modLantus f).writeLatch = s.writeLatch := rfl
@[simp] theorem State.modLantus_fresh (s : State) (f : Lantus → Lantus) : (s.modLantus f).fresh = s.fresh := rfl
@[simp] theorem State.modLantus_lockGlobal (s : State) (f : Lantus → Lantus) : (s.modLantus f).lockGlobal = s.lockGlobal := rfl
@[simp] theorem State.modLantus_lockParts (s : State) (f : Lantus → Lantus) : (s.modLantus f).lockParts = s.lockParts := rfl
@[simp] theorem State.modLantus_access (s : State) (f : Lantus → Lantus) : (s.modLantus f).access = s.access := rfl
@[simp] theorem State.modLantus_plan (s : State) (f : Lantus → Lantus) : (s.modLantus f).plan = s.plan := rfl
@[simp] theorem State.modLantus_parts (s : State) (f : Lantus → Lantus) : (s.modLantus f).parts = s.parts := rfl
@[simp] theorem State.modLantus_wells (s : State) (f : Lantus → Lantus) : (s.modLantus f).wells = s.wells := rfl
@[simp] theorem State.modLantus_fns (s : State) (f : Lantus → Lantus) : (s.modLantus f).fns = s.fns := rfl
@[simp] theorem State.modLantus_host (s : State) (f : Lantus → Lantus) : (s.modLantus f).host = s.host := rfl
@[simp] theorem State.modLantus_cmds (s : State) (f : Lantus → Lantus) : (s.modLantus f).cmds = s.cmds := rfl
@[simp] theorem State.modLantus_ports (s : State) (f : Lantus → Lantus) : (s.modLantus f).ports = s.ports := rfl
@[simp] theorem State.modLantus_intakes (s : State) (f : Lantus → Lantus) : (s.modLantus f).intakes = s.intakes := rfl
@[simp] theorem State.modLantus_qps (s : State) (f : Lantus → Lantus) : (s.modLantus f).qps = s.qps := rfl
@[simp] theorem State.modLantus_commits (s : State) (f : Lantus → Lantus) : (s.modLantus f).commits = s.commits := rfl
@[simp] theorem State.modLantus_regionChanges (s : State) (f : Lantus → Lantus) : (s.modLantus f).regionChanges = s.regionChanges := rfl
@[simp] theorem State.modLantus_opSession (s : State) (f : Lantus → Lantus) : (s.modLantus f).opSession = s.opSession := rfl
@[simp] theorem State.modLantus_sources (s : State) (f : Lantus → Lantus) : (s.modLantus f).sources = s.sources := rfl
@[simp] theorem State.modLantus_drbgs (s : State) (f : Lantus → Lantus) : (s.modLantus f).drbgs = s.drbgs := rfl
@[simp] theorem State.modLantus_power (s : State) (f : Lantus → Lantus) : (s.modLantus f).power = s.power := rfl
@[simp] theorem State.modLantus_log (s : State) (f : Lantus → Lantus) : (s.modLantus f).log = s.log := rfl
@[simp] theorem State.modLantus_pending (s : State) (f : Lantus → Lantus) : (s.modLantus f).pending = s.pending := rfl
@[simp] theorem State.modLantus_out (s : State) (f : Lantus → Lantus) : (s.modLantus f).out = s.out := rfl
@[simp] theorem State.modLantus_freeCount (s : State) (f : Lantus → Lantus) : (s.modLantus f).freeCount = s.freeCount := rfl

/-! ## State.modPower -/

@[simp] theorem State.modPower_devtime (s : State) (f : Power → Power) : (s.modPower f).devtime = s.devtime := rfl
@[simp] theorem State.modPower_life (s : State) (f : Power → Power) : (s.modPower f).life = s.life := rfl
@[simp] theorem State.modPower_resetLow (s : State) (f : Power → Power) : (s.modPower f).resetLow = s.resetLow := rfl
@[simp] theorem State.modPower_pwrFailLow (s : State) (f : Power → Power) : (s.modPower f).pwrFailLow = s.pwrFailLow := rfl
@[simp] theorem State.modPower_faultN (s : State) (f : Power → Power) : (s.modPower f).faultN = s.faultN := rfl
@[simp] theorem State.modPower_thermTrip (s : State) (f : Power → Power) : (s.modPower f).thermTrip = s.thermTrip := rfl
@[simp] theorem State.modPower_regs (s : State) (f : Power → Power) : (s.modPower f).regs = s.regs := rfl
@[simp] theorem State.modPower_readLatch (s : State) (f : Power → Power) : (s.modPower f).readLatch = s.readLatch := rfl
@[simp] theorem State.modPower_writeLatch (s : State) (f : Power → Power) : (s.modPower f).writeLatch = s.writeLatch := rfl
@[simp] theorem State.modPower_fresh (s : State) (f : Power → Power) : (s.modPower f).fresh = s.fresh := rfl
@[simp] theorem State.modPower_lockGlobal (s : State) (f : Power → Power) : (s.modPower f).lockGlobal = s.lockGlobal := rfl
@[simp] theorem State.modPower_lockParts (s : State) (f : Power → Power) : (s.modPower f).lockParts = s.lockParts := rfl
@[simp] theorem State.modPower_access (s : State) (f : Power → Power) : (s.modPower f).access = s.access := rfl
@[simp] theorem State.modPower_plan (s : State) (f : Power → Power) : (s.modPower f).plan = s.plan := rfl
@[simp] theorem State.modPower_parts (s : State) (f : Power → Power) : (s.modPower f).parts = s.parts := rfl
@[simp] theorem State.modPower_wells (s : State) (f : Power → Power) : (s.modPower f).wells = s.wells := rfl
@[simp] theorem State.modPower_fns (s : State) (f : Power → Power) : (s.modPower f).fns = s.fns := rfl
@[simp] theorem State.modPower_host (s : State) (f : Power → Power) : (s.modPower f).host = s.host := rfl
@[simp] theorem State.modPower_cmds (s : State) (f : Power → Power) : (s.modPower f).cmds = s.cmds := rfl
@[simp] theorem State.modPower_ports (s : State) (f : Power → Power) : (s.modPower f).ports = s.ports := rfl
@[simp] theorem State.modPower_intakes (s : State) (f : Power → Power) : (s.modPower f).intakes = s.intakes := rfl
@[simp] theorem State.modPower_qps (s : State) (f : Power → Power) : (s.modPower f).qps = s.qps := rfl
@[simp] theorem State.modPower_commits (s : State) (f : Power → Power) : (s.modPower f).commits = s.commits := rfl
@[simp] theorem State.modPower_regionChanges (s : State) (f : Power → Power) : (s.modPower f).regionChanges = s.regionChanges := rfl
@[simp] theorem State.modPower_lantus (s : State) (f : Power → Power) : (s.modPower f).lantus = s.lantus := rfl
@[simp] theorem State.modPower_opSession (s : State) (f : Power → Power) : (s.modPower f).opSession = s.opSession := rfl
@[simp] theorem State.modPower_sources (s : State) (f : Power → Power) : (s.modPower f).sources = s.sources := rfl
@[simp] theorem State.modPower_drbgs (s : State) (f : Power → Power) : (s.modPower f).drbgs = s.drbgs := rfl
@[simp] theorem State.modPower_log (s : State) (f : Power → Power) : (s.modPower f).log = s.log := rfl
@[simp] theorem State.modPower_pending (s : State) (f : Power → Power) : (s.modPower f).pending = s.pending := rfl
@[simp] theorem State.modPower_out (s : State) (f : Power → Power) : (s.modPower f).out = s.out := rfl
@[simp] theorem State.modPower_freeCount (s : State) (f : Power → Power) : (s.modPower f).freeCount = s.freeCount := rfl

/-! ## State.modCmd -/

@[simp] theorem State.modCmd_devtime (s : State) (r : CmdRef) (f : Cmd → Cmd) : (s.modCmd r f).devtime = s.devtime := rfl
@[simp] theorem State.modCmd_life (s : State) (r : CmdRef) (f : Cmd → Cmd) : (s.modCmd r f).life = s.life := rfl
@[simp] theorem State.modCmd_resetLow (s : State) (r : CmdRef) (f : Cmd → Cmd) : (s.modCmd r f).resetLow = s.resetLow := rfl
@[simp] theorem State.modCmd_pwrFailLow (s : State) (r : CmdRef) (f : Cmd → Cmd) : (s.modCmd r f).pwrFailLow = s.pwrFailLow := rfl
@[simp] theorem State.modCmd_faultN (s : State) (r : CmdRef) (f : Cmd → Cmd) : (s.modCmd r f).faultN = s.faultN := rfl
@[simp] theorem State.modCmd_thermTrip (s : State) (r : CmdRef) (f : Cmd → Cmd) : (s.modCmd r f).thermTrip = s.thermTrip := rfl
@[simp] theorem State.modCmd_regs (s : State) (r : CmdRef) (f : Cmd → Cmd) : (s.modCmd r f).regs = s.regs := rfl
@[simp] theorem State.modCmd_readLatch (s : State) (r : CmdRef) (f : Cmd → Cmd) : (s.modCmd r f).readLatch = s.readLatch := rfl
@[simp] theorem State.modCmd_writeLatch (s : State) (r : CmdRef) (f : Cmd → Cmd) : (s.modCmd r f).writeLatch = s.writeLatch := rfl
@[simp] theorem State.modCmd_fresh (s : State) (r : CmdRef) (f : Cmd → Cmd) : (s.modCmd r f).fresh = s.fresh := rfl
@[simp] theorem State.modCmd_lockGlobal (s : State) (r : CmdRef) (f : Cmd → Cmd) : (s.modCmd r f).lockGlobal = s.lockGlobal := rfl
@[simp] theorem State.modCmd_lockParts (s : State) (r : CmdRef) (f : Cmd → Cmd) : (s.modCmd r f).lockParts = s.lockParts := rfl
@[simp] theorem State.modCmd_access (s : State) (r : CmdRef) (f : Cmd → Cmd) : (s.modCmd r f).access = s.access := rfl
@[simp] theorem State.modCmd_plan (s : State) (r : CmdRef) (f : Cmd → Cmd) : (s.modCmd r f).plan = s.plan := rfl
@[simp] theorem State.modCmd_parts (s : State) (r : CmdRef) (f : Cmd → Cmd) : (s.modCmd r f).parts = s.parts := rfl
@[simp] theorem State.modCmd_wells (s : State) (r : CmdRef) (f : Cmd → Cmd) : (s.modCmd r f).wells = s.wells := rfl
@[simp] theorem State.modCmd_fns (s : State) (r : CmdRef) (f : Cmd → Cmd) : (s.modCmd r f).fns = s.fns := rfl
@[simp] theorem State.modCmd_host (s : State) (r : CmdRef) (f : Cmd → Cmd) : (s.modCmd r f).host = s.host := rfl
@[simp] theorem State.modCmd_ports (s : State) (r : CmdRef) (f : Cmd → Cmd) : (s.modCmd r f).ports = s.ports := rfl
@[simp] theorem State.modCmd_intakes (s : State) (r : CmdRef) (f : Cmd → Cmd) : (s.modCmd r f).intakes = s.intakes := rfl
@[simp] theorem State.modCmd_qps (s : State) (r : CmdRef) (f : Cmd → Cmd) : (s.modCmd r f).qps = s.qps := rfl
@[simp] theorem State.modCmd_commits (s : State) (r : CmdRef) (f : Cmd → Cmd) : (s.modCmd r f).commits = s.commits := rfl
@[simp] theorem State.modCmd_regionChanges (s : State) (r : CmdRef) (f : Cmd → Cmd) : (s.modCmd r f).regionChanges = s.regionChanges := rfl
@[simp] theorem State.modCmd_lantus (s : State) (r : CmdRef) (f : Cmd → Cmd) : (s.modCmd r f).lantus = s.lantus := rfl
@[simp] theorem State.modCmd_opSession (s : State) (r : CmdRef) (f : Cmd → Cmd) : (s.modCmd r f).opSession = s.opSession := rfl
@[simp] theorem State.modCmd_sources (s : State) (r : CmdRef) (f : Cmd → Cmd) : (s.modCmd r f).sources = s.sources := rfl
@[simp] theorem State.modCmd_drbgs (s : State) (r : CmdRef) (f : Cmd → Cmd) : (s.modCmd r f).drbgs = s.drbgs := rfl
@[simp] theorem State.modCmd_power (s : State) (r : CmdRef) (f : Cmd → Cmd) : (s.modCmd r f).power = s.power := rfl
@[simp] theorem State.modCmd_log (s : State) (r : CmdRef) (f : Cmd → Cmd) : (s.modCmd r f).log = s.log := rfl
@[simp] theorem State.modCmd_pending (s : State) (r : CmdRef) (f : Cmd → Cmd) : (s.modCmd r f).pending = s.pending := rfl
@[simp] theorem State.modCmd_out (s : State) (r : CmdRef) (f : Cmd → Cmd) : (s.modCmd r f).out = s.out := rfl
@[simp] theorem State.modCmd_freeCount (s : State) (r : CmdRef) (f : Cmd → Cmd) : (s.modCmd r f).freeCount = s.freeCount := rfl

/-! ## State.startCmd -/

@[simp] theorem State.startCmd_devtime (s : State) (r : CmdRef) : (s.startCmd r).devtime = s.devtime := rfl
@[simp] theorem State.startCmd_life (s : State) (r : CmdRef) : (s.startCmd r).life = s.life := rfl
@[simp] theorem State.startCmd_resetLow (s : State) (r : CmdRef) : (s.startCmd r).resetLow = s.resetLow := rfl
@[simp] theorem State.startCmd_pwrFailLow (s : State) (r : CmdRef) : (s.startCmd r).pwrFailLow = s.pwrFailLow := rfl
@[simp] theorem State.startCmd_faultN (s : State) (r : CmdRef) : (s.startCmd r).faultN = s.faultN := rfl
@[simp] theorem State.startCmd_thermTrip (s : State) (r : CmdRef) : (s.startCmd r).thermTrip = s.thermTrip := rfl
@[simp] theorem State.startCmd_regs (s : State) (r : CmdRef) : (s.startCmd r).regs = s.regs := rfl
@[simp] theorem State.startCmd_readLatch (s : State) (r : CmdRef) : (s.startCmd r).readLatch = s.readLatch := rfl
@[simp] theorem State.startCmd_writeLatch (s : State) (r : CmdRef) : (s.startCmd r).writeLatch = s.writeLatch := rfl
@[simp] theorem State.startCmd_fresh (s : State) (r : CmdRef) : (s.startCmd r).fresh = s.fresh := rfl
@[simp] theorem State.startCmd_lockGlobal (s : State) (r : CmdRef) : (s.startCmd r).lockGlobal = s.lockGlobal := rfl
@[simp] theorem State.startCmd_lockParts (s : State) (r : CmdRef) : (s.startCmd r).lockParts = s.lockParts := rfl
@[simp] theorem State.startCmd_access (s : State) (r : CmdRef) : (s.startCmd r).access = s.access := rfl
@[simp] theorem State.startCmd_plan (s : State) (r : CmdRef) : (s.startCmd r).plan = s.plan := rfl
@[simp] theorem State.startCmd_parts (s : State) (r : CmdRef) : (s.startCmd r).parts = s.parts := rfl
@[simp] theorem State.startCmd_wells (s : State) (r : CmdRef) : (s.startCmd r).wells = s.wells := rfl
@[simp] theorem State.startCmd_fns (s : State) (r : CmdRef) : (s.startCmd r).fns = s.fns := rfl
@[simp] theorem State.startCmd_host (s : State) (r : CmdRef) : (s.startCmd r).host = s.host := rfl
@[simp] theorem State.startCmd_ports (s : State) (r : CmdRef) : (s.startCmd r).ports = s.ports := rfl
@[simp] theorem State.startCmd_intakes (s : State) (r : CmdRef) : (s.startCmd r).intakes = s.intakes := rfl
@[simp] theorem State.startCmd_qps (s : State) (r : CmdRef) : (s.startCmd r).qps = s.qps := rfl
@[simp] theorem State.startCmd_commits (s : State) (r : CmdRef) : (s.startCmd r).commits = s.commits := rfl
@[simp] theorem State.startCmd_regionChanges (s : State) (r : CmdRef) : (s.startCmd r).regionChanges = s.regionChanges := rfl
@[simp] theorem State.startCmd_lantus (s : State) (r : CmdRef) : (s.startCmd r).lantus = s.lantus := rfl
@[simp] theorem State.startCmd_opSession (s : State) (r : CmdRef) : (s.startCmd r).opSession = s.opSession := rfl
@[simp] theorem State.startCmd_sources (s : State) (r : CmdRef) : (s.startCmd r).sources = s.sources := rfl
@[simp] theorem State.startCmd_drbgs (s : State) (r : CmdRef) : (s.startCmd r).drbgs = s.drbgs := rfl
@[simp] theorem State.startCmd_power (s : State) (r : CmdRef) : (s.startCmd r).power = s.power := rfl
@[simp] theorem State.startCmd_log (s : State) (r : CmdRef) : (s.startCmd r).log = s.log := rfl
@[simp] theorem State.startCmd_pending (s : State) (r : CmdRef) : (s.startCmd r).pending = s.pending := rfl
@[simp] theorem State.startCmd_out (s : State) (r : CmdRef) : (s.startCmd r).out = s.out := rfl
@[simp] theorem State.startCmd_freeCount (s : State) (r : CmdRef) : (s.startCmd r).freeCount = s.freeCount := rfl

/-! ## State.emit -/

@[simp] theorem State.emit_devtime (s : State) (o : Output) : (s.emit o).devtime = s.devtime := rfl
@[simp] theorem State.emit_life (s : State) (o : Output) : (s.emit o).life = s.life := rfl
@[simp] theorem State.emit_resetLow (s : State) (o : Output) : (s.emit o).resetLow = s.resetLow := rfl
@[simp] theorem State.emit_pwrFailLow (s : State) (o : Output) : (s.emit o).pwrFailLow = s.pwrFailLow := rfl
@[simp] theorem State.emit_faultN (s : State) (o : Output) : (s.emit o).faultN = s.faultN := rfl
@[simp] theorem State.emit_thermTrip (s : State) (o : Output) : (s.emit o).thermTrip = s.thermTrip := rfl
@[simp] theorem State.emit_regs (s : State) (o : Output) : (s.emit o).regs = s.regs := rfl
@[simp] theorem State.emit_readLatch (s : State) (o : Output) : (s.emit o).readLatch = s.readLatch := rfl
@[simp] theorem State.emit_writeLatch (s : State) (o : Output) : (s.emit o).writeLatch = s.writeLatch := rfl
@[simp] theorem State.emit_fresh (s : State) (o : Output) : (s.emit o).fresh = s.fresh := rfl
@[simp] theorem State.emit_lockGlobal (s : State) (o : Output) : (s.emit o).lockGlobal = s.lockGlobal := rfl
@[simp] theorem State.emit_lockParts (s : State) (o : Output) : (s.emit o).lockParts = s.lockParts := rfl
@[simp] theorem State.emit_access (s : State) (o : Output) : (s.emit o).access = s.access := rfl
@[simp] theorem State.emit_plan (s : State) (o : Output) : (s.emit o).plan = s.plan := rfl
@[simp] theorem State.emit_parts (s : State) (o : Output) : (s.emit o).parts = s.parts := rfl
@[simp] theorem State.emit_wells (s : State) (o : Output) : (s.emit o).wells = s.wells := rfl
@[simp] theorem State.emit_fns (s : State) (o : Output) : (s.emit o).fns = s.fns := rfl
@[simp] theorem State.emit_host (s : State) (o : Output) : (s.emit o).host = s.host := rfl
@[simp] theorem State.emit_cmds (s : State) (o : Output) : (s.emit o).cmds = s.cmds := rfl
@[simp] theorem State.emit_ports (s : State) (o : Output) : (s.emit o).ports = s.ports := rfl
@[simp] theorem State.emit_intakes (s : State) (o : Output) : (s.emit o).intakes = s.intakes := rfl
@[simp] theorem State.emit_qps (s : State) (o : Output) : (s.emit o).qps = s.qps := rfl
@[simp] theorem State.emit_commits (s : State) (o : Output) : (s.emit o).commits = s.commits := rfl
@[simp] theorem State.emit_regionChanges (s : State) (o : Output) : (s.emit o).regionChanges = s.regionChanges := rfl
@[simp] theorem State.emit_lantus (s : State) (o : Output) : (s.emit o).lantus = s.lantus := rfl
@[simp] theorem State.emit_opSession (s : State) (o : Output) : (s.emit o).opSession = s.opSession := rfl
@[simp] theorem State.emit_sources (s : State) (o : Output) : (s.emit o).sources = s.sources := rfl
@[simp] theorem State.emit_drbgs (s : State) (o : Output) : (s.emit o).drbgs = s.drbgs := rfl
@[simp] theorem State.emit_power (s : State) (o : Output) : (s.emit o).power = s.power := rfl
@[simp] theorem State.emit_log (s : State) (o : Output) : (s.emit o).log = s.log := rfl
@[simp] theorem State.emit_pending (s : State) (o : Output) : (s.emit o).pending = s.pending := rfl
@[simp] theorem State.emit_freeCount (s : State) (o : Output) : (s.emit o).freeCount = s.freeCount := rfl

/-! ## State.setReg -/

@[simp] theorem State.setReg_devtime (s : State) (x v : Nat) : (s.setReg x v).devtime = s.devtime := rfl
@[simp] theorem State.setReg_life (s : State) (x v : Nat) : (s.setReg x v).life = s.life := rfl
@[simp] theorem State.setReg_resetLow (s : State) (x v : Nat) : (s.setReg x v).resetLow = s.resetLow := rfl
@[simp] theorem State.setReg_pwrFailLow (s : State) (x v : Nat) : (s.setReg x v).pwrFailLow = s.pwrFailLow := rfl
@[simp] theorem State.setReg_faultN (s : State) (x v : Nat) : (s.setReg x v).faultN = s.faultN := rfl
@[simp] theorem State.setReg_thermTrip (s : State) (x v : Nat) : (s.setReg x v).thermTrip = s.thermTrip := rfl
@[simp] theorem State.setReg_readLatch (s : State) (x v : Nat) : (s.setReg x v).readLatch = s.readLatch := rfl
@[simp] theorem State.setReg_writeLatch (s : State) (x v : Nat) : (s.setReg x v).writeLatch = s.writeLatch := rfl
@[simp] theorem State.setReg_fresh (s : State) (x v : Nat) : (s.setReg x v).fresh = s.fresh := rfl
@[simp] theorem State.setReg_lockGlobal (s : State) (x v : Nat) : (s.setReg x v).lockGlobal = s.lockGlobal := rfl
@[simp] theorem State.setReg_lockParts (s : State) (x v : Nat) : (s.setReg x v).lockParts = s.lockParts := rfl
@[simp] theorem State.setReg_access (s : State) (x v : Nat) : (s.setReg x v).access = s.access := rfl
@[simp] theorem State.setReg_plan (s : State) (x v : Nat) : (s.setReg x v).plan = s.plan := rfl
@[simp] theorem State.setReg_parts (s : State) (x v : Nat) : (s.setReg x v).parts = s.parts := rfl
@[simp] theorem State.setReg_wells (s : State) (x v : Nat) : (s.setReg x v).wells = s.wells := rfl
@[simp] theorem State.setReg_fns (s : State) (x v : Nat) : (s.setReg x v).fns = s.fns := rfl
@[simp] theorem State.setReg_host (s : State) (x v : Nat) : (s.setReg x v).host = s.host := rfl
@[simp] theorem State.setReg_cmds (s : State) (x v : Nat) : (s.setReg x v).cmds = s.cmds := rfl
@[simp] theorem State.setReg_ports (s : State) (x v : Nat) : (s.setReg x v).ports = s.ports := rfl
@[simp] theorem State.setReg_intakes (s : State) (x v : Nat) : (s.setReg x v).intakes = s.intakes := rfl
@[simp] theorem State.setReg_qps (s : State) (x v : Nat) : (s.setReg x v).qps = s.qps := rfl
@[simp] theorem State.setReg_commits (s : State) (x v : Nat) : (s.setReg x v).commits = s.commits := rfl
@[simp] theorem State.setReg_regionChanges (s : State) (x v : Nat) : (s.setReg x v).regionChanges = s.regionChanges := rfl
@[simp] theorem State.setReg_lantus (s : State) (x v : Nat) : (s.setReg x v).lantus = s.lantus := rfl
@[simp] theorem State.setReg_opSession (s : State) (x v : Nat) : (s.setReg x v).opSession = s.opSession := rfl
@[simp] theorem State.setReg_sources (s : State) (x v : Nat) : (s.setReg x v).sources = s.sources := rfl
@[simp] theorem State.setReg_drbgs (s : State) (x v : Nat) : (s.setReg x v).drbgs = s.drbgs := rfl
@[simp] theorem State.setReg_power (s : State) (x v : Nat) : (s.setReg x v).power = s.power := rfl
@[simp] theorem State.setReg_log (s : State) (x v : Nat) : (s.setReg x v).log = s.log := rfl
@[simp] theorem State.setReg_pending (s : State) (x v : Nat) : (s.setReg x v).pending = s.pending := rfl
@[simp] theorem State.setReg_out (s : State) (x v : Nat) : (s.setReg x v).out = s.out := rfl
@[simp] theorem State.setReg_freeCount (s : State) (x v : Nat) : (s.setReg x v).freeCount = s.freeCount := rfl

/-! ## State.setBits -/

@[simp] theorem State.setBits_devtime (s : State) (x hi lo v : Nat) : (s.setBits x hi lo v).devtime = s.devtime := rfl
@[simp] theorem State.setBits_life (s : State) (x hi lo v : Nat) : (s.setBits x hi lo v).life = s.life := rfl
@[simp] theorem State.setBits_resetLow (s : State) (x hi lo v : Nat) : (s.setBits x hi lo v).resetLow = s.resetLow := rfl
@[simp] theorem State.setBits_pwrFailLow (s : State) (x hi lo v : Nat) : (s.setBits x hi lo v).pwrFailLow = s.pwrFailLow := rfl
@[simp] theorem State.setBits_faultN (s : State) (x hi lo v : Nat) : (s.setBits x hi lo v).faultN = s.faultN := rfl
@[simp] theorem State.setBits_thermTrip (s : State) (x hi lo v : Nat) : (s.setBits x hi lo v).thermTrip = s.thermTrip := rfl
@[simp] theorem State.setBits_readLatch (s : State) (x hi lo v : Nat) : (s.setBits x hi lo v).readLatch = s.readLatch := rfl
@[simp] theorem State.setBits_writeLatch (s : State) (x hi lo v : Nat) : (s.setBits x hi lo v).writeLatch = s.writeLatch := rfl
@[simp] theorem State.setBits_lockGlobal (s : State) (x hi lo v : Nat) : (s.setBits x hi lo v).lockGlobal = s.lockGlobal := rfl
@[simp] theorem State.setBits_lockParts (s : State) (x hi lo v : Nat) : (s.setBits x hi lo v).lockParts = s.lockParts := rfl
@[simp] theorem State.setBits_access (s : State) (x hi lo v : Nat) : (s.setBits x hi lo v).access = s.access := rfl
@[simp] theorem State.setBits_plan (s : State) (x hi lo v : Nat) : (s.setBits x hi lo v).plan = s.plan := rfl
@[simp] theorem State.setBits_parts (s : State) (x hi lo v : Nat) : (s.setBits x hi lo v).parts = s.parts := rfl
@[simp] theorem State.setBits_wells (s : State) (x hi lo v : Nat) : (s.setBits x hi lo v).wells = s.wells := rfl
@[simp] theorem State.setBits_fns (s : State) (x hi lo v : Nat) : (s.setBits x hi lo v).fns = s.fns := rfl
@[simp] theorem State.setBits_host (s : State) (x hi lo v : Nat) : (s.setBits x hi lo v).host = s.host := rfl
@[simp] theorem State.setBits_cmds (s : State) (x hi lo v : Nat) : (s.setBits x hi lo v).cmds = s.cmds := rfl
@[simp] theorem State.setBits_ports (s : State) (x hi lo v : Nat) : (s.setBits x hi lo v).ports = s.ports := rfl
@[simp] theorem State.setBits_intakes (s : State) (x hi lo v : Nat) : (s.setBits x hi lo v).intakes = s.intakes := rfl
@[simp] theorem State.setBits_qps (s : State) (x hi lo v : Nat) : (s.setBits x hi lo v).qps = s.qps := rfl
@[simp] theorem State.setBits_commits (s : State) (x hi lo v : Nat) : (s.setBits x hi lo v).commits = s.commits := rfl
@[simp] theorem State.setBits_regionChanges (s : State) (x hi lo v : Nat) : (s.setBits x hi lo v).regionChanges = s.regionChanges := rfl
@[simp] theorem State.setBits_lantus (s : State) (x hi lo v : Nat) : (s.setBits x hi lo v).lantus = s.lantus := rfl
@[simp] theorem State.setBits_opSession (s : State) (x hi lo v : Nat) : (s.setBits x hi lo v).opSession = s.opSession := rfl
@[simp] theorem State.setBits_sources (s : State) (x hi lo v : Nat) : (s.setBits x hi lo v).sources = s.sources := rfl
@[simp] theorem State.setBits_drbgs (s : State) (x hi lo v : Nat) : (s.setBits x hi lo v).drbgs = s.drbgs := rfl
@[simp] theorem State.setBits_power (s : State) (x hi lo v : Nat) : (s.setBits x hi lo v).power = s.power := rfl
@[simp] theorem State.setBits_log (s : State) (x hi lo v : Nat) : (s.setBits x hi lo v).log = s.log := rfl
@[simp] theorem State.setBits_pending (s : State) (x hi lo v : Nat) : (s.setBits x hi lo v).pending = s.pending := rfl
@[simp] theorem State.setBits_out (s : State) (x hi lo v : Nat) : (s.setBits x hi lo v).out = s.out := rfl
@[simp] theorem State.setBits_freeCount (s : State) (x hi lo v : Nat) : (s.setBits x hi lo v).freeCount = s.freeCount := rfl

/-! ## State.count -/

@[simp] theorem State.count_devtime (s : State) (x : Nat) : (s.count x).devtime = s.devtime := rfl
@[simp] theorem State.count_life (s : State) (x : Nat) : (s.count x).life = s.life := rfl
@[simp] theorem State.count_resetLow (s : State) (x : Nat) : (s.count x).resetLow = s.resetLow := rfl
@[simp] theorem State.count_pwrFailLow (s : State) (x : Nat) : (s.count x).pwrFailLow = s.pwrFailLow := rfl
@[simp] theorem State.count_faultN (s : State) (x : Nat) : (s.count x).faultN = s.faultN := rfl
@[simp] theorem State.count_thermTrip (s : State) (x : Nat) : (s.count x).thermTrip = s.thermTrip := rfl
@[simp] theorem State.count_readLatch (s : State) (x : Nat) : (s.count x).readLatch = s.readLatch := rfl
@[simp] theorem State.count_writeLatch (s : State) (x : Nat) : (s.count x).writeLatch = s.writeLatch := rfl
@[simp] theorem State.count_lockGlobal (s : State) (x : Nat) : (s.count x).lockGlobal = s.lockGlobal := rfl
@[simp] theorem State.count_lockParts (s : State) (x : Nat) : (s.count x).lockParts = s.lockParts := rfl
@[simp] theorem State.count_access (s : State) (x : Nat) : (s.count x).access = s.access := rfl
@[simp] theorem State.count_plan (s : State) (x : Nat) : (s.count x).plan = s.plan := rfl
@[simp] theorem State.count_parts (s : State) (x : Nat) : (s.count x).parts = s.parts := rfl
@[simp] theorem State.count_wells (s : State) (x : Nat) : (s.count x).wells = s.wells := rfl
@[simp] theorem State.count_fns (s : State) (x : Nat) : (s.count x).fns = s.fns := rfl
@[simp] theorem State.count_host (s : State) (x : Nat) : (s.count x).host = s.host := rfl
@[simp] theorem State.count_cmds (s : State) (x : Nat) : (s.count x).cmds = s.cmds := rfl
@[simp] theorem State.count_ports (s : State) (x : Nat) : (s.count x).ports = s.ports := rfl
@[simp] theorem State.count_intakes (s : State) (x : Nat) : (s.count x).intakes = s.intakes := rfl
@[simp] theorem State.count_qps (s : State) (x : Nat) : (s.count x).qps = s.qps := rfl
@[simp] theorem State.count_commits (s : State) (x : Nat) : (s.count x).commits = s.commits := rfl
@[simp] theorem State.count_regionChanges (s : State) (x : Nat) : (s.count x).regionChanges = s.regionChanges := rfl
@[simp] theorem State.count_lantus (s : State) (x : Nat) : (s.count x).lantus = s.lantus := rfl
@[simp] theorem State.count_opSession (s : State) (x : Nat) : (s.count x).opSession = s.opSession := rfl
@[simp] theorem State.count_sources (s : State) (x : Nat) : (s.count x).sources = s.sources := rfl
@[simp] theorem State.count_drbgs (s : State) (x : Nat) : (s.count x).drbgs = s.drbgs := rfl
@[simp] theorem State.count_power (s : State) (x : Nat) : (s.count x).power = s.power := rfl
@[simp] theorem State.count_log (s : State) (x : Nat) : (s.count x).log = s.log := rfl
@[simp] theorem State.count_pending (s : State) (x : Nat) : (s.count x).pending = s.pending := rfl
@[simp] theorem State.count_out (s : State) (x : Nat) : (s.count x).out = s.out := rfl
@[simp] theorem State.count_freeCount (s : State) (x : Nat) : (s.count x).freeCount = s.freeCount := rfl

/-! ## State.countBy -/

@[simp] theorem State.countBy_devtime (s : State) (x n : Nat) : (s.countBy x n).devtime = s.devtime := rfl
@[simp] theorem State.countBy_life (s : State) (x n : Nat) : (s.countBy x n).life = s.life := rfl
@[simp] theorem State.countBy_resetLow (s : State) (x n : Nat) : (s.countBy x n).resetLow = s.resetLow := rfl
@[simp] theorem State.countBy_pwrFailLow (s : State) (x n : Nat) : (s.countBy x n).pwrFailLow = s.pwrFailLow := rfl
@[simp] theorem State.countBy_faultN (s : State) (x n : Nat) : (s.countBy x n).faultN = s.faultN := rfl
@[simp] theorem State.countBy_thermTrip (s : State) (x n : Nat) : (s.countBy x n).thermTrip = s.thermTrip := rfl
@[simp] theorem State.countBy_readLatch (s : State) (x n : Nat) : (s.countBy x n).readLatch = s.readLatch := rfl
@[simp] theorem State.countBy_writeLatch (s : State) (x n : Nat) : (s.countBy x n).writeLatch = s.writeLatch := rfl
@[simp] theorem State.countBy_lockGlobal (s : State) (x n : Nat) : (s.countBy x n).lockGlobal = s.lockGlobal := rfl
@[simp] theorem State.countBy_lockParts (s : State) (x n : Nat) : (s.countBy x n).lockParts = s.lockParts := rfl
@[simp] theorem State.countBy_access (s : State) (x n : Nat) : (s.countBy x n).access = s.access := rfl
@[simp] theorem State.countBy_plan (s : State) (x n : Nat) : (s.countBy x n).plan = s.plan := rfl
@[simp] theorem State.countBy_parts (s : State) (x n : Nat) : (s.countBy x n).parts = s.parts := rfl
@[simp] theorem State.countBy_wells (s : State) (x n : Nat) : (s.countBy x n).wells = s.wells := rfl
@[simp] theorem State.countBy_fns (s : State) (x n : Nat) : (s.countBy x n).fns = s.fns := rfl
@[simp] theorem State.countBy_host (s : State) (x n : Nat) : (s.countBy x n).host = s.host := rfl
@[simp] theorem State.countBy_cmds (s : State) (x n : Nat) : (s.countBy x n).cmds = s.cmds := rfl
@[simp] theorem State.countBy_ports (s : State) (x n : Nat) : (s.countBy x n).ports = s.ports := rfl
@[simp] theorem State.countBy_intakes (s : State) (x n : Nat) : (s.countBy x n).intakes = s.intakes := rfl
@[simp] theorem State.countBy_qps (s : State) (x n : Nat) : (s.countBy x n).qps = s.qps := rfl
@[simp] theorem State.countBy_commits (s : State) (x n : Nat) : (s.countBy x n).commits = s.commits := rfl
@[simp] theorem State.countBy_regionChanges (s : State) (x n : Nat) : (s.countBy x n).regionChanges = s.regionChanges := rfl
@[simp] theorem State.countBy_lantus (s : State) (x n : Nat) : (s.countBy x n).lantus = s.lantus := rfl
@[simp] theorem State.countBy_opSession (s : State) (x n : Nat) : (s.countBy x n).opSession = s.opSession := rfl
@[simp] theorem State.countBy_sources (s : State) (x n : Nat) : (s.countBy x n).sources = s.sources := rfl
@[simp] theorem State.countBy_drbgs (s : State) (x n : Nat) : (s.countBy x n).drbgs = s.drbgs := rfl
@[simp] theorem State.countBy_power (s : State) (x n : Nat) : (s.countBy x n).power = s.power := rfl
@[simp] theorem State.countBy_log (s : State) (x n : Nat) : (s.countBy x n).log = s.log := rfl
@[simp] theorem State.countBy_pending (s : State) (x n : Nat) : (s.countBy x n).pending = s.pending := rfl
@[simp] theorem State.countBy_out (s : State) (x n : Nat) : (s.countBy x n).out = s.out := rfl
@[simp] theorem State.countBy_freeCount (s : State) (x n : Nat) : (s.countBy x n).freeCount = s.freeCount := rfl

/-! ## State.setReg64 -/

@[simp] theorem State.setReg64_devtime (s : State) (x v : Nat) : (s.setReg64 x v).devtime = s.devtime := rfl
@[simp] theorem State.setReg64_life (s : State) (x v : Nat) : (s.setReg64 x v).life = s.life := rfl
@[simp] theorem State.setReg64_resetLow (s : State) (x v : Nat) : (s.setReg64 x v).resetLow = s.resetLow := rfl
@[simp] theorem State.setReg64_pwrFailLow (s : State) (x v : Nat) : (s.setReg64 x v).pwrFailLow = s.pwrFailLow := rfl
@[simp] theorem State.setReg64_faultN (s : State) (x v : Nat) : (s.setReg64 x v).faultN = s.faultN := rfl
@[simp] theorem State.setReg64_thermTrip (s : State) (x v : Nat) : (s.setReg64 x v).thermTrip = s.thermTrip := rfl
@[simp] theorem State.setReg64_readLatch (s : State) (x v : Nat) : (s.setReg64 x v).readLatch = s.readLatch := rfl
@[simp] theorem State.setReg64_writeLatch (s : State) (x v : Nat) : (s.setReg64 x v).writeLatch = s.writeLatch := rfl
@[simp] theorem State.setReg64_fresh (s : State) (x v : Nat) : (s.setReg64 x v).fresh = s.fresh := rfl
@[simp] theorem State.setReg64_lockGlobal (s : State) (x v : Nat) : (s.setReg64 x v).lockGlobal = s.lockGlobal := rfl
@[simp] theorem State.setReg64_lockParts (s : State) (x v : Nat) : (s.setReg64 x v).lockParts = s.lockParts := rfl
@[simp] theorem State.setReg64_access (s : State) (x v : Nat) : (s.setReg64 x v).access = s.access := rfl
@[simp] theorem State.setReg64_plan (s : State) (x v : Nat) : (s.setReg64 x v).plan = s.plan := rfl
@[simp] theorem State.setReg64_parts (s : State) (x v : Nat) : (s.setReg64 x v).parts = s.parts := rfl
@[simp] theorem State.setReg64_wells (s : State) (x v : Nat) : (s.setReg64 x v).wells = s.wells := rfl
@[simp] theorem State.setReg64_fns (s : State) (x v : Nat) : (s.setReg64 x v).fns = s.fns := rfl
@[simp] theorem State.setReg64_host (s : State) (x v : Nat) : (s.setReg64 x v).host = s.host := rfl
@[simp] theorem State.setReg64_cmds (s : State) (x v : Nat) : (s.setReg64 x v).cmds = s.cmds := rfl
@[simp] theorem State.setReg64_ports (s : State) (x v : Nat) : (s.setReg64 x v).ports = s.ports := rfl
@[simp] theorem State.setReg64_intakes (s : State) (x v : Nat) : (s.setReg64 x v).intakes = s.intakes := rfl
@[simp] theorem State.setReg64_qps (s : State) (x v : Nat) : (s.setReg64 x v).qps = s.qps := rfl
@[simp] theorem State.setReg64_commits (s : State) (x v : Nat) : (s.setReg64 x v).commits = s.commits := rfl
@[simp] theorem State.setReg64_regionChanges (s : State) (x v : Nat) : (s.setReg64 x v).regionChanges = s.regionChanges := rfl
@[simp] theorem State.setReg64_lantus (s : State) (x v : Nat) : (s.setReg64 x v).lantus = s.lantus := rfl
@[simp] theorem State.setReg64_opSession (s : State) (x v : Nat) : (s.setReg64 x v).opSession = s.opSession := rfl
@[simp] theorem State.setReg64_sources (s : State) (x v : Nat) : (s.setReg64 x v).sources = s.sources := rfl
@[simp] theorem State.setReg64_drbgs (s : State) (x v : Nat) : (s.setReg64 x v).drbgs = s.drbgs := rfl
@[simp] theorem State.setReg64_power (s : State) (x v : Nat) : (s.setReg64 x v).power = s.power := rfl
@[simp] theorem State.setReg64_log (s : State) (x v : Nat) : (s.setReg64 x v).log = s.log := rfl
@[simp] theorem State.setReg64_pending (s : State) (x v : Nat) : (s.setReg64 x v).pending = s.pending := rfl
@[simp] theorem State.setReg64_out (s : State) (x v : Nat) : (s.setReg64 x v).out = s.out := rfl
@[simp] theorem State.setReg64_freeCount (s : State) (x v : Nat) : (s.setReg64 x v).freeCount = s.freeCount := rfl

/-! ## State.clearRegs -/

@[simp] theorem State.clearRegs_devtime (s : State) (lo hi : Nat) : (s.clearRegs lo hi).devtime = s.devtime := rfl
@[simp] theorem State.clearRegs_life (s : State) (lo hi : Nat) : (s.clearRegs lo hi).life = s.life := rfl
@[simp] theorem State.clearRegs_resetLow (s : State) (lo hi : Nat) : (s.clearRegs lo hi).resetLow = s.resetLow := rfl
@[simp] theorem State.clearRegs_pwrFailLow (s : State) (lo hi : Nat) : (s.clearRegs lo hi).pwrFailLow = s.pwrFailLow := rfl
@[simp] theorem State.clearRegs_faultN (s : State) (lo hi : Nat) : (s.clearRegs lo hi).faultN = s.faultN := rfl
@[simp] theorem State.clearRegs_thermTrip (s : State) (lo hi : Nat) : (s.clearRegs lo hi).thermTrip = s.thermTrip := rfl
@[simp] theorem State.clearRegs_readLatch (s : State) (lo hi : Nat) : (s.clearRegs lo hi).readLatch = s.readLatch := rfl
@[simp] theorem State.clearRegs_writeLatch (s : State) (lo hi : Nat) : (s.clearRegs lo hi).writeLatch = s.writeLatch := rfl
@[simp] theorem State.clearRegs_fresh (s : State) (lo hi : Nat) : (s.clearRegs lo hi).fresh = s.fresh := rfl
@[simp] theorem State.clearRegs_lockGlobal (s : State) (lo hi : Nat) : (s.clearRegs lo hi).lockGlobal = s.lockGlobal := rfl
@[simp] theorem State.clearRegs_lockParts (s : State) (lo hi : Nat) : (s.clearRegs lo hi).lockParts = s.lockParts := rfl
@[simp] theorem State.clearRegs_access (s : State) (lo hi : Nat) : (s.clearRegs lo hi).access = s.access := rfl
@[simp] theorem State.clearRegs_plan (s : State) (lo hi : Nat) : (s.clearRegs lo hi).plan = s.plan := rfl
@[simp] theorem State.clearRegs_parts (s : State) (lo hi : Nat) : (s.clearRegs lo hi).parts = s.parts := rfl
@[simp] theorem State.clearRegs_wells (s : State) (lo hi : Nat) : (s.clearRegs lo hi).wells = s.wells := rfl
@[simp] theorem State.clearRegs_fns (s : State) (lo hi : Nat) : (s.clearRegs lo hi).fns = s.fns := rfl
@[simp] theorem State.clearRegs_host (s : State) (lo hi : Nat) : (s.clearRegs lo hi).host = s.host := rfl
@[simp] theorem State.clearRegs_cmds (s : State) (lo hi : Nat) : (s.clearRegs lo hi).cmds = s.cmds := rfl
@[simp] theorem State.clearRegs_ports (s : State) (lo hi : Nat) : (s.clearRegs lo hi).ports = s.ports := rfl
@[simp] theorem State.clearRegs_intakes (s : State) (lo hi : Nat) : (s.clearRegs lo hi).intakes = s.intakes := rfl
@[simp] theorem State.clearRegs_qps (s : State) (lo hi : Nat) : (s.clearRegs lo hi).qps = s.qps := rfl
@[simp] theorem State.clearRegs_commits (s : State) (lo hi : Nat) : (s.clearRegs lo hi).commits = s.commits := rfl
@[simp] theorem State.clearRegs_regionChanges (s : State) (lo hi : Nat) : (s.clearRegs lo hi).regionChanges = s.regionChanges := rfl
@[simp] theorem State.clearRegs_lantus (s : State) (lo hi : Nat) : (s.clearRegs lo hi).lantus = s.lantus := rfl
@[simp] theorem State.clearRegs_opSession (s : State) (lo hi : Nat) : (s.clearRegs lo hi).opSession = s.opSession := rfl
@[simp] theorem State.clearRegs_sources (s : State) (lo hi : Nat) : (s.clearRegs lo hi).sources = s.sources := rfl
@[simp] theorem State.clearRegs_drbgs (s : State) (lo hi : Nat) : (s.clearRegs lo hi).drbgs = s.drbgs := rfl
@[simp] theorem State.clearRegs_power (s : State) (lo hi : Nat) : (s.clearRegs lo hi).power = s.power := rfl
@[simp] theorem State.clearRegs_log (s : State) (lo hi : Nat) : (s.clearRegs lo hi).log = s.log := rfl
@[simp] theorem State.clearRegs_pending (s : State) (lo hi : Nat) : (s.clearRegs lo hi).pending = s.pending := rfl
@[simp] theorem State.clearRegs_out (s : State) (lo hi : Nat) : (s.clearRegs lo hi).out = s.out := rfl
@[simp] theorem State.clearRegs_freeCount (s : State) (lo hi : Nat) : (s.clearRegs lo hi).freeCount = s.freeCount := rfl

/-! ## State.noteFresh -/

@[simp] theorem State.noteFresh_devtime (s : State) (x n before : Nat) : (s.noteFresh x n before).devtime = s.devtime := rfl
@[simp] theorem State.noteFresh_life (s : State) (x n before : Nat) : (s.noteFresh x n before).life = s.life := rfl
@[simp] theorem State.noteFresh_resetLow (s : State) (x n before : Nat) : (s.noteFresh x n before).resetLow = s.resetLow := rfl
@[simp] theorem State.noteFresh_pwrFailLow (s : State) (x n before : Nat) : (s.noteFresh x n before).pwrFailLow = s.pwrFailLow := rfl
@[simp] theorem State.noteFresh_faultN (s : State) (x n before : Nat) : (s.noteFresh x n before).faultN = s.faultN := rfl
@[simp] theorem State.noteFresh_thermTrip (s : State) (x n before : Nat) : (s.noteFresh x n before).thermTrip = s.thermTrip := rfl
@[simp] theorem State.noteFresh_regs (s : State) (x n before : Nat) : (s.noteFresh x n before).regs = s.regs := rfl
@[simp] theorem State.noteFresh_readLatch (s : State) (x n before : Nat) : (s.noteFresh x n before).readLatch = s.readLatch := rfl
@[simp] theorem State.noteFresh_writeLatch (s : State) (x n before : Nat) : (s.noteFresh x n before).writeLatch = s.writeLatch := rfl
@[simp] theorem State.noteFresh_lockGlobal (s : State) (x n before : Nat) : (s.noteFresh x n before).lockGlobal = s.lockGlobal := rfl
@[simp] theorem State.noteFresh_lockParts (s : State) (x n before : Nat) : (s.noteFresh x n before).lockParts = s.lockParts := rfl
@[simp] theorem State.noteFresh_access (s : State) (x n before : Nat) : (s.noteFresh x n before).access = s.access := rfl
@[simp] theorem State.noteFresh_plan (s : State) (x n before : Nat) : (s.noteFresh x n before).plan = s.plan := rfl
@[simp] theorem State.noteFresh_parts (s : State) (x n before : Nat) : (s.noteFresh x n before).parts = s.parts := rfl
@[simp] theorem State.noteFresh_wells (s : State) (x n before : Nat) : (s.noteFresh x n before).wells = s.wells := rfl
@[simp] theorem State.noteFresh_fns (s : State) (x n before : Nat) : (s.noteFresh x n before).fns = s.fns := rfl
@[simp] theorem State.noteFresh_host (s : State) (x n before : Nat) : (s.noteFresh x n before).host = s.host := rfl
@[simp] theorem State.noteFresh_cmds (s : State) (x n before : Nat) : (s.noteFresh x n before).cmds = s.cmds := rfl
@[simp] theorem State.noteFresh_ports (s : State) (x n before : Nat) : (s.noteFresh x n before).ports = s.ports := rfl
@[simp] theorem State.noteFresh_intakes (s : State) (x n before : Nat) : (s.noteFresh x n before).intakes = s.intakes := rfl
@[simp] theorem State.noteFresh_qps (s : State) (x n before : Nat) : (s.noteFresh x n before).qps = s.qps := rfl
@[simp] theorem State.noteFresh_commits (s : State) (x n before : Nat) : (s.noteFresh x n before).commits = s.commits := rfl
@[simp] theorem State.noteFresh_regionChanges (s : State) (x n before : Nat) : (s.noteFresh x n before).regionChanges = s.regionChanges := rfl
@[simp] theorem State.noteFresh_lantus (s : State) (x n before : Nat) : (s.noteFresh x n before).lantus = s.lantus := rfl
@[simp] theorem State.noteFresh_opSession (s : State) (x n before : Nat) : (s.noteFresh x n before).opSession = s.opSession := rfl
@[simp] theorem State.noteFresh_sources (s : State) (x n before : Nat) : (s.noteFresh x n before).sources = s.sources := rfl
@[simp] theorem State.noteFresh_drbgs (s : State) (x n before : Nat) : (s.noteFresh x n before).drbgs = s.drbgs := rfl
@[simp] theorem State.noteFresh_power (s : State) (x n before : Nat) : (s.noteFresh x n before).power = s.power := rfl
@[simp] theorem State.noteFresh_log (s : State) (x n before : Nat) : (s.noteFresh x n before).log = s.log := rfl
@[simp] theorem State.noteFresh_pending (s : State) (x n before : Nat) : (s.noteFresh x n before).pending = s.pending := rfl
@[simp] theorem State.noteFresh_out (s : State) (x n before : Nat) : (s.noteFresh x n before).out = s.out := rfl
@[simp] theorem State.noteFresh_freeCount (s : State) (x n before : Nat) : (s.noteFresh x n before).freeCount = s.freeCount := rfl

/-! ## State.noteSet -/

@[simp] theorem State.noteSet_devtime (s : State) (x b : Nat) : (s.noteSet x b).devtime = s.devtime := rfl
@[simp] theorem State.noteSet_life (s : State) (x b : Nat) : (s.noteSet x b).life = s.life := rfl
@[simp] theorem State.noteSet_resetLow (s : State) (x b : Nat) : (s.noteSet x b).resetLow = s.resetLow := rfl
@[simp] theorem State.noteSet_pwrFailLow (s : State) (x b : Nat) : (s.noteSet x b).pwrFailLow = s.pwrFailLow := rfl
@[simp] theorem State.noteSet_faultN (s : State) (x b : Nat) : (s.noteSet x b).faultN = s.faultN := rfl
@[simp] theorem State.noteSet_thermTrip (s : State) (x b : Nat) : (s.noteSet x b).thermTrip = s.thermTrip := rfl
@[simp] theorem State.noteSet_regs (s : State) (x b : Nat) : (s.noteSet x b).regs = s.regs := rfl
@[simp] theorem State.noteSet_readLatch (s : State) (x b : Nat) : (s.noteSet x b).readLatch = s.readLatch := rfl
@[simp] theorem State.noteSet_writeLatch (s : State) (x b : Nat) : (s.noteSet x b).writeLatch = s.writeLatch := rfl
@[simp] theorem State.noteSet_lockGlobal (s : State) (x b : Nat) : (s.noteSet x b).lockGlobal = s.lockGlobal := rfl
@[simp] theorem State.noteSet_lockParts (s : State) (x b : Nat) : (s.noteSet x b).lockParts = s.lockParts := rfl
@[simp] theorem State.noteSet_access (s : State) (x b : Nat) : (s.noteSet x b).access = s.access := rfl
@[simp] theorem State.noteSet_plan (s : State) (x b : Nat) : (s.noteSet x b).plan = s.plan := rfl
@[simp] theorem State.noteSet_parts (s : State) (x b : Nat) : (s.noteSet x b).parts = s.parts := rfl
@[simp] theorem State.noteSet_wells (s : State) (x b : Nat) : (s.noteSet x b).wells = s.wells := rfl
@[simp] theorem State.noteSet_fns (s : State) (x b : Nat) : (s.noteSet x b).fns = s.fns := rfl
@[simp] theorem State.noteSet_host (s : State) (x b : Nat) : (s.noteSet x b).host = s.host := rfl
@[simp] theorem State.noteSet_cmds (s : State) (x b : Nat) : (s.noteSet x b).cmds = s.cmds := rfl
@[simp] theorem State.noteSet_ports (s : State) (x b : Nat) : (s.noteSet x b).ports = s.ports := rfl
@[simp] theorem State.noteSet_intakes (s : State) (x b : Nat) : (s.noteSet x b).intakes = s.intakes := rfl
@[simp] theorem State.noteSet_qps (s : State) (x b : Nat) : (s.noteSet x b).qps = s.qps := rfl
@[simp] theorem State.noteSet_commits (s : State) (x b : Nat) : (s.noteSet x b).commits = s.commits := rfl
@[simp] theorem State.noteSet_regionChanges (s : State) (x b : Nat) : (s.noteSet x b).regionChanges = s.regionChanges := rfl
@[simp] theorem State.noteSet_lantus (s : State) (x b : Nat) : (s.noteSet x b).lantus = s.lantus := rfl
@[simp] theorem State.noteSet_opSession (s : State) (x b : Nat) : (s.noteSet x b).opSession = s.opSession := rfl
@[simp] theorem State.noteSet_sources (s : State) (x b : Nat) : (s.noteSet x b).sources = s.sources := rfl
@[simp] theorem State.noteSet_drbgs (s : State) (x b : Nat) : (s.noteSet x b).drbgs = s.drbgs := rfl
@[simp] theorem State.noteSet_power (s : State) (x b : Nat) : (s.noteSet x b).power = s.power := rfl
@[simp] theorem State.noteSet_log (s : State) (x b : Nat) : (s.noteSet x b).log = s.log := rfl
@[simp] theorem State.noteSet_pending (s : State) (x b : Nat) : (s.noteSet x b).pending = s.pending := rfl
@[simp] theorem State.noteSet_out (s : State) (x b : Nat) : (s.noteSet x b).out = s.out := rfl
@[simp] theorem State.noteSet_freeCount (s : State) (x b : Nat) : (s.noteSet x b).freeCount = s.freeCount := rfl

/-! ## State.noteCount -/

@[simp] theorem State.noteCount_devtime (s : State) (x n : Nat) : (s.noteCount x n).devtime = s.devtime := rfl
@[simp] theorem State.noteCount_life (s : State) (x n : Nat) : (s.noteCount x n).life = s.life := rfl
@[simp] theorem State.noteCount_resetLow (s : State) (x n : Nat) : (s.noteCount x n).resetLow = s.resetLow := rfl
@[simp] theorem State.noteCount_pwrFailLow (s : State) (x n : Nat) : (s.noteCount x n).pwrFailLow = s.pwrFailLow := rfl
@[simp] theorem State.noteCount_faultN (s : State) (x n : Nat) : (s.noteCount x n).faultN = s.faultN := rfl
@[simp] theorem State.noteCount_thermTrip (s : State) (x n : Nat) : (s.noteCount x n).thermTrip = s.thermTrip := rfl
@[simp] theorem State.noteCount_regs (s : State) (x n : Nat) : (s.noteCount x n).regs = s.regs := rfl
@[simp] theorem State.noteCount_readLatch (s : State) (x n : Nat) : (s.noteCount x n).readLatch = s.readLatch := rfl
@[simp] theorem State.noteCount_writeLatch (s : State) (x n : Nat) : (s.noteCount x n).writeLatch = s.writeLatch := rfl
@[simp] theorem State.noteCount_lockGlobal (s : State) (x n : Nat) : (s.noteCount x n).lockGlobal = s.lockGlobal := rfl
@[simp] theorem State.noteCount_lockParts (s : State) (x n : Nat) : (s.noteCount x n).lockParts = s.lockParts := rfl
@[simp] theorem State.noteCount_access (s : State) (x n : Nat) : (s.noteCount x n).access = s.access := rfl
@[simp] theorem State.noteCount_plan (s : State) (x n : Nat) : (s.noteCount x n).plan = s.plan := rfl
@[simp] theorem State.noteCount_parts (s : State) (x n : Nat) : (s.noteCount x n).parts = s.parts := rfl
@[simp] theorem State.noteCount_wells (s : State) (x n : Nat) : (s.noteCount x n).wells = s.wells := rfl
@[simp] theorem State.noteCount_fns (s : State) (x n : Nat) : (s.noteCount x n).fns = s.fns := rfl
@[simp] theorem State.noteCount_host (s : State) (x n : Nat) : (s.noteCount x n).host = s.host := rfl
@[simp] theorem State.noteCount_cmds (s : State) (x n : Nat) : (s.noteCount x n).cmds = s.cmds := rfl
@[simp] theorem State.noteCount_ports (s : State) (x n : Nat) : (s.noteCount x n).ports = s.ports := rfl
@[simp] theorem State.noteCount_intakes (s : State) (x n : Nat) : (s.noteCount x n).intakes = s.intakes := rfl
@[simp] theorem State.noteCount_qps (s : State) (x n : Nat) : (s.noteCount x n).qps = s.qps := rfl
@[simp] theorem State.noteCount_commits (s : State) (x n : Nat) : (s.noteCount x n).commits = s.commits := rfl
@[simp] theorem State.noteCount_regionChanges (s : State) (x n : Nat) : (s.noteCount x n).regionChanges = s.regionChanges := rfl
@[simp] theorem State.noteCount_lantus (s : State) (x n : Nat) : (s.noteCount x n).lantus = s.lantus := rfl
@[simp] theorem State.noteCount_opSession (s : State) (x n : Nat) : (s.noteCount x n).opSession = s.opSession := rfl
@[simp] theorem State.noteCount_sources (s : State) (x n : Nat) : (s.noteCount x n).sources = s.sources := rfl
@[simp] theorem State.noteCount_drbgs (s : State) (x n : Nat) : (s.noteCount x n).drbgs = s.drbgs := rfl
@[simp] theorem State.noteCount_power (s : State) (x n : Nat) : (s.noteCount x n).power = s.power := rfl
@[simp] theorem State.noteCount_log (s : State) (x n : Nat) : (s.noteCount x n).log = s.log := rfl
@[simp] theorem State.noteCount_pending (s : State) (x n : Nat) : (s.noteCount x n).pending = s.pending := rfl
@[simp] theorem State.noteCount_out (s : State) (x n : Nat) : (s.noteCount x n).out = s.out := rfl
@[simp] theorem State.noteCount_freeCount (s : State) (x n : Nat) : (s.noteCount x n).freeCount = s.freeCount := rfl

/-! ## State.setRecord -/

@[simp] theorem State.setRecord_devtime (s : State) (x v : Nat) : (s.setRecord x v).devtime = s.devtime := rfl
@[simp] theorem State.setRecord_life (s : State) (x v : Nat) : (s.setRecord x v).life = s.life := rfl
@[simp] theorem State.setRecord_resetLow (s : State) (x v : Nat) : (s.setRecord x v).resetLow = s.resetLow := rfl
@[simp] theorem State.setRecord_pwrFailLow (s : State) (x v : Nat) : (s.setRecord x v).pwrFailLow = s.pwrFailLow := rfl
@[simp] theorem State.setRecord_faultN (s : State) (x v : Nat) : (s.setRecord x v).faultN = s.faultN := rfl
@[simp] theorem State.setRecord_thermTrip (s : State) (x v : Nat) : (s.setRecord x v).thermTrip = s.thermTrip := rfl
@[simp] theorem State.setRecord_readLatch (s : State) (x v : Nat) : (s.setRecord x v).readLatch = s.readLatch := rfl
@[simp] theorem State.setRecord_writeLatch (s : State) (x v : Nat) : (s.setRecord x v).writeLatch = s.writeLatch := rfl
@[simp] theorem State.setRecord_lockGlobal (s : State) (x v : Nat) : (s.setRecord x v).lockGlobal = s.lockGlobal := rfl
@[simp] theorem State.setRecord_lockParts (s : State) (x v : Nat) : (s.setRecord x v).lockParts = s.lockParts := rfl
@[simp] theorem State.setRecord_access (s : State) (x v : Nat) : (s.setRecord x v).access = s.access := rfl
@[simp] theorem State.setRecord_plan (s : State) (x v : Nat) : (s.setRecord x v).plan = s.plan := rfl
@[simp] theorem State.setRecord_parts (s : State) (x v : Nat) : (s.setRecord x v).parts = s.parts := rfl
@[simp] theorem State.setRecord_wells (s : State) (x v : Nat) : (s.setRecord x v).wells = s.wells := rfl
@[simp] theorem State.setRecord_fns (s : State) (x v : Nat) : (s.setRecord x v).fns = s.fns := rfl
@[simp] theorem State.setRecord_host (s : State) (x v : Nat) : (s.setRecord x v).host = s.host := rfl
@[simp] theorem State.setRecord_cmds (s : State) (x v : Nat) : (s.setRecord x v).cmds = s.cmds := rfl
@[simp] theorem State.setRecord_ports (s : State) (x v : Nat) : (s.setRecord x v).ports = s.ports := rfl
@[simp] theorem State.setRecord_intakes (s : State) (x v : Nat) : (s.setRecord x v).intakes = s.intakes := rfl
@[simp] theorem State.setRecord_qps (s : State) (x v : Nat) : (s.setRecord x v).qps = s.qps := rfl
@[simp] theorem State.setRecord_commits (s : State) (x v : Nat) : (s.setRecord x v).commits = s.commits := rfl
@[simp] theorem State.setRecord_regionChanges (s : State) (x v : Nat) : (s.setRecord x v).regionChanges = s.regionChanges := rfl
@[simp] theorem State.setRecord_lantus (s : State) (x v : Nat) : (s.setRecord x v).lantus = s.lantus := rfl
@[simp] theorem State.setRecord_opSession (s : State) (x v : Nat) : (s.setRecord x v).opSession = s.opSession := rfl
@[simp] theorem State.setRecord_sources (s : State) (x v : Nat) : (s.setRecord x v).sources = s.sources := rfl
@[simp] theorem State.setRecord_drbgs (s : State) (x v : Nat) : (s.setRecord x v).drbgs = s.drbgs := rfl
@[simp] theorem State.setRecord_power (s : State) (x v : Nat) : (s.setRecord x v).power = s.power := rfl
@[simp] theorem State.setRecord_log (s : State) (x v : Nat) : (s.setRecord x v).log = s.log := rfl
@[simp] theorem State.setRecord_pending (s : State) (x v : Nat) : (s.setRecord x v).pending = s.pending := rfl
@[simp] theorem State.setRecord_out (s : State) (x v : Nat) : (s.setRecord x v).out = s.out := rfl
@[simp] theorem State.setRecord_freeCount (s : State) (x v : Nat) : (s.setRecord x v).freeCount = s.freeCount := rfl

/-! ## State.raise -/

@[simp] theorem State.raise_devtime (s : State) (code part src : Nat) (l : List (Nat × Nat)) : (s.raise code part src l).devtime = s.devtime := by
  unfold State.raise; split <;> rfl
@[simp] theorem State.raise_life (s : State) (code part src : Nat) (l : List (Nat × Nat)) : (s.raise code part src l).life = s.life := by
  unfold State.raise; split <;> rfl
@[simp] theorem State.raise_resetLow (s : State) (code part src : Nat) (l : List (Nat × Nat)) : (s.raise code part src l).resetLow = s.resetLow := by
  unfold State.raise; split <;> rfl
@[simp] theorem State.raise_pwrFailLow (s : State) (code part src : Nat) (l : List (Nat × Nat)) : (s.raise code part src l).pwrFailLow = s.pwrFailLow := by
  unfold State.raise; split <;> rfl
@[simp] theorem State.raise_faultN (s : State) (code part src : Nat) (l : List (Nat × Nat)) : (s.raise code part src l).faultN = s.faultN := by
  unfold State.raise; split <;> rfl
@[simp] theorem State.raise_thermTrip (s : State) (code part src : Nat) (l : List (Nat × Nat)) : (s.raise code part src l).thermTrip = s.thermTrip := by
  unfold State.raise; split <;> rfl
@[simp] theorem State.raise_readLatch (s : State) (code part src : Nat) (l : List (Nat × Nat)) : (s.raise code part src l).readLatch = s.readLatch := by
  unfold State.raise; split <;> rfl
@[simp] theorem State.raise_writeLatch (s : State) (code part src : Nat) (l : List (Nat × Nat)) : (s.raise code part src l).writeLatch = s.writeLatch := by
  unfold State.raise; split <;> rfl
@[simp] theorem State.raise_lockGlobal (s : State) (code part src : Nat) (l : List (Nat × Nat)) : (s.raise code part src l).lockGlobal = s.lockGlobal := by
  unfold State.raise; split <;> rfl
@[simp] theorem State.raise_lockParts (s : State) (code part src : Nat) (l : List (Nat × Nat)) : (s.raise code part src l).lockParts = s.lockParts := by
  unfold State.raise; split <;> rfl
@[simp] theorem State.raise_access (s : State) (code part src : Nat) (l : List (Nat × Nat)) : (s.raise code part src l).access = s.access := by
  unfold State.raise; split <;> rfl
@[simp] theorem State.raise_plan (s : State) (code part src : Nat) (l : List (Nat × Nat)) : (s.raise code part src l).plan = s.plan := by
  unfold State.raise; split <;> rfl
@[simp] theorem State.raise_parts (s : State) (code part src : Nat) (l : List (Nat × Nat)) : (s.raise code part src l).parts = s.parts := by
  unfold State.raise; split <;> rfl
@[simp] theorem State.raise_wells (s : State) (code part src : Nat) (l : List (Nat × Nat)) : (s.raise code part src l).wells = s.wells := by
  unfold State.raise; split <;> rfl
@[simp] theorem State.raise_fns (s : State) (code part src : Nat) (l : List (Nat × Nat)) : (s.raise code part src l).fns = s.fns := by
  unfold State.raise; split <;> rfl
@[simp] theorem State.raise_host (s : State) (code part src : Nat) (l : List (Nat × Nat)) : (s.raise code part src l).host = s.host := by
  unfold State.raise; split <;> rfl
@[simp] theorem State.raise_cmds (s : State) (code part src : Nat) (l : List (Nat × Nat)) : (s.raise code part src l).cmds = s.cmds := by
  unfold State.raise; split <;> rfl
@[simp] theorem State.raise_ports (s : State) (code part src : Nat) (l : List (Nat × Nat)) : (s.raise code part src l).ports = s.ports := by
  unfold State.raise; split <;> rfl
@[simp] theorem State.raise_intakes (s : State) (code part src : Nat) (l : List (Nat × Nat)) : (s.raise code part src l).intakes = s.intakes := by
  unfold State.raise; split <;> rfl
@[simp] theorem State.raise_qps (s : State) (code part src : Nat) (l : List (Nat × Nat)) : (s.raise code part src l).qps = s.qps := by
  unfold State.raise; split <;> rfl
@[simp] theorem State.raise_commits (s : State) (code part src : Nat) (l : List (Nat × Nat)) : (s.raise code part src l).commits = s.commits := by
  unfold State.raise; split <;> rfl
@[simp] theorem State.raise_regionChanges (s : State) (code part src : Nat) (l : List (Nat × Nat)) : (s.raise code part src l).regionChanges = s.regionChanges := by
  unfold State.raise; split <;> rfl
@[simp] theorem State.raise_lantus (s : State) (code part src : Nat) (l : List (Nat × Nat)) : (s.raise code part src l).lantus = s.lantus := by
  unfold State.raise; split <;> rfl
@[simp] theorem State.raise_opSession (s : State) (code part src : Nat) (l : List (Nat × Nat)) : (s.raise code part src l).opSession = s.opSession := by
  unfold State.raise; split <;> rfl
@[simp] theorem State.raise_sources (s : State) (code part src : Nat) (l : List (Nat × Nat)) : (s.raise code part src l).sources = s.sources := by
  unfold State.raise; split <;> rfl
@[simp] theorem State.raise_drbgs (s : State) (code part src : Nat) (l : List (Nat × Nat)) : (s.raise code part src l).drbgs = s.drbgs := by
  unfold State.raise; split <;> rfl
@[simp] theorem State.raise_power (s : State) (code part src : Nat) (l : List (Nat × Nat)) : (s.raise code part src l).power = s.power := by
  unfold State.raise; split <;> rfl
@[simp] theorem State.raise_pending (s : State) (code part src : Nat) (l : List (Nat × Nat)) : (s.raise code part src l).pending = s.pending := by
  unfold State.raise; split <;> rfl
@[simp] theorem State.raise_out (s : State) (code part src : Nat) (l : List (Nat × Nat)) : (s.raise code part src l).out = s.out := by
  unfold State.raise; split <;> rfl
@[simp] theorem State.raise_freeCount (s : State) (code part src : Nat) (l : List (Nat × Nat)) : (s.raise code part src l).freeCount = s.freeCount := by
  unfold State.raise; split <;> rfl

/-! ## State.draw -/

@[simp] theorem State.draw_devtime (s : State) : s.draw.2.devtime = s.devtime := rfl
@[simp] theorem State.draw_life (s : State) : s.draw.2.life = s.life := rfl
@[simp] theorem State.draw_resetLow (s : State) : s.draw.2.resetLow = s.resetLow := rfl
@[simp] theorem State.draw_pwrFailLow (s : State) : s.draw.2.pwrFailLow = s.pwrFailLow := rfl
@[simp] theorem State.draw_faultN (s : State) : s.draw.2.faultN = s.faultN := rfl
@[simp] theorem State.draw_thermTrip (s : State) : s.draw.2.thermTrip = s.thermTrip := rfl
@[simp] theorem State.draw_regs (s : State) : s.draw.2.regs = s.regs := rfl
@[simp] theorem State.draw_readLatch (s : State) : s.draw.2.readLatch = s.readLatch := rfl
@[simp] theorem State.draw_writeLatch (s : State) : s.draw.2.writeLatch = s.writeLatch := rfl
@[simp] theorem State.draw_fresh (s : State) : s.draw.2.fresh = s.fresh := rfl
@[simp] theorem State.draw_lockGlobal (s : State) : s.draw.2.lockGlobal = s.lockGlobal := rfl
@[simp] theorem State.draw_lockParts (s : State) : s.draw.2.lockParts = s.lockParts := rfl
@[simp] theorem State.draw_access (s : State) : s.draw.2.access = s.access := rfl
@[simp] theorem State.draw_plan (s : State) : s.draw.2.plan = s.plan := rfl
@[simp] theorem State.draw_parts (s : State) : s.draw.2.parts = s.parts := rfl
@[simp] theorem State.draw_wells (s : State) : s.draw.2.wells = s.wells := rfl
@[simp] theorem State.draw_fns (s : State) : s.draw.2.fns = s.fns := rfl
@[simp] theorem State.draw_host (s : State) : s.draw.2.host = s.host := rfl
@[simp] theorem State.draw_cmds (s : State) : s.draw.2.cmds = s.cmds := rfl
@[simp] theorem State.draw_ports (s : State) : s.draw.2.ports = s.ports := rfl
@[simp] theorem State.draw_intakes (s : State) : s.draw.2.intakes = s.intakes := rfl
@[simp] theorem State.draw_qps (s : State) : s.draw.2.qps = s.qps := rfl
@[simp] theorem State.draw_commits (s : State) : s.draw.2.commits = s.commits := rfl
@[simp] theorem State.draw_regionChanges (s : State) : s.draw.2.regionChanges = s.regionChanges := rfl
@[simp] theorem State.draw_lantus (s : State) : s.draw.2.lantus = s.lantus := rfl
@[simp] theorem State.draw_opSession (s : State) : s.draw.2.opSession = s.opSession := rfl
@[simp] theorem State.draw_sources (s : State) : s.draw.2.sources = s.sources := rfl
@[simp] theorem State.draw_drbgs (s : State) : s.draw.2.drbgs = s.drbgs := rfl
@[simp] theorem State.draw_power (s : State) : s.draw.2.power = s.power := rfl
@[simp] theorem State.draw_log (s : State) : s.draw.2.log = s.log := rfl
@[simp] theorem State.draw_pending (s : State) : s.draw.2.pending = s.pending := rfl
@[simp] theorem State.draw_out (s : State) : s.draw.2.out = s.out := rfl

/-! ## What the updates of one record change -/

@[simp] theorem State.modLantus_lantus (s : State) (f : Lantus → Lantus) : (s.modLantus f).lantus = f s.lantus := rfl
@[simp] theorem State.modPower_power (s : State) (f : Power → Power) : (s.modPower f).power = f s.power := rfl
@[simp] theorem State.emit_out (s : State) (x : Output) : (s.emit x).out = s.out ++ [x] := rfl

end Sys2Proof.Machine
end

