-- ==== Sys2Proof/Laws/Getters.lean ====
section
/-! SUPPORT. Each reading of the state after each named update that does not touch what it reads. -/

namespace Sys2Proof.Machine

open Sys2Proof

/-! ## State.modPart -/

@[simp] theorem State.modPart_reg (s : State) (p : Nat) (f : Partition → Partition) (i : Nat) : (s.modPart p f).reg i = s.reg i := rfl
@[simp] theorem State.modPart_regBits (s : State) (p : Nat) (f : Partition → Partition) (i hi lo : Nat) : (s.modPart p f).regBits i hi lo = s.regBits i hi lo := rfl
@[simp] theorem State.modPart_reg64 (s : State) (p : Nat) (f : Partition → Partition) (i : Nat) : (s.modPart p f).reg64 i = s.reg64 i := rfl
@[simp] theorem State.modPart_well (s : State) (p : Nat) (f : Partition → Partition) (i : Nat) : (s.modPart p f).well i = s.well i := rfl
@[simp] theorem State.modPart_tile (s : State) (p : Nat) (f : Partition → Partition) (i : TileRef) : (s.modPart p f).tile i = s.tile i := rfl
@[simp] theorem State.modPart_pump (s : State) (p : Nat) (f : Partition → Partition) (i : PumpRef) : (s.modPart p f).pump i = s.pump i := rfl
@[simp] theorem State.modPart_chan (s : State) (p : Nat) (f : Partition → Partition) (i j : Nat) : (s.modPart p f).chan i j = s.chan i j := rfl
@[simp] theorem State.modPart_fn (s : State) (p : Nat) (f : Partition → Partition) (i : Nat) : (s.modPart p f).fn i = s.fn i := rfl
@[simp] theorem State.modPart_queue (s : State) (p : Nat) (f : Partition → Partition) (i j : Nat) : (s.modPart p f).queue i j = s.queue i j := rfl
@[simp] theorem State.modPart_source (s : State) (p : Nat) (f : Partition → Partition) (i : Nat) : (s.modPart p f).source i = s.source i := rfl
@[simp] theorem State.modPart_drbg (s : State) (p : Nat) (f : Partition → Partition) (i : Nat) : (s.modPart p f).drbg i = s.drbg i := rfl
@[simp] theorem State.modPart_port (s : State) (p : Nat) (f : Partition → Partition) (i : Nat) : (s.modPart p f).port i = s.port i := rfl
@[simp] theorem State.modPart_intake (s : State) (p : Nat) (f : Partition → Partition) (i j : Nat) : (s.modPart p f).intake i j = s.intake i j := rfl
@[simp] theorem State.modPart_qp (s : State) (p : Nat) (f : Partition → Partition) (i : Nat) : (s.modPart p f).qp i = s.qp i := rfl
@[simp] theorem State.modPart_owner (s : State) (p : Nat) (f : Partition → Partition) (i : Nat) : (s.modPart p f).owner i = s.owner i := rfl
@[simp] theorem State.modPart_wellsOf (s : State) (p : Nat) (f : Partition → Partition) (i : Nat) : (s.modPart p f).wellsOf i = s.wellsOf i := rfl
@[simp] theorem State.modPart_record (s : State) (p : Nat) (f : Partition → Partition) (i : Nat) : (s.modPart p f).record i = s.record i := rfl
@[simp] theorem State.modPart_formed (s : State) (p : Nat) (f : Partition → Partition) (i : Nat) : (s.modPart p f).formed i = s.formed i := rfl
@[simp] theorem State.modPart_alive (s : State) (p : Nat) (f : Partition → Partition) : (s.modPart p f).alive = s.alive := rfl
@[simp] theorem State.modPart_serves (s : State) (p : Nat) (f : Partition → Partition) : (s.modPart p f).serves = s.serves := rfl

/-! ## State.modRound -/

@[simp] theorem State.modRound_reg (s : State) (p : Nat) (f : Round → Round) (i : Nat) : (s.modRound p f).reg i = s.reg i := rfl
@[simp] theorem State.modRound_regBits (s : State) (p : Nat) (f : Round → Round) (i hi lo : Nat) : (s.modRound p f).regBits i hi lo = s.regBits i hi lo := rfl
@[simp] theorem State.modRound_reg64 (s : State) (p : Nat) (f : Round → Round) (i : Nat) : (s.modRound p f).reg64 i = s.reg64 i := rfl
@[simp] theorem State.modRound_well (s : State) (p : Nat) (f : Round → Round) (i : Nat) : (s.modRound p f).well i = s.well i := rfl
@[simp] theorem State.modRound_tile (s : State) (p : Nat) (f : Round → Round) (i : TileRef) : (s.modRound p f).tile i = s.tile i := rfl
@[simp] theorem State.modRound_pump (s : State) (p : Nat) (f : Round → Round) (i : PumpRef) : (s.modRound p f).pump i = s.pump i := rfl
@[simp] theorem State.modRound_chan (s : State) (p : Nat) (f : Round → Round) (i j : Nat) : (s.modRound p f).chan i j = s.chan i j := rfl
@[simp] theorem State.modRound_fn (s : State) (p : Nat) (f : Round → Round) (i : Nat) : (s.modRound p f).fn i = s.fn i := rfl
@[simp] theorem State.modRound_queue (s : State) (p : Nat) (f : Round → Round) (i j : Nat) : (s.modRound p f).queue i j = s.queue i j := rfl
@[simp] theorem State.modRound_source (s : State) (p : Nat) (f : Round → Round) (i : Nat) : (s.modRound p f).source i = s.source i := rfl
@[simp] theorem State.modRound_drbg (s : State) (p : Nat) (f : Round → Round) (i : Nat) : (s.modRound p f).drbg i = s.drbg i := rfl
@[simp] theorem State.modRound_port (s : State) (p : Nat) (f : Round → Round) (i : Nat) : (s.modRound p f).port i = s.port i := rfl
@[simp] theorem State.modRound_intake (s : State) (p : Nat) (f : Round → Round) (i j : Nat) : (s.modRound p f).intake i j = s.intake i j := rfl
@[simp] theorem State.modRound_qp (s : State) (p : Nat) (f : Round → Round) (i : Nat) : (s.modRound p f).qp i = s.qp i := rfl
@[simp] theorem State.modRound_owner (s : State) (p : Nat) (f : Round → Round) (i : Nat) : (s.modRound p f).owner i = s.owner i := rfl
@[simp] theorem State.modRound_wellsOf (s : State) (p : Nat) (f : Round → Round) (i : Nat) : (s.modRound p f).wellsOf i = s.wellsOf i := rfl
@[simp] theorem State.modRound_record (s : State) (p : Nat) (f : Round → Round) (i : Nat) : (s.modRound p f).record i = s.record i := rfl
@[simp] theorem State.modRound_formed (s : State) (p : Nat) (f : Round → Round) (i : Nat) : (s.modRound p f).formed i = s.formed i := rfl
@[simp] theorem State.modRound_alive (s : State) (p : Nat) (f : Round → Round) : (s.modRound p f).alive = s.alive := rfl
@[simp] theorem State.modRound_serves (s : State) (p : Nat) (f : Round → Round) : (s.modRound p f).serves = s.serves := rfl

/-! ## State.modWell -/

@[simp] theorem State.modWell_reg (s : State) (w : Nat) (f : Well → Well) (i : Nat) : (s.modWell w f).reg i = s.reg i := rfl
@[simp] theorem State.modWell_regBits (s : State) (w : Nat) (f : Well → Well) (i hi lo : Nat) : (s.modWell w f).regBits i hi lo = s.regBits i hi lo := rfl
@[simp] theorem State.modWell_reg64 (s : State) (w : Nat) (f : Well → Well) (i : Nat) : (s.modWell w f).reg64 i = s.reg64 i := rfl
@[simp] theorem State.modWell_part (s : State) (w : Nat) (f : Well → Well) (i : Nat) : (s.modWell w f).part i = s.part i := rfl
@[simp] theorem State.modWell_round (s : State) (w : Nat) (f : Well → Well) (i : Nat) : (s.modWell w f).round i = s.round i := rfl
@[simp] theorem State.modWell_fn (s : State) (w : Nat) (f : Well → Well) (i : Nat) : (s.modWell w f).fn i = s.fn i := rfl
@[simp] theorem State.modWell_queue (s : State) (w : Nat) (f : Well → Well) (i j : Nat) : (s.modWell w f).queue i j = s.queue i j := rfl
@[simp] theorem State.modWell_source (s : State) (w : Nat) (f : Well → Well) (i : Nat) : (s.modWell w f).source i = s.source i := rfl
@[simp] theorem State.modWell_drbg (s : State) (w : Nat) (f : Well → Well) (i : Nat) : (s.modWell w f).drbg i = s.drbg i := rfl
@[simp] theorem State.modWell_port (s : State) (w : Nat) (f : Well → Well) (i : Nat) : (s.modWell w f).port i = s.port i := rfl
@[simp] theorem State.modWell_intake (s : State) (w : Nat) (f : Well → Well) (i j : Nat) : (s.modWell w f).intake i j = s.intake i j := rfl
@[simp] theorem State.modWell_qp (s : State) (w : Nat) (f : Well → Well) (i : Nat) : (s.modWell w f).qp i = s.qp i := rfl
@[simp] theorem State.modWell_owner (s : State) (w : Nat) (f : Well → Well) (i : Nat) : (s.modWell w f).owner i = s.owner i := rfl
@[simp] theorem State.modWell_wellsOf (s : State) (w : Nat) (f : Well → Well) (i : Nat) : (s.modWell w f).wellsOf i = s.wellsOf i := rfl
@[simp] theorem State.modWell_record (s : State) (w : Nat) (f : Well → Well) (i : Nat) : (s.modWell w f).record i = s.record i := rfl
@[simp] theorem State.modWell_formed (s : State) (w : Nat) (f : Well → Well) (i : Nat) : (s.modWell w f).formed i = s.formed i := rfl
@[simp] theorem State.modWell_alive (s : State) (w : Nat) (f : Well → Well) : (s.modWell w f).alive = s.alive := rfl
@[simp] theorem State.modWell_serves (s : State) (w : Nat) (f : Well → Well) : (s.modWell w f).serves = s.serves := rfl

/-! ## State.modTile -/

@[simp] theorem State.modTile_reg (s : State) (t : TileRef) (f : Tile → Tile) (i : Nat) : (s.modTile t f).reg i = s.reg i := rfl
@[simp] theorem State.modTile_regBits (s : State) (t : TileRef) (f : Tile → Tile) (i hi lo : Nat) : (s.modTile t f).regBits i hi lo = s.regBits i hi lo := rfl
@[simp] theorem State.modTile_reg64 (s : State) (t : TileRef) (f : Tile → Tile) (i : Nat) : (s.modTile t f).reg64 i = s.reg64 i := rfl
@[simp] theorem State.modTile_part (s : State) (t : TileRef) (f : Tile → Tile) (i : Nat) : (s.modTile t f).part i = s.part i := rfl
@[simp] theorem State.modTile_round (s : State) (t : TileRef) (f : Tile → Tile) (i : Nat) : (s.modTile t f).round i = s.round i := rfl
@[simp] theorem State.modTile_fn (s : State) (t : TileRef) (f : Tile → Tile) (i : Nat) : (s.modTile t f).fn i = s.fn i := rfl
@[simp] theorem State.modTile_queue (s : State) (t : TileRef) (f : Tile → Tile) (i j : Nat) : (s.modTile t f).queue i j = s.queue i j := rfl
@[simp] theorem State.modTile_source (s : State) (t : TileRef) (f : Tile → Tile) (i : Nat) : (s.modTile t f).source i = s.source i := rfl
@[simp] theorem State.modTile_drbg (s : State) (t : TileRef) (f : Tile → Tile) (i : Nat) : (s.modTile t f).drbg i = s.drbg i := rfl
@[simp] theorem State.modTile_port (s : State) (t : TileRef) (f : Tile → Tile) (i : Nat) : (s.modTile t f).port i = s.port i := rfl
@[simp] theorem State.modTile_intake (s : State) (t : TileRef) (f : Tile → Tile) (i j : Nat) : (s.modTile t f).intake i j = s.intake i j := rfl
@[simp] theorem State.modTile_qp (s : State) (t : TileRef) (f : Tile → Tile) (i : Nat) : (s.modTile t f).qp i = s.qp i := rfl
@[simp] theorem State.modTile_owner (s : State) (t : TileRef) (f : Tile → Tile) (i : Nat) : (s.modTile t f).owner i = s.owner i := rfl
@[simp] theorem State.modTile_wellsOf (s : State) (t : TileRef) (f : Tile → Tile) (i : Nat) : (s.modTile t f).wellsOf i = s.wellsOf i := rfl
@[simp] theorem State.modTile_record (s : State) (t : TileRef) (f : Tile → Tile) (i : Nat) : (s.modTile t f).record i = s.record i := rfl
@[simp] theorem State.modTile_formed (s : State) (t : TileRef) (f : Tile → Tile) (i : Nat) : (s.modTile t f).formed i = s.formed i := rfl
@[simp] theorem State.modTile_alive (s : State) (t : TileRef) (f : Tile → Tile) : (s.modTile t f).alive = s.alive := rfl
@[simp] theorem State.modTile_serves (s : State) (t : TileRef) (f : Tile → Tile) : (s.modTile t f).serves = s.serves := rfl

/-! ## State.modPump -/

@[simp] theorem State.modPump_reg (s : State) (u : PumpRef) (f : Pump → Pump) (i : Nat) : (s.modPump u f).reg i = s.reg i := rfl
@[simp] theorem State.modPump_regBits (s : State) (u : PumpRef) (f : Pump → Pump) (i hi lo : Nat) : (s.modPump u f).regBits i hi lo = s.regBits i hi lo := rfl
@[simp] theorem State.modPump_reg64 (s : State) (u : PumpRef) (f : Pump → Pump) (i : Nat) : (s.modPump u f).reg64 i = s.reg64 i := rfl
@[simp] theorem State.modPump_part (s : State) (u : PumpRef) (f : Pump → Pump) (i : Nat) : (s.modPump u f).part i = s.part i := rfl
@[simp] theorem State.modPump_round (s : State) (u : PumpRef) (f : Pump → Pump) (i : Nat) : (s.modPump u f).round i = s.round i := rfl
@[simp] theorem State.modPump_fn (s : State) (u : PumpRef) (f : Pump → Pump) (i : Nat) : (s.modPump u f).fn i = s.fn i := rfl
@[simp] theorem State.modPump_queue (s : State) (u : PumpRef) (f : Pump → Pump) (i j : Nat) : (s.modPump u f).queue i j = s.queue i j := rfl
@[simp] theorem State.modPump_source (s : State) (u : PumpRef) (f : Pump → Pump) (i : Nat) : (s.modPump u f).source i = s.source i := rfl
@[simp] theorem State.modPump_drbg (s : State) (u : PumpRef) (f : Pump → Pump) (i : Nat) : (s.modPump u f).drbg i = s.drbg i := rfl
@[simp] theorem State.modPump_port (s : State) (u : PumpRef) (f : Pump → Pump) (i : Nat) : (s.modPump u f).port i = s.port i := rfl
@[simp] theorem State.modPump_intake (s : State) (u : PumpRef) (f : Pump → Pump) (i j : Nat) : (s.modPump u f).intake i j = s.intake i j := rfl
@[simp] theorem State.modPump_qp (s : State) (u : PumpRef) (f : Pump → Pump) (i : Nat) : (s.modPump u f).qp i = s.qp i := rfl
@[simp] theorem State.modPump_owner (s : State) (u : PumpRef) (f : Pump → Pump) (i : Nat) : (s.modPump u f).owner i = s.owner i := rfl
@[simp] theorem State.modPump_wellsOf (s : State) (u : PumpRef) (f : Pump → Pump) (i : Nat) : (s.modPump u f).wellsOf i = s.wellsOf i := rfl
@[simp] theorem State.modPump_record (s : State) (u : PumpRef) (f : Pump → Pump) (i : Nat) : (s.modPump u f).record i = s.record i := rfl
@[simp] theorem State.modPump_formed (s : State) (u : PumpRef) (f : Pump → Pump) (i : Nat) : (s.modPump u f).formed i = s.formed i := rfl
@[simp] theorem State.modPump_alive (s : State) (u : PumpRef) (f : Pump → Pump) : (s.modPump u f).alive = s.alive := rfl
@[simp] theorem State.modPump_serves (s : State) (u : PumpRef) (f : Pump → Pump) : (s.modPump u f).serves = s.serves := rfl

/-! ## State.modChan -/

@[simp] theorem State.modChan_reg (s : State) (w c : Nat) (f : CopyChan → CopyChan) (i : Nat) : (s.modChan w c f).reg i = s.reg i := rfl
@[simp] theorem State.modChan_regBits (s : State) (w c : Nat) (f : CopyChan → CopyChan) (i hi lo : Nat) : (s.modChan w c f).regBits i hi lo = s.regBits i hi lo := rfl
@[simp] theorem State.modChan_reg64 (s : State) (w c : Nat) (f : CopyChan → CopyChan) (i : Nat) : (s.modChan w c f).reg64 i = s.reg64 i := rfl
@[simp] theorem State.modChan_part (s : State) (w c : Nat) (f : CopyChan → CopyChan) (i : Nat) : (s.modChan w c f).part i = s.part i := rfl
@[simp] theorem State.modChan_round (s : State) (w c : Nat) (f : CopyChan → CopyChan) (i : Nat) : (s.modChan w c f).round i = s.round i := rfl
@[simp] theorem State.modChan_fn (s : State) (w c : Nat) (f : CopyChan → CopyChan) (i : Nat) : (s.modChan w c f).fn i = s.fn i := rfl
@[simp] theorem State.modChan_queue (s : State) (w c : Nat) (f : CopyChan → CopyChan) (i j : Nat) : (s.modChan w c f).queue i j = s.queue i j := rfl
@[simp] theorem State.modChan_source (s : State) (w c : Nat) (f : CopyChan → CopyChan) (i : Nat) : (s.modChan w c f).source i = s.source i := rfl
@[simp] theorem State.modChan_drbg (s : State) (w c : Nat) (f : CopyChan → CopyChan) (i : Nat) : (s.modChan w c f).drbg i = s.drbg i := rfl
@[simp] theorem State.modChan_port (s : State) (w c : Nat) (f : CopyChan → CopyChan) (i : Nat) : (s.modChan w c f).port i = s.port i := rfl
@[simp] theorem State.modChan_intake (s : State) (w c : Nat) (f : CopyChan → CopyChan) (i j : Nat) : (s.modChan w c f).intake i j = s.intake i j := rfl
@[simp] theorem State.modChan_qp (s : State) (w c : Nat) (f : CopyChan → CopyChan) (i : Nat) : (s.modChan w c f).qp i = s.qp i := rfl
@[simp] theorem State.modChan_owner (s : State) (w c : Nat) (f : CopyChan → CopyChan) (i : Nat) : (s.modChan w c f).owner i = s.owner i := rfl
@[simp] theorem State.modChan_wellsOf (s : State) (w c : Nat) (f : CopyChan → CopyChan) (i : Nat) : (s.modChan w c f).wellsOf i = s.wellsOf i := rfl
@[simp] theorem State.modChan_record (s : State) (w c : Nat) (f : CopyChan → CopyChan) (i : Nat) : (s.modChan w c f).record i = s.record i := rfl
@[simp] theorem State.modChan_formed (s : State) (w c : Nat) (f : CopyChan → CopyChan) (i : Nat) : (s.modChan w c f).formed i = s.formed i := rfl
@[simp] theorem State.modChan_alive (s : State) (w c : Nat) (f : CopyChan → CopyChan) : (s.modChan w c f).alive = s.alive := rfl
@[simp] theorem State.modChan_serves (s : State) (w c : Nat) (f : CopyChan → CopyChan) : (s.modChan w c f).serves = s.serves := rfl

/-! ## State.modFn -/

@[simp] theorem State.modFn_reg (s : State) (n : Nat) (f : Function → Function) (i : Nat) : (s.modFn n f).reg i = s.reg i := rfl
@[simp] theorem State.modFn_regBits (s : State) (n : Nat) (f : Function → Function) (i hi lo : Nat) : (s.modFn n f).regBits i hi lo = s.regBits i hi lo := rfl
@[simp] theorem State.modFn_reg64 (s : State) (n : Nat) (f : Function → Function) (i : Nat) : (s.modFn n f).reg64 i = s.reg64 i := rfl
@[simp] theorem State.modFn_part (s : State) (n : Nat) (f : Function → Function) (i : Nat) : (s.modFn n f).part i = s.part i := rfl
@[simp] theorem State.modFn_round (s : State) (n : Nat) (f : Function → Function) (i : Nat) : (s.modFn n f).round i = s.round i := rfl
@[simp] theorem State.modFn_well (s : State) (n : Nat) (f : Function → Function) (i : Nat) : (s.modFn n f).well i = s.well i := rfl
@[simp] theorem State.modFn_tile (s : State) (n : Nat) (f : Function → Function) (i : TileRef) : (s.modFn n f).tile i = s.tile i := rfl
@[simp] theorem State.modFn_pump (s : State) (n : Nat) (f : Function → Function) (i : PumpRef) : (s.modFn n f).pump i = s.pump i := rfl
@[simp] theorem State.modFn_chan (s : State) (n : Nat) (f : Function → Function) (i j : Nat) : (s.modFn n f).chan i j = s.chan i j := rfl
@[simp] theorem State.modFn_source (s : State) (n : Nat) (f : Function → Function) (i : Nat) : (s.modFn n f).source i = s.source i := rfl
@[simp] theorem State.modFn_drbg (s : State) (n : Nat) (f : Function → Function) (i : Nat) : (s.modFn n f).drbg i = s.drbg i := rfl
@[simp] theorem State.modFn_port (s : State) (n : Nat) (f : Function → Function) (i : Nat) : (s.modFn n f).port i = s.port i := rfl
@[simp] theorem State.modFn_intake (s : State) (n : Nat) (f : Function → Function) (i j : Nat) : (s.modFn n f).intake i j = s.intake i j := rfl
@[simp] theorem State.modFn_qp (s : State) (n : Nat) (f : Function → Function) (i : Nat) : (s.modFn n f).qp i = s.qp i := rfl
@[simp] theorem State.modFn_owner (s : State) (n : Nat) (f : Function → Function) (i : Nat) : (s.modFn n f).owner i = s.owner i := rfl
@[simp] theorem State.modFn_wellsOf (s : State) (n : Nat) (f : Function → Function) (i : Nat) : (s.modFn n f).wellsOf i = s.wellsOf i := rfl
@[simp] theorem State.modFn_record (s : State) (n : Nat) (f : Function → Function) (i : Nat) : (s.modFn n f).record i = s.record i := rfl
@[simp] theorem State.modFn_formed (s : State) (n : Nat) (f : Function → Function) (i : Nat) : (s.modFn n f).formed i = s.formed i := rfl
@[simp] theorem State.modFn_alive (s : State) (n : Nat) (f : Function → Function) : (s.modFn n f).alive = s.alive := rfl
@[simp] theorem State.modFn_serves (s : State) (n : Nat) (f : Function → Function) : (s.modFn n f).serves = s.serves := rfl

/-! ## State.modQueue -/

@[simp] theorem State.modQueue_reg (s : State) (n q : Nat) (f : Queue → Queue) (i : Nat) : (s.modQueue n q f).reg i = s.reg i := rfl
@[simp] theorem State.modQueue_regBits (s : State) (n q : Nat) (f : Queue → Queue) (i hi lo : Nat) : (s.modQueue n q f).regBits i hi lo = s.regBits i hi lo := rfl
@[simp] theorem State.modQueue_reg64 (s : State) (n q : Nat) (f : Queue → Queue) (i : Nat) : (s.modQueue n q f).reg64 i = s.reg64 i := rfl
@[simp] theorem State.modQueue_part (s : State) (n q : Nat) (f : Queue → Queue) (i : Nat) : (s.modQueue n q f).part i = s.part i := rfl
@[simp] theorem State.modQueue_round (s : State) (n q : Nat) (f : Queue → Queue) (i : Nat) : (s.modQueue n q f).round i = s.round i := rfl
@[simp] theorem State.modQueue_well (s : State) (n q : Nat) (f : Queue → Queue) (i : Nat) : (s.modQueue n q f).well i = s.well i := rfl
@[simp] theorem State.modQueue_tile (s : State) (n q : Nat) (f : Queue → Queue) (i : TileRef) : (s.modQueue n q f).tile i = s.tile i := rfl
@[simp] theorem State.modQueue_pump (s : State) (n q : Nat) (f : Queue → Queue) (i : PumpRef) : (s.modQueue n q f).pump i = s.pump i := rfl
@[simp] theorem State.modQueue_chan (s : State) (n q : Nat) (f : Queue → Queue) (i j : Nat) : (s.modQueue n q f).chan i j = s.chan i j := rfl
@[simp] theorem State.modQueue_source (s : State) (n q : Nat) (f : Queue → Queue) (i : Nat) : (s.modQueue n q f).source i = s.source i := rfl
@[simp] theorem State.modQueue_drbg (s : State) (n q : Nat) (f : Queue → Queue) (i : Nat) : (s.modQueue n q f).drbg i = s.drbg i := rfl
@[simp] theorem State.modQueue_port (s : State) (n q : Nat) (f : Queue → Queue) (i : Nat) : (s.modQueue n q f).port i = s.port i := rfl
@[simp] theorem State.modQueue_intake (s : State) (n q : Nat) (f : Queue → Queue) (i j : Nat) : (s.modQueue n q f).intake i j = s.intake i j := rfl
@[simp] theorem State.modQueue_qp (s : State) (n q : Nat) (f : Queue → Queue) (i : Nat) : (s.modQueue n q f).qp i = s.qp i := rfl
@[simp] theorem State.modQueue_owner (s : State) (n q : Nat) (f : Queue → Queue) (i : Nat) : (s.modQueue n q f).owner i = s.owner i := rfl
@[simp] theorem State.modQueue_wellsOf (s : State) (n q : Nat) (f : Queue → Queue) (i : Nat) : (s.modQueue n q f).wellsOf i = s.wellsOf i := rfl
@[simp] theorem State.modQueue_record (s : State) (n q : Nat) (f : Queue → Queue) (i : Nat) : (s.modQueue n q f).record i = s.record i := rfl
@[simp] theorem State.modQueue_formed (s : State) (n q : Nat) (f : Queue → Queue) (i : Nat) : (s.modQueue n q f).formed i = s.formed i := rfl
@[simp] theorem State.modQueue_alive (s : State) (n q : Nat) (f : Queue → Queue) : (s.modQueue n q f).alive = s.alive := rfl
@[simp] theorem State.modQueue_serves (s : State) (n q : Nat) (f : Queue → Queue) : (s.modQueue n q f).serves = s.serves := rfl

/-! ## State.modSource -/

@[simp] theorem State.modSource_reg (s : State) (n : Nat) (f : Source → Source) (i : Nat) : (s.modSource n f).reg i = s.reg i := rfl
@[simp] theorem State.modSource_regBits (s : State) (n : Nat) (f : Source → Source) (i hi lo : Nat) : (s.modSource n f).regBits i hi lo = s.regBits i hi lo := rfl
@[simp] theorem State.modSource_reg64 (s : State) (n : Nat) (f : Source → Source) (i : Nat) : (s.modSource n f).reg64 i = s.reg64 i := rfl
@[simp] theorem State.modSource_part (s : State) (n : Nat) (f : Source → Source) (i : Nat) : (s.modSource n f).part i = s.part i := rfl
@[simp] theorem State.modSource_round (s : State) (n : Nat) (f : Source → Source) (i : Nat) : (s.modSource n f).round i = s.round i := rfl
@[simp] theorem State.modSource_well (s : State) (n : Nat) (f : Source → Source) (i : Nat) : (s.modSource n f).well i = s.well i := rfl
@[simp] theorem State.modSource_tile (s : State) (n : Nat) (f : Source → Source) (i : TileRef) : (s.modSource n f).tile i = s.tile i := rfl
@[simp] theorem State.modSource_pump (s : State) (n : Nat) (f : Source → Source) (i : PumpRef) : (s.modSource n f).pump i = s.pump i := rfl
@[simp] theorem State.modSource_chan (s : State) (n : Nat) (f : Source → Source) (i j : Nat) : (s.modSource n f).chan i j = s.chan i j := rfl
@[simp] theorem State.modSource_fn (s : State) (n : Nat) (f : Source → Source) (i : Nat) : (s.modSource n f).fn i = s.fn i := rfl
@[simp] theorem State.modSource_queue (s : State) (n : Nat) (f : Source → Source) (i j : Nat) : (s.modSource n f).queue i j = s.queue i j := rfl
@[simp] theorem State.modSource_drbg (s : State) (n : Nat) (f : Source → Source) (i : Nat) : (s.modSource n f).drbg i = s.drbg i := rfl
@[simp] theorem State.modSource_port (s : State) (n : Nat) (f : Source → Source) (i : Nat) : (s.modSource n f).port i = s.port i := rfl
@[simp] theorem State.modSource_intake (s : State) (n : Nat) (f : Source → Source) (i j : Nat) : (s.modSource n f).intake i j = s.intake i j := rfl
@[simp] theorem State.modSource_qp (s : State) (n : Nat) (f : Source → Source) (i : Nat) : (s.modSource n f).qp i = s.qp i := rfl
@[simp] theorem State.modSource_owner (s : State) (n : Nat) (f : Source → Source) (i : Nat) : (s.modSource n f).owner i = s.owner i := rfl
@[simp] theorem State.modSource_wellsOf (s : State) (n : Nat) (f : Source → Source) (i : Nat) : (s.modSource n f).wellsOf i = s.wellsOf i := rfl
@[simp] theorem State.modSource_record (s : State) (n : Nat) (f : Source → Source) (i : Nat) : (s.modSource n f).record i = s.record i := rfl
@[simp] theorem State.modSource_formed (s : State) (n : Nat) (f : Source → Source) (i : Nat) : (s.modSource n f).formed i = s.formed i := rfl
@[simp] theorem State.modSource_alive (s : State) (n : Nat) (f : Source → Source) : (s.modSource n f).alive = s.alive := rfl
@[simp] theorem State.modSource_serves (s : State) (n : Nat) (f : Source → Source) : (s.modSource n f).serves = s.serves := rfl

/-! ## State.modDrbg -/

@[simp] theorem State.modDrbg_reg (s : State) (b : Nat) (f : Drbg → Drbg) (i : Nat) : (s.modDrbg b f).reg i = s.reg i := rfl
@[simp] theorem State.modDrbg_regBits (s : State) (b : Nat) (f : Drbg → Drbg) (i hi lo : Nat) : (s.modDrbg b f).regBits i hi lo = s.regBits i hi lo := rfl
@[simp] theorem State.modDrbg_reg64 (s : State) (b : Nat) (f : Drbg → Drbg) (i : Nat) : (s.modDrbg b f).reg64 i = s.reg64 i := rfl
@[simp] theorem State.modDrbg_part (s : State) (b : Nat) (f : Drbg → Drbg) (i : Nat) : (s.modDrbg b f).part i = s.part i := rfl
@[simp] theorem State.modDrbg_round (s : State) (b : Nat) (f : Drbg → Drbg) (i : Nat) : (s.modDrbg b f).round i = s.round i := rfl
@[simp] theorem State.modDrbg_well (s : State) (b : Nat) (f : Drbg → Drbg) (i : Nat) : (s.modDrbg b f).well i = s.well i := rfl
@[simp] theorem State.modDrbg_tile (s : State) (b : Nat) (f : Drbg → Drbg) (i : TileRef) : (s.modDrbg b f).tile i = s.tile i := rfl
@[simp] theorem State.modDrbg_pump (s : State) (b : Nat) (f : Drbg → Drbg) (i : PumpRef) : (s.modDrbg b f).pump i = s.pump i := rfl
@[simp] theorem State.modDrbg_chan (s : State) (b : Nat) (f : Drbg → Drbg) (i j : Nat) : (s.modDrbg b f).chan i j = s.chan i j := rfl
@[simp] theorem State.modDrbg_fn (s : State) (b : Nat) (f : Drbg → Drbg) (i : Nat) : (s.modDrbg b f).fn i = s.fn i := rfl
@[simp] theorem State.modDrbg_queue (s : State) (b : Nat) (f : Drbg → Drbg) (i j : Nat) : (s.modDrbg b f).queue i j = s.queue i j := rfl
@[simp] theorem State.modDrbg_source (s : State) (b : Nat) (f : Drbg → Drbg) (i : Nat) : (s.modDrbg b f).source i = s.source i := rfl
@[simp] theorem State.modDrbg_port (s : State) (b : Nat) (f : Drbg → Drbg) (i : Nat) : (s.modDrbg b f).port i = s.port i := rfl
@[simp] theorem State.modDrbg_intake (s : State) (b : Nat) (f : Drbg → Drbg) (i j : Nat) : (s.modDrbg b f).intake i j = s.intake i j := rfl
@[simp] theorem State.modDrbg_qp (s : State) (b : Nat) (f : Drbg → Drbg) (i : Nat) : (s.modDrbg b f).qp i = s.qp i := rfl
@[simp] theorem State.modDrbg_owner (s : State) (b : Nat) (f : Drbg → Drbg) (i : Nat) : (s.modDrbg b f).owner i = s.owner i := rfl
@[simp] theorem State.modDrbg_wellsOf (s : State) (b : Nat) (f : Drbg → Drbg) (i : Nat) : (s.modDrbg b f).wellsOf i = s.wellsOf i := rfl
@[simp] theorem State.modDrbg_record (s : State) (b : Nat) (f : Drbg → Drbg) (i : Nat) : (s.modDrbg b f).record i = s.record i := rfl
@[simp] theorem State.modDrbg_formed (s : State) (b : Nat) (f : Drbg → Drbg) (i : Nat) : (s.modDrbg b f).formed i = s.formed i := rfl
@[simp] theorem State.modDrbg_alive (s : State) (b : Nat) (f : Drbg → Drbg) : (s.modDrbg b f).alive = s.alive := rfl
@[simp] theorem State.modDrbg_serves (s : State) (b : Nat) (f : Drbg → Drbg) : (s.modDrbg b f).serves = s.serves := rfl

/-! ## State.modPort -/

@[simp] theorem State.modPort_reg (s : State) (n : Nat) (f : Port → Port) (i : Nat) : (s.modPort n f).reg i = s.reg i := rfl
@[simp] theorem State.modPort_regBits (s : State) (n : Nat) (f : Port → Port) (i hi lo : Nat) : (s.modPort n f).regBits i hi lo = s.regBits i hi lo := rfl
@[simp] theorem State.modPort_reg64 (s : State) (n : Nat) (f : Port → Port) (i : Nat) : (s.modPort n f).reg64 i = s.reg64 i := rfl
@[simp] theorem State.modPort_part (s : State) (n : Nat) (f : Port → Port) (i : Nat) : (s.modPort n f).part i = s.part i := rfl
@[simp] theorem State.modPort_round (s : State) (n : Nat) (f : Port → Port) (i : Nat) : (s.modPort n f).round i = s.round i := rfl
@[simp] theorem State.modPort_well (s : State) (n : Nat) (f : Port → Port) (i : Nat) : (s.modPort n f).well i = s.well i := rfl
@[simp] theorem State.modPort_tile (s : State) (n : Nat) (f : Port → Port) (i : TileRef) : (s.modPort n f).tile i = s.tile i := rfl
@[simp] theorem State.modPort_pump (s : State) (n : Nat) (f : Port → Port) (i : PumpRef) : (s.modPort n f).pump i = s.pump i := rfl
@[simp] theorem State.modPort_chan (s : State) (n : Nat) (f : Port → Port) (i j : Nat) : (s.modPort n f).chan i j = s.chan i j := rfl
@[simp] theorem State.modPort_fn (s : State) (n : Nat) (f : Port → Port) (i : Nat) : (s.modPort n f).fn i = s.fn i := rfl
@[simp] theorem State.modPort_queue (s : State) (n : Nat) (f : Port → Port) (i j : Nat) : (s.modPort n f).queue i j = s.queue i j := rfl
@[simp] theorem State.modPort_source (s : State) (n : Nat) (f : Port → Port) (i : Nat) : (s.modPort n f).source i = s.source i := rfl
@[simp] theorem State.modPort_drbg (s : State) (n : Nat) (f : Port → Port) (i : Nat) : (s.modPort n f).drbg i = s.drbg i := rfl
@[simp] theorem State.modPort_intake (s : State) (n : Nat) (f : Port → Port) (i j : Nat) : (s.modPort n f).intake i j = s.intake i j := rfl
@[simp] theorem State.modPort_qp (s : State) (n : Nat) (f : Port → Port) (i : Nat) : (s.modPort n f).qp i = s.qp i := rfl
@[simp] theorem State.modPort_owner (s : State) (n : Nat) (f : Port → Port) (i : Nat) : (s.modPort n f).owner i = s.owner i := rfl
@[simp] theorem State.modPort_wellsOf (s : State) (n : Nat) (f : Port → Port) (i : Nat) : (s.modPort n f).wellsOf i = s.wellsOf i := rfl
@[simp] theorem State.modPort_record (s : State) (n : Nat) (f : Port → Port) (i : Nat) : (s.modPort n f).record i = s.record i := rfl
@[simp] theorem State.modPort_formed (s : State) (n : Nat) (f : Port → Port) (i : Nat) : (s.modPort n f).formed i = s.formed i := rfl
@[simp] theorem State.modPort_alive (s : State) (n : Nat) (f : Port → Port) : (s.modPort n f).alive = s.alive := rfl
@[simp] theorem State.modPort_serves (s : State) (n : Nat) (f : Port → Port) : (s.modPort n f).serves = s.serves := rfl

/-! ## State.modIntake -/

@[simp] theorem State.modIntake_reg (s : State) (port prio : Nat) (f : Intake → Intake) (i : Nat) : (s.modIntake port prio f).reg i = s.reg i := rfl
@[simp] theorem State.modIntake_regBits (s : State) (port prio : Nat) (f : Intake → Intake) (i hi lo : Nat) : (s.modIntake port prio f).regBits i hi lo = s.regBits i hi lo := rfl
@[simp] theorem State.modIntake_reg64 (s : State) (port prio : Nat) (f : Intake → Intake) (i : Nat) : (s.modIntake port prio f).reg64 i = s.reg64 i := rfl
@[simp] theorem State.modIntake_part (s : State) (port prio : Nat) (f : Intake → Intake) (i : Nat) : (s.modIntake port prio f).part i = s.part i := rfl
@[simp] theorem State.modIntake_round (s : State) (port prio : Nat) (f : Intake → Intake) (i : Nat) : (s.modIntake port prio f).round i = s.round i := rfl
@[simp] theorem State.modIntake_well (s : State) (port prio : Nat) (f : Intake → Intake) (i : Nat) : (s.modIntake port prio f).well i = s.well i := rfl
@[simp] theorem State.modIntake_tile (s : State) (port prio : Nat) (f : Intake → Intake) (i : TileRef) : (s.modIntake port prio f).tile i = s.tile i := rfl
@[simp] theorem State.modIntake_pump (s : State) (port prio : Nat) (f : Intake → Intake) (i : PumpRef) : (s.modIntake port prio f).pump i = s.pump i := rfl
@[simp] theorem State.modIntake_chan (s : State) (port prio : Nat) (f : Intake → Intake) (i j : Nat) : (s.modIntake port prio f).chan i j = s.chan i j := rfl
@[simp] theorem State.modIntake_fn (s : State) (port prio : Nat) (f : Intake → Intake) (i : Nat) : (s.modIntake port prio f).fn i = s.fn i := rfl
@[simp] theorem State.modIntake_queue (s : State) (port prio : Nat) (f : Intake → Intake) (i j : Nat) : (s.modIntake port prio f).queue i j = s.queue i j := rfl
@[simp] theorem State.modIntake_source (s : State) (port prio : Nat) (f : Intake → Intake) (i : Nat) : (s.modIntake port prio f).source i = s.source i := rfl
@[simp] theorem State.modIntake_drbg (s : State) (port prio : Nat) (f : Intake → Intake) (i : Nat) : (s.modIntake port prio f).drbg i = s.drbg i := rfl
@[simp] theorem State.modIntake_port (s : State) (port prio : Nat) (f : Intake → Intake) (i : Nat) : (s.modIntake port prio f).port i = s.port i := rfl
@[simp] theorem State.modIntake_qp (s : State) (port prio : Nat) (f : Intake → Intake) (i : Nat) : (s.modIntake port prio f).qp i = s.qp i := rfl
@[simp] theorem State.modIntake_owner (s : State) (port prio : Nat) (f : Intake → Intake) (i : Nat) : (s.modIntake port prio f).owner i = s.owner i := rfl
@[simp] theorem State.modIntake_wellsOf (s : State) (port prio : Nat) (f : Intake → Intake) (i : Nat) : (s.modIntake port prio f).wellsOf i = s.wellsOf i := rfl
@[simp] theorem State.modIntake_record (s : State) (port prio : Nat) (f : Intake → Intake) (i : Nat) : (s.modIntake port prio f).record i = s.record i := rfl
@[simp] theorem State.modIntake_formed (s : State) (port prio : Nat) (f : Intake → Intake) (i : Nat) : (s.modIntake port prio f).formed i = s.formed i := rfl
@[simp] theorem State.modIntake_alive (s : State) (port prio : Nat) (f : Intake → Intake) : (s.modIntake port prio f).alive = s.alive := rfl
@[simp] theorem State.modIntake_serves (s : State) (port prio : Nat) (f : Intake → Intake) : (s.modIntake port prio f).serves = s.serves := rfl

/-! ## State.setQp -/

@[simp] theorem State.setQp_reg (s : State) (n : Nat) (q : Qp) (i : Nat) : (s.setQp n q).reg i = s.reg i := rfl
@[simp] theorem State.setQp_regBits (s : State) (n : Nat) (q : Qp) (i hi lo : Nat) : (s.setQp n q).regBits i hi lo = s.regBits i hi lo := rfl
@[simp] theorem State.setQp_reg64 (s : State) (n : Nat) (q : Qp) (i : Nat) : (s.setQp n q).reg64 i = s.reg64 i := rfl
@[simp] theorem State.setQp_part (s : State) (n : Nat) (q : Qp) (i : Nat) : (s.setQp n q).part i = s.part i := rfl
@[simp] theorem State.setQp_round (s : State) (n : Nat) (q : Qp) (i : Nat) : (s.setQp n q).round i = s.round i := rfl
@[simp] theorem State.setQp_well (s : State) (n : Nat) (q : Qp) (i : Nat) : (s.setQp n q).well i = s.well i := rfl
@[simp] theorem State.setQp_tile (s : State) (n : Nat) (q : Qp) (i : TileRef) : (s.setQp n q).tile i = s.tile i := rfl
@[simp] theorem State.setQp_pump (s : State) (n : Nat) (q : Qp) (i : PumpRef) : (s.setQp n q).pump i = s.pump i := rfl
@[simp] theorem State.setQp_chan (s : State) (n : Nat) (q : Qp) (i j : Nat) : (s.setQp n q).chan i j = s.chan i j := rfl
@[simp] theorem State.setQp_fn (s : State) (n : Nat) (q : Qp) (i : Nat) : (s.setQp n q).fn i = s.fn i := rfl
@[simp] theorem State.setQp_queue (s : State) (n : Nat) (q : Qp) (i j : Nat) : (s.setQp n q).queue i j = s.queue i j := rfl
@[simp] theorem State.setQp_source (s : State) (n : Nat) (q : Qp) (i : Nat) : (s.setQp n q).source i = s.source i := rfl
@[simp] theorem State.setQp_drbg (s : State) (n : Nat) (q : Qp) (i : Nat) : (s.setQp n q).drbg i = s.drbg i := rfl
@[simp] theorem State.setQp_port (s : State) (n : Nat) (q : Qp) (i : Nat) : (s.setQp n q).port i = s.port i := rfl
@[simp] theorem State.setQp_intake (s : State) (n : Nat) (q : Qp) (i j : Nat) : (s.setQp n q).intake i j = s.intake i j := rfl
@[simp] theorem State.setQp_owner (s : State) (n : Nat) (q : Qp) (i : Nat) : (s.setQp n q).owner i = s.owner i := rfl
@[simp] theorem State.setQp_wellsOf (s : State) (n : Nat) (q : Qp) (i : Nat) : (s.setQp n q).wellsOf i = s.wellsOf i := rfl
@[simp] theorem State.setQp_record (s : State) (n : Nat) (q : Qp) (i : Nat) : (s.setQp n q).record i = s.record i := rfl
@[simp] theorem State.setQp_formed (s : State) (n : Nat) (q : Qp) (i : Nat) : (s.setQp n q).formed i = s.formed i := rfl
@[simp] theorem State.setQp_alive (s : State) (n : Nat) (q : Qp) : (s.setQp n q).alive = s.alive := rfl
@[simp] theorem State.setQp_serves (s : State) (n : Nat) (q : Qp) : (s.setQp n q).serves = s.serves := rfl

/-! ## State.modQp -/

@[simp] theorem State.modQp_reg (s : State) (n : Nat) (f : Qp → Qp) (i : Nat) : (s.modQp n f).reg i = s.reg i := rfl
@[simp] theorem State.modQp_regBits (s : State) (n : Nat) (f : Qp → Qp) (i hi lo : Nat) : (s.modQp n f).regBits i hi lo = s.regBits i hi lo := rfl
@[simp] theorem State.modQp_reg64 (s : State) (n : Nat) (f : Qp → Qp) (i : Nat) : (s.modQp n f).reg64 i = s.reg64 i := rfl
@[simp] theorem State.modQp_part (s : State) (n : Nat) (f : Qp → Qp) (i : Nat) : (s.modQp n f).part i = s.part i := rfl
@[simp] theorem State.modQp_round (s : State) (n : Nat) (f : Qp → Qp) (i : Nat) : (s.modQp n f).round i = s.round i := rfl
@[simp] theorem State.modQp_well (s : State) (n : Nat) (f : Qp → Qp) (i : Nat) : (s.modQp n f).well i = s.well i := rfl
@[simp] theorem State.modQp_tile (s : State) (n : Nat) (f : Qp → Qp) (i : TileRef) : (s.modQp n f).tile i = s.tile i := rfl
@[simp] theorem State.modQp_pump (s : State) (n : Nat) (f : Qp → Qp) (i : PumpRef) : (s.modQp n f).pump i = s.pump i := rfl
@[simp] theorem State.modQp_chan (s : State) (n : Nat) (f : Qp → Qp) (i j : Nat) : (s.modQp n f).chan i j = s.chan i j := rfl
@[simp] theorem State.modQp_fn (s : State) (n : Nat) (f : Qp → Qp) (i : Nat) : (s.modQp n f).fn i = s.fn i := rfl
@[simp] theorem State.modQp_queue (s : State) (n : Nat) (f : Qp → Qp) (i j : Nat) : (s.modQp n f).queue i j = s.queue i j := rfl
@[simp] theorem State.modQp_source (s : State) (n : Nat) (f : Qp → Qp) (i : Nat) : (s.modQp n f).source i = s.source i := rfl
@[simp] theorem State.modQp_drbg (s : State) (n : Nat) (f : Qp → Qp) (i : Nat) : (s.modQp n f).drbg i = s.drbg i := rfl
@[simp] theorem State.modQp_port (s : State) (n : Nat) (f : Qp → Qp) (i : Nat) : (s.modQp n f).port i = s.port i := rfl
@[simp] theorem State.modQp_intake (s : State) (n : Nat) (f : Qp → Qp) (i j : Nat) : (s.modQp n f).intake i j = s.intake i j := rfl
@[simp] theorem State.modQp_owner (s : State) (n : Nat) (f : Qp → Qp) (i : Nat) : (s.modQp n f).owner i = s.owner i := rfl
@[simp] theorem State.modQp_wellsOf (s : State) (n : Nat) (f : Qp → Qp) (i : Nat) : (s.modQp n f).wellsOf i = s.wellsOf i := rfl
@[simp] theorem State.modQp_record (s : State) (n : Nat) (f : Qp → Qp) (i : Nat) : (s.modQp n f).record i = s.record i := rfl
@[simp] theorem State.modQp_formed (s : State) (n : Nat) (f : Qp → Qp) (i : Nat) : (s.modQp n f).formed i = s.formed i := rfl
@[simp] theorem State.modQp_alive (s : State) (n : Nat) (f : Qp → Qp) : (s.modQp n f).alive = s.alive := rfl
@[simp] theorem State.modQp_serves (s : State) (n : Nat) (f : Qp → Qp) : (s.modQp n f).serves = s.serves := rfl

/-! ## State.modLantus -/

@[simp] theorem State.modLantus_reg (s : State) (f : Lantus → Lantus) (i : Nat) : (s.modLantus f).reg i = s.reg i := rfl
@[simp] theorem State.modLantus_regBits (s : State) (f : Lantus → Lantus) (i hi lo : Nat) : (s.modLantus f).regBits i hi lo = s.regBits i hi lo := rfl
@[simp] theorem State.modLantus_reg64 (s : State) (f : Lantus → Lantus) (i : Nat) : (s.modLantus f).reg64 i = s.reg64 i := rfl
@[simp] theorem State.modLantus_part (s : State) (f : Lantus → Lantus) (i : Nat) : (s.modLantus f).part i = s.part i := rfl
@[simp] theorem State.modLantus_round (s : State) (f : Lantus → Lantus) (i : Nat) : (s.modLantus f).round i = s.round i := rfl
@[simp] theorem State.modLantus_well (s : State) (f : Lantus → Lantus) (i : Nat) : (s.modLantus f).well i = s.well i := rfl
@[simp] theorem State.modLantus_tile (s : State) (f : Lantus → Lantus) (i : TileRef) : (s.modLantus f).tile i = s.tile i := rfl
@[simp] theorem State.modLantus_pump (s : State) (f : Lantus → Lantus) (i : PumpRef) : (s.modLantus f).pump i = s.pump i := rfl
@[simp] theorem State.modLantus_chan (s : State) (f : Lantus → Lantus) (i j : Nat) : (s.modLantus f).chan i j = s.chan i j := rfl
@[simp] theorem State.modLantus_fn (s : State) (f : Lantus → Lantus) (i : Nat) : (s.modLantus f).fn i = s.fn i := rfl
@[simp] theorem State.modLantus_queue (s : State) (f : Lantus → Lantus) (i j : Nat) : (s.modLantus f).queue i j = s.queue i j := rfl
@[simp] theorem State.modLantus_source (s : State) (f : Lantus → Lantus) (i : Nat) : (s.modLantus f).source i = s.source i := rfl
@[simp] theorem State.modLantus_drbg (s : State) (f : Lantus → Lantus) (i : Nat) : (s.modLantus f).drbg i = s.drbg i := rfl
@[simp] theorem State.modLantus_port (s : State) (f : Lantus → Lantus) (i : Nat) : (s.modLantus f).port i = s.port i := rfl
@[simp] theorem State.modLantus_intake (s : State) (f : Lantus → Lantus) (i j : Nat) : (s.modLantus f).intake i j = s.intake i j := rfl
@[simp] theorem State.modLantus_qp (s : State) (f : Lantus → Lantus) (i : Nat) : (s.modLantus f).qp i = s.qp i := rfl
@[simp] theorem State.modLantus_owner (s : State) (f : Lantus → Lantus) (i : Nat) : (s.modLantus f).owner i = s.owner i := rfl
@[simp] theorem State.modLantus_wellsOf (s : State) (f : Lantus → Lantus) (i : Nat) : (s.modLantus f).wellsOf i = s.wellsOf i := rfl
@[simp] theorem State.modLantus_record (s : State) (f : Lantus → Lantus) (i : Nat) : (s.modLantus f).record i = s.record i := rfl
@[simp] theorem State.modLantus_formed (s : State) (f : Lantus → Lantus) (i : Nat) : (s.modLantus f).formed i = s.formed i := rfl
@[simp] theorem State.modLantus_alive (s : State) (f : Lantus → Lantus) : (s.modLantus f).alive = s.alive := rfl

/-! ## State.modPower -/

@[simp] theorem State.modPower_reg (s : State) (f : Power → Power) (i : Nat) : (s.modPower f).reg i = s.reg i := rfl
@[simp] theorem State.modPower_regBits (s : State) (f : Power → Power) (i hi lo : Nat) : (s.modPower f).regBits i hi lo = s.regBits i hi lo := rfl
@[simp] theorem State.modPower_reg64 (s : State) (f : Power → Power) (i : Nat) : (s.modPower f).reg64 i = s.reg64 i := rfl
@[simp] theorem State.modPower_part (s : State) (f : Power → Power) (i : Nat) : (s.modPower f).part i = s.part i := rfl
@[simp] theorem State.modPower_round (s : State) (f : Power → Power) (i : Nat) : (s.modPower f).round i = s.round i := rfl
@[simp] theorem State.modPower_well (s : State) (f : Power → Power) (i : Nat) : (s.modPower f).well i = s.well i := rfl
@[simp] theorem State.modPower_tile (s : State) (f : Power → Power) (i : TileRef) : (s.modPower f).tile i = s.tile i := rfl
@[simp] theorem State.modPower_pump (s : State) (f : Power → Power) (i : PumpRef) : (s.modPower f).pump i = s.pump i := rfl
@[simp] theorem State.modPower_chan (s : State) (f : Power → Power) (i j : Nat) : (s.modPower f).chan i j = s.chan i j := rfl
@[simp] theorem State.modPower_fn (s : State) (f : Power → Power) (i : Nat) : (s.modPower f).fn i = s.fn i := rfl
@[simp] theorem State.modPower_queue (s : State) (f : Power → Power) (i j : Nat) : (s.modPower f).queue i j = s.queue i j := rfl
@[simp] theorem State.modPower_source (s : State) (f : Power → Power) (i : Nat) : (s.modPower f).source i = s.source i := rfl
@[simp] theorem State.modPower_drbg (s : State) (f : Power → Power) (i : Nat) : (s.modPower f).drbg i = s.drbg i := rfl
@[simp] theorem State.modPower_port (s : State) (f : Power → Power) (i : Nat) : (s.modPower f).port i = s.port i := rfl
@[simp] theorem State.modPower_intake (s : State) (f : Power → Power) (i j : Nat) : (s.modPower f).intake i j = s.intake i j := rfl
@[simp] theorem State.modPower_qp (s : State) (f : Power → Power) (i : Nat) : (s.modPower f).qp i = s.qp i := rfl
@[simp] theorem State.modPower_owner (s : State) (f : Power → Power) (i : Nat) : (s.modPower f).owner i = s.owner i := rfl
@[simp] theorem State.modPower_wellsOf (s : State) (f : Power → Power) (i : Nat) : (s.modPower f).wellsOf i = s.wellsOf i := rfl
@[simp] theorem State.modPower_record (s : State) (f : Power → Power) (i : Nat) : (s.modPower f).record i = s.record i := rfl
@[simp] theorem State.modPower_formed (s : State) (f : Power → Power) (i : Nat) : (s.modPower f).formed i = s.formed i := rfl

/-! ## State.modCmd -/

@[simp] theorem State.modCmd_reg (s : State) (r : CmdRef) (f : Cmd → Cmd) (i : Nat) : (s.modCmd r f).reg i = s.reg i := rfl
@[simp] theorem State.modCmd_regBits (s : State) (r : CmdRef) (f : Cmd → Cmd) (i hi lo : Nat) : (s.modCmd r f).regBits i hi lo = s.regBits i hi lo := rfl
@[simp] theorem State.modCmd_reg64 (s : State) (r : CmdRef) (f : Cmd → Cmd) (i : Nat) : (s.modCmd r f).reg64 i = s.reg64 i := rfl
@[simp] theorem State.modCmd_part (s : State) (r : CmdRef) (f : Cmd → Cmd) (i : Nat) : (s.modCmd r f).part i = s.part i := rfl
@[simp] theorem State.modCmd_round (s : State) (r : CmdRef) (f : Cmd → Cmd) (i : Nat) : (s.modCmd r f).round i = s.round i := rfl
@[simp] theorem State.modCmd_well (s : State) (r : CmdRef) (f : Cmd → Cmd) (i : Nat) : (s.modCmd r f).well i = s.well i := rfl
@[simp] theorem State.modCmd_tile (s : State) (r : CmdRef) (f : Cmd → Cmd) (i : TileRef) : (s.modCmd r f).tile i = s.tile i := rfl
@[simp] theorem State.modCmd_pump (s : State) (r : CmdRef) (f : Cmd → Cmd) (i : PumpRef) : (s.modCmd r f).pump i = s.pump i := rfl
@[simp] theorem State.modCmd_chan (s : State) (r : CmdRef) (f : Cmd → Cmd) (i j : Nat) : (s.modCmd r f).chan i j = s.chan i j := rfl
@[simp] theorem State.modCmd_fn (s : State) (r : CmdRef) (f : Cmd → Cmd) (i : Nat) : (s.modCmd r f).fn i = s.fn i := rfl
@[simp] theorem State.modCmd_queue (s : State) (r : CmdRef) (f : Cmd → Cmd) (i j : Nat) : (s.modCmd r f).queue i j = s.queue i j := rfl
@[simp] theorem State.modCmd_source (s : State) (r : CmdRef) (f : Cmd → Cmd) (i : Nat) : (s.modCmd r f).source i = s.source i := rfl
@[simp] theorem State.modCmd_drbg (s : State) (r : CmdRef) (f : Cmd → Cmd) (i : Nat) : (s.modCmd r f).drbg i = s.drbg i := rfl
@[simp] theorem State.modCmd_port (s : State) (r : CmdRef) (f : Cmd → Cmd) (i : Nat) : (s.modCmd r f).port i = s.port i := rfl
@[simp] theorem State.modCmd_intake (s : State) (r : CmdRef) (f : Cmd → Cmd) (i j : Nat) : (s.modCmd r f).intake i j = s.intake i j := rfl
@[simp] theorem State.modCmd_qp (s : State) (r : CmdRef) (f : Cmd → Cmd) (i : Nat) : (s.modCmd r f).qp i = s.qp i := rfl
@[simp] theorem State.modCmd_owner (s : State) (r : CmdRef) (f : Cmd → Cmd) (i : Nat) : (s.modCmd r f).owner i = s.owner i := rfl
@[simp] theorem State.modCmd_wellsOf (s : State) (r : CmdRef) (f : Cmd → Cmd) (i : Nat) : (s.modCmd r f).wellsOf i = s.wellsOf i := rfl
@[simp] theorem State.modCmd_record (s : State) (r : CmdRef) (f : Cmd → Cmd) (i : Nat) : (s.modCmd r f).record i = s.record i := rfl
@[simp] theorem State.modCmd_formed (s : State) (r : CmdRef) (f : Cmd → Cmd) (i : Nat) : (s.modCmd r f).formed i = s.formed i := rfl
@[simp] theorem State.modCmd_alive (s : State) (r : CmdRef) (f : Cmd → Cmd) : (s.modCmd r f).alive = s.alive := rfl
@[simp] theorem State.modCmd_serves (s : State) (r : CmdRef) (f : Cmd → Cmd) : (s.modCmd r f).serves = s.serves := rfl

/-! ## State.startCmd -/

@[simp] theorem State.startCmd_reg (s : State) (r : CmdRef) (i : Nat) : (s.startCmd r).reg i = s.reg i := rfl
@[simp] theorem State.startCmd_regBits (s : State) (r : CmdRef) (i hi lo : Nat) : (s.startCmd r).regBits i hi lo = s.regBits i hi lo := rfl
@[simp] theorem State.startCmd_reg64 (s : State) (r : CmdRef) (i : Nat) : (s.startCmd r).reg64 i = s.reg64 i := rfl
@[simp] theorem State.startCmd_part (s : State) (r : CmdRef) (i : Nat) : (s.startCmd r).part i = s.part i := rfl
@[simp] theorem State.startCmd_round (s : State) (r : CmdRef) (i : Nat) : (s.startCmd r).round i = s.round i := rfl
@[simp] theorem State.startCmd_well (s : State) (r : CmdRef) (i : Nat) : (s.startCmd r).well i = s.well i := rfl
@[simp] theorem State.startCmd_tile (s : State) (r : CmdRef) (i : TileRef) : (s.startCmd r).tile i = s.tile i := rfl
@[simp] theorem State.startCmd_pump (s : State) (r : CmdRef) (i : PumpRef) : (s.startCmd r).pump i = s.pump i := rfl
@[simp] theorem State.startCmd_chan (s : State) (r : CmdRef) (i j : Nat) : (s.startCmd r).chan i j = s.chan i j := rfl
@[simp] theorem State.startCmd_fn (s : State) (r : CmdRef) (i : Nat) : (s.startCmd r).fn i = s.fn i := rfl
@[simp] theorem State.startCmd_queue (s : State) (r : CmdRef) (i j : Nat) : (s.startCmd r).queue i j = s.queue i j := rfl
@[simp] theorem State.startCmd_source (s : State) (r : CmdRef) (i : Nat) : (s.startCmd r).source i = s.source i := rfl
@[simp] theorem State.startCmd_drbg (s : State) (r : CmdRef) (i : Nat) : (s.startCmd r).drbg i = s.drbg i := rfl
@[simp] theorem State.startCmd_port (s : State) (r : CmdRef) (i : Nat) : (s.startCmd r).port i = s.port i := rfl
@[simp] theorem State.startCmd_intake (s : State) (r : CmdRef) (i j : Nat) : (s.startCmd r).intake i j = s.intake i j := rfl
@[simp] theorem State.startCmd_qp (s : State) (r : CmdRef) (i : Nat) : (s.startCmd r).qp i = s.qp i := rfl
@[simp] theorem State.startCmd_owner (s : State) (r : CmdRef) (i : Nat) : (s.startCmd r).owner i = s.owner i := rfl
@[simp] theorem State.startCmd_wellsOf (s : State) (r : CmdRef) (i : Nat) : (s.startCmd r).wellsOf i = s.wellsOf i := rfl
@[simp] theorem State.startCmd_record (s : State) (r : CmdRef) (i : Nat) : (s.startCmd r).record i = s.record i := rfl
@[simp] theorem State.startCmd_formed (s : State) (r : CmdRef) (i : Nat) : (s.startCmd r).formed i = s.formed i := rfl
@[simp] theorem State.startCmd_alive (s : State) (r : CmdRef) : (s.startCmd r).alive = s.alive := rfl
@[simp] theorem State.startCmd_serves (s : State) (r : CmdRef) : (s.startCmd r).serves = s.serves := rfl

/-! ## State.emit -/

@[simp] theorem State.emit_reg (s : State) (o : Output) (i : Nat) : (s.emit o).reg i = s.reg i := rfl
@[simp] theorem State.emit_regBits (s : State) (o : Output) (i hi lo : Nat) : (s.emit o).regBits i hi lo = s.regBits i hi lo := rfl
@[simp] theorem State.emit_reg64 (s : State) (o : Output) (i : Nat) : (s.emit o).reg64 i = s.reg64 i := rfl
@[simp] theorem State.emit_part (s : State) (o : Output) (i : Nat) : (s.emit o).part i = s.part i := rfl
@[simp] theorem State.emit_round (s : State) (o : Output) (i : Nat) : (s.emit o).round i = s.round i := rfl
@[simp] theorem State.emit_well (s : State) (o : Output) (i : Nat) : (s.emit o).well i = s.well i := rfl
@[simp] theorem State.emit_tile (s : State) (o : Output) (i : TileRef) : (s.emit o).tile i = s.tile i := rfl
@[simp] theorem State.emit_pump (s : State) (o : Output) (i : PumpRef) : (s.emit o).pump i = s.pump i := rfl
@[simp] theorem State.emit_chan (s : State) (o : Output) (i j : Nat) : (s.emit o).chan i j = s.chan i j := rfl
@[simp] theorem State.emit_fn (s : State) (o : Output) (i : Nat) : (s.emit o).fn i = s.fn i := rfl
@[simp] theorem State.emit_queue (s : State) (o : Output) (i j : Nat) : (s.emit o).queue i j = s.queue i j := rfl
@[simp] theorem State.emit_source (s : State) (o : Output) (i : Nat) : (s.emit o).source i = s.source i := rfl
@[simp] theorem State.emit_drbg (s : State) (o : Output) (i : Nat) : (s.emit o).drbg i = s.drbg i := rfl
@[simp] theorem State.emit_port (s : State) (o : Output) (i : Nat) : (s.emit o).port i = s.port i := rfl
@[simp] theorem State.emit_intake (s : State) (o : Output) (i j : Nat) : (s.emit o).intake i j = s.intake i j := rfl
@[simp] theorem State.emit_qp (s : State) (o : Output) (i : Nat) : (s.emit o).qp i = s.qp i := rfl
@[simp] theorem State.emit_owner (s : State) (o : Output) (i : Nat) : (s.emit o).owner i = s.owner i := rfl
@[simp] theorem State.emit_wellsOf (s : State) (o : Output) (i : Nat) : (s.emit o).wellsOf i = s.wellsOf i := rfl
@[simp] theorem State.emit_record (s : State) (o : Output) (i : Nat) : (s.emit o).record i = s.record i := rfl
@[simp] theorem State.emit_formed (s : State) (o : Output) (i : Nat) : (s.emit o).formed i = s.formed i := rfl
@[simp] theorem State.emit_alive (s : State) (o : Output) : (s.emit o).alive = s.alive := rfl
@[simp] theorem State.emit_serves (s : State) (o : Output) : (s.emit o).serves = s.serves := rfl

/-! ## State.setReg -/

@[simp] theorem State.setReg_part (s : State) (x v : Nat) (i : Nat) : (s.setReg x v).part i = s.part i := rfl
@[simp] theorem State.setReg_round (s : State) (x v : Nat) (i : Nat) : (s.setReg x v).round i = s.round i := rfl
@[simp] theorem State.setReg_well (s : State) (x v : Nat) (i : Nat) : (s.setReg x v).well i = s.well i := rfl
@[simp] theorem State.setReg_tile (s : State) (x v : Nat) (i : TileRef) : (s.setReg x v).tile i = s.tile i := rfl
@[simp] theorem State.setReg_pump (s : State) (x v : Nat) (i : PumpRef) : (s.setReg x v).pump i = s.pump i := rfl
@[simp] theorem State.setReg_chan (s : State) (x v : Nat) (i j : Nat) : (s.setReg x v).chan i j = s.chan i j := rfl
@[simp] theorem State.setReg_fn (s : State) (x v : Nat) (i : Nat) : (s.setReg x v).fn i = s.fn i := rfl
@[simp] theorem State.setReg_queue (s : State) (x v : Nat) (i j : Nat) : (s.setReg x v).queue i j = s.queue i j := rfl
@[simp] theorem State.setReg_source (s : State) (x v : Nat) (i : Nat) : (s.setReg x v).source i = s.source i := rfl
@[simp] theorem State.setReg_drbg (s : State) (x v : Nat) (i : Nat) : (s.setReg x v).drbg i = s.drbg i := rfl
@[simp] theorem State.setReg_port (s : State) (x v : Nat) (i : Nat) : (s.setReg x v).port i = s.port i := rfl
@[simp] theorem State.setReg_intake (s : State) (x v : Nat) (i j : Nat) : (s.setReg x v).intake i j = s.intake i j := rfl
@[simp] theorem State.setReg_qp (s : State) (x v : Nat) (i : Nat) : (s.setReg x v).qp i = s.qp i := rfl
@[simp] theorem State.setReg_owner (s : State) (x v : Nat) (i : Nat) : (s.setReg x v).owner i = s.owner i := rfl
@[simp] theorem State.setReg_wellsOf (s : State) (x v : Nat) (i : Nat) : (s.setReg x v).wellsOf i = s.wellsOf i := rfl
@[simp] theorem State.setReg_record (s : State) (x v : Nat) (i : Nat) : (s.setReg x v).record i = s.record i := rfl
@[simp] theorem State.setReg_formed (s : State) (x v : Nat) (i : Nat) : (s.setReg x v).formed i = s.formed i := rfl
@[simp] theorem State.setReg_alive (s : State) (x v : Nat) : (s.setReg x v).alive = s.alive := rfl
@[simp] theorem State.setReg_serves (s : State) (x v : Nat) : (s.setReg x v).serves = s.serves := rfl

/-! ## State.setBits -/

@[simp] theorem State.setBits_part (s : State) (x hi lo v : Nat) (i : Nat) : (s.setBits x hi lo v).part i = s.part i := rfl
@[simp] theorem State.setBits_round (s : State) (x hi lo v : Nat) (i : Nat) : (s.setBits x hi lo v).round i = s.round i := rfl
@[simp] theorem State.setBits_well (s : State) (x hi lo v : Nat) (i : Nat) : (s.setBits x hi lo v).well i = s.well i := rfl
@[simp] theorem State.setBits_tile (s : State) (x hi lo v : Nat) (i : TileRef) : (s.setBits x hi lo v).tile i = s.tile i := rfl
@[simp] theorem State.setBits_pump (s : State) (x hi lo v : Nat) (i : PumpRef) : (s.setBits x hi lo v).pump i = s.pump i := rfl
@[simp] theorem State.setBits_chan (s : State) (x hi lo v : Nat) (i j : Nat) : (s.setBits x hi lo v).chan i j = s.chan i j := rfl
@[simp] theorem State.setBits_fn (s : State) (x hi lo v : Nat) (i : Nat) : (s.setBits x hi lo v).fn i = s.fn i := rfl
@[simp] theorem State.setBits_queue (s : State) (x hi lo v : Nat) (i j : Nat) : (s.setBits x hi lo v).queue i j = s.queue i j := rfl
@[simp] theorem State.setBits_source (s : State) (x hi lo v : Nat) (i : Nat) : (s.setBits x hi lo v).source i = s.source i := rfl
@[simp] theorem State.setBits_drbg (s : State) (x hi lo v : Nat) (i : Nat) : (s.setBits x hi lo v).drbg i = s.drbg i := rfl
@[simp] theorem State.setBits_port (s : State) (x hi lo v : Nat) (i : Nat) : (s.setBits x hi lo v).port i = s.port i := rfl
@[simp] theorem State.setBits_intake (s : State) (x hi lo v : Nat) (i j : Nat) : (s.setBits x hi lo v).intake i j = s.intake i j := rfl
@[simp] theorem State.setBits_qp (s : State) (x hi lo v : Nat) (i : Nat) : (s.setBits x hi lo v).qp i = s.qp i := rfl
@[simp] theorem State.setBits_owner (s : State) (x hi lo v : Nat) (i : Nat) : (s.setBits x hi lo v).owner i = s.owner i := rfl
@[simp] theorem State.setBits_wellsOf (s : State) (x hi lo v : Nat) (i : Nat) : (s.setBits x hi lo v).wellsOf i = s.wellsOf i := rfl
@[simp] theorem State.setBits_record (s : State) (x hi lo v : Nat) (i : Nat) : (s.setBits x hi lo v).record i = s.record i := rfl
@[simp] theorem State.setBits_formed (s : State) (x hi lo v : Nat) (i : Nat) : (s.setBits x hi lo v).formed i = s.formed i := rfl
@[simp] theorem State.setBits_alive (s : State) (x hi lo v : Nat) : (s.setBits x hi lo v).alive = s.alive := rfl
@[simp] theorem State.setBits_serves (s : State) (x hi lo v : Nat) : (s.setBits x hi lo v).serves = s.serves := rfl

/-! ## State.count -/

@[simp] theorem State.count_part (s : State) (x : Nat) (i : Nat) : (s.count x).part i = s.part i := rfl
@[simp] theorem State.count_round (s : State) (x : Nat) (i : Nat) : (s.count x).round i = s.round i := rfl
@[simp] theorem State.count_well (s : State) (x : Nat) (i : Nat) : (s.count x).well i = s.well i := rfl
@[simp] theorem State.count_tile (s : State) (x : Nat) (i : TileRef) : (s.count x).tile i = s.tile i := rfl
@[simp] theorem State.count_pump (s : State) (x : Nat) (i : PumpRef) : (s.count x).pump i = s.pump i := rfl
@[simp] theorem State.count_chan (s : State) (x : Nat) (i j : Nat) : (s.count x).chan i j = s.chan i j := rfl
@[simp] theorem State.count_fn (s : State) (x : Nat) (i : Nat) : (s.count x).fn i = s.fn i := rfl
@[simp] theorem State.count_queue (s : State) (x : Nat) (i j : Nat) : (s.count x).queue i j = s.queue i j := rfl
@[simp] theorem State.count_source (s : State) (x : Nat) (i : Nat) : (s.count x).source i = s.source i := rfl
@[simp] theorem State.count_drbg (s : State) (x : Nat) (i : Nat) : (s.count x).drbg i = s.drbg i := rfl
@[simp] theorem State.count_port (s : State) (x : Nat) (i : Nat) : (s.count x).port i = s.port i := rfl
@[simp] theorem State.count_intake (s : State) (x : Nat) (i j : Nat) : (s.count x).intake i j = s.intake i j := rfl
@[simp] theorem State.count_qp (s : State) (x : Nat) (i : Nat) : (s.count x).qp i = s.qp i := rfl
@[simp] theorem State.count_owner (s : State) (x : Nat) (i : Nat) : (s.count x).owner i = s.owner i := rfl
@[simp] theorem State.count_wellsOf (s : State) (x : Nat) (i : Nat) : (s.count x).wellsOf i = s.wellsOf i := rfl
@[simp] theorem State.count_record (s : State) (x : Nat) (i : Nat) : (s.count x).record i = s.record i := rfl
@[simp] theorem State.count_formed (s : State) (x : Nat) (i : Nat) : (s.count x).formed i = s.formed i := rfl
@[simp] theorem State.count_alive (s : State) (x : Nat) : (s.count x).alive = s.alive := rfl
@[simp] theorem State.count_serves (s : State) (x : Nat) : (s.count x).serves = s.serves := rfl

/-! ## State.countBy -/

@[simp] theorem State.countBy_part (s : State) (x n : Nat) (i : Nat) : (s.countBy x n).part i = s.part i := rfl
@[simp] theorem State.countBy_round (s : State) (x n : Nat) (i : Nat) : (s.countBy x n).round i = s.round i := rfl
@[simp] theorem State.countBy_well (s : State) (x n : Nat) (i : Nat) : (s.countBy x n).well i = s.well i := rfl
@[simp] theorem State.countBy_tile (s : State) (x n : Nat) (i : TileRef) : (s.countBy x n).tile i = s.tile i := rfl
@[simp] theorem State.countBy_pump (s : State) (x n : Nat) (i : PumpRef) : (s.countBy x n).pump i = s.pump i := rfl
@[simp] theorem State.countBy_chan (s : State) (x n : Nat) (i j : Nat) : (s.countBy x n).chan i j = s.chan i j := rfl
@[simp] theorem State.countBy_fn (s : State) (x n : Nat) (i : Nat) : (s.countBy x n).fn i = s.fn i := rfl
@[simp] theorem State.countBy_queue (s : State) (x n : Nat) (i j : Nat) : (s.countBy x n).queue i j = s.queue i j := rfl
@[simp] theorem State.countBy_source (s : State) (x n : Nat) (i : Nat) : (s.countBy x n).source i = s.source i := rfl
@[simp] theorem State.countBy_drbg (s : State) (x n : Nat) (i : Nat) : (s.countBy x n).drbg i = s.drbg i := rfl
@[simp] theorem State.countBy_port (s : State) (x n : Nat) (i : Nat) : (s.countBy x n).port i = s.port i := rfl
@[simp] theorem State.countBy_intake (s : State) (x n : Nat) (i j : Nat) : (s.countBy x n).intake i j = s.intake i j := rfl
@[simp] theorem State.countBy_qp (s : State) (x n : Nat) (i : Nat) : (s.countBy x n).qp i = s.qp i := rfl
@[simp] theorem State.countBy_owner (s : State) (x n : Nat) (i : Nat) : (s.countBy x n).owner i = s.owner i := rfl
@[simp] theorem State.countBy_wellsOf (s : State) (x n : Nat) (i : Nat) : (s.countBy x n).wellsOf i = s.wellsOf i := rfl
@[simp] theorem State.countBy_record (s : State) (x n : Nat) (i : Nat) : (s.countBy x n).record i = s.record i := rfl
@[simp] theorem State.countBy_formed (s : State) (x n : Nat) (i : Nat) : (s.countBy x n).formed i = s.formed i := rfl
@[simp] theorem State.countBy_alive (s : State) (x n : Nat) : (s.countBy x n).alive = s.alive := rfl
@[simp] theorem State.countBy_serves (s : State) (x n : Nat) : (s.countBy x n).serves = s.serves := rfl

/-! ## State.setReg64 -/

@[simp] theorem State.setReg64_part (s : State) (x v : Nat) (i : Nat) : (s.setReg64 x v).part i = s.part i := rfl
@[simp] theorem State.setReg64_round (s : State) (x v : Nat) (i : Nat) : (s.setReg64 x v).round i = s.round i := rfl
@[simp] theorem State.setReg64_well (s : State) (x v : Nat) (i : Nat) : (s.setReg64 x v).well i = s.well i := rfl
@[simp] theorem State.setReg64_tile (s : State) (x v : Nat) (i : TileRef) : (s.setReg64 x v).tile i = s.tile i := rfl
@[simp] theorem State.setReg64_pump (s : State) (x v : Nat) (i : PumpRef) : (s.setReg64 x v).pump i = s.pump i := rfl
@[simp] theorem State.setReg64_chan (s : State) (x v : Nat) (i j : Nat) : (s.setReg64 x v).chan i j = s.chan i j := rfl
@[simp] theorem State.setReg64_fn (s : State) (x v : Nat) (i : Nat) : (s.setReg64 x v).fn i = s.fn i := rfl
@[simp] theorem State.setReg64_queue (s : State) (x v : Nat) (i j : Nat) : (s.setReg64 x v).queue i j = s.queue i j := rfl
@[simp] theorem State.setReg64_source (s : State) (x v : Nat) (i : Nat) : (s.setReg64 x v).source i = s.source i := rfl
@[simp] theorem State.setReg64_drbg (s : State) (x v : Nat) (i : Nat) : (s.setReg64 x v).drbg i = s.drbg i := rfl
@[simp] theorem State.setReg64_port (s : State) (x v : Nat) (i : Nat) : (s.setReg64 x v).port i = s.port i := rfl
@[simp] theorem State.setReg64_intake (s : State) (x v : Nat) (i j : Nat) : (s.setReg64 x v).intake i j = s.intake i j := rfl
@[simp] theorem State.setReg64_qp (s : State) (x v : Nat) (i : Nat) : (s.setReg64 x v).qp i = s.qp i := rfl
@[simp] theorem State.setReg64_owner (s : State) (x v : Nat) (i : Nat) : (s.setReg64 x v).owner i = s.owner i := rfl
@[simp] theorem State.setReg64_wellsOf (s : State) (x v : Nat) (i : Nat) : (s.setReg64 x v).wellsOf i = s.wellsOf i := rfl
@[simp] theorem State.setReg64_record (s : State) (x v : Nat) (i : Nat) : (s.setReg64 x v).record i = s.record i := rfl
@[simp] theorem State.setReg64_formed (s : State) (x v : Nat) (i : Nat) : (s.setReg64 x v).formed i = s.formed i := rfl
@[simp] theorem State.setReg64_alive (s : State) (x v : Nat) : (s.setReg64 x v).alive = s.alive := rfl
@[simp] theorem State.setReg64_serves (s : State) (x v : Nat) : (s.setReg64 x v).serves = s.serves := rfl

/-! ## State.clearRegs -/

@[simp] theorem State.clearRegs_part (s : State) (lo hi : Nat) (i : Nat) : (s.clearRegs lo hi).part i = s.part i := rfl
@[simp] theorem State.clearRegs_round (s : State) (lo hi : Nat) (i : Nat) : (s.clearRegs lo hi).round i = s.round i := rfl
@[simp] theorem State.clearRegs_well (s : State) (lo hi : Nat) (i : Nat) : (s.clearRegs lo hi).well i = s.well i := rfl
@[simp] theorem State.clearRegs_tile (s : State) (lo hi : Nat) (i : TileRef) : (s.clearRegs lo hi).tile i = s.tile i := rfl
@[simp] theorem State.clearRegs_pump (s : State) (lo hi : Nat) (i : PumpRef) : (s.clearRegs lo hi).pump i = s.pump i := rfl
@[simp] theorem State.clearRegs_chan (s : State) (lo hi : Nat) (i j : Nat) : (s.clearRegs lo hi).chan i j = s.chan i j := rfl
@[simp] theorem State.clearRegs_fn (s : State) (lo hi : Nat) (i : Nat) : (s.clearRegs lo hi).fn i = s.fn i := rfl
@[simp] theorem State.clearRegs_queue (s : State) (lo hi : Nat) (i j : Nat) : (s.clearRegs lo hi).queue i j = s.queue i j := rfl
@[simp] theorem State.clearRegs_source (s : State) (lo hi : Nat) (i : Nat) : (s.clearRegs lo hi).source i = s.source i := rfl
@[simp] theorem State.clearRegs_drbg (s : State) (lo hi : Nat) (i : Nat) : (s.clearRegs lo hi).drbg i = s.drbg i := rfl
@[simp] theorem State.clearRegs_port (s : State) (lo hi : Nat) (i : Nat) : (s.clearRegs lo hi).port i = s.port i := rfl
@[simp] theorem State.clearRegs_intake (s : State) (lo hi : Nat) (i j : Nat) : (s.clearRegs lo hi).intake i j = s.intake i j := rfl
@[simp] theorem State.clearRegs_qp (s : State) (lo hi : Nat) (i : Nat) : (s.clearRegs lo hi).qp i = s.qp i := rfl
@[simp] theorem State.clearRegs_owner (s : State) (lo hi : Nat) (i : Nat) : (s.clearRegs lo hi).owner i = s.owner i := rfl
@[simp] theorem State.clearRegs_wellsOf (s : State) (lo hi : Nat) (i : Nat) : (s.clearRegs lo hi).wellsOf i = s.wellsOf i := rfl
@[simp] theorem State.clearRegs_record (s : State) (lo hi : Nat) (i : Nat) : (s.clearRegs lo hi).record i = s.record i := rfl
@[simp] theorem State.clearRegs_formed (s : State) (lo hi : Nat) (i : Nat) : (s.clearRegs lo hi).formed i = s.formed i := rfl
@[simp] theorem State.clearRegs_alive (s : State) (lo hi : Nat) : (s.clearRegs lo hi).alive = s.alive := rfl
@[simp] theorem State.clearRegs_serves (s : State) (lo hi : Nat) : (s.clearRegs lo hi).serves = s.serves := rfl

/-! ## State.noteFresh -/

@[simp] theorem State.noteFresh_reg (s : State) (x n before : Nat) (i : Nat) : (s.noteFresh x n before).reg i = s.reg i := rfl
@[simp] theorem State.noteFresh_regBits (s : State) (x n before : Nat) (i hi lo : Nat) : (s.noteFresh x n before).regBits i hi lo = s.regBits i hi lo := rfl
@[simp] theorem State.noteFresh_reg64 (s : State) (x n before : Nat) (i : Nat) : (s.noteFresh x n before).reg64 i = s.reg64 i := rfl
@[simp] theorem State.noteFresh_part (s : State) (x n before : Nat) (i : Nat) : (s.noteFresh x n before).part i = s.part i := rfl
@[simp] theorem State.noteFresh_round (s : State) (x n before : Nat) (i : Nat) : (s.noteFresh x n before).round i = s.round i := rfl
@[simp] theorem State.noteFresh_well (s : State) (x n before : Nat) (i : Nat) : (s.noteFresh x n before).well i = s.well i := rfl
@[simp] theorem State.noteFresh_tile (s : State) (x n before : Nat) (i : TileRef) : (s.noteFresh x n before).tile i = s.tile i := rfl
@[simp] theorem State.noteFresh_pump (s : State) (x n before : Nat) (i : PumpRef) : (s.noteFresh x n before).pump i = s.pump i := rfl
@[simp] theorem State.noteFresh_chan (s : State) (x n before : Nat) (i j : Nat) : (s.noteFresh x n before).chan i j = s.chan i j := rfl
@[simp] theorem State.noteFresh_fn (s : State) (x n before : Nat) (i : Nat) : (s.noteFresh x n before).fn i = s.fn i := rfl
@[simp] theorem State.noteFresh_queue (s : State) (x n before : Nat) (i j : Nat) : (s.noteFresh x n before).queue i j = s.queue i j := rfl
@[simp] theorem State.noteFresh_source (s : State) (x n before : Nat) (i : Nat) : (s.noteFresh x n before).source i = s.source i := rfl
@[simp] theorem State.noteFresh_drbg (s : State) (x n before : Nat) (i : Nat) : (s.noteFresh x n before).drbg i = s.drbg i := rfl
@[simp] theorem State.noteFresh_port (s : State) (x n before : Nat) (i : Nat) : (s.noteFresh x n before).port i = s.port i := rfl
@[simp] theorem State.noteFresh_intake (s : State) (x n before : Nat) (i j : Nat) : (s.noteFresh x n before).intake i j = s.intake i j := rfl
@[simp] theorem State.noteFresh_qp (s : State) (x n before : Nat) (i : Nat) : (s.noteFresh x n before).qp i = s.qp i := rfl
@[simp] theorem State.noteFresh_owner (s : State) (x n before : Nat) (i : Nat) : (s.noteFresh x n before).owner i = s.owner i := rfl
@[simp] theorem State.noteFresh_wellsOf (s : State) (x n before : Nat) (i : Nat) : (s.noteFresh x n before).wellsOf i = s.wellsOf i := rfl
@[simp] theorem State.noteFresh_record (s : State) (x n before : Nat) (i : Nat) : (s.noteFresh x n before).record i = s.record i := rfl
@[simp] theorem State.noteFresh_formed (s : State) (x n before : Nat) (i : Nat) : (s.noteFresh x n before).formed i = s.formed i := rfl
@[simp] theorem State.noteFresh_alive (s : State) (x n before : Nat) : (s.noteFresh x n before).alive = s.alive := rfl
@[simp] theorem State.noteFresh_serves (s : State) (x n before : Nat) : (s.noteFresh x n before).serves = s.serves := rfl

/-! ## State.noteSet -/

@[simp] theorem State.noteSet_reg (s : State) (x b : Nat) (i : Nat) : (s.noteSet x b).reg i = s.reg i := rfl
@[simp] theorem State.noteSet_regBits (s : State) (x b : Nat) (i hi lo : Nat) : (s.noteSet x b).regBits i hi lo = s.regBits i hi lo := rfl
@[simp] theorem State.noteSet_reg64 (s : State) (x b : Nat) (i : Nat) : (s.noteSet x b).reg64 i = s.reg64 i := rfl
@[simp] theorem State.noteSet_part (s : State) (x b : Nat) (i : Nat) : (s.noteSet x b).part i = s.part i := rfl
@[simp] theorem State.noteSet_round (s : State) (x b : Nat) (i : Nat) : (s.noteSet x b).round i = s.round i := rfl
@[simp] theorem State.noteSet_well (s : State) (x b : Nat) (i : Nat) : (s.noteSet x b).well i = s.well i := rfl
@[simp] theorem State.noteSet_tile (s : State) (x b : Nat) (i : TileRef) : (s.noteSet x b).tile i = s.tile i := rfl
@[simp] theorem State.noteSet_pump (s : State) (x b : Nat) (i : PumpRef) : (s.noteSet x b).pump i = s.pump i := rfl
@[simp] theorem State.noteSet_chan (s : State) (x b : Nat) (i j : Nat) : (s.noteSet x b).chan i j = s.chan i j := rfl
@[simp] theorem State.noteSet_fn (s : State) (x b : Nat) (i : Nat) : (s.noteSet x b).fn i = s.fn i := rfl
@[simp] theorem State.noteSet_queue (s : State) (x b : Nat) (i j : Nat) : (s.noteSet x b).queue i j = s.queue i j := rfl
@[simp] theorem State.noteSet_source (s : State) (x b : Nat) (i : Nat) : (s.noteSet x b).source i = s.source i := rfl
@[simp] theorem State.noteSet_drbg (s : State) (x b : Nat) (i : Nat) : (s.noteSet x b).drbg i = s.drbg i := rfl
@[simp] theorem State.noteSet_port (s : State) (x b : Nat) (i : Nat) : (s.noteSet x b).port i = s.port i := rfl
@[simp] theorem State.noteSet_intake (s : State) (x b : Nat) (i j : Nat) : (s.noteSet x b).intake i j = s.intake i j := rfl
@[simp] theorem State.noteSet_qp (s : State) (x b : Nat) (i : Nat) : (s.noteSet x b).qp i = s.qp i := rfl
@[simp] theorem State.noteSet_owner (s : State) (x b : Nat) (i : Nat) : (s.noteSet x b).owner i = s.owner i := rfl
@[simp] theorem State.noteSet_wellsOf (s : State) (x b : Nat) (i : Nat) : (s.noteSet x b).wellsOf i = s.wellsOf i := rfl
@[simp] theorem State.noteSet_record (s : State) (x b : Nat) (i : Nat) : (s.noteSet x b).record i = s.record i := rfl
@[simp] theorem State.noteSet_formed (s : State) (x b : Nat) (i : Nat) : (s.noteSet x b).formed i = s.formed i := rfl
@[simp] theorem State.noteSet_alive (s : State) (x b : Nat) : (s.noteSet x b).alive = s.alive := rfl
@[simp] theorem State.noteSet_serves (s : State) (x b : Nat) : (s.noteSet x b).serves = s.serves := rfl

/-! ## State.noteCount -/

@[simp] theorem State.noteCount_reg (s : State) (x n : Nat) (i : Nat) : (s.noteCount x n).reg i = s.reg i := rfl
@[simp] theorem State.noteCount_regBits (s : State) (x n : Nat) (i hi lo : Nat) : (s.noteCount x n).regBits i hi lo = s.regBits i hi lo := rfl
@[simp] theorem State.noteCount_reg64 (s : State) (x n : Nat) (i : Nat) : (s.noteCount x n).reg64 i = s.reg64 i := rfl
@[simp] theorem State.noteCount_part (s : State) (x n : Nat) (i : Nat) : (s.noteCount x n).part i = s.part i := rfl
@[simp] theorem State.noteCount_round (s : State) (x n : Nat) (i : Nat) : (s.noteCount x n).round i = s.round i := rfl
@[simp] theorem State.noteCount_well (s : State) (x n : Nat) (i : Nat) : (s.noteCount x n).well i = s.well i := rfl
@[simp] theorem State.noteCount_tile (s : State) (x n : Nat) (i : TileRef) : (s.noteCount x n).tile i = s.tile i := rfl
@[simp] theorem State.noteCount_pump (s : State) (x n : Nat) (i : PumpRef) : (s.noteCount x n).pump i = s.pump i := rfl
@[simp] theorem State.noteCount_chan (s : State) (x n : Nat) (i j : Nat) : (s.noteCount x n).chan i j = s.chan i j := rfl
@[simp] theorem State.noteCount_fn (s : State) (x n : Nat) (i : Nat) : (s.noteCount x n).fn i = s.fn i := rfl
@[simp] theorem State.noteCount_queue (s : State) (x n : Nat) (i j : Nat) : (s.noteCount x n).queue i j = s.queue i j := rfl
@[simp] theorem State.noteCount_source (s : State) (x n : Nat) (i : Nat) : (s.noteCount x n).source i = s.source i := rfl
@[simp] theorem State.noteCount_drbg (s : State) (x n : Nat) (i : Nat) : (s.noteCount x n).drbg i = s.drbg i := rfl
@[simp] theorem State.noteCount_port (s : State) (x n : Nat) (i : Nat) : (s.noteCount x n).port i = s.port i := rfl
@[simp] theorem State.noteCount_intake (s : State) (x n : Nat) (i j : Nat) : (s.noteCount x n).intake i j = s.intake i j := rfl
@[simp] theorem State.noteCount_qp (s : State) (x n : Nat) (i : Nat) : (s.noteCount x n).qp i = s.qp i := rfl
@[simp] theorem State.noteCount_owner (s : State) (x n : Nat) (i : Nat) : (s.noteCount x n).owner i = s.owner i := rfl
@[simp] theorem State.noteCount_wellsOf (s : State) (x n : Nat) (i : Nat) : (s.noteCount x n).wellsOf i = s.wellsOf i := rfl
@[simp] theorem State.noteCount_record (s : State) (x n : Nat) (i : Nat) : (s.noteCount x n).record i = s.record i := rfl
@[simp] theorem State.noteCount_formed (s : State) (x n : Nat) (i : Nat) : (s.noteCount x n).formed i = s.formed i := rfl
@[simp] theorem State.noteCount_alive (s : State) (x n : Nat) : (s.noteCount x n).alive = s.alive := rfl
@[simp] theorem State.noteCount_serves (s : State) (x n : Nat) : (s.noteCount x n).serves = s.serves := rfl

/-! ## State.setRecord -/

@[simp] theorem State.setRecord_part (s : State) (x v : Nat) (i : Nat) : (s.setRecord x v).part i = s.part i := rfl
@[simp] theorem State.setRecord_round (s : State) (x v : Nat) (i : Nat) : (s.setRecord x v).round i = s.round i := rfl
@[simp] theorem State.setRecord_well (s : State) (x v : Nat) (i : Nat) : (s.setRecord x v).well i = s.well i := rfl
@[simp] theorem State.setRecord_tile (s : State) (x v : Nat) (i : TileRef) : (s.setRecord x v).tile i = s.tile i := rfl
@[simp] theorem State.setRecord_pump (s : State) (x v : Nat) (i : PumpRef) : (s.setRecord x v).pump i = s.pump i := rfl
@[simp] theorem State.setRecord_chan (s : State) (x v : Nat) (i j : Nat) : (s.setRecord x v).chan i j = s.chan i j := rfl
@[simp] theorem State.setRecord_fn (s : State) (x v : Nat) (i : Nat) : (s.setRecord x v).fn i = s.fn i := rfl
@[simp] theorem State.setRecord_queue (s : State) (x v : Nat) (i j : Nat) : (s.setRecord x v).queue i j = s.queue i j := rfl
@[simp] theorem State.setRecord_source (s : State) (x v : Nat) (i : Nat) : (s.setRecord x v).source i = s.source i := rfl
@[simp] theorem State.setRecord_drbg (s : State) (x v : Nat) (i : Nat) : (s.setRecord x v).drbg i = s.drbg i := rfl
@[simp] theorem State.setRecord_port (s : State) (x v : Nat) (i : Nat) : (s.setRecord x v).port i = s.port i := rfl
@[simp] theorem State.setRecord_intake (s : State) (x v : Nat) (i j : Nat) : (s.setRecord x v).intake i j = s.intake i j := rfl
@[simp] theorem State.setRecord_qp (s : State) (x v : Nat) (i : Nat) : (s.setRecord x v).qp i = s.qp i := rfl
@[simp] theorem State.setRecord_owner (s : State) (x v : Nat) (i : Nat) : (s.setRecord x v).owner i = s.owner i := rfl
@[simp] theorem State.setRecord_wellsOf (s : State) (x v : Nat) (i : Nat) : (s.setRecord x v).wellsOf i = s.wellsOf i := rfl
@[simp] theorem State.setRecord_record (s : State) (x v : Nat) (i : Nat) : (s.setRecord x v).record i = s.record i := rfl
@[simp] theorem State.setRecord_formed (s : State) (x v : Nat) (i : Nat) : (s.setRecord x v).formed i = s.formed i := rfl
@[simp] theorem State.setRecord_alive (s : State) (x v : Nat) : (s.setRecord x v).alive = s.alive := rfl
@[simp] theorem State.setRecord_serves (s : State) (x v : Nat) : (s.setRecord x v).serves = s.serves := rfl

/-! ## State.raise -/

@[simp] theorem State.raise_part (s : State) (code who src : Nat) (l : List (Nat × Nat)) (i : Nat) : (s.raise code who src l).part i = s.part i := by
  unfold State.raise; split <;> rfl
@[simp] theorem State.raise_round (s : State) (code who src : Nat) (l : List (Nat × Nat)) (i : Nat) : (s.raise code who src l).round i = s.round i := by
  unfold State.raise; split <;> rfl
@[simp] theorem State.raise_well (s : State) (code who src : Nat) (l : List (Nat × Nat)) (i : Nat) : (s.raise code who src l).well i = s.well i := by
  unfold State.raise; split <;> rfl
@[simp] theorem State.raise_tile (s : State) (code who src : Nat) (l : List (Nat × Nat)) (i : TileRef) : (s.raise code who src l).tile i = s.tile i := by
  unfold State.raise; split <;> rfl
@[simp] theorem State.raise_pump (s : State) (code who src : Nat) (l : List (Nat × Nat)) (i : PumpRef) : (s.raise code who src l).pump i = s.pump i := by
  unfold State.raise; split <;> rfl
@[simp] theorem State.raise_chan (s : State) (code who src : Nat) (l : List (Nat × Nat)) (i j : Nat) : (s.raise code who src l).chan i j = s.chan i j := by
  unfold State.raise; split <;> rfl
@[simp] theorem State.raise_fn (s : State) (code who src : Nat) (l : List (Nat × Nat)) (i : Nat) : (s.raise code who src l).fn i = s.fn i := by
  unfold State.raise; split <;> rfl
@[simp] theorem State.raise_queue (s : State) (code who src : Nat) (l : List (Nat × Nat)) (i j : Nat) : (s.raise code who src l).queue i j = s.queue i j := by
  unfold State.raise; split <;> rfl
@[simp] theorem State.raise_source (s : State) (code who src : Nat) (l : List (Nat × Nat)) (i : Nat) : (s.raise code who src l).source i = s.source i := by
  unfold State.raise; split <;> rfl
@[simp] theorem State.raise_drbg (s : State) (code who src : Nat) (l : List (Nat × Nat)) (i : Nat) : (s.raise code who src l).drbg i = s.drbg i := by
  unfold State.raise; split <;> rfl
@[simp] theorem State.raise_port (s : State) (code who src : Nat) (l : List (Nat × Nat)) (i : Nat) : (s.raise code who src l).port i = s.port i := by
  unfold State.raise; split <;> rfl
@[simp] theorem State.raise_intake (s : State) (code who src : Nat) (l : List (Nat × Nat)) (i j : Nat) : (s.raise code who src l).intake i j = s.intake i j := by
  unfold State.raise; split <;> rfl
@[simp] theorem State.raise_qp (s : State) (code who src : Nat) (l : List (Nat × Nat)) (i : Nat) : (s.raise code who src l).qp i = s.qp i := by
  unfold State.raise; split <;> rfl
@[simp] theorem State.raise_owner (s : State) (code who src : Nat) (l : List (Nat × Nat)) (i : Nat) : (s.raise code who src l).owner i = s.owner i := by
  unfold State.raise; split <;> rfl
@[simp] theorem State.raise_wellsOf (s : State) (code who src : Nat) (l : List (Nat × Nat)) (i : Nat) : (s.raise code who src l).wellsOf i = s.wellsOf i := by
  unfold State.raise; split <;> rfl
@[simp] theorem State.raise_record (s : State) (code who src : Nat) (l : List (Nat × Nat)) (i : Nat) : (s.raise code who src l).record i = s.record i := by
  unfold State.raise; split <;> rfl
@[simp] theorem State.raise_formed (s : State) (code who src : Nat) (l : List (Nat × Nat)) (i : Nat) : (s.raise code who src l).formed i = s.formed i := by
  unfold State.raise; split <;> rfl
@[simp] theorem State.raise_alive (s : State) (code who src : Nat) (l : List (Nat × Nat)) : (s.raise code who src l).alive = s.alive := by
  unfold State.raise; split <;> rfl
@[simp] theorem State.raise_serves (s : State) (code who src : Nat) (l : List (Nat × Nat)) : (s.raise code who src l).serves = s.serves := by
  unfold State.raise; split <;> rfl

/-! ## State.draw -/

@[simp] theorem State.draw_reg (s : State) (i : Nat) : s.draw.2.reg i = s.reg i := rfl
@[simp] theorem State.draw_regBits (s : State) (i hi lo : Nat) : s.draw.2.regBits i hi lo = s.regBits i hi lo := rfl
@[simp] theorem State.draw_reg64 (s : State) (i : Nat) : s.draw.2.reg64 i = s.reg64 i := rfl
@[simp] theorem State.draw_part (s : State) (i : Nat) : s.draw.2.part i = s.part i := rfl
@[simp] theorem State.draw_round (s : State) (i : Nat) : s.draw.2.round i = s.round i := rfl
@[simp] theorem State.draw_well (s : State) (i : Nat) : s.draw.2.well i = s.well i := rfl
@[simp] theorem State.draw_tile (s : State) (i : TileRef) : s.draw.2.tile i = s.tile i := rfl
@[simp] theorem State.draw_pump (s : State) (i : PumpRef) : s.draw.2.pump i = s.pump i := rfl
@[simp] theorem State.draw_chan (s : State) (i j : Nat) : s.draw.2.chan i j = s.chan i j := rfl
@[simp] theorem State.draw_fn (s : State) (i : Nat) : s.draw.2.fn i = s.fn i := rfl
@[simp] theorem State.draw_queue (s : State) (i j : Nat) : s.draw.2.queue i j = s.queue i j := rfl
@[simp] theorem State.draw_source (s : State) (i : Nat) : s.draw.2.source i = s.source i := rfl
@[simp] theorem State.draw_drbg (s : State) (i : Nat) : s.draw.2.drbg i = s.drbg i := rfl
@[simp] theorem State.draw_port (s : State) (i : Nat) : s.draw.2.port i = s.port i := rfl
@[simp] theorem State.draw_intake (s : State) (i j : Nat) : s.draw.2.intake i j = s.intake i j := rfl
@[simp] theorem State.draw_qp (s : State) (i : Nat) : s.draw.2.qp i = s.qp i := rfl
@[simp] theorem State.draw_owner (s : State) (i : Nat) : s.draw.2.owner i = s.owner i := rfl
@[simp] theorem State.draw_wellsOf (s : State) (i : Nat) : s.draw.2.wellsOf i = s.wellsOf i := rfl
@[simp] theorem State.draw_record (s : State) (i : Nat) : s.draw.2.record i = s.record i := rfl
@[simp] theorem State.draw_formed (s : State) (i : Nat) : s.draw.2.formed i = s.formed i := rfl
@[simp] theorem State.draw_alive (s : State) : s.draw.2.alive = s.alive := rfl
@[simp] theorem State.draw_serves (s : State) : s.draw.2.serves = s.serves := rfl

end Sys2Proof.Machine
end

