-- ==== Sys2Proof/Laws/Memory.lean ====
section
/-! SUPPORT. Memories: every operation keeps the canonical form, a read after a write gives what was written, and a write leaves every other byte alone. -/

namespace Sys2Proof.Machine

open Sys2Proof

theorem Mem.wf_nil : Mem.wf [] := ⟨List.Pairwise.nil, by simp⟩

theorem Mem.wf_filter (m : Mem) (q : Host.Cell → Bool) (h : m.wf) : Mem.wf (m.filter q) :=
  ⟨h.1.filter q, fun c hc => h.2 c (List.mem_of_mem_filter hc)⟩

theorem cellsOf_range (a : Nat) (bs : Bytes) : ∀ c ∈ cellsOf a bs, a ≤ c.1 ∧ c.1 < a + bs.length := by
  induction bs generalizing a with
  | nil => simp [cellsOf]
  | cons b bs ih =>
    intro c hc
    simp only [cellsOf] at hc
    split at hc
    · have := ih (a + 1) c hc
      simp only [List.length_cons]
      omega
    · rcases List.mem_cons.mp hc with h | h
      · subst h; simp
      · have := ih (a + 1) c h
        simp only [List.length_cons]
        omega

theorem cellsOf_wf (a : Nat) (bs : Bytes) : (cellsOf a bs).wf := by
  induction bs generalizing a with
  | nil => exact Mem.wf_nil
  | cons b bs ih =>
    simp only [cellsOf]
    split
    · exact ih _
    · rename_i hb
      refine ⟨List.pairwise_cons.mpr ⟨fun c hc => ?_, (ih _).1⟩, ?_⟩
      · have := cellsOf_range _ _ c hc
        simp only
        omega
      · intro c hc
        rcases List.mem_cons.mp hc with h | h
        · subst h; exact hb
        · exact (ih _).2 c h

theorem memWrite_wf (m : Mem) (base : Nat) (bs : Bytes) (h : m.wf) : (memWrite m base bs).wf := by
  have h1 := Mem.wf_filter m (fun c => decide (c.1 < base)) h
  have h2 := Mem.wf_filter m (fun c => decide (base + bs.length ≤ c.1)) h
  have h3 := cellsOf_wf base bs
  refine ⟨List.pairwise_append.mpr ⟨List.pairwise_append.mpr ⟨h1.1, h3.1, ?_⟩, h2.1, ?_⟩, ?_⟩
  · intro a ha b hb
    have := cellsOf_range _ _ b hb
    have := (List.mem_filter.mp ha).2
    simp only [decide_eq_true_eq] at this
    omega
  · intro a ha b hb
    have hb := (List.mem_filter.mp hb).2
    simp only [decide_eq_true_eq] at hb
    rcases List.mem_append.mp ha with h | h
    · have := (List.mem_filter.mp h).2
      simp only [decide_eq_true_eq] at this
      omega
    · have := cellsOf_range _ _ a h
      omega
  · intro c hc
    rcases List.mem_append.mp hc with hc | hc
    · rcases List.mem_append.mp hc with hc | hc
      · exact h1.2 c hc
      · exact h3.2 c hc
    · exact h2.2 c hc

theorem memClear_wf (m : Mem) (base len : Nat) (h : m.wf) : (memClear m base len).wf := by
  have h1 := Mem.wf_filter m (fun c => decide (c.1 < base)) h
  have h2 := Mem.wf_filter m (fun c => decide (base + len ≤ c.1)) h
  refine ⟨List.pairwise_append.mpr ⟨h1.1, h2.1, ?_⟩, ?_⟩
  · intro a ha b hb
    have := (List.mem_filter.mp ha).2
    have := (List.mem_filter.mp hb).2
    simp only [decide_eq_true_eq] at *
    omega
  · intro c hc
    rcases List.mem_append.mp hc with hc | hc
    · exact h1.2 c hc
    · exact h2.2 c hc

/-- Are all memories of a tile in canonical form? -/
def Tile.memOk (x : Tile) : Prop := x.store.wf ∧ x.steps.wf

/-- Are all memories of a well in canonical form? -/
def Well.memOk (x : Well) : Prop := x.cis.wf ∧ x.lpx.wf ∧ ∀ t ∈ x.tiles, t.memOk

theorem cisWrite_memOk (x : Well) (base : Nat) (bs : Bytes) (h : x.memOk) : { x with cis := memWrite x.cis base bs }.memOk :=
  ⟨memWrite_wf _ _ _ h.1, h.2⟩

theorem Well.zeroRange_memOk (x : Well) (b n : Nat) (h : x.memOk) : (x.zeroRange b n).memOk := ⟨memClear_wf _ _ _ h.1, h.2⟩

theorem Tile.putRows_memOk (x : Tile) (row : Nat) (bs : Bytes) (h : x.memOk) : (x.putRows row bs).memOk := ⟨memWrite_wf _ _ _ h.1, h.2⟩

/-- The memories of the state after reset list nothing and are in canonical form. -/
theorem reset_memOk : ∀ w ∈ State.reset.wells, w.memOk := by
  intro w hw
  have hw : w = {} := List.eq_of_mem_replicate (show w ∈ List.replicate 24 ({} : Well) from hw)
  subst hw
  refine ⟨Mem.wf_nil, Mem.wf_nil, ?_⟩
  intro t ht
  have ht : t = {} := List.eq_of_mem_replicate (show t ∈ List.replicate 25 ({} : Tile) from ht)
  subst ht
  exact ⟨Mem.wf_nil, Mem.wf_nil⟩

/-! ## Reading one byte -/

theorem look_eq_none {α : Type} (a : Nat) (l : List (Nat × α)) (h : ∀ c ∈ l, c.1 ≠ a) : look a l = none := by
  induction l with
  | nil => rfl
  | cons c l ih =>
    obtain ⟨k, v⟩ := c
    simp only [look]
    rw [if_neg (h (k, v) (by simp)), ih (fun c hc => h c (by simp [hc]))]

theorem look_append {α : Type} (a : Nat) (l r : List (Nat × α)) : look a (l ++ r) = (look a l).orElse (fun _ => look a r) := by
  induction l with
  | nil => rfl
  | cons c l ih =>
    obtain ⟨k, v⟩ := c
    simp only [List.cons_append, look]
    split
    · rfl
    · exact ih

theorem look_filter {α : Type} (a : Nat) (l : List (Nat × α)) (q : Nat → Bool) :
    look a (l.filter (fun c => q c.1)) = if q a then look a l else none := by
  induction l with
  | nil => simp [look]
  | cons c l ih =>
    obtain ⟨k, v⟩ := c
    by_cases hk : k = a
    · subst hk
      by_cases hq : q k = true
      · simp [hq, look]
      · simp only [Bool.not_eq_true] at hq
        simp only [List.filter_cons, hq, Bool.false_eq_true, if_false]
        rw [ih]
        simp [hq]
    · by_cases hq : q k = true
      · simp only [List.filter_cons, hq, if_true, look, if_neg hk]
        exact ih
      · simp only [Bool.not_eq_true] at hq
        simp only [List.filter_cons, hq, Bool.false_eq_true, if_false, look, if_neg hk]
        exact ih

theorem memByte_cellsOf (a : Nat) (bs : Bytes) (x : Nat) : (look x (cellsOf a bs)).getD 0 = if a ≤ x then bs.getD (x - a) 0 else 0 := by
  induction bs generalizing a with
  | nil => simp [cellsOf, look]
  | cons b bs ih =>
    simp only [cellsOf]
    by_cases hb : b = 0
    · rw [if_pos hb, ih]
      by_cases h : a + 1 ≤ x
      · rw [if_pos h, if_pos (by omega), show x - a = (x - (a + 1)) + 1 by omega, List.getD_cons_succ]
      · rw [if_neg h]
        by_cases h2 : a ≤ x
        · rw [if_pos h2, show x - a = 0 by omega, List.getD_cons_zero, hb]
        · rw [if_neg h2]
    · rw [if_neg hb]
      simp only [look]
      by_cases hx : a = x
      · subst hx
        simp
      · rw [if_neg hx, ih]
        by_cases h : a + 1 ≤ x
        · rw [if_pos h, if_pos (by omega), show x - a = (x - (a + 1)) + 1 by omega, List.getD_cons_succ]
        · rw [if_neg h, if_neg (by omega)]

/-- A byte of a memory after a write: what was written inside the bytes written, what stood there outside. -/
theorem memByte_memWrite (m : Mem) (base : Nat) (bs : Bytes) (a : Nat) :
    memByte (memWrite m base bs) a = if base ≤ a ∧ a < base + bs.length then bs.getD (a - base) 0 else memByte m a := by
  have hc := memByte_cellsOf base bs a
  have hr := cellsOf_range base bs
  simp only [memByte, memWrite, look_append, look_filter (q := fun k => decide (k < base)), look_filter (q := fun k => decide (base + bs.length ≤ k)),
    decide_eq_true_eq]
  by_cases h1 : a < base
  · have hn : look a (cellsOf base bs) = none := look_eq_none _ _ (fun c hc => by have := hr c hc; omega)
    rw [if_pos h1, if_neg (by omega), hn, if_neg (by omega)]
    cases look a m <;> rfl
  · rw [if_neg h1]
    by_cases h2 : a < base + bs.length
    · rw [if_neg (by omega), if_pos ⟨by omega, h2⟩]
      rw [if_pos (by omega)] at hc
      rw [← hc]
      cases look a (cellsOf base bs) <;> rfl
    · have hn : look a (cellsOf base bs) = none := look_eq_none _ _ (fun c hc => by have := hr c hc; omega)
      rw [if_pos (by omega), if_neg (by omega), hn]
      rfl

/-- A byte of a memory after a range was cleared: zero inside the range, what stood there outside. -/
theorem memByte_memClear (m : Mem) (base len a : Nat) :
    memByte (memClear m base len) a = if base ≤ a ∧ a < base + len then 0 else memByte m a := by
  simp only [memByte, memClear, look_append, look_filter (q := fun k => decide (k < base)), look_filter (q := fun k => decide (base + len ≤ k)),
    decide_eq_true_eq]
  by_cases h1 : a < base
  · rw [if_pos h1, if_neg (by omega), if_neg (by omega)]
    cases look a m <;> rfl
  · rw [if_neg h1]
    by_cases h2 : a < base + len
    · rw [if_neg (by omega), if_pos ⟨by omega, h2⟩]; rfl
    · rw [if_pos (by omega), if_neg (by omega)]; rfl

end Sys2Proof.Machine
end

