-- ==== Sys2Proof/Laws/Registers.lean ====
section
/-! SUPPORT. Lists and the register file: what a reading gives after the update of what it reads. -/

namespace Sys2Proof.Machine

open Sys2Proof

/-! ## Lists -/

@[simp] theorem updAt_length {α : Type} (l : List α) (i : Nat) (f : α → α) : (updAt l i f).length = l.length := by
  induction l generalizing i with
  | nil => cases i <;> rfl
  | cons a l ih => cases i with
    | zero => rfl
    | succ i => simp [updAt, ih]

theorem updAt_getD {α : Type} (l : List α) (i j : Nat) (f : α → α) (d : α) :
    (updAt l i f).getD j d = if j = i ∧ i < l.length then f (l.getD i d) else l.getD j d := by
  induction l generalizing i j with
  | nil => cases i <;> simp [updAt]
  | cons a l ih =>
    cases i with
    | zero => cases j <;> simp [updAt]
    | succ i =>
      cases j with
      | zero => simp [updAt]
      | succ j =>
        have := ih i j
        simp only [updAt, List.getD_cons_succ, List.length_cons]
        rw [this]
        simp

theorem look_put {α : Type} (k j : Nat) (v : α) (l : List (Nat × α)) : look j (put k v l) = if j = k then some v else look j l := by
  induction l with
  | nil => simp [put, look, eq_comm]
  | cons c l ih =>
    obtain ⟨k', v'⟩ := c
    simp only [put]
    split
    · simp only [look]
      by_cases h : k = j
      · simp [h]
      · simp [h, Ne.symm h]
    · split
      · rename_i _ h
        subst h
        simp only [look]
        by_cases h : k = j
        · simp [h]
        · simp [h, Ne.symm h]
      · rename_i h1 h2
        simp only [look, ih]
        by_cases h : k' = j
        · subst h
          rw [if_pos rfl, if_neg (Ne.symm h2), if_pos rfl]
        · rw [if_neg h, if_neg h]

theorem look_del {α : Type} (k j : Nat) (l : List (Nat × α)) : look j (del k l) = if j = k then none else look j l := by
  have := look_filter j l (fun x => decide (x ≠ k))
  simp only [del]
  rw [show (fun p : Nat × α => decide (p.1 ≠ k)) = (fun c => (fun x => decide (x ≠ k)) c.1) from rfl, this]
  by_cases h : j = k <;> simp [h]

/-! ## Registers -/

/-- A register after a write of one register. -/
theorem State.reg_setReg (s : State) (x v y : Nat) : (s.setReg x v).reg y = if y = x then v % 2 ^ 32 else s.reg y := by
  simp only [State.reg, State.regW, State.setReg]
  by_cases h : BitVec.ofNat 32 v = regReset x
  · rw [if_pos h, look_del]
    by_cases hy : y = x
    · subst hy; simp [← h]
    · simp [hy]
  · rw [if_neg h, look_put]
    by_cases hy : y = x
    · subst hy; simp
    · simp [hy]

@[simp] theorem State.reg_setReg_self (s : State) (x v : Nat) : (s.setReg x v).reg x = v % 2 ^ 32 := by simp [State.reg_setReg]

theorem State.reg_setReg_ne (s : State) (x v y : Nat) (h : y ≠ x) : (s.setReg x v).reg y = s.reg y := by simp [State.reg_setReg, h]

theorem State.reg_lt (s : State) (x : Nat) : s.reg x < 2 ^ 32 := (s.regW x).isLt

theorem State.reg_countBy (s : State) (x n y : Nat) : (s.countBy x n).reg y = if y = x then min (s.reg x + n) 0xFFFFFFFF else s.reg y := by
  rw [State.countBy, State.reg_setReg, State.noteCount_reg]
  split
  · rw [Nat.mod_eq_of_lt (by omega)]
  · rfl

/-- A counter after one more: it saturates. -/
theorem State.reg_count (s : State) (x y : Nat) : (s.count x).reg y = if y = x then min (s.reg x + 1) 0xFFFFFFFF else s.reg y := s.reg_countBy x 1 y

/-- Raising an event leaves every register but LOG_WRITER_DROP_COUNT alone. -/
theorem State.reg_raise (s : State) (code part src : Nat) (l : List (Nat × Nat)) (y : Nat) (h : y ≠ logBase + 4) : (s.raise code part src l).reg y = s.reg y := by
  unfold State.raise
  split
  · rfl
  · rw [State.reg_count, if_neg h]

/-! ## Parts of the state -/

theorem State.part_modPart (s : State) (p q : Nat) (f : Partition → Partition) :
    (s.modPart p f).part q = if q = p ∧ p < s.parts.length then f (s.part p) else s.part q := updAt_getD _ _ _ _ _

theorem State.round_modRound (s : State) (p q : Nat) (f : Round → Round) :
    (s.modRound p f).round q = if q = p ∧ p < s.parts.length then f (s.round p) else s.round q := by
  simp only [State.round, State.modRound, State.part_modPart]
  split <;> rfl

theorem State.well_modWell (s : State) (w v : Nat) (f : Well → Well) :
    (s.modWell w f).well v = if v = w ∧ w < s.wells.length then f (s.well w) else s.well v := updAt_getD _ _ _ _ _

theorem State.fn_modFn (s : State) (n m : Nat) (f : Function → Function) :
    (s.modFn n f).fn m = if m = n ∧ n < s.fns.length then f (s.fn n) else s.fn m := updAt_getD _ _ _ _ _

theorem State.source_modSource (s : State) (n m : Nat) (f : Source → Source) :
    (s.modSource n f).source m = if m = n ∧ n < s.sources.length then f (s.source n) else s.source m := updAt_getD _ _ _ _ _

theorem State.drbg_modDrbg (s : State) (b c : Nat) (f : Drbg → Drbg) :
    (s.modDrbg b f).drbg c = if c = b ∧ b < s.drbgs.length then f (s.drbg b) else s.drbg c := updAt_getD _ _ _ _ _

theorem State.port_modPort (s : State) (n m : Nat) (f : Port → Port) :
    (s.modPort n f).port m = if m = n ∧ n < s.ports.length then f (s.port n) else s.port m := updAt_getD _ _ _ _ _

theorem State.qp_setQp (s : State) (n m : Nat) (q : Qp) : (s.setQp n q).qp m = if m = n then q else s.qp m := by
  simp only [State.qp, State.setQp, look_put]
  split <;> rfl

theorem State.qp_modQp (s : State) (n m : Nat) (f : Qp → Qp) : (s.modQp n f).qp m = if m = n then f (s.qp n) else s.qp m := State.qp_setQp _ _ _ _

theorem State.tile_modTile (s : State) (t r : TileRef) (f : Tile → Tile) :
    (s.modTile t f).tile r =
      if r = t ∧ t.well < s.wells.length ∧ t.tile < (s.well t.well).tiles.length then f (s.tile t) else s.tile r := by
  obtain ⟨w, k⟩ := t
  obtain ⟨v, j⟩ := r
  simp only [State.tile, State.modTile, State.well_modWell, TileRef.mk.injEq]
  by_cases h : v = w ∧ w < s.wells.length
  · obtain ⟨rfl, h⟩ := h
    rw [if_pos ⟨rfl, h⟩, updAt_getD]
    by_cases hk : j = k ∧ k < (s.well v).tiles.length
    · rw [if_pos hk, if_pos ⟨⟨rfl, hk.1⟩, h, hk.2⟩]
    · rw [if_neg hk, if_neg (fun hc => hk ⟨hc.1.2, hc.2.2⟩)]
  · rw [if_neg h, if_neg (fun hc => h ⟨hc.1.1, hc.2.1⟩)]

end Sys2Proof.Machine
end

