-- ==== Sys2Proof/WellFormed.lean ====
section
/-! DEFINITION. Well-formed commands: every operand in the range its place in the spec has. -/

namespace Sys2Proof

/-- A command reference names a function 0 to 24, a queue 0 to 31 and a 16-bit command_id (R369). -/
def CmdRef.wf (c : CmdRef) : Bool := decide (c.fn < 25) && decide (c.q < 32) && decide (c.id < 65536)

/-- An access comes from a function, Lantus or the debug port, to BAR0 or BAR2, at an aligned offset below 64 MiB, with four byte enables (R10, R358). -/
def RegAccess.wf (a : RegAccess) : Bool :=
  decide (a.who < 27) && (a.bar == 0 || a.bar == 2) && decide (a.offset % 4 = 0) && decide (a.offset < 0x4000000) && decide (a.be < 16)

/-- A tile of a well. -/
def TileRef.wf (t : TileRef) : Bool := decide (t.well < 24) && decide (t.tile < 25)

/-- A pump of a well. -/
def PumpRef.wf (u : PumpRef) : Bool := decide (u.well < 24) && decide (u.pump < 16)

/-- A stream of units. -/
def Link.wf : Link → Bool
  | .pump u => u.wf
  | .tile t => t.wf
  | .copy w c => decide (w < 24) && decide (c < 2)

/-- A stream 0 to 24, a key set 0 or 1 and a 32-byte key (R380). -/
def IdeKm.wf : IdeKm → Bool
  | .keyProg stream keySet _ key => decide (stream < 25) && decide (keySet < 2) && decide (key.length = 32)
  | .keySetGo stream keySet => decide (stream < 25) && decide (keySet < 2)
  | .keySetStop stream keySet => decide (stream < 25) && decide (keySet < 2)
  | .query stream => decide (stream < 25)

/-- A vector of the table of R377, 64-bit addresses, and at most 24 virtual functions. -/
def ConfigChange.wf : ConfigChange → Bool
  | .bars base0 base2 => decide (base0 < 2 ^ 64) && decide (base2 < 2 ^ 64)
  | .msixEntry vec addr data _ => decide (vec < 512) && decide (addr < 2 ^ 64) && decide (data < 2 ^ 32)
  | .msixEnable _ => true
  | .busMaster _ => true
  | .numVfs n => decide (n < 25)
  | .aspmL1 _ => true
  | .completionTimeout _ => true

/-- One of the nine words of a bucket. -/
def EccFound.wf : EccFound → Bool
  | .clean => true
  | .corrected word => decide (word < 9)
  | .uncorrectable => true

/-- Wells, tiles, buckets and words of the device. -/
def ArrayError.wf (bucket word : Nat) : ArrayError → Bool
  | .cistern well => decide (well < 24) && decide (bucket < 2 ^ 21) && decide (word < 9)
  | .store t => t.wf && bucket == 0 && word == 0
  | .link well | .reread well | .doubleLpx well => decide (well < 24) && decide (bucket < 2 ^ 29) && word == 0
  | .doubleCistern well => decide (well < 24) && decide (bucket < 2 ^ 21) && word == 0
  | .doubleStore t => t.wf && bucket == 0 && decide (word < 131072)
  | .doubleStep t => t.wf && bucket == 0 && decide (word < 8192)

/-- Tiles, tests and buckets of a well. -/
def WellTest.wf (x : WellTest) : Bool :=
  x.failedTiles.all (fun e => decide (e.1 < 25) && decide (e.2 < 256)) && x.badBuckets.all (fun b => decide (b < 2 ^ 21))

/-- Well-formed commands. -/
def Instr.wf : Instr → Bool
  | .nop c => c.wf
  | .roundOpen c => c.wf
  | .roundCloseIntake c => c.wf
  | .roundAbort c => c.wf
  | .roundResume c => c.wf
  | .checkpointRead c => c.wf
  | .checkpointStored c => c.wf
  | .partitionReset c => c.wf
  | .dmaToDevice c => c.wf
  | .dmaToHost c => c.wf
  | .qpCreate c => c.wf
  | .qpDestroy c => c.wf
  | .regionRegister c => c.wf
  | .regionRevoke c => c.wf
  | .recvPost c => c.wf
  | .imageLoad c => c.wf
  | .floorplanLoad c => c.wf
  | .tileRemap c => c.wf
  | .tileSelftest c => c.wf
  | .bucketRetire c => c.wf
  | .powerState c => c.wf
  | .attestReport c => c.wf
  | .logDrain c => c.wf
  | .fwLoad _ => true
  | .keyProgram _ => true
  | .keyInvalidate _ => true
  | .fwFloorAdvance _ => true
  | .debugUnlock _ => true
  | .debugDisable => true
  | .certInstall _ => true
  | .kexStart fn _ => decide (fn < 25)
  | .kexFinish fn _ => decide (fn < 25)
  | .secMsg fn _ => decide (fn < 25)
  | .endSession fn _ => decide (fn < 25)
  | .sessionStartExpiry p => decide (p < 25)
  | .kexEntropyTimeout p => decide (p < 25)
  | .doeDiscovery fn _ => decide (fn < 25)
  | .getVersion fn => decide (fn < 25)
  | .getCapabilities fn => decide (fn < 25)
  | .negotiateAlgorithms fn => decide (fn < 25)
  | .getDigests fn => decide (fn < 25)
  | .getCertificate fn _ _ => decide (fn < 25)
  | .challenge fn _ => decide (fn < 25)
  | .getMeasurements fn _ => decide (fn < 25)
  | .unsupportedRequest fn _ => decide (fn < 25)
  | .ideKm p m => decide (p < 25) && m.wf
  | .stopInterfaceRequest p fn => decide (p < 25) && decide (fn < 25)
  | .registerWrite a => a.wf
  | .registerReadClear a => a.wf
  | .loRead a => a.wf
  | .hiWrite a => a.wf
  | .closeIntake a => a.wf
  | .admissionHold a => a.wf
  | .intEnableWrite a => a.wf
  | .rngDataRead a => a.wf
  | .selfTest a => a.wf
  | .flush a => a.wf
  | .scrubStart a => a.wf
  | .scrubAbort a => a.wf
  | .clearAll a => a.wf
  | .adminDown a => a.wf
  | .queueEnable a => a.wf
  | .queueDisable a => a.wf
  | .sqTailDoorbell a => a.wf
  | .cqHeadDoorbell a => a.wf
  | .evqConsWrite a => a.wf
  | .commandFetch fn q _ => decide (fn < 25) && decide (q < 32)
  | .queueDrained fn q => decide (fn < 25) && decide (q < 32)
  | .hostReadCompletion c _ => c.wf
  | .completionTimeout c => c.wf
  | .msixUnmask fn vec => decide (fn < 25) && decide (vec < 512)
  | .linkDown cause => decide (cause < 5)
  | .linkUp width rate _ => (width == 1 || width == 2 || width == 4 || width == 8) && decide (1 ≤ rate) && decide (rate ≤ 7)
  | .l1IdleEntry => true
  | .functionLevelReset fn => decide (fn < 25)
  | .ideIntegrityFail stream => decide (stream < 25)
  | .tdiConfigChange fn ch => decide (fn < 25) && ch.wf
  | .frameReceive port _ => decide (port < 2)
  | .send port prio => decide (port < 2) && decide (prio < 8)
  | .write port prio => decide (port < 2) && decide (prio < 8)
  | .readReq port prio => decide (port < 2) && decide (prio < 8)
  | .ack port prio => decide (port < 2) && decide (prio < 8)
  | .nak port prio => decide (port < 2) && decide (prio < 8)
  | .complete port prio => decide (port < 2) && decide (prio < 8)
  | .close port prio => decide (port < 2) && decide (prio < 8)
  | .packetCommit port prio => decide (port < 2) && decide (prio < 8)
  | .readResponseSend qpn => decide (qpn < 16384)
  | .recordSend qpn => decide (qpn < 16384)
  | .ackTimer qpn cls => decide (qpn < 16384) && decide (cls < 2)
  | .retransmitTimer qpn cls psn => decide (qpn < 16384) && decide (cls < 2) && decide (psn < 2 ^ 48)
  | .rnrDelayExpiry qpn psn => decide (qpn < 16384) && decide (psn < 2 ^ 48)
  | .pathProbe qpn path => decide (qpn < 16384) && decide (path < 16)
  | .pfcRefresh port prio => decide (port < 2) && decide (prio < 8)
  | .xoffLong port prio => decide (port < 2) && decide (prio < 8)
  | .pfcFrameReceive port enables quanta => decide (port < 2) && decide (enables < 256) && decide (quanta.length = 8)
  | .pfcPauseExpiry port prio => decide (port < 2) && decide (prio < 8)
  | .portDown port cause => decide (port < 2) && decide (cause < 5)
  | .portUp port => decide (port < 2)
  | .portRetrain port => decide (port < 2)
  | .qpDrainComplete qpn => decide (qpn < 16384)
  | .regionInflightZero p region => decide (p < 25) && decide (region < 65536)
  | .admissionDecision qpn msn => decide (qpn < 16384) && decide (msn < 2 ^ 32)
  | .uploadWindowExpiry p client => decide (p < 25) && decide (client < 2 ^ 24)
  | .uploadAccumulated p client => decide (p < 25) && decide (client < 2 ^ 24)
  | .promiseDeadline p client => decide (p < 25) && decide (client < 2 ^ 24)
  | .intakeCloseTime p => decide (p < 25)
  | .checkpointInterval p => decide (p < 25)
  | .checkpointCut p => decide (p < 25)
  | .checkpointSealed p => decide (p < 25)
  | .admissionReopen p => decide (p < 25)
  | .batchTimerExpiry p => decide (p < 25)
  | .settleWindowExpiry p => decide (p < 25)
  | .unmaskMessage qpn msn => decide (qpn < 16384) && decide (msn < 2 ^ 32)
  | .dshareMessage qpn msn => decide (qpn < 16384) && decide (msn < 2 ^ 32)
  | .windlassEntry p => decide (p < 25)
  | .stretchActivation p => decide (p < 25)
  | .stepLoop t => t.wf
  | .stepJump t => t.wf
  | .stepSync t => t.wf
  | .syncRelease p => decide (p < 25)
  | .stepWait t => t.wf
  | .queueEntryPosted p => decide (p < 25)
  | .stepDone t => t.wf
  | .stepEnd t => t.wf
  | .stepTrap t => t.wf
  | .hdr t => t.wf
  | .tblchk t => t.wf
  | .mmul t => t.wf
  | .mmac t => t.wf
  | .madd t => t.wf
  | .msub t => t.wf
  | .mneg t => t.wf
  | .radd t => t.wf
  | .rsub t => t.wf
  | .rneg t => t.wf
  | .fma t => t.wf
  | .dot t => t.wf
  | .cvt t => t.wf
  | .fest t => t.wf
  | .logic t => t.wf
  | .clmul t => t.wf
  | .gfred t => t.wf
  | .keccak t => t.wf
  | .sample t => t.wf
  | .nttFwd t => t.wf
  | .nttInv t => t.wf
  | .auto t => t.wf
  | .bcvScale t => t.wf
  | .bcvOut t => t.wf
  | .tableReload t => t.wf
  | .aesKey t => t.wf
  | .aesCtr t => t.wf
  | .gcmOpen t => t.wf
  | .load t => t.wf
  | .store t => t.wf
  | .pump t => t.wf
  | .tileSend t => t.wf
  | .recv t => t.wf
  | .keystream t => t.wf
  | .turn t => t.wf
  | .stepfetch t => t.wf
  | .rngRead t => t.wf
  | .watchdog t => t.wf
  | .windlassStop t => t.wf
  | .transferCheckResult k _ => k.wf
  | .ringAdd u => u.wf
  | .ringSub u => u.wf
  | .modAdd u => u.wf
  | .modSub u => u.wf
  | .axpy u => u.wf
  | .smin u => u.wf
  | .smax u => u.wf
  | .zeroOp u => u.wf
  | .copyOp u => u.wf
  | .setCoef u => u.wf
  | .copyDescriptorStart well chan => decide (well < 24) && decide (chan < 2)
  | .copyDescriptorDone well chan => decide (well < 24) && decide (chan < 2)
  | .mergeIdleTimeout well bucket => decide (well < 24) && decide (bucket < 2 ^ 21 + 2 ^ 29)
  | .correctedWordWriteback e bucket word => e.wf bucket word
  | .scrubRead well found => decide (well < 24) && found.wf
  | .tripleVoteScan => true
  | .sourceSettleEnd n => decide (n < 25)
  | .noiseSample n _ => decide (n < 25)
  | .drbgGenerate b => decide (b < 25)
  | .reportSign c => c.wf
  | .reportEntropyTimeout c => c.wf
  | .imageInstall p => decide (p < 25)
  | .slotOwnerSwitch => true
  | .tileSelftestDone t failing => t.wf && decide (failing < 256)
  | .powerOnReset => true
  | .deviceReset => true
  | .resetRelease => true
  | .fwVerifyDone _ => true
  | .bootSelftestDone r => decide (r.length = 24) && r.all WellTest.wf
  | .lantusFetchError _ => true
  | .pwrFailN => true
  | .pwrFailDeassert => true
  | .powerLoss => true
  | .wakeN => true
  | .mgmtAddressMatch _ addr => decide (addr < 128)
  | .pcieL1Exit => true
  | .avsVdone mv => decide (mv < 65536)
  | .avsTimeout => true
  | .pllLock => true
  | .pllLockLost => true
  | .vRunAdjust _ => true
  | .telemetryPoll _ _ _ => true
  | .thermalSample readings => decide (readings.length = 49) && readings.all (fun r => decide (-2048 ≤ r) && decide (r < 2048))
  | .thermalTrip => true
  | .governorPeriod => true
  | .vrAlertN => true
  | .logWrite => true
  | .lockInterfaceRequest p fn => decide (p < 25) && decide (fn < 25)
  | .startInterfaceRequest p fn => decide (p < 25) && decide (fn < 25)
  | .getDeviceInterfaceReport p fn => decide (p < 25) && decide (fn < 25)
  | .selfRefreshExitDone _ => true
  | .lpxFailed well => decide (well < 24)
  | .fwCopyVerified _ => true
  | .kexReport p => decide (p < 25)

end Sys2Proof
end

