-- ==== Sys2Proof/Tests/Slice0.lean ====
section
/-! SUPPORT. Tests: ill-formed commands are refused, the spec's worked examples hold, and each statement's hypotheses are met by states of its own. -/

namespace Sys2Proof.Tests

set_option Elab.async false

open Sys2Proof Sys2Proof.Machine

/-! ## States to test on -/

/-- A running device: firmware running, link trained, partition 0 formed of well 0 with a host share. -/
def live : State :=
  { State.reset with
    devtime := 1000000, life := .running, resetLow := false, pwrFailLow := false
    access := { State.reset.access with
      owners := List.replicate 3 (0 :: List.replicate 23 0x1F), tables := List.replicate 99 (List.replicate 64 255) }
    plan := { inForce := true, serial := 5, records := [⟨0, 1, 30, 0, 0, 0, 1000, 0, 64, 64, 0, []⟩] }
    wells := { inService := true, lpxState := .ready } :: List.replicate 23 {}
    lantus := { State.reset.lantus with state := .running, fw := some ⟨2 ^ 32 * 3, zeros 32⟩ }
    power := { pllLocked := true }
    host := { up := true, width := 8, rate := 7, flit := true, numVfs := 24 } }

/-- A command of a function's queue 0 with an opcode, a partition, words p0 to p3, a length, and the bytes that its reads have returned. -/
def cmd (fn op part p0 p1 p2 p3 len : Nat) (data : Bytes) : Cmd :=
  ⟨fn, 0, 7, op, false, part, 0, len, p0, p1, p2, p3, data, false, 1000, false, false, 0⟩

/-- The reference of such a command. -/
def ref (fn : Nat) : CmdRef := ⟨fn, 0, 7⟩

/-- With a command in progress. -/
def withCmd (s : State) (c : Cmd) : State := { s with cmds := s.cmds ++ [c] }

/-- With queue 0 of virtual function 1 ACTIVE, of 16 entries each way, and `n` entries to fetch. -/
def onQueue (s : State) (n : Nat) : State :=
  (s.modQueue 1 0 (fun q => { q with state := .active, sqTail := n })).setReg (hqqBase 1 0 + 0x10) 0x80000404

/-- With the round of partition 0 changed. -/
def withRound (s : State) (f : Round → Round) : State := s.modRound 0 f

/-- With an image loaded in partition 0: schedule set 0 of mode M and width 64. -/
def loaded (s : State) : State :=
  s.modPart 0 (fun x => { x with image := { x.image with state := .loaded, sets := [⟨0, .m, 64, 10000000, 4, 0, 0, 0, 0, 0, 0, 4096, 0, 0, 1⟩] } })

/-- With the substitution table of well 0 and its CRC in agreement. -/
def tabled (s : State) : State := s.setReg (substBase 0 + 0x18) (s.well 0).substCrc

/-- The descriptor of the example of R46, with an intake close time and windows. -/
def exampleDesc : Bytes :=
  sealCrc (bytesOf [0x2A, 0, 0, 0, 0, 0, 0, 0, 1, 0x40, 0, 0, 0, 0, 0x10, 0, 0, 0, 1, 0, 1, 0, 8, 0, 0x80, 0x96, 0x98, 0, 0, 0, 0, 0] ++
    toLE 2000000 8 ++ toLE 1000 4 ++ toLE 1000 4 ++ zeros 16)

/-! ## Ill-formed commands (one for each check of WellFormed) -/

/-- A function, queue or identifier out of range in a command's reference. -/
def badRefs : List CmdRef := [⟨25, 0, 0⟩, ⟨0, 32, 0⟩, ⟨0, 0, 65536⟩]

theorem test_wf_command_refs :
    ([Instr.nop, .roundOpen, .roundCloseIntake, .roundAbort, .roundResume, .checkpointRead, .checkpointStored, .partitionReset, .dmaToDevice, .dmaToHost,
      .qpCreate, .qpDestroy, .regionRegister, .regionRevoke, .recvPost, .imageLoad, .floorplanLoad, .tileRemap, .tileSelftest, .bucketRetire, .powerState,
      .attestReport, .logDrain, .reportSign, .reportEntropyTimeout, .completionTimeout, fun c => .hostReadCompletion c none].all (fun f =>
        badRefs.all (fun r => !(f r).wf) && (f ⟨24, 31, 65535⟩).wf)) = true := by decide

theorem test_wf_register_accesses :
    ([Instr.registerWrite, .registerReadClear, .loRead, .hiWrite, .closeIntake, .admissionHold, .intEnableWrite, .rngDataRead, .selfTest, .flush,
      .scrubStart, .scrubAbort, .clearAll, .adminDown, .queueEnable, .queueDisable, .sqTailDoorbell, .cqHeadDoorbell, .evqConsWrite].all (fun f =>
        [RegAccess.mk 27 0 0 15 0 false, ⟨0, 1, 0, 15, 0, false⟩, ⟨0, 0, 2, 15, 0, false⟩, ⟨0, 0, 0x4000000, 15, 0, false⟩, ⟨0, 0, 0, 16, 0, false⟩].all
          (fun a => !(f a).wf) && (f ⟨26, 2, 0x3FFFFFC, 15, 0, false⟩).wf)) = true := by decide

theorem test_wf_functions :
    ([fun fn => Instr.kexStart fn [], fun fn => .kexFinish fn [], fun fn => .secMsg fn [], fun fn => .endSession fn [], fun fn => .doeDiscovery fn 0,
      .getVersion, .getCapabilities, .negotiateAlgorithms, .getDigests, fun fn => .getCertificate fn 0 0, fun fn => .challenge fn [],
      fun fn => .getMeasurements fn 0, fun fn => .unsupportedRequest fn 0, fun fn => .stopInterfaceRequest 0 fn, fun fn => .commandFetch fn 0 none,
      fun fn => .queueDrained fn 0, fun fn => .msixUnmask fn 0, .functionLevelReset, fun fn => .tdiConfigChange fn (.busMaster true),
      fun fn => .lockInterfaceRequest 0 fn, fun fn => .startInterfaceRequest 0 fn, fun fn => .getDeviceInterfaceReport 0 fn].all (fun f =>
        !(f 25).wf && (f 24).wf)) = true := by decide

theorem test_wf_partitions :
    ([Instr.sessionStartExpiry, .kexEntropyTimeout, .kexReport, fun p => .ideKm p (.query 0), fun p => .stopInterfaceRequest p 0,
      fun p => .lockInterfaceRequest p 0, fun p => .startInterfaceRequest p 0, fun p => .getDeviceInterfaceReport p 0, fun p => .regionInflightZero p 0,
      fun p => .uploadWindowExpiry p 0, fun p => .uploadAccumulated p 0, fun p => .promiseDeadline p 0, .intakeCloseTime, .checkpointInterval,
      .checkpointCut, .checkpointSealed, .admissionReopen, .batchTimerExpiry, .settleWindowExpiry, .windlassEntry, .stretchActivation, .syncRelease,
      .queueEntryPosted, .imageInstall, .drbgGenerate, .sourceSettleEnd, fun n => .noiseSample n false, .ideIntegrityFail].all (fun f =>
        !(f 25).wf && (f 24).wf)) = true := by decide

theorem test_wf_ports :
    ([fun port => Instr.frameReceive port [], fun port => .send port 0, fun port => .write port 0, fun port => .readReq port 0, fun port => .ack port 0,
      fun port => .nak port 0, fun port => .complete port 0, fun port => .close port 0, fun port => .packetCommit port 0, fun port => .pfcRefresh port 0,
      fun port => .xoffLong port 0, fun port => .pfcFrameReceive port 0 (List.replicate 8 0), fun port => .pfcPauseExpiry port 0,
      fun port => .portDown port 0, .portUp, .portRetrain].all (fun f => !(f 2).wf && (f 1).wf)) = true ∧
    ([fun i => Instr.send 0 i, fun i => .write 0 i, fun i => .readReq 0 i, fun i => .ack 0 i, fun i => .nak 0 i, fun i => .complete 0 i,
      fun i => .close 0 i, fun i => .packetCommit 0 i, fun i => .pfcRefresh 0 i, fun i => .xoffLong 0 i, fun i => .pfcPauseExpiry 0 i].all (fun f =>
        !(f 8).wf && (f 7).wf)) = true ∧
    (Instr.pfcFrameReceive 0 256 (List.replicate 8 0)).wf = false ∧ (Instr.pfcFrameReceive 0 0 []).wf = false ∧ (Instr.portDown 0 5).wf = false := by decide

theorem test_wf_queue_pairs :
    ([Instr.readResponseSend, .recordSend, fun n => .ackTimer n 0, fun n => .retransmitTimer n 0 0, fun n => .rnrDelayExpiry n 0, fun n => .pathProbe n 0,
      .qpDrainComplete, fun n => .admissionDecision n 0, fun n => .unmaskMessage n 0, fun n => .dshareMessage n 0].all (fun f =>
        !(f 16384).wf && (f 16383).wf)) = true ∧
    ([Instr.ackTimer 0 2, .retransmitTimer 0 2 0, .retransmitTimer 0 0 (2 ^ 48), .rnrDelayExpiry 0 (2 ^ 48), .pathProbe 0 16, .admissionDecision 0 (2 ^ 32),
      .unmaskMessage 0 (2 ^ 32), .dshareMessage 0 (2 ^ 32), .regionInflightZero 0 65536, .uploadWindowExpiry 0 (2 ^ 24), .uploadAccumulated 0 (2 ^ 24),
      .promiseDeadline 0 (2 ^ 24)].all (fun i => !i.wf)) = true := by decide

theorem test_wf_tiles :
    ([Instr.stepLoop, .stepJump, .stepSync, .stepWait, .stepDone, .stepEnd, .stepTrap, .hdr, .tblchk, .mmul, .mmac, .madd, .msub, .mneg, .radd, .rsub, .rneg,
      .fma, .dot, .cvt, .fest, .logic, .clmul, .gfred, .keccak, .sample, .nttFwd, .nttInv, .auto, .bcvScale, .bcvOut, .tableReload, .aesKey, .aesCtr,
      .gcmOpen, .load, .store, .pump, .tileSend, .recv, .keystream, .turn, .stepfetch, .rngRead, .watchdog, .windlassStop,
      fun t => .tileSelftestDone t 0, fun t => .transferCheckResult (.tile t) .passed].all (fun f =>
        !(f ⟨24, 0⟩).wf && !(f ⟨0, 25⟩).wf && (f ⟨23, 24⟩).wf)) = true := by decide

theorem test_wf_pumps :
    ([Instr.ringAdd, .ringSub, .modAdd, .modSub, .axpy, .smin, .smax, .zeroOp, .copyOp, .setCoef, fun u => .transferCheckResult (.pump u) .passed].all (fun f =>
        !(f ⟨24, 0⟩).wf && !(f ⟨0, 16⟩).wf && (f ⟨23, 15⟩).wf)) = true ∧
    ([Instr.copyDescriptorStart 24 0, .copyDescriptorStart 0 2, .copyDescriptorDone 24 0, .copyDescriptorDone 0 2, .transferCheckResult (.copy 24 0) .passed,
      .transferCheckResult (.copy 0 2) .passed, .mergeIdleTimeout 24 0, .mergeIdleTimeout 0 (2 ^ 21 + 2 ^ 29), .correctedWordWriteback (.cistern 24) 0 0,
      .correctedWordWriteback (.cistern 0) (2 ^ 21) 0, .correctedWordWriteback (.cistern 0) 0 9, .correctedWordWriteback (.store ⟨0, 25⟩) 0 0,
      .correctedWordWriteback (.link 0) (2 ^ 29) 0, .correctedWordWriteback (.reread 24) 0 0, .correctedWordWriteback (.doubleCistern 0) (2 ^ 21) 0,
      .correctedWordWriteback (.doubleStore ⟨0, 0⟩) 0 131072, .correctedWordWriteback (.doubleStep ⟨0, 0⟩) 0 8192, .correctedWordWriteback (.doubleLpx 24) 0 0, .scrubRead 24 .clean, .scrubRead 0 (.corrected 9), .lpxFailed 24].all
        (fun i => !i.wf)) = true := by decide

theorem test_wf_rest :
    ([Instr.ideKm 0 (.keyProg 25 0 false (zeros 32)), .ideKm 0 (.keyProg 0 2 false (zeros 32)), .ideKm 0 (.keyProg 0 0 false (zeros 31)),
      .ideKm 0 (.keySetGo 25 0), .ideKm 0 (.keySetGo 0 2), .ideKm 0 (.keySetStop 25 0), .ideKm 0 (.keySetStop 0 2), .ideKm 0 (.query 25),
      .commandFetch 0 32 none, .queueDrained 0 32, .msixUnmask 0 512, .linkDown 5, .linkUp 3 1 true, .linkUp 1 0 true, .linkUp 1 8 true,
      .tdiConfigChange 0 (.bars (2 ^ 64) 0), .tdiConfigChange 0 (.bars 0 (2 ^ 64)), .tdiConfigChange 0 (.msixEntry 512 0 0 false),
      .tdiConfigChange 0 (.msixEntry 0 (2 ^ 64) 0 false), .tdiConfigChange 0 (.msixEntry 0 0 (2 ^ 32) false), .tdiConfigChange 0 (.numVfs 25),
      .tileSelftestDone ⟨0, 0⟩ 256, .bootSelftestDone [], .bootSelftestDone (List.replicate 24 ⟨[(25, 0)], [], true⟩),
      .mgmtAddressMatch false 128, .avsVdone 65536, .thermalSample [], .thermalSample (List.replicate 49 2048),
      .thermalSample (List.replicate 49 (-2049))].all (fun i => !i.wf)) = true := by decide

/-! ## Worked examples of the spec -/

theorem test_crc_check_values : crc32c (ascii "123456789") = 0xE3069283 ∧ crc16 (ascii "123456789") = 0x29B1 := by decide +kernel

/-- 00_scope.md, a master ID; 06_tiles_windlass.md, the same after a remap; 01_architecture.md, a pump and a function. -/
theorem test_master_ids :
    masterOfTile ⟨13, 7⟩ = 0x11A7 ∧ masterOfTile ⟨13, 24⟩ = 0x11B8 ∧ masterOfPump ⟨10, 5⟩ = 0x20A5 ∧ masterOfFn 5 = 0x4005 ∧ tagOfFn 5 = 4 := by decide

/-- 01_architecture.md: the place of an address, and its bank and pump in 07_cisterns_pumps.md. -/
theorem test_address :
    placeOf 0x0100A0001240 = .cistern 10 0x1240 ∧ placeOf 0x10A000000140 = .lpddr 10 0x140 ∧ State.reset.bankOf 10 73 = 11 ∧ State.reset.pumpOf 10 73 = 5 ∧
      State.reset.bankOf 10 72 = 10 := by decide +kernel

/-- 01_architecture.md: a refused request leaves 0x40052001 in GLB_REFUSE_LAST. -/
theorem test_refusal_record : (State.reset.recordRefusal (fnMaster 5) 0x0100A0001240 .table).reg 0x24 = 0x40052001 := by decide +kernel

/-- 02_rounds.md: the bytes of a descriptor. -/
theorem test_descriptor :
    let d := descriptorOf exampleDesc
    d.roundId = 42 ∧ d.mode = .m ∧ d.ringWidth = 64 ∧ d.cohort = 1048576 ∧ d.dropoutLimit = 65536 ∧ d.threshold = 524289 ∧ d.coordinates = 10000000 ∧
      d.ckptAdmissions = 16384 ∧ d.ckptIntervalMs = 5000 ∧ d.evaluate = false := by decide +kernel

/-- 02_rounds.md: a promise, and the ADMIT record that carries it. -/
theorem test_promise :
    (State.reset.setReg (rndBase 3 + 0x10) 120000).promiseSpan 3 80000064 = 580953 ∧
      (ackRecord 1 .ok 3 0 0 70000 42 580953 12345).take 28 =
        bytesOf [1, 0, 3, 0, 0x70, 0x11, 1, 0, 0x2A, 0, 0, 0, 0, 0, 0, 0, 0x59, 0xDD, 8, 0, 0, 0, 0, 0, 0x39, 0x30, 0, 0] := by decide +kernel

/-- 03_masked_aggregation.md: slabs of an 8-well partition, keystream counters, interpolation at zero, and the secrets that a dropout needs. -/
theorem test_masking :
    bucketCount 10000000 64 = 1250000 ∧ slabOf 10000000 64 8 = 6511 ∧
    ctrBlock false (zeros 16) 4938268 = bytesOf [0x1C, 0x5A, 0x4B, 0, 0, 0, 0, 0, 0, 0, 0, 0, 0, 0, 0, 0] ∧
    (secretsOf 8 2 [0, 1, 2, 3, 4, 6, 7]).map (fun x => (x.owner, x.peer)) =
      [(0, none), (1, none), (2, none), (3, none), (4, none), (6, none), (7, none), (5, some 3), (5, some 4), (5, some 6), (5, some 7)] ∧
    (List.range 8).filter (fun j => neighbour 8 2 0 j) = [1, 2, 6, 7] := by decide +kernel

theorem test_interpolation : gmul 4 5 = 0x14 ∧ gmul 7 5 = 0x1B ∧ interpolate [(4, 7), (5, 6)] = 3 := by decide +kernel

/-- 03_masked_aggregation.md and 16_worked_round.md: decoding a coordinate. -/
theorem test_decode_coordinate :
    (cvtWord 0 32 16 0xFFFE8000).map FRes.val = some 0xBFC00000 ∧ (cvtWord 0 64 24 0xFFFFFFFEC0000000).map FRes.val = some 0xC3A00000 := by decide +kernel

/-- 04_ciphertext_engine.md: one Montgomery product. -/
theorem test_montgomery : qinvNeg 0x78000001 = 0x77FFFFFF ∧ redc 0x78000001 (0x1FFFFFFC * 0x2FFFFFFA) = 0x5FFFFFF4 := by decide +kernel

/-- 04_ciphertext_engine.md: two shares, of holders 3 and 9. -/
theorem test_two_shares : lambdaOf 0x78000001 [3, 9] 0 = 671088642 ∧ lambdaOf 0x78000001 [3, 9] 1 = 1342177280 := by decide +kernel

/-- 05_table_refresh.md: the comparison table, for an input of index 3 with error -10 and one of index 0 with error -5. -/
theorem test_comparison_table :
    let tv := List.replicate 384 0x01000000 ++ List.replicate 512 0 ++ List.replicate 128 0x77000001
    (rotateDown 0x78000001 758 tv).headD 1 = 0 ∧ (rotateDown 0x78000001 2043 tv).headD 0 = 0x01000000 := by decide +kernel

/-- R164 by hand: 100 modulo 256 in three digits of base 4 is 25 = -2 * 16 - 2 * 4 + 1 modulo 64. -/
theorem test_gadget_digits : decompose 100 256 2 3 = [-2, -2, 1] := by decide

theorem test_bit_reversal : bitRev 16 1797 = 41184 := by decide +kernel

/-- 06_tiles_windlass.md: a gap under stretch, and the 32 bytes of a twist step. -/
theorem test_stretched_gap : gapOf 524 0 = 524 ∧ gapOf 524 200 = 627 := by decide

theorem test_twist_step :
    let w := stepWord (bytesOf [0x10, 0, 0, 2, 0x10, 0x10, 0, 0, 8, 0x30, 8, 8, 8, 5, 0, 0, 0, 0, 0, 0, 0, 0, 0, 0, 0xC, 2, 0, 0, 0, 0, 0, 0])
    w.opcode = 0x10 ∧ w.mode = 0 ∧ w.count = 512 ∧ w.dst = 0x1010 ∧ w.srcA = 0 ∧ w.srcB = 0x3008 ∧ w.strideD = 8 ∧ w.strideA = 8 ∧ w.strideB = 8 ∧
      w.prime = 5 ∧ w.gap = 524 := by decide +kernel

/-- 08_structure_images.md: the record of link 37 and its run. -/
theorem test_link_run : linkRecords 1 (bytesOf [0x25, 0, 1, 0, 0x58, 0x22, 0x4B, 3]) = some [(37, [(600, 1202, 3)])] := by decide +kernel

/-- 09_strelul.md: the base header and the initialisation vector of an opening packet. -/
theorem test_packet_header :
    (baseHeader 1 true false false 5 0 0 0x123 0x100000 0xA01B 4096 0).take 24 =
      bytesOf [1, 0x11, 5, 0, 0x23, 1, 0, 0, 0, 0, 0x10, 0, 0, 0, 0, 0, 0x1B, 0xA0, 0, 0, 0, 0x10, 0, 0] ∧
    packetIv 0x100000 0 0 = bytesOf [0, 0, 0x10, 0, 0, 0, 0, 0, 0, 0, 0, 0] := by decide +kernel

/-- A device in which partition 3 holds wells 8 to 11 and 14 to 17, in rank order. -/
def eightWells : State :=
  { State.reset with access := { State.reset.access with
      owners := List.replicate 3 ((List.range 24).map (fun w => if within w 8 11 || within w 14 17 then 3 else 0x1F)) } }

/-- 10_host_interface.md: a pump register through a VF and through the PF; a command entry and its completion. -/
theorem test_pump_register :
    eightWells.spotOf ⟨4, 0, 0x3B400, 15, 0, false⟩ = .register 0x2021400 ∧ eightWells.spotOf ⟨0, 0, 0x2021400, 15, 0, false⟩ = .register 0x2021400 := by
  decide +kernel

theorem test_round_open_entry :
    let c := cmdOfEntry 4 0 0 (bytesOf [1, 0, 7, 1, 3, 0, 0, 0, 0, 0x10, 0, 0x40, 8, 0, 0, 0, 0x40, 0, 0, 0] ++ zeros 44)
    c.opcode = 1 ∧ c.id = 0x107 ∧ c.part = 3 ∧ c.addr = 0x840001000 ∧ c.length = 64 ∧
      (completionEntry c .ok true 1 0 0x3B9ACA7B 0).take 28 =
        bytesOf [7, 1, 0, 1, 1, 0, 0, 0, 0, 0, 0, 0, 0, 0, 0, 0, 0x7B, 0xCA, 0x9A, 0x3B, 0, 0, 0, 0, 0, 0, 0, 0] := by decide +kernel

/-- 13_power_clocks.md: stretch and permille at slack 60. -/
theorem test_governor :
    sSlack 60 = 61 ∧ sFloor 60 = 526 ∧ stretchAt 20 60 = 1 ∧ stretchAt 1000 60 = 61 ∧ stretchAt 1400 60 = 247 ∧ stretchAt 1150 60 = 130 ∧
      permilleAt 60 61 = 1000 ∧ permilleAt 60 247 = 854 ∧ permilleAt 60 130 = 940 ∧ nextLevel 0 400 = 20 ∧ nextLevel 1400 398 = 1400 ∧ nextLevel 1400 392 = 1390 := by
  decide

/-- 14_service.md: the entry of a missed promise. -/
theorem test_log_entry :
    ((LogEntry.mk 4660 0x3C97CB5A 0x0108 (eventSeverity 0x0108) 3 0 (packPayload [(24, 70000), (32, 12345), (48, 0x3C97CB59)])).bytes).take 30 =
      bytesOf [0x5A, 0xCB, 0x97, 0x3C, 0, 0, 0, 0, 8, 1, 0, 0, 3, 0x42, 0x23, 1, 0, 0x70, 0x11, 1, 0x39, 0x30, 0, 0, 0x59, 0xCB, 0x97, 0x3C, 0, 0] := by
  decide +kernel

/-- 11_security.md: the first 48 bytes of a report, with nothing reset in the model that the example fixes otherwise. -/
theorem test_report_start :
    let s := { (loaded live) with devtime := 2000000000, lantus := { live.lantus with fwFloor := 2 } }
    ((s.reportFields 0 false (toLE 0x0123456789ABCDEF 8 ++ toLE 0x0FEDCBA987654321 8) []).take 64).drop 8 =
      bytesOf [0x94, 0x10, 0, 0, 0x16, 0x24, 0x10, 0, 0, 0x94, 0x35, 0x77, 0, 0, 0, 0, 0, 0, 0, 0, 0, 0, 0, 0,
        0xEF, 0xCD, 0xAB, 0x89, 0x67, 0x45, 0x23, 1, 0x21, 0x43, 0x65, 0x87, 0xA9, 0xCB, 0xED, 0xF, 0, 0, 0, 0, 0, 0, 0, 0, 0, 0, 0, 0, 0, 0, 0, 0] := by
  decide +kernel

/-! ## Witnesses of the statements' hypotheses, clause by clause -/

theorem wit_StepRunsFrontCommand :
    { live with pending := [.tripleVoteScan] }.pending = [.tripleVoteScan] ∧ live.pending = [] ∧ live.timeRuns = true ∧ State.reset.timeRuns = false ∧
    (let s := { live with power := { live.power with state := .p2, pllLocked := false } }
     s.pending = [] ∧ s.timeRuns = true ∧ s.power.state = .p2 ∧ s.power.pllLocked = false) := by
  decide

theorem wit_CompletionWritten :
    (let s := onQueue live 1
     let c := cmd 1 0 0 0 0 0 0 0 []
     c.orphan = false ∧ s.host.up = true ∧ (s.queue c.fn c.q).state ≠ .disabled ∧ s.streamBad c.fn = false ∧ (s.fn c.fn).tdi ≠ .error ∧ c.fn < s.fns.length ∧
       c.q < (s.fn c.fn).queues.length) ∧ (live.queue 1 0).state = .disabled := by
  decide

theorem wit_QueueCommandsComplete :
    (withCmd live (cmd 1 0 0 0 0 0 0 0 [])).ready (ref 1) 0 = some (cmd 1 0 0 0 0 0 0 0 []) ∧
    (let s := onQueue live 1
     s.mayFetch 1 0 = true ∧ s.streamBad 1 = false ∧ s.power.enterCmd = none ∧ 1 < s.fns.length ∧ 0 < (s.fn 1).queues.length) ∧
    live.mayFetch 1 0 = false ∧
    (let s := live.modQueue 1 0 (fun q => { q with state := .draining })
     (s.queue 1 0).state = .draining ∧ s.queueCmds 1 0 = [] ∧ 1 < s.fns.length ∧ 0 < (s.fn 1).queues.length) ∧
    (let a : Cmd := { cmd 1 0x10 0 0 0 0 0 0 [] with id := 6, started := true }
     let s := withCmd (withCmd live a) (cmd 1 0 0 0 0 0 0 0 [])
     s.ready (ref 1) 0 = some (cmd 1 0 0 0 0 0 0 0 []) ∧ s.cmds = [a] ++ cmd 1 0 0 0 0 0 0 0 [] :: [] ∧ ∀ d ∈ [a], d.is (ref 1) = false) := by
  decide

theorem wit_HostReadsDeliverBytes :
    (let d := cmd 1 0x10 0 0 0 0 0 64 []
     let s := withCmd live d
     s.host.up = true ∧ s.power.state = .p0 ∧ s.cmds.find? (fun d => d.is (ref 1)) = some d ∧ d.readFailed = false ∧ d.data.length < readLength d ∧
       d.opcode ≠ 0x20 ∧ d.opcode ≠ 0x21 ∧ s.streamBad d.fn = false) := by
  decide

theorem wit_RoundOpens :
    (let k := cmd 1 1 0 0 0 0 0 64 exampleDesc
     let s := tabled (withCmd (loaded live) k)
     s.ready (ref 1) 1 = some k ∧ s.formed k.part = true ∧ (∀ w ∈ s.wellsOf k.part, (s.well w).inService = true → s.substGood w = true) ∧ k.readFailed = false ∧ 64 ≤ k.data.length ∧ k.part < s.parts.length ∧
       s.descStatus k.part k.data = .ok ∧ (s.setOf k.part (descriptorOf k.data)).isSome) ∧
    (let k := cmd 1 1 0 0 0 0 0 64 (zeros 64)
     let s := withCmd (loaded live) k
     s.ready (ref 1) 1 = some k ∧ s.formed k.part = true ∧ k.readFailed = false ∧ 64 ≤ k.data.length ∧ s.descStatus k.part k.data ≠ .ok) := by
  decide +kernel

/-- Each refusal of R46, in its order. -/
theorem wit_DescriptorTestOrder :
    (loaded live).descStatus 0 exampleDesc = .ok ∧ live.descStatus 0 exampleDesc = .format ∧
    (let s := withRound (loaded live) (fun r => { r with lastRoundId := 42 })
     s.descStatus 0 exampleDesc = .state ∧ s.descFormatBad 0 exampleDesc = false) ∧
    (let b := sealCrc (exampleDesc.take 0xC ++ zeros 4 ++ (exampleDesc.drop 0x10))
     (loaded live).descStatus 0 b = .lengthExceeds ∧ (loaded live).descFormatBad 0 b = false ∧ rd b 0xC 4 = 0) ∧
    rd exampleDesc 8 1 = 1 ∧ rd (zeros 64) 0 8 = 0 ∧ rd (zeros 64) 8 1 ≠ 1 ∧ rd (zeros 64) 8 1 ≠ 2 ∧ crcEndsOk (zeros 64) = false ∧
    (let b := sealCrc (bytesOf [1, 0, 0, 0, 0, 0, 0, 0, 1, 56] ++ zeros 54)
     rd b 8 1 = 1 ∧ rd b 9 1 ≠ 32 ∧ rd b 9 1 ≠ 40 ∧ rd b 9 1 ≠ 48 ∧ rd b 9 1 ≠ 64) := by
  decide +kernel

/-- A round in INTAKE. -/
def intake (s : State) : State := withRound (loaded s) (fun r => { r with state := .intake, desc := descriptorOf exampleDesc })

theorem wit_IntakeCloses :
    (let k := cmd 1 2 0 0 0 0 0 0 []
     let s := withCmd (intake live) k
     s.ready (ref 1) 2 = some k ∧ s.formed k.part = true ∧ k.part < s.parts.length ∧ (s.round k.part).state = .intake ∧ (s.round k.part).abortPending = false) ∧
    (let k := cmd 1 2 0 0 0 0 0 0 []
     let s := withCmd (withRound (intake live) (fun r => { r with abortPending := true })) k
     s.ready (ref 1) 2 = some k ∧ s.formed k.part = true ∧ (s.round k.part).state = .intake ∧ (s.round k.part).abortPending = true) ∧
    (let k := cmd 1 2 0 0 0 0 0 0 []
     let s := withCmd live k
     s.ready (ref 1) 2 = some k ∧ s.formed k.part = true ∧ (s.round k.part).state ≠ .intake) ∧
    (let s := intake { live with devtime := 2000000 }
     s.alive = true ∧ 0 < s.parts.length ∧ (s.round 0).state = .intake ∧ (s.round 0).abortPending = false ∧ (s.round 0).desc.intakeClose ≤ s.devtime) ∧
    (intake live).devtime < ((intake live).round 0).desc.intakeClose := by
  decide

theorem wit_RoundAborts :
    (let k := cmd 1 3 0 0 0 0 0 0 []
     let s := withCmd (intake live) k
     s.ready (ref 1) 3 = some k ∧ s.formed k.part = true ∧ k.part < s.parts.length ∧ (s.round k.part).state.busy = true ∧
       (s.round k.part).abortPending = false ∧ (s.part k.part).trapDue = none ∧ ∀ r ∈ s.tilesOf k.part, (s.tile r).active = false) ∧
    (let k := cmd 1 3 0 0 0 0 0 0 []
     let s := withCmd (withRound (intake live) (fun r => { r with abortPending := true })) k
     s.ready (ref 1) 3 = some k ∧ s.formed k.part = true ∧ (s.round k.part).state.busy = true ∧ (s.round k.part).abortPending = true) ∧
    (let k := cmd 1 3 0 0 0 0 0 0 []
     let s := (withCmd (intake live) k).modTile ⟨0, 3⟩ (fun x => { x with state := .running })
     s.ready (ref 1) 3 = some k ∧ s.formed k.part = true ∧ k.part < s.parts.length ∧ (s.round k.part).state.busy = true ∧
       (s.round k.part).abortPending = false ∧ ∃ r ∈ s.tilesOf k.part, (s.tile r).active = true ∧ r.well < s.wells.length ∧ r.tile < (s.well r.well).tiles.length) ∧
    (let k := cmd 1 3 0 0 0 0 0 0 []
     let s := withCmd live k
     s.ready (ref 1) 3 = some k ∧ s.formed k.part = true ∧ (s.round k.part).state.busy = false) ∧
    (let s := withRound { live with devtime := 1400000 } (fun r => { r with state := .settle, windowStart := 1000000, desc := { settleWindowMs := 1 } })
     s.alive = true ∧ 0 < s.parts.length ∧ (s.round 0).state = .settle ∧ (s.round 0).windowStart + ticksOfMs (s.round 0).desc.settleWindowMs ≤ s.devtime) ∧
    (let s := withRound live (fun r => { r with state := .settle, windowStart := 1000000, desc := { settleWindowMs := 1 } })
     s.devtime < (s.round 0).windowStart + ticksOfMs (s.round 0).desc.settleWindowMs) := by
  decide

/-- An upload of client 5 on QP 0, committed at tick 900,000 and posted. -/
def upload : Upload := ⟨5, 0, 0, 1, 1, 800000, 80000064, some 900000, true, 77, true, none, 900000⟩

theorem wit_UploadsEnd :
    (let s := live.setReg (rndBase 0 + 0x10) 120000
     0 < s.reg (rndBase 0 + 0x10) ∧ s.reg (rndBase 0 + 0x10) = 120000 ∧ s.promiseSpan 0 80000064 = 580953) ∧
    (let s := withRound (intake live) (fun r => { r with uploads := [upload] })
     s.alive = true ∧ 0 < s.parts.length ∧ (s.round 0).uploads.find? (fun v => v.client == 5) = some upload ∧ s.accumulated 0 upload = true ∧
       (∀ v ∈ (s.round 0).uploads, s.accumulated 0 v = true → upload.lastWrite ≤ v.lastWrite)) ∧
    (let s := withRound (intake ({ live with devtime := 1480954 }.setReg (rndBase 0 + 0x10) 120000)) (fun r => { r with uploads := [upload] })
     s.alive = true ∧ 0 < s.parts.length ∧ (s.round 0).uploads.find? (fun v => v.client == 5) = some upload ∧ upload.lastCommit = some 900000 ∧
       900000 + s.promiseSpan 0 upload.bytes < s.devtime ∧ (s.round 0).state.failable = true) ∧
    (let s := withRound (intake ({ live with devtime := 1480953 }.setReg (rndBase 0 + 0x10) 120000)) (fun r => { r with uploads := [upload] })
     (s.round 0).uploads.find? (fun v => v.client == 5) = some upload ∧ upload.lastCommit = some 900000 ∧ s.devtime ≤ 900000 + s.promiseSpan 0 upload.bytes) ∧
    (let s := live.modPart 0 (fun x => { x with floorClosed := true, recoverSince := some 600000 })
     s.alive = true ∧ 0 < s.parts.length ∧ (s.part 0).floorClosed = true ∧ (s.part 0).recoverSince = some 600000 ∧ 600000 + 400000 ≤ s.devtime) := by
  decide +kernel

/-- A checkpoint in a phase. -/
def ckpt (ph : CkptPhase) : Ckpt := ⟨3, 950000, false, ph, [(5, 77)], [], [], 1, 1, 1, List.replicate 300 1⟩

/-- With one key slot of three equal attribute words. -/
def withSlot (s : State) (n attr : Nat) : State :=
  s.modLantus (fun l => { l with
    keys := updAt l.keys n (fun k => { k with otp := List.replicate 3 attr, attrs := List.replicate 3 attr, crc := crc32c (zeros 32) }) })

/-- With owner key slot 8 usable for checkpoints, and slot 9 invalidated. -/
def withKeys (s : State) : State := withSlot (withSlot s 8 (2 ^ 30 + 8 * 2 ^ 16 + 4)) 9 (2 ^ 31 + 9 * 2 ^ 16 + 4)

/-- With a checkpoint held, and key slot `n` to seal it with. -/
def withCkpt (s : State) (ph : CkptPhase) (n : Nat) : State :=
  (withRound (intake (withKeys s)) (fun r => { r with ckpt := some (ckpt ph) })).modPart 0 (fun x => { x with image := { x.image with ckptSlot := n } })

theorem wit_CheckpointsCutAndSeal :
    (let s := withRound (intake live) (fun r => { r with desc := { r.desc with ckptIntervalMs := 1 } })
     s.alive = true ∧ 0 < s.parts.length ∧ (s.round 0).state = .intake ∧ (s.round 0).lastCut + ticksOfMs (s.round 0).desc.ckptIntervalMs ≤ s.devtime) ∧
    (let s := withRound (intake live) (fun r => { r with cutDue := true })
     s.alive = true ∧ 0 < s.parts.length ∧ (s.round 0).abortPending = false ∧ (s.round 0).mayCut s.devtime = true) ∧
    (let s := withCkpt live .sealing 8
     s.serves = true ∧ 0 < s.parts.length ∧ (s.round 0).ckpt = some (ckpt .sealing) ∧ (ckpt .sealing).phase = .sealing ∧
       s.usable (s.part 0).image.ckptSlot = true ∧ bit (s.slot (s.part 0).image.ckptSlot).attrWord 2 = true) ∧
    (let s := withCkpt live .sealing 9
     s.serves = true ∧ 0 < s.parts.length ∧ (s.round 0).ckpt = some (ckpt .sealing) ∧ (ckpt .sealing).phase = .sealing ∧
       s.usable (s.part 0).image.ckptSlot = false ∧ (s.round 0).state.failable = true) ∧
    (let k := cmd 1 5 0 3 0 0 0 300 []
     let s := withCmd (withCkpt live .ready 8) k
     s.ready (ref 1) 5 = some k ∧ s.formed k.part = true ∧ s.hasDma k.part = true ∧ (s.round k.part).ckpt = some (ckpt .ready) ∧ (s.round k.part).readable 3 = some (ckpt .ready)) ∧
    ((withRound live (fun r => { r with ckpt := some (ckpt .copying), prev := some { ckpt .complete with number := 2 } })).round 0).readable 2 = some { ckpt .complete with number := 2 } ∧
    (let k := cmd 1 6 0 3 0 0 0 0 []
     let s := withCmd (withCkpt live .ready 8) k
     s.ready (ref 1) 6 = some k ∧ s.formed k.part = true ∧ k.part < s.parts.length ∧ (s.round k.part).ckpt = some (ckpt .ready) ∧
       (ckpt .ready).number = k.p0 ∧ (ckpt .ready).phase = .ready ∧ (s.round k.part).state ≠ .closing) ∧
    (let k := cmd 1 6 0 2 0 0 0 0 []
     let s := withCmd (withCkpt live .ready 8) k
     s.ready (ref 1) 6 = some k ∧ s.formed k.part = true ∧ ∀ x ∈ (s.round k.part).ckpt, x.number ≠ k.p0 ∨ x.phase ≠ .ready) := by
  decide +kernel

/-- The header of a checkpoint of round 42 taken in INTAKE, epoch 2, with one client admitted. -/
def ckptHead : Bytes :=
  toLE 42 8 ++ exampleDesc ++ zeros 32 ++ toLE 3 4 ++ bytesOf [2, 0, 0, 0] ++ toLE 950000 8 ++ toLE 1 4 ++ toLE 1 4 ++ toLE 1 4 ++ zeros 4 ++ zeros 4 ++
    toLE 1 4 ++ zeros 20

/-- Its body: the client, without ranges. -/
def ckptBody : Bytes := toLE 5 4 ++ toLE 77 8

/-- Its key stream and tag, under the key of slot 8. -/
def ckptSeal : Bytes × Bytes := gcmSeal ((withKeys live).ckptKey 8 42) (sealIv 3 2 0) ckptHead ckptBody

/-- The sealed checkpoint, its header's length in front. -/
def sealedCkpt : Bytes := toLE ckptHead.length 4 ++ (ckptHead ++ (ckptSeal.1 ++ ckptSeal.2))

/-- A ROUND_RESUME of a sealed checkpoint, in partition 0 with an image whose checkpoint slot is 8. -/
def resuming (n : Nat) (b : Bytes) : State :=
  withCmd ((withKeys (loaded live)).modPart 0 (fun x => { x with image := { x.image with ckptSlot := 8 } })) (cmd 1 4 0 0 2000000 0 0 n b)

theorem wit_RoundResumes :
    let k := cmd 1 4 0 0 2000000 0 0 196 sealedCkpt
    let s := resuming 196 sealedCkpt
    s.ready (ref 1) 4 = some k ∧ s.formed k.part = true ∧ k.part < s.parts.length ∧ s.resumeFirst k.part = .ok ∧ k.readFailed = false ∧
      readLength k ≤ k.data.length ∧ sealedParts k.data = ⟨ckptHead, ckptSeal.1, ckptSeal.2⟩ := by
  have hl : sealedCkpt.length = 196 := by
    have h1 : ckptHead.length = 164 := by decide +kernel
    have h2 : ckptBody.length = 12 := by decide
    simp [sealedCkpt, ckptSeal, h1, h2]
  refine ⟨by rfl, by decide +kernel, by decide +kernel, by decide +kernel, rfl, ?_, sealedParts_append _ _ _ (by decide +kernel) (length_gcmSeal_snd _ _ _ _)⟩
  show readLength (cmd 1 4 0 0 2000000 0 0 196 sealedCkpt) ≤ sealedCkpt.length
  rw [hl]
  exact Nat.le_refl _

theorem wit_RoundResumes_opens :
    gcmOpen ((resuming 196 sealedCkpt).ckptKey ((resuming 196 sealedCkpt).part 0).image.ckptSlot (rd ckptHead 0 8))
      (sealIv (rd ckptHead 104 4) (rd ckptHead 108 1) (rd ckptHead 109 1)) ckptHead ckptSeal.1 ckptSeal.2 = some ckptBody := by
  have h1 : rd ckptHead 0 8 = 42 := by decide +kernel
  have h2 : sealIv (rd ckptHead 104 4) (rd ckptHead 108 1) (rd ckptHead 109 1) = sealIv 3 2 0 := by decide +kernel
  have h3 : (resuming 196 sealedCkpt).ckptKey 8 42 = (withKeys live).ckptKey 8 42 := rfl
  have h4 : ((resuming 196 sealedCkpt).part 0).image.ckptSlot = 8 := rfl
  rw [h1, h2, h4, h3]
  exact gcmOpen_gcmSeal _ _ _ _

theorem wit_RoundResumes_header :
    let s := resuming 196 []
    slice ckptHead 72 32 = fit (s.part 0).image.digest 32 ∧ rd ckptHead 108 1 ≠ 15 ∧ rd ckptHead 110 1 ≠ 1 ∧ s.devtime < 2000000 ∧
      (s.setOf 0 (descriptorOf (slice ckptHead 8 64))).isSome ∧ (∀ w ∈ (tabled s).wellsOf 0, ((tabled s).well w).inService = true → (tabled s).substGood w = true) ∧ (withCmd live (cmd 1 4 0 0 2000000 0 0 224 [])).resumeFirst 0 ≠ .ok ∧
      (intake live).hasDma 0 = true ∧ ((intake live).round 0).state ≠ .idle := by
  decide +kernel

/-- The same bytes with an intake close that has passed. -/
theorem wit_RoundResumes_closed :
    let k := cmd 1 4 0 0 0 0 0 196 sealedCkpt
    let s := withCmd ((withKeys (loaded live)).modPart 0 (fun x => { x with image := { x.image with ckptSlot := 8 } })) k
    s.ready (ref 1) 4 = some k ∧ s.formed k.part = true ∧ s.resumeFirst k.part = .ok ∧ k.readFailed = false ∧
      (sealedParts k.data = ⟨ckptHead, ckptSeal.1, ckptSeal.2⟩ ∧ rd ckptHead 110 1 = 0 ∧ k.p1 ≤ s.devtime) := by
  refine ⟨by rfl, by decide +kernel, by decide +kernel, rfl, sealedParts_append _ _ _ (by decide +kernel) (length_gcmSeal_snd _ _ _ _), by decide +kernel, by decide +kernel⟩

/-- Twenty bytes of zeros are no sealed checkpoint. -/
theorem wit_RoundResumes_bad :
    let k := cmd 1 4 0 0 2000000 0 0 20 (zeros 20)
    let s := resuming 20 (zeros 20)
    let x := sealedParts k.data
    s.ready (ref 1) 4 = some k ∧ s.resumeFirst k.part = .ok ∧ readLength k ≤ k.data.length ∧
      gcmOpen (s.ckptKey (s.part k.part).image.ckptSlot (rd x.header 0 8)) (sealIv (rd x.header 104 4) (rd x.header 108 1) (rd x.header 109 1))
        x.header x.body x.tag = none := by
  decide +kernel

theorem wit_PartitionResets :
    (let k := cmd 1 8 0 0 0 0 0 0 []
     let s := withCmd (intake live) k
     s.ready (ref 1) 8 = some k ∧ s.formed k.part = true ∧ k.part < s.parts.length) := by
  decide

/-- With one bucket written in well 0 and part of the next one in its merge buffer. -/
def written (s : State) : State :=
  s.modWell 0 (fun x => { x.putCis 4 (List.replicate 64 9) with merge := [⟨5, List.replicate 64 7, List.replicate 64 true, 0⟩] })

theorem wit_HostDmaMovesBytes :
    (let k := cmd 1 0x10 0 0 (cisAddr 0 300) 0 0 3 (bytesOf [1, 2, 3])
     let s := withCmd (written live) k
     s.ready (ref 1) 0x10 = some k ∧ (s.dmaRefusal k 2).1 = none ∧ k.readFailed = false ∧ k.data.length = k.length ∧
       memoryAt k.p1 = some (false, 0, 300) ∧ 300 + k.length ≤ 2 ^ 27 ∧ 0 < s.wells.length ∧ (s.well 0).cis.wf) ∧
    (let k := cmd 1 0x11 0 0 (cisAddr 0 300) 0 0 3 []
     let s := withCmd (written live) k
     s.ready (ref 1) 0x11 = some k ∧ k.orphan = false ∧ (s.dmaRefusal k 1).1 = none ∧ s.host.up = true ∧ s.streamBad k.fn = false ∧ (s.fn k.fn).tdi ≠ .error ∧ memoryAt k.p1 = some (false, 0, 300) ∧
       300 + k.length ≤ 2 ^ 27 ∧ (∀ b ∈ (s.well 0).cisBad, b < 300 / 64 ∨ (300 + k.length - 1) / 64 < b)) ∧
    (let k := cmd 1 0x10 0 0 0x8000000 0 0 3 []
     let s := withCmd live k
     s.ready (ref 1) 0x10 = some k ∧ (s.dmaRefusal k 2).1 = some .refusedAccess) ∧
    (let k := cmd 1 0x11 0 0 (cisAddr 0 300) 0 0 0 []
     let s := withCmd live k
     s.ready (ref 1) 0x11 = some k ∧ (s.dmaRefusal k 1).1 = some .lengthExceeds) := by
  decide +kernel

theorem wit_MemoryFormKept : ((written live).well 0).cisOk ∧ (live.well 0).cisOk := by
  constructor <;> exact ⟨by decide +kernel, by decide +kernel, by decide +kernel⟩

/-- A queue-pair context (R305): general endpoint 0, one path on port 0, remote QP 9. -/
def context : Bytes :=
  sealCrc (bytesOf [0x51, 1, 0, 0x21] ++ toLE 9 4 ++ toLE 100 8 ++ toLE 200 8 ++ zeros 16 ++ zeros 6 ++ bytesOf [0x0F, 0] ++ toLE 0 4 ++ zeros 12)

/-- With a session, an image with a general endpoint, and QP 0 in a state. -/
def withQp (s : State) (st : QpState) : State :=
  { (loaded s).modPart 0 (fun x => { x with
      session := { x.session with state := .active, kLink := zeros 32 }
      image := { x.image with endpoints := [⟨0, 1, 3, true, 0, 0, zeros 16, 10, 0, 0, 0, 0, false⟩] } }) with
    qps := if st = .free then [] else [(0, { qpOfContext 0 0 (zeros 32) context with state := st, txKey := zeros 32, rxKey := zeros 32 })] }

theorem wit_QpCreateAndDestroy :
    (let k := cmd 1 0x18 0 0 0 0 0 64 context
     let s := withCmd (withQp live .free) k
     s.ready (ref 1) 0x18 = some k ∧ s.formed k.part = true ∧ k.readFailed = false ∧ 64 ≤ k.data.length ∧ s.contextStatus k.part k.data = .ok ∧
       s.freeQpn = some 0) ∧
    (let k := cmd 1 0x18 0 0 0 0 0 64 (zeros 64)
     let s := withCmd (withQp live .free) k
     s.ready (ref 1) 0x18 = some k ∧ s.contextStatus k.part k.data ≠ .ok) ∧
    (let k := cmd 1 0x19 0 0 0 0 0 0 []
     let s := withCmd (withQp live .error) k
     s.ready (ref 1) 0x19 = some k ∧ s.formed k.part = true ∧ k.part < s.parts.length ∧ k.p0 ≤ 16383 ∧ (s.qp k.p0).part = k.part ∧
       (s.qp k.p0).state = .error) ∧
    (let k := cmd 1 0x19 0 16384 0 0 0 0 []
     (withCmd live k).ready (ref 1) 0x19 = some k ∧ 16383 < k.p0) ∧
    (let k := cmd 1 0x19 0 16383 0 0 0 0 []
     (withCmd live k).ready (ref 1) 0x19 = some k ∧ k.p0 ≤ 16383 ∧ ((withCmd live k).qp k.p0).state = .free) ∧
    (let s := withQp live .draining
     s.alive = true ∧ (s.qp 0).state = .draining ∧ s.qpQuiet 0 = true) := by
  decide +kernel

/-- A region record (R310): region 3 of 4,096 bytes at the start of well 0's cistern, with both rights. -/
def regionRecord : Bytes := sealCrc (bytesOf [0x52, 3, 3, 0, 0, 0, 0, 0] ++ toLE (cisAddr 0 0) 8 ++ toLE 4096 8 ++ zeros 40)

/-- With region 3 of partition 0 in a state. -/
def withRegion (s : State) (st : RegionState) : State := s.setRegion 0 3 ⟨st, 1, cisAddr 0 0, 4096, 3, none⟩

theorem wit_RegionsRegisterAndRevoke :
    (let k := cmd 1 0x1A 0 0 0 0 0 64 regionRecord
     let s := withCmd live k
     s.ready (ref 1) 0x1A = some k ∧ s.formed k.part = true ∧ k.part < s.parts.length ∧ k.readFailed = false ∧ 64 ≤ k.data.length ∧
       s.regionStatus k.part k.data = .ok) ∧
    (let k := cmd 1 0x1A 0 0 0 0 0 64 regionRecord
     let s := withCmd (withRegion live .valid) k
     s.ready (ref 1) 0x1A = some k ∧ s.regionStatus k.part k.data ≠ .ok) ∧
    (let k := cmd 1 0x1B 0 3 0 0 0 0 []
     let s := withCmd (withRegion live .valid) k
     s.ready (ref 1) 0x1B = some k ∧ s.formed k.part = true ∧ k.part < s.parts.length ∧ (s.region k.part k.p0).state = .valid) ∧
    (let k := cmd 1 0x1B 0 3 0 0 0 0 []
     let s := withCmd live k
     s.ready (ref 1) 0x1B = some k ∧ s.formed k.part = true ∧ (s.region k.part k.p0).state ≠ .valid) ∧
    (let s := withRegion live .revoking
     s.alive = true ∧ 0 < s.parts.length ∧ (s.region 0 3).state = .revoking ∧ ∀ c ∈ s.commits, c.part = 0 → c.region = some 3 → s.placed c = true) ∧
    (let k := cmd 1 0x1C 0 0 64 3 0 100 []
     let s := withCmd (withRegion (withQp live .active) .valid) k
     s.ready (ref 1) 0x1C = some k ∧ s.formed k.part = true ∧ s.postStatus k.part k = .ok) ∧
    (let k := cmd 1 0x1C 0 0 64 3 0 5000 []
     let s := withCmd (withRegion (withQp live .active) .valid) k
     s.ready (ref 1) 0x1C = some k ∧ s.postStatus k.part k ≠ .ok) := by
  decide +kernel

/-- With a load of partition 0 in progress. -/
def loading (s : State) (k : Cmd) : State :=
  (withCmd s k).modPart 0 (fun x => { x with image := { x.image with state := .loading, loading := some ⟨ref 0, k.length, 900000⟩ } })

/-- The load of a floor plan in progress. -/
def planLoading (s : State) (k : Cmd) : State :=
  { withCmd s { k with started := true } with plan := { s.plan with loading := some ⟨ref 0, k.length, 900000⟩ } }

theorem wit_ImageLoads :
    (let k := cmd 0 0x20 0 0 0 0 0 4096 []
     let s := withCmd live k
     s.ready (ref 0) 0x20 = some k ∧ k.part < 24 ∧ k.part < s.parts.length ∧ s.imageRefusal k.part = none ∧ k.readFailed = false ∧
       k.data.length < 64 ∧ 1 ≤ k.length ∧ k.length ≤ 1073741824) ∧
    (let k := cmd 0 0x20 1 0 0 0 0 4096 []
     let s := withCmd live k
     s.ready (ref 0) 0x20 = some k ∧ k.part < 24 ∧ s.imageRefusal k.part = some .notReady) ∧
    (let k := cmd 0 0x20 0 0 0 0 0 64 (zeros 64)
     let s := loading live k
     s.serves = true ∧ s.loadCmd 0 = some k ∧ (s.record 0).isSome ∧ k.readFailed = false ∧ k.length ≤ k.data.length ∧
       ∀ r ∈ s.record 0, s.imageFirst 0 r k.data k.length = .error (.format, 1, 0x1FFF)) := by
  decide +kernel

theorem wit_FloorPlansLoad :
    (let k := cmd 0 0x21 0 0 0 0 0 262144 []
     let s := withCmd live k
     s.ready (ref 0) 0x21 = some k ∧ s.plan.loading = none ∧ s.lantus.state ≠ .updating ∧ s.noLoads = false ∧
       (∀ x ∈ s.parts, x.image.state ≠ .loading) ∧ k.readFailed = false ∧ k.data.length < 64 ∧ k.data.length < k.length ∧ 1 ≤ k.length ∧ k.length ≤ 262144) ∧
    (let k := cmd 0 0x21 0 0 0 0 0 262144 []
     let s := { withCmd live k with plan := { live.plan with loading := some ⟨ref 1, 64, 0⟩ } }
     s.ready (ref 0) 0x21 = some k ∧ s.plan.loading.isSome = true) ∧
    (let k := cmd 0 0x21 0 0 0 0 0 128 (zeros 64)
     let s := planLoading live k
     s.host.up = true ∧ s.power.state = .p0 ∧ s.cmds.find? (fun x => x.is (ref 0)) = some { k with started := true } ∧ k.opcode = 0x21 ∧
       k.readFailed = false ∧ k.data.length < k.length ∧ s.streamBad k.fn = false ∧ (s.plan.loading.map (fun l => l.cmd)) = some (ref 0) ∧
       ((k.data ++ zeros 64).take k.length).length = k.length ∧ s.planVerdict ((k.data ++ zeros 64).take k.length) k.length = .error (.format, 1, 0x1FFF)) ∧
    (let s := { live with plan := { live.plan with slotsNext := some (1000000, []) } }
     s.alive = true ∧ s.plan.slotsNext = some (1000000, [])) := by
  decide +kernel

theorem wit_TileRemapAndSelftest :
    (let k := cmd 0 0x28 0 0x1800 0 0 0 0 []
     (withCmd live k).ready (ref 0) 0x28 = some k ∧ 24 ≤ bits k.p0 15 8) ∧
    (let k := cmd 0 0x28 0 0x300 0 0 0 0 []
     let s := withCmd (intake live) k
     s.ready (ref 0) 0x28 = some k ∧ bits k.p0 7 0 < 24 ∧ bits k.p0 15 8 < 24 ∧ s.owner 0 < 24 ∧ (s.round (s.owner 0)).state.busy = true) ∧
    (let k := cmd 0 0x28 0 0x300 0 0 0 0 []
     let s := (withCmd live k).setReg (substBase 0 + 0x18) (live.well 0).substCrc
     s.ready (ref 0) 0x28 = some k ∧ (s.round (s.owner 0)).state.busy = false ∧ s.substGood 0 = true ∧ 0 < s.wells.length ∧ bit k.p0 16 = false ∧
       (s.well 0).unmapped = 24 :: [] ∧ s.physOf 0 3 < 25 ∧ (s.gateFails 0 0 []).1 = none ∧ (s.part 0).image.state ≠ .loaded) ∧
    (let k := cmd 0 0x28 0 0x300 0 0 0 0 []
     let s := ((withCmd live k).setReg (substBase 0 + 0x18) (live.well 0).substCrc).modTile ⟨0, 24⟩ (fun x => { x with state := .failed })
     s.ready (ref 0) 0x28 = some k ∧ s.substGood 0 = true ∧ bit k.p0 16 = false ∧ (s.well 0).unmapped = []) ∧
    bit (cmd 0 0x28 0 0x10300 0 0 0 0 []).p0 16 = true ∧
    (let k := cmd 0 0x29 0 0x1800 0 0 0 0 []
     let s := withCmd live k
     s.ready (ref 0) 0x29 = some k ∧ s.logicalOf ⟨0, 24⟩ = 0x1F ∧ (s.tile ⟨0, 24⟩).state ≠ .test ∧ (s.tile ⟨0, 24⟩).state ≠ .failed ∧ 0 < s.wells.length ∧ 24 < (s.well 0).tiles.length) ∧
    (let k := cmd 0 0x29 0 0x1800 0 0 0 0 []
     let s := withCmd (live.modTile ⟨0, 24⟩ (fun x => { x with state := .failed })) k
     s.ready (ref 0) 0x29 = some k ∧ (s.tile ⟨0, 24⟩).state = .failed) ∧
    (let k := cmd 0 0x29 0 0x1900 0 0 0 0 []
     (withCmd live k).ready (ref 0) 0x29 = some k ∧ 25 ≤ bits k.p0 15 8) ∧
    (let s := live.modTile ⟨0, 24⟩ (fun x => { x with state := .test, selfTest := some (5, none) })
     s.alive = true ∧ (s.tile ⟨0, 24⟩).state = .test ∧ (s.tile ⟨0, 24⟩).selfTest = some (5, none) ∧ 0 < s.wells.length ∧ 24 < (s.well 0).tiles.length) ∧
    (let k := cmd 0 0x2A 0 0 2097151 0 0 0 []
     let s := withCmd live k
     s.ready (ref 0) 0x2A = some k ∧ k.p0 % 256 ≤ 23 ∧ k.p1 ≤ 2097151 ∧ (s.round (s.owner 0)).state.busy = false ∧ 0 < s.wells.length ∧
       (s.well 0).inService = true ∧ s.sparesUsed 0 (s.bankOf 0 k.p1) < 64) ∧
    (let k := cmd 0 0x2A 0 0 2097152 0 0 0 []
     (withCmd live k).ready (ref 0) 0x2A = some k ∧ 2097151 < k.p1) ∧
    (let k := cmd 0 0x2A 0 23 9 0 0 0 []
     let s := withCmd live k
     s.ready (ref 0) 0x2A = some k ∧ k.p0 % 256 ≤ 23 ∧ ¬ s.owner 23 < 24 ∧ (s.well 23).inService = false) ∧
    (let k := cmd 0 0x2A 0 0 9 0 0 0 []
     let s := withCmd (intake live) k
     s.ready (ref 0) 0x2A = some k ∧ s.owner 0 < 24 ∧ (s.round (s.owner 0)).state.busy = true) := by
  decide +kernel

/-- With a mailbox request of an opcode and length waiting. -/
def withMbx (s : State) (op len : Nat) : State :=
  (s.modLantus (fun l => { l with mbxBusy := true, mbxOp := op })).setReg (lntBase + 0x10) len

/-- A KEY_PROGRAM descriptor for slot 8, a root with the checkpoint bit. -/
def keyRecord : Bytes := sealCrc (toLE 8 4 ++ toLE (2 ^ 30 + 8 * 2 ^ 16 + 4) 4 ++ List.replicate 32 5 ++ zeros 24)

theorem wit_KeySlotsChange :
    (MbxTakes (withMbx live 2 64) 2 keyRecord ∧ (withMbx live 2 64).keyProgramRefusal keyRecord = none ∧
      bits (rd keyRecord 0 4) 5 0 < (withMbx live 2 64).lantus.keys.length) ∧
    (MbxTakes (withMbx live 2 64) 2 (zeros 64) ∧ (withMbx live 2 64).keyProgramRefusal (zeros 64) = some .format) ∧
    (MbxTakes (withMbx (withKeys live) 3 4) 3 (toLE 8 4) ∧ attrState ((withKeys live).slot 8).attrWord ≠ 2) := by
  unfold MbxTakes
  decide +kernel

theorem wit_FirmwareLoads :
    (MbxTakes (withMbx live 1 64) 1 (zeros 64) ∧ (withMbx live 1 64).loadInProgress = false ∧
      (withMbx live 1 64).fwVerdict (zeros 64) 64 = .error (.format, 1, 0x1FFF)) ∧
    (let s := withMbx { live with plan := { live.plan with loading := some ⟨ref 0, 64, 0⟩ } } 1 64
     MbxTakes s 1 (zeros 64) ∧ s.lantus.state = .running ∧ s.loadInProgress = true) ∧
    (let s := live.modLantus (fun l => { l with staged := some ⟨1, []⟩, state := .updating })
     s.alive = true ∧ s.lantus.staged = some ⟨1, []⟩) := by
  unfold MbxTakes
  decide +kernel

theorem wit_FirmwareLoads_floor :
    (let s := withMbx (live.modLantus (fun l => { l with fw := some ⟨3 * 2 ^ 56, []⟩ })) 4 4
     MbxTakes s 4 (toLE 3 4) ∧ s.lantus.fwFloor < rd (toLE 3 4) 0 4 ∧ rd (toLE 3 4) 0 4 ≤ 64 ∧
       rd (toLE 3 4) 0 4 ≤ securityVersion ((s.lantus.fw.map Firmware.serial).getD 0) ∧
       MbxTakes s 4 (toLE 4 4) ∧ securityVersion ((s.lantus.fw.map Firmware.serial).getD 0) < rd (toLE 4 4) 0 4 ∧
       MbxTakes s 4 (toLE 65 4) ∧ 64 < rd (toLE 65 4) 0 4 ∧ MbxTakes s 4 (toLE 0 4) ∧ rd (toLE 0 4) 0 4 ≤ s.lantus.fwFloor) := by
  unfold MbxTakes
  decide +kernel

theorem wit_FirmwareLoads_restart :
    live.alive = true ∧ live.lantus.state = .running ∧
    (let s := live.modLantus (fun l => { l with state := .restarting })
     s.alive = true ∧ s.lantus.state = .restarting) := by
  decide +kernel

/-- The SHA3-256 digest of a key of 1,312 zero bytes. -/
def keyDigest : Bytes := toBE 0xbf80174179038d98eb5f2d31029dc67a9f94cd5b1b5bc3b596234089d87efcf7 32

theorem sha3_zero_key : sha3 (zeros 1312) = keyDigest := by decide +kernel

/-- With slot 1 holding that digest. -/
def withSigner (s : State) : State :=
  s.modLantus (fun l => { l with keys := updAt l.keys 1 (fun k => { k with value := keyDigest, crc := crc32c keyDigest }) })

theorem wit_DebugUnlockAndCerts :
    MbxTakes (withMbx live 5 3732) 5 (zeros 3732) ∧ (withMbx live 5 3732).debugSigner (sha3 (zeros 1312)) = none ∧
    MbxTakes (withMbx (withSigner live) 5 3732) 5 (zeros 3732) ∧ (withMbx (withSigner live) 5 3732).debugSigner (sha3 (zeros 1312)) = some 1 ∧
    (withSigner live).lantus.debugDisabled = false ∧ leNat live.lantus.dbgNonce = 0 ∧
    leNat (live.modLantus (fun l => { l with dbgNonce := toLE 1 32 })).lantus.dbgNonce ≠ 0 ∧ MbxTakes (withMbx live 6 0) 6 [] ∧
    MbxTakes (withMbx live 7 16384) 7 (zeros 16384) ∧ 0 < (zeros 64).length ∧ MbxTakes (withMbx live 2 64) 2 (zeros 64) ∧
    (let s := (withMbx live 2 64).modLantus (fun l => { l with state := .romWait })
     s.mbxServed = true ∧ s.lantus.mbxBusy = true ∧ s.lantus.staged = none ∧ s.lantus.mbxOp = 2 ∧ s.lantus.state ≠ .running) ∧
    (let s := (withMbx live 1 64).modLantus (fun l => { l with state := .restarting })
     s.mbxServed = true ∧ s.lantus.mbxOp = 1 ∧ s.lantus.state ≠ .running ∧ s.lantus.state ≠ .romWait) := by
  rw [sha3_zero_key]
  unfold MbxTakes
  refine ⟨?_, ?_, ?_, ?_⟩
  iterate 3 decide +kernel
  decide +kernel

/-- A message header: type, partition, whole length, session_id, seq. -/
def sesMsg (mtype p len sid seq : Nat) : Bytes := sesHeader mtype p 0 len sid seq

/-- With the DRBGs of partition 0 and of Lantus seeded. -/
def seeded (s : State) : State :=
  (s.modDrbg 0 (fun d => { d with state := .seeded })).modDrbg 24 (fun d => { d with state := .seeded })

/-- With the session of partition 0 in a state, of identifier 6. -/
def withSession (s : State) (st : SessionState) : State :=
  (loaded s).modPart 0 (fun x => { x with session := { x.session with state := st, id := 6, startTime := 1000, kIde := zeros 32 } })

theorem wit_KeyAgreementStarts :
    (let s := seeded (loaded live)
     let m := sesMsg 1 0 64 0 0
     SesTakes s 1 1 m 0 ∧ sesHeaderGood m 64 64 = true ∧ (s.session 0).state ≠ .active ∧ 0 < s.parts.length ∧ s.kexRefusal 0 = none ∧ Gives s 0 ∧ Gives s 24) ∧
    (let s := loaded live
     SesTakes s 1 1 (sesMsg 1 0 64 0 0) 0 ∧ s.kexRefusal 0 = none ∧ s.kexFatal 0 = false ∧ (s.drbg 0).state ≠ .seeded) ∧
    (let s := (loaded live).modDrbg 24 (fun d => { d with state := .fatal })
     s.kexRefusal 0 = none ∧ s.kexFatal 0 = true) ∧
    (withSlot live 0 (2 ^ 31)).usable 0 = false ∧ SesTakes (withSlot live 0 (2 ^ 31)) 1 1 (sesMsg 1 0 64 0 0) 0 ∧
    (SesTakes live 1 1 (sesMsg 1 0 65 0 0) 0 ∧ sesHeaderGood (sesMsg 1 0 65 0 0) 64 64 = false) := by
  unfold SesTakes Gives
  decide +kernel

theorem wit_KeyAgreementStarts_timers :
    (SesTakes (withSession live .active) 1 1 (sesMsg 1 0 64 0 0) 0 ∧ ((withSession live .active).session 0).state = .active) ∧
    (let s := (seeded (loaded live)).modSession 0 (fun x => { x with pendingStart := some (1, sesMsg 1 0 64 0 0, 1000) })
     s.serves = true ∧ (s.session 0).pendingStart = some (1, sesMsg 1 0 64 0 0, 1000) ∧ s.kexRefusal 0 = none ∧ Gives s 0 ∧ Gives s 24) ∧
    (let s := { live with devtime := 20001000 }.modSession 0 (fun x => { x with pendingStart := some (1, sesMsg 1 0 64 0 0, 1000) })
     s.serves = true ∧ (s.session 0).pendingStart = some (1, sesMsg 1 0 64 0 0, 1000) ∧ 1000 + 20000000 ≤ s.devtime ∧ s.seeded 0 = false) ∧
    (let s := withSession { live with devtime := 4000001000 } .started
     s.alive = true ∧ (s.session 0).state = .started ∧ (s.session 0).startTime + 4000000000 ≤ s.devtime) := by
  unfold SesTakes Gives
  decide +kernel

/-- A SEC_MSG of session 6 with sequence number 1, sealed with a key of zeros, whose plaintext is a protocol identifier and four bytes. -/
def secMsg : Bytes :=
  let h := sesMsg 5 0 88 6 1
  let c := gcmSeal (zeros 32) (sesIv 1 0) h (toLE 1 4 ++ zeros 4)
  h ++ c.1 ++ c.2

theorem wit_SessionMessagesAnswered :
    (let s := withSession live .started
     SesTakes s 1 3 (sesMsg 3 0 64 6 0) 0 ∧ s.kexFinishFails 0 (sesMsg 3 0 64 6 0) = some (.format, 1)) ∧
    (let s := withSession live .active
     SesTakes s 1 5 secMsg 0 ∧ (s.session 0).state = .active ∧ (s.session 0).openMsg secMsg = some (toLE 1 4 ++ zeros 4) ∧ rd (toLE 1 4 ++ zeros 4) 0 4 = 1 ∧
       SesTakes s 1 5 (sesMsg 5 0 64 6 1) 0 ∧ (s.session 0).openMsg (sesMsg 5 0 64 6 1) = none) ∧
    (SesTakes live 1 5 secMsg 0 ∧ (live.session 0).state ≠ .active) ∧
    (let s := withSession live .active
     let m := sesMsg 7 0 64 6 0
     SesTakes s 1 7 m 0 ∧ sesHeaderGood m 64 64 = true ∧ (s.session 0).state ≠ .none ∧ sesId m = (s.session 0).id) ∧
    (let m := sesMsg 7 0 64 6 0
     live.doeReady 2 = true ∧ m.length ≤ 16376 ∧ rd m 0 1 = 7 ∧ sesIndex m = some 0 ∧ sesAllowed 2 0 = false) := by
  unfold SesTakes
  decide +kernel

theorem wit_SpdmAnswers :
    live.doeReady 0 = true ∧ live.lantus.certChain = none ∧ live.usable 0 = true ∧ Gives (seeded live) 24 ∧ (withSlot live 0 0).usable 0 = false ∧
    (live.modLantus (fun l => { l with certChain := some [1] })).lantus.certChain = some [1] ∧ State.reset.doeReady 0 = false := by
  unfold Gives
  decide +kernel

/-- With a request of a protocol handed on from the operator session by the PF. -/
def handed (s : State) (proto : Nat) : State := s.modSession 24 (fun x => { x with state := .active, inner := some (proto, 0, []) })

theorem wit_IdeKeysAndTdiStates :
    (handed live 1).serves = true ∧ ((handed live 1).session 24).inner = some (1, 0, []) ∧ (live.session 24).inner = none ∧
    (let s := handed live 2
     s.serves = true ∧ (s.session 24).inner = some (2, 0, []) ∧ tdiOfSession 24 3 = true ∧ 3 < s.fns.length ∧ (s.fn 3).tdi = .unlocked ∧
       (s.fn 3).barChange ≠ some s.devtime) ∧
    (let s := (handed live 2).modFn 3 (fun f => { f with tdi := .locked, barChange := some 1000000 })
     (s.fn 3).barChange = some s.devtime ∧ (s.fn 3).tdi = .locked) ∧
    (let s := { live with host := { live.host with ide := updAt live.host.ide 3 (fun i => { i with keySet := some 0 }) } }
     s.host.ide[3]? = some ⟨[], some 0, false⟩ ∧ 3 < s.fns.length) ∧
    live.host.up = true ∧
    (let s := live.modFn 3 (fun f => { f with pba := [5], msixEnable := true, msix := [(5, ⟨64, 1, true⟩)] })
     5 ∈ (s.fn 3).pba ∧ s.msixOn 3 = true ∧ s.host.up = true ∧ s.streamBad 3 = false ∧ s.msixEntry 3 5 ≠ ⟨64, 2, true⟩ ∧ 6 ∉ (s.fn 3).pba) := by
  decide +kernel

theorem wit_ReportsSignedOrEnded :
    (let k := cmd 0 0x38 0x1F 0 0 0 0 4244 []
     let s := withCmd (seeded live) k
     s.ready (ref 0) 0x38 = some k ∧ k.part = 0x1F ∧ 4244 ≤ k.length ∧ s.usable 0 = true ∧ Gives s 24 ∧ s.host.up = true ∧ s.streamBad k.fn = false ∧ (s.fn k.fn).tdi ≠ .error ∧
       ((withCmd live k).drbg 24).state ≠ .seeded) ∧
    (let k := cmd 0 0x38 24 0 0 0 0 4244 []
     (withCmd live k).ready (ref 0) 0x38 = some k ∧ 24 ≤ k.part ∧ k.part ≠ 0x1F) ∧
    (let k := cmd 0 0x38 23 0 0 0 0 4243 []
     (withCmd live k).ready (ref 0) 0x38 = some k ∧ k.part < 24 ∧ k.length < 4244) ∧
    (let k := cmd 0 0x38 23 0 0 0 0 4244 []
     (withCmd (withSlot live 0 0) k).ready (ref 0) 0x38 = some k ∧ (withCmd (withSlot live 0 0) k).usable 0 = false) ∧
    (let k := { cmd 0 0x38 0x1F 0 0 0 0 4244 [] with started := true }
     let s := (withCmd (seeded { live with devtime := 20000005 }) k).modLantus (fun l => { l with reports := [⟨ref 0, 5⟩] })
     s.serves = true ∧ s.waitingReport (ref 0) = some (⟨ref 0, 5⟩, k) ∧ s.usable 0 = true ∧ Gives s 24 ∧ s.host.up = true ∧ s.streamBad k.fn = false ∧ (s.fn k.fn).tdi ≠ .error ∧ 5 + 20000000 ≤ s.devtime) ∧
    live.seeded 24 = false := by
  unfold Gives
  decide +kernel

/-- A whole access of a function to its BAR0. -/
def acc (who off v : Nat) : RegAccess := ⟨who, 0, off, 15, BitVec.ofNat 32 v, false⟩

/-- The row of a register. -/
def rowAt (x : Nat) : RegRow := (regRow x).getD ⟨0, 1, 0, "", .single, []⟩

theorem wit_RegisterFieldTypes :
    (let r := rowAt 0x10010
     Writes live (acc 0 0x10010 5) 0x10010 r ∧ kindOf 0x10010 = .plain ∧ r.half = .single ∧ ⟨31, 0, .rw, 0⟩ ∈ r.flds) ∧
    (∀ f ∈ (rowAt 0x10000).flds, 9 < f.lo ∨ f.hi < 9) := by
  unfold Writes Arrives
  decide +kernel

theorem wit_CountersSaturate :
    let r := rowAt 0x200004
    regRow 0x200004 = some r ∧ r.flds = [⟨31, 0, .rc, 0⟩] ∧ r.half = .single ∧ kindOf 0x200004 = .plain ∧ Writes live (acc 0 0x200004 5) 0x200004 r ∧
      Reads live (acc 0 0x200004 0) 0x200004 r ∧ (live.atReg (acc 0 0x200004 0) 0x200004).viewOf 0x200004 = none ∧ live.freshAt 0x200004 = none ∧
      (live.atReg (acc 0 0x200004 0) 0x200004).freshAt 0x200004 = none ∧ ((live.count 0x200004).atReg (acc 0 0x200004 0) 0x200004).freshAt 0x200004 = some (1, 0) := by
  unfold Writes Arrives Reads
  decide +kernel

theorem wit_PairWritesStaged :
    let r := rowAt 0x200100
    let q := rowAt 0x200104
    Arrives live (acc 0 0x200100 4096) 0x200100 r ∧ kindOf 0x200100 = .plain ∧ r.half = .low ∧ r.writable ≠ 0 ∧
      Writes live (acc 0 0x200104 1) 0x200104 q ∧ kindOf 0x200104 = .plain ∧ q.half = .high ∧ q.writable ≠ 0 ∧ regRow (0x200104 - 4) = some r ∧
      encodingLegal 0x200100 ((live.atReg (acc 0 0x200104 1) 0x200104).staged 0 0x200100) = true ∧
      (live.atReg (acc 0 0x200104 1) 0x200104).basesFixed 0x200100 ((live.atReg (acc 0 0x200104 1) 0x200104).staged 0 0x200100 + 2 ^ 32 * 1) = false ∧
      (∀ e ∈ live.writeLatch, e.1 ≠ 0 ∨ e.2.1 ≠ 0x200100) := by
  unfold Writes Arrives
  decide +kernel

theorem wit_DiscardedWritesRecorded :
    live.accessible 0 = true ∧ live.rowOfWrite (acc 0 0x10010 5) = .register ∧ live.spotOf (acc 0 0x10010 5) = .register 0x10010 ∧
    live.spotOf (acc 1 0x7000 0) = .reserved ∧ live.accessible 1 = true ∧ live.rowOfWrite (acc 1 0x7000 0) = .register ∧
    (let s := { live with lockGlobal := true }
     let r := rowAt 0x100004
     let v := s.atReg (acc 0 0x100004 0) 0x100004
     v.lockedOut r 0x100004 = true ∧ s.rowOfWrite (acc 0 0x100004 0) = .register ∧ s.spotOf (acc 0 0x100004 0) = .register 0x100004 ∧ r.half = .single ∧
       v.refuses (accessMaster 0) 0x100004 2 = none) ∧
    (live.spotOf (acc 0 0x10010 5)).isMemory = false ∧
    (live.rowOfWrite (acc 0 0x280010 0) = .register ∧ (live.atReg (acc 0 0x280010 0) 0x280010).lockedOut (rowAt 0x280010) 0x280010 = false ∧ encodingLegal 0x280010 0 = false) ∧
    (let s := { live with access := { live.access with tables := List.replicate 99 (zeros 64) } }
     ((s.atReg (acc 0 0x10010 5) 0x10010).refuses (accessMaster 0) 0x10010 2).isSome ∧ s.spotOf (acc 0 0x10010 5) = .register 0x10010) ∧
    State.reset.accessible 0 = false ∧ State.reset.asleep = false ∧
    (let s := { live with power := { live.power with state := .p2 } }
     s.accessible 1 = false ∧ s.rowOfWrite (acc 1 0x7000 0) = .register ∧ s.asleep = true ∧ s.host.up = true ∧ s.streamBad 1 = false ∧ s.host.inL1 = false ∧ 1 ≤ s.host.numVfs) := by
  decide +kernel

theorem wit_RegisterReadsDelivered :
    (let r := rowAt 0x10010
     Reads live (acc 0 0x10010 0) 0x10010 r ∧ r.half = .single ∧ kindOf 0x10010 ≠ .thmMax) ∧
    (let r := rowAt 0x200100
     Reads live (acc 0 0x200100 0) 0x200100 r ∧ r.half = .low ∧ 0x318FF < 0x200100) ∧
    (let r := rowAt 0x200104
     Reads live (acc 0 0x200104 0) 0x200104 r ∧ r.half = .high) ∧
    (let r := rowAt 0x30008
     Reads live (acc 0 0x30008 0) 0x30008 r ∧ r.half = .low ∧ ((live.atReg (acc 0 0x30008 0) 0x30008).drbg 0).state ≠ .seeded ∧ Gives ((seeded live).atReg (acc 0 0x30008 0) 0x30008) 0 ∧
       Reads (seeded live) (acc 0 0x30008 0) 0x30008 r) ∧
    (let s := { live with access := { live.access with tables := List.replicate 99 (zeros 64) } }
     ((s.atReg (acc 0 0x10010 0) 0x10010).refuses (accessMaster 0) 0x10010 1).isSome ∧ s.accessible 0 = true ∧ s.rowOfRead (acc 0 0x10010 0) = .register) := by
  unfold Reads Gives
  decide +kernel

theorem wit_RegisterActionsTaken :
    (Writes (intake live) (acc 0 0x280018 3) 0x280018 (rowAt 0x280018) ∧ (rowAt 0x280018).half = .single ∧ kindOf 0x280018 = .rndCtrl 0 ∧
      bit (acc 0 0x280018 3).value.toNat 1 = true ∧ ((intake live).round 0).state = .intake ∧ ((intake live).round 0).abortPending = false ∧ (live.round 0).state ≠ .intake ∧
      bit (acc 0 0x280018 1).value.toNat 1 = false) ∧
    (Writes live (acc 0 0x28004C 1) 0x28004C (rowAt 0x28004C) ∧ (rowAt 0x28004C).half = .single ∧ kindOf 0x28004C = .intEnable 0x280048 1 0) ∧
    (let s := (live.setReg 0x280048 1).modFn 1 (fun f => { f with msixEnable := true, msix := [(0, ⟨64, 1, false⟩)] })
     let u := s.atReg (acc 0 0x28004C 1) 0x28004C
     Writes s (acc 0 0x28004C 1) 0x28004C (rowAt 0x28004C) ∧
       (rowAt 0x28004C).written (u.reg 0x28004C) 1 &&& (0xFFFFFFFF ^^^ u.reg 0x28004C) &&& u.reg 0x280048 ≠ 0 ∧ u.msixOn 1 = true ∧ u.host.up = true ∧ u.streamBad 1 = false ∧
       ((look 0 (u.fn 1).msix).getD {}).masked = false) ∧
    (Writes live (acc 0 0x1018004 1) 0x1018004 (rowAt 0x1018004) ∧ kindOf 0x1018004 = .tileCtrl ⟨0, 24⟩ ∧ (live.atReg (acc 0 0x1018004 1) 0x1018004).logicalOf ⟨0, 24⟩ = 0x1F ∧
      ((live.atReg (acc 0 0x1018004 1) 0x1018004).tile ⟨0, 24⟩).state ≠ .test ∧ ((live.atReg (acc 0 0x1018004 1) 0x1018004).tile ⟨0, 24⟩).state ≠ .failed) ∧
    (Writes live (acc 0 0x1030004 1) 0x1030004 (rowAt 0x1030004) ∧ kindOf 0x1030004 = .mergeCtrl 0) := by
  unfold Writes Arrives
  decide +kernel

theorem wit_RegisterActionsTaken_wells :
    (Writes live (acc 0 0x1050000 1) 0x1050000 (rowAt 0x1050000) ∧ kindOf 0x1050000 = .scrubCtrl 0 ∧ ((live.atReg (acc 0 0x1050000 1) 0x1050000).well 0).scrub ≠ .running ∧
      (live.atReg (acc 0 0x1050000 1) 0x1050000).scrubRange 0 = none) ∧
    (((live.setReg64 (scrubBase 0 + 8) (cisAddr 0 0)).setReg64 (scrubBase 0 + 0x10) (cisAddr 0 64)).atReg (acc 0 0x1050000 1) 0x1050000).scrubRange 0 = some (false, 0, 1) ∧
    (bit (acc 0 0x1050000 2).value.toNat 0 = false ∧ bit (acc 0 0x1050000 2).value.toNat 1 = true) ∧
    (Writes live (acc 0 0x1060004 1) 0x1060004 (rowAt 0x1060004) ∧ kindOf 0x1060004 = .cetCtrl 0) ∧
    (Writes live (acc 0 0x50800 3) 0x50800 (rowAt 0x50800) ∧ kindOf 0x50800 = .portCtrl ∧ 2 ≤ live.ports.length ∧ (live.port 0).admin = false) := by
  unfold Writes Arrives
  decide +kernel

/-- A doorbell write of virtual function 1's queue 0. -/
def bell (cq : Bool) (v : Nat) : RegAccess := ⟨1, 2, if cq then 4 else 0, 15, BitVec.ofNat 32 v, false⟩

theorem wit_QueueRegistersAndDoorbells :
    (Writes live (acc 0 0x201110 0x80030404) 0x201110 (rowAt 0x201110) ∧ kindOf 0x201110 = .hqCfg 1 0 ∧ (rowAt 0x201110).half = .single ∧
      1 < live.fns.length ∧ 0 < (live.fn 1).queues.length ∧ ((live.atReg (acc 0 0x201110 0x80030404) 0x201110).queue 1 0).state = .disabled ∧
      bit (acc 0 0x201110 0x80030404).value.toNat 31 = true ∧ cfgLegal 1 0x80030404 = true ∧ (live.atReg (acc 0 0x201110 0x80030404) 0x201110).sqBase 1 0 % 4096 = 0 ∧
      (live.atReg (acc 0 0x201110 0x80030404) 0x201110).cqBase 1 0 % 4096 = 0 ∧ cfgLegal 1 0x80030403 = false ∧ ((live.setReg (hqqBase 1 0) 64).atReg (acc 0 0x201110 0x80030404) 0x201110).sqBase 1 0 % 4096 ≠ 0) ∧
    (let s := onQueue live 1
     let u := s.atReg (acc 0 0x201110 0x404) 0x201110
     Writes s (acc 0 0x201110 0x404) 0x201110 (rowAt 0x201110) ∧ (u.queue 1 0).state = .active ∧ 0x404 &&& 0x01FF1F1F = u.reg 0x201110 &&& 0x01FF1F1F ∧
       bit (acc 0 0x201110 0x404).value.toNat 31 = false ∧ 0x405 &&& 0x01FF1F1F ≠ u.reg 0x201110 &&& 0x01FF1F1F) ∧
    (let s := onQueue live 1
     let u := s.arrive 1
     Rings s (bell false 15) 0 false ∧ 1 < s.fns.length ∧ 15 < u.sqSize 1 0 ∧ (u.queue 1 0).state = .active ∧ u.sqSize 1 0 ≤ 16 ∧
       Rings s (bell true 0) 0 true ∧ 0 < u.cqSize 1 0 ∧ (0 + u.cqSize 1 0 - (u.queue 1 0).cqHead) % u.cqSize 1 0 ≤ u.cqUsed 1 0) ∧
    (Rings live (bell false 1) 0 false ∧ ((live.arrive 1).queue 1 0).state = .disabled) ∧
    (Writes live (acc 0 0x110018 1) 0x110018 (rowAt 0x110018) ∧ kindOf 0x110018 = .evqCons 0 ∧ (rowAt 0x110018).half = .single ∧ 0 < live.parts.length) := by
  unfold Writes Arrives Rings
  decide +kernel

theorem wit_HostLinkChanges :
    live.host.up = true ∧ live.alive = true ∧ decide (6 ≤ 7) = true ∧ (1 : Nat) ≠ 0 ∧
    (let s := { live with host := { live.host with aspmL1 := true, lastTlp := 987200 } }
     s.host.up = true ∧ s.host.aspmL1 = true ∧ s.cmds = [] ∧ s.host.lastTlp + 12800 ≤ s.devtime) ∧
    (∀ c ∈ live.cmds, c.started = true → c.opcode ≠ 0x20 ∧ c.opcode ≠ 0x21) := by
  decide +kernel

/-- With ASPM L1 enabled. -/
def aspm (s : State) : State := { s with host := { s.host with aspmL1 := true } }

theorem wit_PowerStateEntries :
    (let k := cmd 0 0x30 0x1F 0 0 0 0 0 []
     let s := withCmd live k
     s.ready (ref 0) 0x30 = some k ∧ s.power.enterCmd = none ∧ pstateOf (bits k.p0 1 0) = s.power.state) ∧
    (let k := cmd 0 0x30 0x1F 1 0 0 0 0 []
     let s := withCmd live k
     s.ready (ref 0) 0x30 = some k ∧ pstateOf (bits k.p0 1 0) = .p1 ∧ s.refuser .p1 (ref 0) = none ∧ s.power.state ≠ .p1) ∧
    (let k := cmd 0 0x30 0x1F 2 0 0 0 0 []
     let s := withCmd (aspm live) k
     s.ready (ref 0) 0x30 = some k ∧ pstateOf (bits k.p0 1 0) = .p2 ∧ s.refuser .p2 (ref 0) = none) ∧
    (let k := cmd 0 0x30 0x1F 2 0 0 0 0 []
     let s := withCmd (intake live) k
     s.ready (ref 0) 0x30 = some k ∧ (s.refuser .p2 (ref 0)).isSome ∧ ∀ r ∈ s.refuser .p2 (ref 0), r < 29) ∧
    (let k := { cmd 0 0x30 0x1F 2 0 0 0 0 [] with started := true }
     let s := (withCmd (aspm live) k).modPower (fun x => { x with target := .p2, enterCmd := some (ref 0) })
     s.serves = true ∧ s.power.enterCmd = some (ref 0) ∧ s.refuser s.power.target (ref 0) = none ∧ s.cmds.find? (fun d => d.is (ref 0)) = some k) := by
  decide +kernel

theorem wit_WakeSequence :
    (let s := { live with power := { state := .p2 }, host := { live.host with inL1 := true } }
     s.life = .running ∧ s.power.enterCmd = none ∧ s.power.state = .p2 ∧ s.power.wake = .none ∧ s.host.up = true ∧ s.host.inL1 = true) ∧
    (let s := { live with power := { state := .p1 }, host := { live.host with inL1 := true } }
     s.life = .running ∧ s.power.enterCmd = none ∧ s.power.state = .p1 ∧ s.host.up = true ∧ s.host.inL1 = true) ∧
    (let s := { live with power := { avsWrites := 1, avsTime := 200000 } }
     s.life = .running ∧ s.power.avsWrites ≠ 0 ∧ s.devtime ≤ s.power.avsTime + 800000) ∧
    (let s := { live with life := .rom, power := {} }
     s.power.pllLocked = false ∧ agree s.access.divider 0 = true ∧ s.life = .rom ∧ s.lantus.state = .running) ∧
    (let s := { live with power := { state := .p2, wake := .pll } }
     s.power.pllLocked = false ∧ s.life = .running ∧ s.power.wake = .pll) ∧
    (let s := { live with power := { state := .p2, wake := .selfRefresh } }
     s.life = .running ∧ s.power.wake = .selfRefresh ∧ s.host.held = []) := by
  decide

theorem wit_SupplyAndTelemetry :
    (let s := { live with devtime := 40000000 }
     s.life = .running ∧ s.alive = true ∧ s.power.avsWrites = 0 ∧ s.power.vRunTime + 40000000 ≤ s.devtime ∧
       (s.power.avsRequested = s.power.vRun → s.power.avsAcked = s.power.vRun)) ∧
    (let s := live.modPower (fun x => { x with avsWrites := 3, wake := .avs, avsTime := 199999 })
     s.life = .running ∧ s.timeRuns = true ∧ s.power.avsWrites ≠ 0 ∧ s.power.avsTime + 800000 < s.devtime ∧ 3 ≤ s.power.avsWrites ∧ s.power.wake = .avs) ∧
    live.serves = true := by
  decide

theorem wit_GovernorSetsStretch :
    live.life = .running ∧ live.power.state ≠ .p3 ∧ (List.replicate 49 (-2048 : Int)).length = 49 ∧
    (∀ r ∈ List.replicate 49 (-2048 : Int), -2048 ≤ r ∧ r < 2048) ∧
    (let s := { live with devtime := 400000 }
     s.serves = true ∧ s.devtime % 400000 = 0 ∧ s.power.lastPeriod < s.devtime ∧ s.power.vrAlert = false ∧ s.slackOf 0 = none) ∧
    (400 : Int) ≤ 400 ∧ (392 : Int) < 399 ∧ (392 : Int) ≤ 392 ∧ live.alive = true := by
  decide

theorem wit_StopsAndResets :
    live.life ≠ .off ∧ live.life ≠ .held ∧ live.power.state ≠ .p3 ∧ live.thermTrip = false ∧
    460 ≤ (live.modPower (fun x => { x with readings := List.replicate 49 460 })).hottest.2 ∧ live.timeRuns = true ∧ live.power.pllLocked = true ∧
    { live with pwrFailLow := true }.pwrFailLow = true ∧ { live with life := .off }.life = .off ∧ { live with thermTrip := true }.thermTrip = true := by
  decide

theorem wit_BootSequence :
    (State.reset.life = .held ∧ 25 ≤ State.reset.sources.length ∧ 25 ≤ State.reset.drbgs.length) ∧
    (let s := { live with life := .rom }
     s.life = .rom ∧ s.lantus.state = .running ∧ s.power.pllLocked = true ∧ (List.replicate 24 (⟨[(3, 1)], [], true⟩ : WellTest)).length = 24) ∧
    live.serves = true ∧ live.access.roots.length = 3 ∧ (votedCopies [1, 2, 3] 0).2.2 = true ∧
    (live.alive = true ∧ 0 < live.wells.length ∧ (live.well 0).lpxState = .ready) := by
  decide

/-- With three entries of the log in the ring and one waiting. -/
def logged (s : State) : State :=
  { s with log := { s.log with
      nextSeq := 4
      ring := [⟨1, 1, 0x0701, 0, 0x1F, 0, 0⟩, ⟨2, 2, 0x0101, 0, 0, 0, 0⟩, ⟨3, 3, 0x0603, 2, 1, 0, 0⟩]
      waiting := [⟨0, 9, 0x0603, 2, 0, 0, 0⟩] } }

theorem wit_LogEntryCrc :
    let k := cmd 1 0x39 0 0 0 0 0 32 []
    let s := withCmd (logged live) k
    s.ready (ref 1) 0x39 = some k ∧ s.drainWaits k = false ∧ k.part < 24 ∧ k.length ≠ 0 ∧ k.length % 32 = 0 ∧ s.streamBad k.fn = false ∧ s.host.up = true ∧ (s.fn k.fn).tdi ≠ .error ∧ (s.view 0).lost = 0 ∧
      (s.pendingOf 0).take 1 ≠ [] := by
  decide +kernel

theorem wit_LogEntriesAndViews :
    live.log.waiting.length < 64 ∧ 64 ≤ { live.log with waiting := List.replicate 64 (⟨0, 9, 0x0603, 2, 0, 0, 0⟩ : LogEntry) }.waiting.length ∧
    live.life ≠ .off ∧ live.life ≠ .held ∧ live.log.waiting = [] ∧ (logged live).log.waiting ≠ [] ∧ 24 < live.log.views.length ∧
    (logged live).log.wroteAt ≠ some (logged live).devtime ∧ live.timeRuns = true ∧
    { live.log with wroteAt := some live.devtime }.wroteAt = some live.devtime ∧
    (let k := cmd 1 0x39 0 0 0 0 0 32 []
     let d : Cmd := { cmd 0 0x39 0 0 0 0 0 32 [] with id := 6 }
     let s := withCmd (withCmd live d) k
     s.ready (ref 1) 0x39 = some k ∧ d ∈ s.cmds.takeWhile (fun d => !d.is k.ref) ∧ d.opcode = 0x39 ∧ min d.part 24 = min k.part 24) ∧
    (withCmd live (cmd 0 0x39 24 0 0 0 0 32 [])).drainWaits (cmd 0 0x39 24 0 0 0 0 32 []) = false ∧
    inView 0 ⟨4, 9, 0x0603, 2, 0, 0, 0⟩ = true ∧ (live.view 0).armed = true ∧
    (withCmd live (cmd 0 0x39 24 0 0 0 0 32 [])).ready (ref 0) 0x39 = some (cmd 0 0x39 24 0 0 0 0 32 []) ∧
    (withCmd live (cmd 0 0x39 23 0 0 0 0 33 [])).ready (ref 0) 0x39 = some (cmd 0 0x39 23 0 0 0 0 33 []) ∧
    (⟨2, 2, 0x0101, 0, 0, 0, 0⟩ : LogEntry) ∈ (logged live).pendingOf 0 := by
  decide +kernel

/-- With an entry of bucket 5 in each merge buffer of well 0. -/
def merging (s : State) : State :=
  s.modWell 0 (fun x => { x with
    merge := [⟨5, List.replicate 64 7, List.replicate 64 true, 999000⟩], lpxMerge := [⟨6, List.replicate 64 7, List.replicate 64 true, 999000⟩] })

/-- Tile 3 of well 0 sends, with a number of failed checks. -/
def sendingTile (s : State) (fails : Nat) : State :=
  s.modTile ⟨0, 3⟩ (fun x => { x with state := .running, stuckSince := some (4000000, 0), busy := [0, 0, 0, 0, 4000100], checkFails := fails })

theorem wit_CisternServiceCommands :
    (let s := merging live
     s.alive = true ∧ 0 < s.wells.length ∧ (s.well 0).merge.find? (fun e => e.bucket == 5) = some ⟨5, List.replicate 64 7, List.replicate 64 true, 999000⟩ ∧
       999000 + 512 ≤ s.devtime ∧ { s with devtime := 999511 }.devtime < 999000 + 512 ∧
       (s.well 0).lpxMerge.find? (fun e => e.bucket == 6) = some ⟨6, List.replicate 64 7, List.replicate 64 true, 999000⟩) ∧
    ((live.well 0).inService = true ∧ 7 ∉ (live.well 0).cisBad ∧ (live.well 0).cet[0]? = some none ∧ ∀ o ∈ (live.well 0).cet, o = none) ∧
    (let s := live.modWell 0 (fun x => { x with cet := List.replicate 16 (some ⟨cisAddr 0 448, 1, 3⟩) })
     none ∉ (s.well 0).cet ∧ some ⟨cisAddr 0 (7 * 64), 1, 3⟩ ∈ (s.well 0).cet) ∧
    (let s := live.modWell 0 (fun x => { x with scrub := .running, scrubNext := 3, scrubLast := 9 })
     s.alive = true ∧ (s.well 0).scrub = .running ∧ (s.well 0).scrubNext < (s.well 0).scrubLast ∧
       ¬ ((s.well 0).scrubLpx = false ∧ (s.well 0).scrubNext ∈ (s.well 0).cisBad) ∧ (s.well 0).scrubLpx = false) ∧
    (let s := live.modWell 0 (fun x => { x with scrub := .running, scrubLpx := true, scrubNext := 3, scrubLast := 9, lpxBad := [3] })
     (s.well 0).scrub = .running ∧ (s.well 0).scrubLpx = true ∧ (s.well 0).lpxKey = [] ∧ (s.well 0).scrubNext ∈ (s.well 0).lpxBad) ∧
    (∀ e ∈ [ArrayError.store ⟨0, 24⟩, .doubleCistern 0, .reread 0], (live.well (errorWell e)).inService = true) ∧
    ((sendingTile live 2).linkBusy (.tile ⟨0, 3⟩) = true ∧ (sendingTile live 2).linkFails (.tile ⟨0, 3⟩) = 2 ∧ (sendingTile live 3).linkFails (.tile ⟨0, 3⟩) = 3) ∧
    (let s := live.modPump ⟨0, 15⟩ (fun x => { x with queue := List.replicate 9 ⟨16, 0, 1024, zeros 128, 3, 1, none⟩, busyRow := 62 })
     s.linkBusy (.pump ⟨0, 15⟩) = true ∧ 8 < (s.pump ⟨0, 15⟩).queue.length ∧ (s.pump ⟨0, 15⟩).busyRow < 63 ∧ 15 < (s.well 0).pumps.length) ∧
    (let s := live.modWell 0 (fun x => { x with scrub := .running, scrubNext := 9, scrubLast := 9, cisBad := [9] })
     (s.well 0).scrub = .running ∧ (s.well 0).scrubLast ≤ (s.well 0).scrubNext ∧ (s.well 0).scrubLpx = false ∧ (s.well 0).scrubNext ∈ (s.well 0).cisBad) := by
  decide +kernel

/-- Source 0 in a state. -/
def withSource (s : State) (f : Source → Source) : State := s.modSource 0 f

theorem wit_NoiseSamplesSeedDrbgs :
    (let s := withSource live (fun x => { x with state := .settle, settleEnd := 1000000 })
     s.alive = true ∧ 0 < s.sources.length ∧ (s.source 0).state = .settle ∧ (s.source 0).settleEnd ≤ s.devtime) ∧
    (let s := withSource live (fun x => { x with state := .settle, settleEnd := 1000001 })
     s.devtime < (s.source 0).settleEnd ∧ (s.source 0).state ≠ .startup ∧ (s.source 0).state ≠ .running) ∧
    (let s := withSource live (fun x => { x with state := .running })
     s.alive = true ∧ (s.source 0).state = .running ∧ (s.source 0).inBlock ≠ 1023 ∧ s.drbgOf 0 = some 0 ∧ 0 < s.drbgs.length) ∧
    (let s := withSource live (fun x => { x with state := .running, lastBit := some true, run := 80 })
     (let x := s.source 0; 81 ≤ (if x.lastBit = some true then x.run + 1 else 1) ∧ x.failures[2]? = none)) ∧
    (let s := withSource live (fun x => { x with state := .running, lastBit := some true, run := 80, samples := 5000, failures := [4000, 3000, 2000] })
     (s.source 0).failures[2]? = some 2000 ∧ (s.source 0).samples + 1 < 2000 + 2 ^ 20) ∧
    (let s := withSource live (fun x => { x with state := .startup, inBlock := 1023, refCount := 500 })
     (s.source 0).state = .startup ∧ (s.source 0).inBlock = 1023 ∧ ¬ 840 ≤ (s.source 0).refCount + 1 ∧ s.drbgOf 0 = some 0 ∧
       (s.round 0).noisePending = false ∧ (s.drbg 0).state = .off) ∧
    (let s := live.modDrbg 0 (fun d => { d with state := .seeded, pool := List.replicate 8 (0, zeros 32) })
     (s.drbg 0).state ≠ .off ∧ (s.drbg 0).state ≠ .fatal ∧ 8 ≤ (s.drbg 0).pool.length) ∧
    (let s := live.modDrbg 0 (fun d => { d with state := .startup, pool := [(0, zeros 32)] })
     (s.drbg 0).state = .startup ∧ (s.drbg 0).pool = [(0, zeros 32)]) ∧
    (live.drbg 3).pool = [] ∧ (live.drbg 3).state ≠ .seeded ∧
    (let s := live.modDrbg 24 (fun d => { d with state := .seeded, key := zeros 32, requests := [.nonce] })
     s.alive = true ∧ 24 < s.drbgs.length ∧ { s.drbg 24 with requests := s.liveRequests (s.drbg 24) }.nextReq = some .nonce ∧ (s.drbg 24).count < 65536) ∧
    ({ live.drbg 0 with requests := [.tile 5 0 5 0 1, .tile 2 0 2 0 1], lastUnit := 3 }.nextReq = some (.tile 5 0 5 0 1)) := by
  decide +kernel

/-- A tile waits for blocks of a seeded DRBG. -/
def drawing : State :=
  (live.modTile ⟨0, 3⟩ (fun x => { x with state := .running, rngLeft := 2 })).modDrbg 0 (fun d => { d with
    state := .seeded, key := zeros 32, requests := [.tile 3 0 3 16380 2] })

theorem wit_NoiseSamplesSeedDrbgs_tiles :
    drawing.liveRequests (drawing.drbg 0) = [.tile 3 0 3 16380 2] ∧ { drawing.drbg 0 with requests := drawing.liveRequests (drawing.drbg 0) }.nextReq = some (.tile 3 0 3 16380 2) ∧
      0 < drawing.wells.length ∧ 3 < (drawing.well 0).tiles.length := by
  decide +kernel

/-- The bytes of a frame without FCS before its payload: a Strelul packet to QP 0 from QP 9 with an opcode, flags, a class, a PSN, an extension and `n` bytes of
payload (R302, R325). -/
def frameHead (op flags cls psn : Nat) (ext : Bytes) (n : Nat) : Bytes :=
  let m := 32 + ext.length + n + 24
  zeros 12 ++ bytesOf [0x81, 0, 0x60, 0, 0x86, 0xDD, 0x60, 0, 0, 0] ++ toBE m 2 ++ bytesOf [17, 64] ++ zeros 32 ++ toBE 49152 2 ++
    toBE (live.regBits (stlBase + 4) 15 0) 2 ++ toBE m 2 ++ zeros 2 ++
    bytesOf [op, 1 + flags, 16 * cls, 0] ++ toLE 0 4 ++ toLE psn 8 ++ toLE 9 4 ++ toLE n 4 ++ toLE 500000 8 ++ ext

/-- Such a frame with its payload sealed under a key of zero bytes (R332). -/
def pktFrame (a pl : Bytes) : Bytes :=
  let hd := slice a 66 32
  let g := gcmSeal (zeros 32) (packetIv (rd hd 8 6) (rd hd 3 1) (bits (rd hd 2 1) 5 4)) (hd ++ slice a 98 (a.length - 98)) pl
  a ++ (g.1 ++ g.2)

/-- A frame in the intake of priority 3 of port 0, in a state. -/
def holding (s : State) (f : Bytes) : State := s.modIntake 0 3 (fun x => { x with frames := [⟨f, false, 999000, none⟩] })

/-- The SEND of a whole one-packet message 0 of 64 bytes, PSN 200. -/
def sendHead : Bytes := frameHead 1 0x30 0 200 (toLE 0 4 ++ toLE 0 4 ++ toLE 64 4 ++ toLE 0 4) 64

/-- The same with payload and tag of zeros: no key seals it. -/
def forged : Bytes := sendHead ++ zeros 80

/-- The UDP checksum filled in, and the FCS. -/
def onWire (f : Bytes) : Bytes :=
  let g := f.take 64 ++ toBE (65535 - ipSum f 17 (slice f 58 (rdBE f 62 2))) 2 ++ f.drop 66
  g ++ toLE (crcEthernet g) 4

theorem wit_FramesReceived :
    (let s := { live with ports := live.ports.map (fun (p : Port) => { p with up := true }) }
     let w := onWire forged
     let f := w.take (w.length - 4)
     s.alive = true ∧ s.power.state = .p0 ∧ (s.port 0).up = true ∧ 64 ≤ w.length ∧ w.length ≤ 4238 ∧ rd w (w.length - 4) 4 = crcEthernet f ∧
       rdBE f 12 2 = 0x8100 ∧ s.ipVerdict 0 f = .keep ∧ rdBE f 14 2 / 8192 = 3 ∧ 0 * 8 + 3 < s.intakes.length ∧
       (s.intake 0 3).occupancy + ceilDiv (f.take (58 + rdBE f 62 2)).length 64 ≤ 128) ∧
    live.ipVerdict 0 forged = .badChecksum ∧ live.ipVerdict 0 (zeros 90) = .discard ∧ (zeros 63).length < 64 ∧
    (let s := live.modIntake 0 3 (fun x => { x with frames := [⟨zeros 8192, false, 0, none⟩] })
     128 < (s.intake 0 3).occupancy + ceilDiv 64 64) ∧
    (let s := holding live (forged.take 100 ++ zeros 60)
     (s.intake 0 3).frames = [⟨forged.take 100 ++ zeros 60, false, 999000, none⟩] ∧ s.packetQp (packetOf (forged.take 100 ++ zeros 60)) = none) ∧
    (let s := holding (withQp live .active) forged
     s.packetQp (packetOf forged) = some 0 ∧ (packetOf forged).op = 1 ∧ s.openPacket 0 (packetOf forged) = none) ∧
    (packetOf forged).op ≠ 2 ∧ (live.intake 0 3).frames = [] ∧
    (let s := (live.modIntake 1 7 (fun x => { x with xoff := true })).setReg (stlBase + 0x24) (2 ^ 23)
     s.life ≠ .off ∧ s.life ≠ .held ∧ s.regBits (stlBase + 0x20 + 4 * 1) (16 + 7) (16 + 7) = 1 ∧ (s.intake 1 7).xoff = true ∧ s.pfcXoffPin 1 = true) := by
  decide +kernel

/-- The packet that a frame's head describes, with the lengths of its payload and tag. -/
def packetFrom (a : Bytes) (n : Nat) : Packet :=
  { src := slice a 26 16, dst := slice a 42 16, ce := bits (rdBE a 18 4) 21 20 == 3, header := slice a 66 32, ext := slice a 98 (a.length - 98),
    body := zeros n, tag := zeros 16 }

/-- A frame sealed so stands at the head of its intake as a packet of QP 0, authentic. -/
theorem wit_Heads (a pl : Bytes) (c e : Nat) (hop : opcodeForm (rd a 66 1) = some (c, e)) (ha : a.length = 98 + e)
    (hq : (withQp live .active).packetQp (packetFrom a pl.length) = some 0) :
    Heads (holding (withQp live .active) (pktFrame a pl)) 0 3 0 (packetOf (pktFrame a pl)) pl := by
  have he : a.length - 98 = e := by omega
  have hk := fun key nonce aad body => packetOf_append a body _ c e hop ha (length_gcmSeal_snd key nonce aad pl)
  refine ⟨by rfl, ?_, ?_, _, [], by rfl, rfl, rfl⟩
  · show (withQp live .active).packetQp (packetOf (pktFrame a pl)) = some 0
    unfold pktFrame
    rw [hk, packetQp_lengths]
    simp only [packetFrom, he] at hq
    simpa only [length_gcmSeal_fst, length_gcmSeal_snd] using hq
  · show (withQp live .active).openPacket 0 (packetOf (pktFrame a pl)) = some pl
    apply openPacket_seal
    unfold pktFrame
    have hr : ((withQp live .active).qp 0).rxKey = zeros 32 := by decide +kernel
    simp only [hk, he, hr, Packet.psn, Packet.attempt, Packet.cls, Prod.mk.eta]

/-- One posted buffer of 4,096 bytes of region 3, and packets that QP 0 has sent. -/
def withSent (s : State) : State :=
  s.modQp 0 (fun q => { q with
    posted := [(0, 3, 0, 4096)], rnrLimit := 2, sends := [7]
    sent := [⟨100, 0, 0, 0, 0, none, 990000, 400, 0, 1, true, true, zeros 16, [1]⟩, ⟨101, 0, 0, 0, 0, none, 995000, 400, 0, 1, true, true, zeros 16, [2]⟩] })

/-- Heads of a WRITE of 64 bytes under key 3 of generation 1, a READ of 5,000 bytes, an ACK below a PSN, a NAK of PSN 101, COMPLETE and CLOSE. -/
def writeHead : Bytes := frameHead 2 0x30 0 200 (toLE (65536 + 3) 4 ++ toLE 0 4 ++ toLE 64 4 ++ toLE 0 4 ++ toLE 0 8) 64
def readHead : Bytes := frameHead 3 0x30 0 200 (toLE (65536 + 3) 4 ++ zeros 4 ++ toLE 5000 4 ++ zeros 4 ++ toLE 0 8) 0
def ackHead (below : Nat) : Bytes := frameHead 0x10 0x30 2 5 (toLE below 6 ++ zeros 42) 0
def nakHead (kind : Nat) : Bytes := frameHead 0x11 0x30 2 5 (nakExt 101 0 .format kind 7 10) 0
def completeHead : Bytes := frameHead 0x12 0x30 2 5 (toLE 7 4 ++ zeros 12) 0
def closeHead : Bytes := frameHead 0x14 0x30 2 5 [] 0

/-- Each of them meets the premises of wit_Heads. -/
theorem wit_ReceivedPacketsAnswered_packets :
    ∀ x ∈ [(sendHead, 64), (writeHead, 64), (readHead, 0), (ackHead 101, 0), (nakHead 1, 0), (nakHead 4, 0), (completeHead, 0), (closeHead, 0)],
      (opcodeForm (rd x.1 66 1)).map (fun f => f.2 + 98) = some x.1.length ∧ (withQp live .active).packetQp (packetFrom x.1 x.2) = some 0 := by
  decide +kernel

theorem wit_ReceivedPacketsAnswered :
    (let q := (withQp live .active).qp 0
     q.state = .active ∧ q.ePsn.getD 0 0 = 200 ∧ q.seen.getD 0 [] = [] ∧ q.doneMsns = [] ∧ q.controlRoom ∧ 0 < q.ePsn.length ∧ 0 < q.seen.length) ∧
    (let s := withSent (holding (withQp live .active) sendHead)
     let k := packetFrom sendHead 64
     let e : Endpoint := ⟨0, 1, 3, true, 0, 0, zeros 16, 10, 0, 0, 0, 0, false⟩
     s.endpointOf (s.qp 0) = some e ∧ k.op = 1 ∧ k.psn = 200 ∧ uploadRule e 0 64 = true ∧ (s.qp 0).msg 0 = none ∧ packetFormat k 64 0 0 64 none = none ∧
       (s.noted 0 k).bufferFor 0 e 0 0 64 = some (.posted 3 0 4096)) ∧
    (let s := (withQp live .active).modQp 0 (fun q => { q with msgs := [⟨0, .posted 3 0 4096, 64, none, 200, none, [], [], 0, [], 0, 0, 0⟩] })
     ((s.qp 0).msg 0).isSome = true) ∧
    (packetFrom writeHead 64).op = 2 ∧ packetFormat (packetFrom writeHead 64) 64 0 0 64 none = none ∧ (packetFrom readHead 0).op = 3 ∧ (packetFrom readHead 0).psn = 200 ∧
    (packetFrom (ackHead 101) 0).op = 0x10 ∧ (packetFrom (nakHead 1) 0).op = 0x11 ∧ (packetFrom (nakHead 4) 0).op = 0x11 ∧ (packetFrom completeHead 0).op = 0x12 ∧
    (packetFrom closeHead 0).op = 0x14 ∧
    (let s := withSent (withQp live .active)
     ∃ x ∈ (s.qp 0).sent, (s.qp 0).sent.find? (fun x => x.cls == rd (packetFrom (nakHead 1) 0).ext 6 1 && x.psn == rd (packetFrom (nakHead 1) 0).ext 0 6) = some x) := by
  decide +kernel

/-- The head frame has been parsed at the region table's change count. -/
def parsed (s : State) (f : Bytes) (cnt : Nat) : State := s.modIntake 0 3 (fun x => { x with frames := [⟨f, false, 999000, some cnt⟩] })

theorem wit_PacketCommits :
    (let s := parsed (withRegion (withQp live .active) .valid) writeHead 1
     let k := packetFrom writeHead 64
     s.alive = true ∧ (s.intake 0 3).frames = [⟨writeHead, false, 999000, some 1⟩] ∧ s.regionChanges = 1 ∧ s.packetQp k = some 0 ∧ (s.headLoads ⟨0, k, List.replicate 64 6⟩).all (fun e => s.backlogFits 0 e.1 e.2) = true ∧
       s.regionCheck 0 false (rd k.ext 0 4) 0 (rd k.ext 8 4) 2 = (none, cisAddr 0 0) ∧ (s.check (strelulMaster 0) (cisAddr 0 0) 64 2).1 = none) ∧
    (parsed live writeHead 1).regionChanges ≠ 1 ∧
    (let s := (withQp live .active).modPart 0 (fun x => { x with image := { x.image with routes := [⟨0xFE, 0, 1, 0, 0, []⟩] } })
     s.backlogFits 0 0 64 = false) ∧
    (let s := (parsed (withQp live .active) sendHead 0).modQp 0 (fun q => { q with msgs := [⟨0, .waiting, 64, none, 200, none, [], [], 0, [], 0, 0, 0⟩] })
     ((s.qp 0).msg 0).map (fun m => m.buf) = some .waiting) ∧
    (let s := (parsed (withQp live .active) sendHead 0).modQp 0 (fun q => { q with msgs := [⟨0, .staging (cisAddr 0 0) 64, 64, none, 200, none, [], [], 0, [], 0, 0, 0⟩] })
     ((s.qp 0).msg 0).map (fun m => m.buf) = some (.staging (cisAddr 0 0) 64) ∧ (s.check (strelulMaster 0) (cisAddr 0 0) 64 2).1 = none) := by
  decide +kernel

/-- With one outstanding READ of 5,000 bytes of region 3. -/
def reading (s : State) (rkey : Nat) : State :=
  (withRegion (withQp s .active) .valid).modQp 0 (fun q => { q with reads := [⟨200, 2, 0, rkey, 0, 4000, (0, 500000)⟩] })

/-- With one record queued. -/
def recording (s : State) (psn : Nat) : State := (withQp s .active).modQp 0 (fun q => { q with records := [zeros 64], txPsn := [psn, 0, 0] })

theorem wit_TransmitTimersAndPackets :
    (let s := reading live (65536 + 3)
     s.alive = true ∧ (s.qp 0).state = .active ∧ (s.qp 0).controlRoom ∧ (s.qp 0).reads = [⟨200, 2, 0, 65536 + 3, 0, 4000, (0, 500000)⟩] ∧ (s.qp 0).sent = [] ∧
       s.regionCheck 0 true (65536 + 3) 0 4000 1 = (none, cisAddr 0 0) ∧ (s.check (strelulMaster 0) (cisAddr 0 0) 4000 1).1 = none ∧
       (s.devRead 0 (cisAddr 0 0) 64).2.1 = false) ∧
    (reading live 3).regionCheck 0 true 3 0 4000 1 = (some .revoked, 0) ∧
    (let s := live.modWell 0 (fun x => { x with cisBad := [0] })
     (s.devRead 0 (cisAddr 0 0) 64).2.1 = true) ∧
    (let s := live.modQp 0 (fun q => { q with state := .active, reads := [⟨2 ^ 48 - 1, 1, 0, 0, 0, 4, (0, 0)⟩] })
     (s.qp 0).state = .active ∧ 2 ^ 48 - 1 ≤ 2 ^ 48 - 1 + 0) ∧
    (let s := recording live 100
     (s.qp 0).records = [zeros 64] ∧ (s.qp 0).txPsn.getD 0 0 < 2 ^ 48 - 1 ∧ (s.qp 0).sent = []) ∧
    2 ^ 48 - 1 ≤ ((recording live (2 ^ 48 - 1)).qp 0).txPsn.getD 0 0 ∧
    (let s := (recording live 100).modQp 0 (fun q => { q with sent := List.replicate 8192 ⟨100, 0, 0, 0, 0, none, 990000, 400, 0, 1, true, true, [], []⟩ })
     8192 ≤ ((s.qp 0).sent.filter (fun k => k.cls == 0)).length) ∧
    (let s := (withQp live .active).modQp 0 (fun q => { q with unacked := [1, 0], unackedSince := [999600, 0] })
     (s.qp 0).controlRoom ∧ 0 < (s.qp 0).unacked.getD 0 0 ∧ (s.qp 0).unackedSince.getD 0 0 + 400 ≤ s.devtime ∧ 999999 < (s.qp 0).unackedSince.getD 0 0 + 400) ∧
    (let s := withSent (withQp live .active)
     (s.qp 0).sent.find? (fun k => k.cls == 0 && k.psn == 100) = some ⟨100, 0, 0, 0, 0, none, 990000, 400, 0, 1, true, true, zeros 16, [1]⟩ ∧
       990000 + 400 ≤ s.devtime ∧ (s.qp 0).retryLimit = 7 ∧ (s.qp 0).paths[0]? = some (⟨true, 0, 0, none⟩ : Path)) ∧
    (let s := (withQp live .active).modQp 0 (fun q => { q with sent := [⟨100, 0, 255, 7, 0, some 999000, 990000, 400, 0, 1, true, true, [], []⟩] })
     (s.qp 0).sent.find? (fun k => k.psn == 100 && k.rnrUntil.any (fun t => decide (t ≤ s.devtime))) =
       some ⟨100, 0, 255, 7, 0, some 999000, 990000, 400, 0, 1, true, true, [], []⟩) ∧
    (let s := (withSent (withQp live .active)).modQp 0 (fun q => { q with paths := [⟨false, 3, 600000, none⟩] })
     (s.qp 0).paths[0]? = some (⟨false, 3, 600000, none⟩ : Path) ∧ 600000 + 400000 ≤ s.devtime ∧
       ((s.qp 0).sent.find? (fun k => k.rnrUntil.isNone && decide (k.retries < (s.qp 0).retryLimit) && decide (k.attempt < 255))).isSome = true) := by
  decide +kernel

theorem wit_FlowControlPauses :
    (let s := live.modIntake 0 3 (fun x => { x with xoff := true, xoffSince := 600000, lastPfc := 900000 })
     s.alive = true ∧ (s.intake 0 3).xoff = true ∧ 0 * 8 + 3 < s.intakes.length ∧
       (s.intake 0 3).lastPfc + 400 * s.regBits (stlBase + 0x28) 5 0 ≤ s.devtime ∧ (s.intake 0 3).xoffLogged = false ∧ (s.intake 0 3).xoffSince + 400000 ≤ s.devtime) ∧
    (let s := live.modIntake 0 3 (fun x => { x with xoff := true, xoffSince := 900000, lastPfc := 1000001 })
     s.devtime < (s.intake 0 3).lastPfc + 400 * s.regBits (stlBase + 0x28) 5 0 ∧ s.devtime < (s.intake 0 3).xoffSince + 400000) ∧
    (let s := live.modPort 0 (fun p => { p with up := true, txq := [(3, zeros 60)], paused := updAt p.paused 3 (fun _ => 1000500) })
     s.alive = true ∧ 0 < s.ports.length ∧ (s.port 0).up = true ∧ 3 < (s.port 0).paused.length ∧ s.devtime < (s.port 0).paused.getD 3 0 ∧
       (s.port 0).paused.getD 2 0 ≤ s.devtime) ∧
    (let s := withQp live .active
     (s.qp 0).state = .active ∧ 0 < (s.qp 0).pathCount ∧ portOfPath (s.qp 0).ports 0 = 0) ∧
    (let s := live.modPort 0 (fun p => { p with training := true, downSince := 999000 })
     (s.port 0).up = false ∧ (s.port 0).admin = false ∧ (s.port 0).training = true ∧ s.devtime < (s.port 0).downSince + 40000000) ∧
    (let s := { live with devtime := 40000000 }
     (s.port 0).up = false ∧ (s.port 0).training = false ∧ (s.port 0).downSince + 40000000 ≤ s.devtime) ∧
    (live.modPort 0 (fun p => { p with admin := true })).ports.head?.map (fun p => p.admin) = some true := by
  decide +kernel

/-- The upload header of client 5 (R92) for the example round. -/
def uploadHeader (client : Nat) : Bytes :=
  sealCrc (bytesOf [0x4D, 1, 64, 0] ++ toLE client 4 ++ toLE 42 8 ++ toLE 80000064 4 ++ toLE 10000000 4 ++ zeros 40)

/-- The example round in INTAKE with free slots, whose QP 0 holds the opening of an upload from a client. -/
def applying (client : Nat) : State :=
  ((withQp (intake live) .active).modPart 0 (fun x => { x with
      slotsTotal := 4, slotsFree := [2, 3], image := { x.image with endpoints := [⟨0, 2, 3, false, 0, 0, zeros 16, 10, 0, 0, 0, 0, false⟩] } })).modQp 0 (fun q => { q with
    msgs := [⟨1, .waiting, 80000064, none, 200, none, [], [], 0, uploadHeader client, 200, 0, 500000⟩] })

theorem wit_RoundEventsMoveState :
    (let s := applying 5
     s.alive = true ∧ ((s.qp 0).msg 1).isSome = true ∧ (s.endpointOf (s.qp 0)).isSome = true ∧ (uploadHeader 5).isEmpty = false ∧ (s.qp 0).state = .active ∧
       (s.qp 0).compat = false ∧ (s.qp 0).controlRoom ∧ (s.qp 0).records = [] ∧ 0 < s.parts.length ∧ s.admissionTest 0 ((uploadHeader 5).take 64) 80000064 = (.ok, 0)) ∧
    (applying 1048576).admissionTest 0 ((uploadHeader 1048576).take 64) 80000064 = (.format, 3) ∧
    (let s := withRound (intake live) (fun r => { r with uploads := [{ upload with lastCommit := none }], desc := { r.desc with uploadWindowMs := 0 } })
     s.alive = true ∧ 0 < s.parts.length ∧ (s.round 0).uploads.find? (fun v => v.client == 5) = some { upload with lastCommit := none } ∧
       upload.admitTime + 400000 * (s.round 0).desc.uploadWindowMs < s.devtime) ∧
    (let s := (withRound (loaded live) (fun r => { r with state := .intake, desc := { r.desc with mode := .h }, batch := [5], batchStart := 990000 })).modPart 0 (fun x => { x with
       image := { x.image with sets := [⟨0, .h, 0, 0, 4, 8, 1000, 12, 3, 2, 30, 4096, 0, 0, 1⟩] } })
     s.alive = true ∧ s.roundSet 0 = some ⟨0, .h, 0, 0, 4, 8, 1000, 12, 3, 2, 30, 4096, 0, 0, 1⟩ ∧ (s.round 0).batch ≠ [] ∧ (s.round 0).batchStart + 1000 ≤ s.devtime) ∧
    (let s := withRound (intake live) (fun r => { r with startAt := some 1000000 })
     s.alive = true ∧ 0 < s.parts.length ∧ (s.round 0).startAt = some 1000000 ∧ (s.tilesOf 0) ≠ [] ∧ ∀ r ∈ s.tilesOf 0, r.well < s.wells.length ∧ r.tile < (s.well r.well).tiles.length) ∧
    (let s := live.modTile ⟨0, 3⟩ (fun x => { x with state := .loaded, entries := [⟨0, 1, 2, 3⟩] })
     (⟨0, 3⟩ : TileRef) ∈ s.tilesOf 0 ∧ (s.tile ⟨0, 3⟩).entries.find? (fun e => e.set == (s.round 0).desc.scheduleSet) = some ⟨0, 1, 2, 3⟩ ∧ (s.tile ⟨0, 3⟩).state = .loaded) := by
  decide +kernel

/-- An entry of source 1 is due, and one tile waits for it. -/
def posting (waits : Bool) : State :=
  (live.modPart 0 (fun x => { x with due := [⟨1, 2, 5, 990000, 0, 64, 1, []⟩] })).modTile ⟨0, 3⟩ (fun x => { x with
    state := if waits then .waiting else .running, waiting := if waits then some (1, 40) else none })

theorem wit_QueueEntries :
    (let s := posting true
     let x := s.part 0
     s.alive = true ∧ 0 < s.parts.length ∧ x.due = [] ++ ⟨1, 2, 5, 990000, 0, 64, 1, []⟩ :: [] ∧ x.queue = [] ∧ x.round.cutDue = false ∧ x.round.ckpt = none ∧
       (⟨0, 3⟩ : TileRef) ∈ s.tilesOf 0 ∧ (s.tilesOf 0).Nodup ∧ (∀ v ∈ s.tilesOf 0, v ≠ ⟨0, 3⟩ → (s.tile v).waiting = none) ∧ (s.tile ⟨0, 3⟩).waiting = some (1, 40) ∧
       s.nextEntry 0 1 (s.unitOf ⟨0, 3⟩) = none ∧ 3 < (s.well 0).tiles.length ∧ (s.tile ⟨0, 3⟩).store = []) ∧
    (∀ u ∈ (posting false).tilesOf 0, ((posting false).tile u).waiting = none) ∧ (live.part 0).due = [] := by
  decide +kernel

/-- The header of a message of holder 5 for round 42 (R107, R152): type, byte 3, word 0x10, plaintext bytes and byte 0x24. -/
def holderHead (typ b3 n len logN : Nat) : Bytes :=
  sealCrc (bytesOf [typ, 1, 0, b3] ++ toLE 5 4 ++ toLE 42 8 ++ toLE n 4 ++ toLE (80 + len) 4 ++ zeros 12 ++ bytesOf [logN] ++ zeros 27)

/-- The message, sealed with its holder's key under a K_share. -/
def holderMessage (kShare hd : Bytes) (label : String) (pt : Bytes) : Bytes :=
  hd ++ ((gcmSeal (holderKey kShare (rd hd 4 3) label) (slice hd 0x18 12) hd pt).1 ++ (gcmSeal (holderKey kShare (rd hd 4 3) label) (slice hd 0x18 12) hd pt).2)

/-- A staged message of QP 0 at the start of well 0, complete, on an endpoint of a kind, in a round. -/
def staged (kind : Nat) (msg : Bytes) (f : Round → Round) : State :=
  ((withRound ((withQp (intake live) .active).modPart 0 (fun x => { x with
      session := { x.session with kShare := zeros 32 }
      image := { x.image with endpoints := [⟨0, kind, 3, false, 0, 0, zeros 16, 10, 0, 0, 0, 0, false⟩] } })) f).modQp 0 (fun q => { q with
    msgs := [⟨1, .staging (cisAddr 0 0) msg.length, msg.length, none, 200, some 0, [0], [], msg.length, [], 0, 0, 0⟩] })).modWell 0 (fun x => { x with
    cis := memWrite x.cis 0 msg })

/-- A mode H set of one limb of 4,096 words. -/
def setH : SchedSet := ⟨0, .h, 0, 0, 4, 8, 1000, 12, 1, 2, 30, 4096, 0, 0, 1⟩

theorem wit_StagedMessages :
    (((staged 3 (zeros 128) id).stagedMessage 0 1 3).map (fun x => x.2)) = some (cisAddr 0 0, 128) ∧ ((staged 3 (zeros 128) id).devRead 0 (cisAddr 0 0) 128).2.1 = false ∧
    ((staged 3 (zeros 128) id).devRead 0 (cisAddr 0 0) 128).2.2.unmaskTests 0 (zeros 128) = .error (.format, 1) ∧
    ((staged 4 (zeros 128) id).stagedMessage 0 1 4).isSome = true ∧ ((staged 4 (zeros 128) id).qp 0).controlRoom ∧
    ((staged 4 (zeros 128) id).devRead 0 (cisAddr 0 0) 128).2.2.dshareTests 0 (zeros 128) = .error (.format, 1) ∧
    (((staged 3 (zeros 128) id).modWell 0 (fun x => { x with cisBad := [0] })).devRead 0 (cisAddr 0 0) 128).2.1 = true := by
  decide +kernel

/-- An unmask message with one entry that passes the tests of R109 in SETTLE: the bytes that the staging buffer may hold. -/
theorem wit_UnmaskTests (pt : Bytes) (h : pt.length = 48) :
    let s := staged 3 (zeros 128) (fun r => { r with state := .settle, survivors := [5] })
    s.unmaskTests 0 (holderMessage (s.part 0).session.kShare (holderHead 0x55 0 1 48 0) "OSTUSO SHARE" pt) = .ok pt := by
  intro s
  have hh : (holderHead 0x55 0 1 48 0).length = 64 := by decide +kernel
  have ho := openMessage_seal (s.part 0).session.kShare (holderHead 0x55 0 1 48 0) pt "OSTUSO SHARE" (by decide +kernel) hh
  have ht : (holderMessage (s.part 0).session.kShare (holderHead 0x55 0 1 48 0) "OSTUSO SHARE" pt).take 64 = holderHead 0x55 0 1 48 0 := by
    unfold holderMessage
    rw [List.take_append_of_le_length (by omega), List.take_of_length_le (by omega)]
  have hl : (holderMessage (s.part 0).session.kShare (holderHead 0x55 0 1 48 0) "OSTUSO SHARE" pt).length = 128 := by simp [holderMessage, hh, h]
  unfold State.unmaskTests
  simp only [ht, hl]
  rw [if_neg (by decide +kernel)]
  have hm : s.messageState 0 .settle (holderHead 0x55 0 1 48 0) = none := by decide +kernel
  simp only [hm]
  rw [if_neg (by decide +kernel)]
  have : openMessage (s.part 0).session.kShare (holderMessage (s.part 0).session.kShare (holderHead 0x55 0 1 48 0) "OSTUSO SHARE" pt) "OSTUSO SHARE" = some pt := ho
  rw [this]

/-- A decryption-share message of one limb that passes the tests of R153 in COMBINE. -/
theorem wit_DshareTests (pt : Bytes) (h : pt.length = 16384) :
    let s := (((staged 4 (zeros 128) (fun r => { r with state := .combine, desc := { r.desc with mode := .h } })).modPart 0 (fun x => { x with image := { x.image with sets := [setH] } })).setReg
      (ctxBase 0 + 0x64) 1).setReg (ctxBase 0 + 0x20) 100
    s.dshareTests 0 (holderMessage (s.part 0).session.kShare (holderHead 0x44 1 1 16384 12) "OSTUSO DSHARE" pt) = .ok pt := by
  intro s
  have hh : (holderHead 0x44 1 1 16384 12).length = 64 := by decide +kernel
  have ho := openMessage_seal (s.part 0).session.kShare (holderHead 0x44 1 1 16384 12) pt "OSTUSO DSHARE" (by decide +kernel) hh
  have ht : (holderMessage (s.part 0).session.kShare (holderHead 0x44 1 1 16384 12) "OSTUSO DSHARE" pt).take 64 = holderHead 0x44 1 1 16384 12 := by
    unfold holderMessage
    rw [List.take_append_of_le_length (by omega), List.take_of_length_le (by omega)]
  have hl : (holderMessage (s.part 0).session.kShare (holderHead 0x44 1 1 16384 12) "OSTUSO DSHARE" pt).length = 16464 := by simp [holderMessage, hh, h]
  unfold State.dshareTests
  simp only [ht, hl]
  rw [if_neg (by decide +kernel)]
  have hm : s.messageState 0 .combine (holderHead 0x44 1 1 16384 12) = none := by decide +kernel
  simp only [hm]
  rw [if_neg (by decide +kernel)]
  have : openMessage (s.part 0).session.kShare (holderMessage (s.part 0).session.kShare (holderHead 0x44 1 1 16384 12) "OSTUSO DSHARE" pt) "OSTUSO DSHARE" = some pt := ho
  rw [this]

/-- Tile 3 of well 0. -/
def tile3 : TileRef := ⟨0, 3⟩

/-- A step of 32 bytes (R214): one vector or unit from rows src_a and src_b to row dst, prime 0, with a mode byte. -/
def stepFor (op mode dst srcA srcB aux ext op2 : Nat) : Bytes :=
  sealCrc (bytesOf [op, mode, 1, 0] ++ toLE dst 2 ++ toLE srcA 2 ++ toLE srcB 2 ++ zeros 4 ++ toLE aux 2 ++ toLE ext 4 ++ bytesOf [0, 0, 4, op2] ++
    toLE 100 2 ++ toLE 7 2 ++ zeros 4)

/-- Tile 3 runs, and that step is due at index 0. -/
def stepping (s : State) (b : Bytes) : State :=
  s.modTile tile3 (fun x => { x with state := .running, due := 4 * s.devtime, steps := memWrite [] 0 b, patterns := [bytesOf [1] ++ zeros 299] })

/-- The issue of its step. -/
def issueOf (s : State) : Issue :=
  let x := s.tile tile3
  ⟨stepWord (x.stepBytes x.next), x.next, x.issueAt (unitsOf (stepWord (x.stepBytes x.next))), s.owner 0, x.store⟩

/-- The state in which its operation runs. -/
def issuedAt (s : State) : State :=
  let x := s.tile tile3
  let i := issueOf s
  (s.noteLate tile3 i.part i.idx (i.at_ - x.due)).issued tile3 i.idx i.at_ i.w.gap (s.stretchAt i.part (i.at_ / 4))

/-- Does a step of an opcode issue? -/
def issuing (s : State) (op : Nat) : Bool :=
  let x := s.tile tile3
  let w := stepWord (x.stepBytes x.next)
  s.alive && decide (s.owner 0 < 24) && x.state == .running && !x.stopping && decide (x.due < s.tickEnd) && (x.stepFault x.next).isNone &&
    decide (w.opcode = op) && decide (op ≠ 0) && x.transferFree (unitsOf w) && decide ((issueOf s).at_ < s.tickEnd)

theorem issues_of (s : State) (op : Nat) (h : issuing s op = true) : Issues s tile3 op (issueOf s) (issuedAt s) := by
  simp only [issuing, Bool.and_eq_true, decide_eq_true_eq, Bool.not_eq_true', beq_iff_eq, Option.isNone_iff_eq_none] at h
  obtain ⟨⟨⟨⟨⟨⟨⟨⟨⟨h1, h2⟩, h3⟩, h4⟩, h5⟩, h6⟩, h7⟩, h8⟩, h9⟩, h10⟩ := h
  have hs : s.skipNops tile3 (s.owner tile3.well) 2048 = s := by
    unfold State.skipNops
    rw [if_neg]
    intro hc
    exact h8 (h7 ▸ hc.2.2)
  refine ⟨⟨h1, h2, h3, h4⟩, ?_⟩
  simp only [hs]
  exact ⟨h5, h6, h7, h9, h10, rfl, rfl⟩

/-- The state and issue of a step. -/
def running (op mode aux ext op2 : Nat) : State := stepping live (stepFor op mode 96 32 64 aux ext op2)

/-- Every row of the windlass has a step that issues. -/
theorem wit_StepIssues : ∀ e ∈ stepRows tile3, issuing (running e.1 0x20 0 0 0) e.1 = true := by
  decide +kernel

/-- Such a step is one vector of the tile store, and the store is calm. -/
theorem wit_StepForms :
    let i := issueOf (running 0x12 0 0 0 0)
    let u := issuedAt (running 0x12 0 0 0 0)
    Held u tile3 ∧ (u.tile tile3).calm ∧ i.w.plain 16 ∧ i.w.mode = 0 ∧ (u.tile tile3).accs.length = 128 ∧ (u.tile tile3).reload = [] ∧
      i.part < u.parts.length ∧ i.w.accWrite = false ∧ i.w.accClear = false := by
  unfold Held Tile.calm StepWord.plain
  decide +kernel

theorem wit_WindlassStepsAdvance :
    (live.tile tile3).state ≠ .running ∧
    (let s := (running 0x12 0 0 0 0).modTile tile3 (fun x => { x with due := 4000004 })
     Runs s tile3 ∧ 4 * s.devtime + 4 ≤ (s.tile tile3).due) ∧
    (let s := stepping live (zeros 31 ++ bytesOf [1])
     Runs s tile3 ∧ (s.tile tile3).due < 4 * s.devtime + 4 ∧ (s.tile tile3).stepFault (s.tile tile3).next = some 2) ∧
    (let s := stepping live (stepFor 0x99 0 0 0 0 0 0 0)
     (s.tile tile3).stepFault (s.tile tile3).next = some 3) ∧
    (let s := (running 0x12 0 0 0 0).modTile tile3 (fun x => { x with stepBad := [2] })
     (s.tile tile3).stepFault (s.tile tile3).next = some 1) ∧
    (running 0x12 0 0 0 0).devtime = 1000000 ∧ ((running 0x12 0 0 0 0).tile tile3).stepFault 0 = none ∧
    tile3 ∈ (running 3 0 0 0 0).tilesOf 0 ∧ (∀ q ∈ (running 3 0 0 0 0).tilesOf 0, q.tile < 25) ∧ ((running 3 0 0 0 0).part 0).arrivals = [] ∧
    (let s := (running 3 0 5 0 0).modPart 0 (fun x => { x with arrivals := [⟨1, 6, 999000⟩] })
     (s.part 0).arrivals = [⟨1, 6, 999000⟩] ∧ (issueOf s).w.aux = 5) ∧
    (issueOf (running 4 0 0x20 0 0)).w.aux % 16 = 0 ∧ bits (issueOf (running 4 0 0x20 0 0)).w.aux 7 4 ∉ ((running 4 0 0x20 0 0).round 0).entered ∧
    (issueOf (running 4 0 1 0 0)).w.aux % 16 = 1 ∧ (issueOf (running 4 0 5 0 0)).w.aux % 16 = 5 ∧
    (issuedAt (running 4 0 1 0 0)).nextEntry 0 1 ((issuedAt (running 4 0 1 0 0)).unitOf tile3) = none ∧
    (let s := live.modPart 0 (fun x => { x with releaseAt := some 1000000 })
     s.alive = true ∧ 0 < s.parts.length ∧ (s.part 0).releaseAt = some 1000000) ∧
    (let s := live.modTile tile3 (fun x => { x with state := .running, stuckSince := some (2951424, 4) })
     s.alive = true ∧ (s.tile tile3).stuckSince = some (2951424, 4) ∧ (s.tile tile3).state = .running ∧ 2951424 + 1048576 ≤ 4 * s.devtime) ∧
    (let s := live.modTile tile3 (fun x => { x with state := .running, stopping := true })
     s.alive = true ∧ (s.tile tile3).stopping = true ∧ (s.tile tile3).state = .running ∧ (∀ b ∈ (s.tile tile3).busy, b ≤ 4 * s.devtime + 3) ∧
       (s.tile tile3).headerEnd ≤ 4 * s.devtime + 4 ∧ (s.tile tile3).flight = [] ∧ (s.round (s.owner 0)).abortPending = false) ∧
    (let s := live.modPart 0 (fun x => { x with round := { x.round with state := .intake }, trapDue := some (5, 0x0A) })
     (s.part 0).trapDue = some (5, 0x0A) ∧ (s.round 0).state.failable = true ∧ s.timeRuns = true ∧ (4 : Nat) < 5) ∧
    ((stepping live (zeros 31 ++ bytesOf [1])).part 0).trapDue = none ∧
    (let s := (withRound (intake live) (fun r => { r with abortPending := true })).modTile tile3 (fun x => { x with state := .running, stopping := true, busy := [0, 5000000, 0, 0, 0] })
     (s.round (s.owner 0)).abortPending = true ∧ (s.round (s.owner 0)).state.busy = true ∧ s.owner 0 < s.parts.length ∧
       (s.part (s.owner 0)).trapDue = none ∧ (∀ q ∈ s.tilesOf (s.owner 0), q ≠ tile3 → (s.tile q).active = false) ∧ (s.tile tile3).stuckSince = none ∧ 4 * s.devtime + 3 < 5000000) := by
  unfold Runs
  decide +kernel

/-- With a prime in the image. -/
def withPrime (s : State) (q : Nat) : State := s.modPart 0 (fun x => { x with image := { x.image with primes := [q] } })

theorem wit_LaneStepsResult :
    (let u := issuedAt (withPrime (running 0x12 0 0 0 0) 17)
     let i := issueOf (withPrime (running 0x12 0 0 0 0) 17)
     (u.tile tile3).badSources {} i.w = false ∧
       ∀ x ∈ List.zipWith (fun a b => if u.primeOf 0 i.w.prime = 0 then none else some ((a + b) % 17)) ((u.tile tile3).vec i.w.srcA 32) ((u.tile tile3).vec i.w.srcB 32),
         x ≠ none) ∧
    (let u := (issuedAt (running 0x12 0 0 0 0)).modTile tile3 (fun x => { x with storeBad := [32 * 8] })
     (u.tile tile3).badSources {} (issueOf (running 0x12 0 0 0 0)).w = true) ∧
    (∀ w ∈ [32, 40, 48, 64], (issueOf (running 0x18 0 w 0 0)).w.aux % 256 = w) ∧ (issueOf (running 0x18 0 56 0 0)).w.aux % 256 = 56 ∧
    (let q := 0x78000001; q % 2 = 1 ∧ q < 2 ^ 32 ∧ 2 ^ 62 < 2 ^ 32 * q) := by
  decide +kernel

theorem wit_VectorStepsResult :
    (let i := issueOf (running 0x1C 2 0 0 0)
     i.w.plain 8 ∧ i.w.mode = 2) ∧
    (let i := issueOf (withPrime (running 0x11 0x20 0 0 0) 17)
     let x := (issuedAt (withPrime (running 0x11 0x20 0 0 0) 17)).tile tile3
     i.w.accWrite = true ∧ (∀ a ∈ List.zipWith (fun (c p : Nat) => (c + p) % 2 ^ 256) x.accs (List.zipWith (fun (a b : Nat) => a * b) (x.vec i.w.srcA 32) (x.vec i.w.srcB 32)),
       a < 2 ^ 32 * 17)) ∧
    (∀ m ∈ [3, 4, 5, 6, 7], (issueOf (running 0x1D m 0 0 0)).w.mode = m) ∧
    (∀ f ∈ [1, 2, 3, 4], (issueOf (running 0x1E 0 (f + 0x40) 0 0)).w.aux % 16 = f) ∧ legalWidth (8 * bits (issueOf (running 0x1E 0 0x40 0 0)).w.aux 7 4) = true ∧
    (let i := issueOf (running 0x22 0 0 0 0)
     i.w.count = 1 ∧ i.w.dstSpace = 0 ∧ i.w.dst + 32 ≤ 16384 ∧ i.w.accClear = false) ∧
    (let s := (running 0x24 0 0 0 0).setReg64 (mskBase 0 + 8) 1
     let u := issuedAt s
     u.reg64 (mskBase (issueOf s).part + 8) = 1) := by
  unfold StepWord.plain
  decide +kernel

/-- With tables 0 (good) and 1 (bad) of one row in tile 3, copies of them in the image area of well 0, and a prime. -/
def withTables (s : State) : State :=
  (withPrime s 17).modPart 0 (fun x => { x with image := { x.image with state := .loaded, wellRecords := [⟨1000, 16, [], []⟩] } }) |>.modTile tile3 (fun x => { x with
    tables := [⟨0, 1, 200, 1, [crc32c (zeros 64)], 0⟩, ⟨1, 1, 201, 1, [5], 1⟩] })

theorem wit_TransformStepsResult :
    (let u := issuedAt (withTables (running 0x28 0 4 0 0))
     let i := issueOf (withTables (running 0x28 0 4 0 0))
     let x := u.tile tile3
     x.reload = [] ∧ i.w.count = 1 ∧ u.primeOf i.part i.w.prime = 17 ∧ (x.table (i.w.aux / 256)).isSome = true ∧ x.tableFails (i.w.aux / 256) = false) ∧
    ((withTables live).tile tile3).tableFails 1 = true ∧ (issueOf (running 0x29 0 0x104 0 0)).w.aux / 256 = 1 ∧ (issueOf (running 0x2A 0 1 5 0)).w.count = 1 ∧
    (∀ k, 1 ≤ k → k < 2 ^ 2 → (#[0, 4, 2, 8] : Array Nat).getD k 0 < 2 ^ 32 ∧ (#[0, 4, 2, 8] : Array Nat).getD k 0 % 17 ≠ 0) ∧ ∀ y ∈ [3, 1, 4, 16], y < 17 := by
  refine ⟨by decide +kernel, by decide +kernel, by decide +kernel, by decide +kernel, fun k h1 h2 => ?_, by decide⟩
  have : k = 1 ∨ k = 2 ∨ k = 3 := by omega
  rcases this with rfl | rfl | rfl <;> decide

/-- A ciphertext header of log_n 4 with one limb, level 1 and two components, and one that is poisoned with cause 5. -/
def goodHeader : CtHeader := ⟨4, 1, 1, 2, 0, 0, false, false, false, false, 0, 0, 0, 42, 9⟩
def badHeader : CtHeader := { goodHeader with poisoned := true, cause := 5 }

theorem wit_EngineStepsResult :
    (let u := issuedAt (withTables (running 9 0 0 0 0))
     let i := issueOf (withTables (running 9 0 0 0 0))
     let x := u.tile tile3
     (x.table i.w.aux).isSome = true ∧ x.storeBad = [] ∧ x.tableFails i.w.aux = false ∧ u.imageArea 0 = some (1000, 16) ∧
       (u.check ⟨masterOfTile tile3, u.owner 0⟩ (cisAddr 0 (1001 * 64)) 64 1).1 = none ∧ (u.readBuckets 0 1 (cisAddr 0 (1001 * 64))).2.1 = false) ∧
    (issueOf (running 9 0 1 0 0)).w.aux = 1 ∧ (live.round 0).state ≠ .step ∧
    (let s := withRound (running 8 0 0 0 0) (fun r => { r with state := .step })
     ((issuedAt s).round (issueOf s).part).state = .step ∧ (issueOf s).part < (issuedAt s).parts.length) ∧
    (let x := (issuedAt (withTables ((running 0x31 0 0x104 0 0).modTile tile3 (fun x => { x with estimates := List.replicate 16 0, estimatesOf := (32, 1, 16), bcvTable := 0 })))).tile tile3
     (x.table x.bcvTable).isSome = true ∧ x.estimates.length = 2 ^ ((issueOf (running 0x31 0 0x104 0 0)).w.aux % 32) ∧
       x.estimatesOf = ((issueOf (running 0x31 0 0x104 0 0)).w.srcA, bits (issueOf (running 0x31 0 0x104 0 0)).w.aux 14 8, 16)) ∧
    (issueOf (running 0x39 0 1 0 0)).w.dstSpace = 0 ∧
    (∀ n ∈ [0, 3, 11], hdrClass n ∉ [HdrClass.export_, .extract, .refresh, .repack, .undefined]) ∧ hdrClass 16 = .export_ ∧ hdrClass 18 = .refresh ∧ hdrClass 17 = .extract ∧
    (let s := live.modTile tile3 (fun x => { x with reload := [0] })
     s.alive = true ∧ (s.tile tile3).reload = 0 :: [] ∧ (live.tile tile3).reload = []) ∧
    ([goodHeader] ++ badHeader :: [goodHeader] ≠ [] ∧ goodHeader.poisoned = false ∧ badHeader.poisoned = true ∧ ({ goodHeader with keyId := 8 }.keyId ≠ goodHeader.keyId)) := by
  decide +kernel

/-- GCM_OPEN reads a segment whose tag matches, and one whose tag does not. -/
theorem wit_GcmOpens :
    (let g := gcmSeal (zeros 32) (zeros 12) (zeros 64) (List.replicate 16 7)
     gcmOpen (zeros 32) (zeros 12) (zeros 64) g.1 g.2 = some (List.replicate 16 7) ∧ gcmOpen (zeros 32) (zeros 12) (zeros 64) g.1 (zeros 16) = none) := by
  decide +kernel

/-- With an armed port of the physical tile that stands for logical tile 4. -/
def armed (s : State) : State := s.modTile ⟨0, 4⟩ (fun x => { x with armed := some (10, 2, 1) })

theorem wit_TransferStepsMoveUnits :
    (let s := running 0x40 0 0 0 0
     let u := issuedAt s
     let i := issueOf s
     let x := u.tile tile3
     slotCycles (x.patterns.getD i.w.pattern []) i.at_ 1 ≠ [] ∧ i.w.ext / 2 ^ 29 = 0 ∧ i.w.count = 1 ∧ (u.check (u.tileMaster tile3) (cisAddr 0 0) 128 1).1 = none ∧
       (u.readBuckets 0 1 (cisAddr 0 0)).2.1 = false ∧ rowOf i.w.dst i.w.strideD 0 < 16383 ∧ rowOf i.w.srcA i.w.strideA 0 < 16383 ∧
       (u.check (u.tileMaster tile3) (cisAddr 0 0) 128 2).1 = none ∧ x.mute = false) ∧
    (let u := issuedAt ((running 0x40 0 0 0 0).modTile tile3 (fun x => { x with patterns := [zeros 300] }))
     slotCycles ((u.tile tile3).patterns.getD 0 []) (issueOf (running 0x40 0 0 0 0)).at_ 1 = []) ∧
    (let u := { issuedAt (running 0x40 0 0 0 0) with access := { live.access with tables := List.replicate 99 (List.replicate 64 0) } }
     (u.check (u.tileMaster tile3) (cisAddr 0 0) 128 1).1 = some .refusedAccess) ∧
    (let u := issuedAt (running 0x42 0 0 0 0x10)
     (u.well 0).inService = true ∧ (issueOf (running 0x42 0 0 0 0x10)).w.op2 / 16 % 16 ≠ 8 ∧ u.tableRefuses (u.tileMaster tile3) 2 (some 0) 2 = none ∧
       u.pumpOf 0 0 < (u.well 0).pumps.length ∧ (u.pump ⟨0, u.pumpOf 0 0⟩).halted = false) ∧
    (let s := armed (running 0x43 0 0 (3 * 2 ^ 29) 0)
     let u := issuedAt s
     let i := issueOf s
     i.w.ext / 2 ^ 29 = 3 ∧ u.peerWell i.part i.w.peerWell = some 0 ∧ i.w.peerTile = 4 ∧ u.physOf 0 4 = 4 ∧ (u.tile ⟨0, 4⟩).armed = some (10, 2, 1)) ∧
    ((issuedAt (running 0x43 0 0 (3 * 2 ^ 29) 0)).tile ⟨0, 4⟩).armed = none ∧
    (let u := issuedAt (((running 0x46 0 0 0 0).setReg (cisBase 0 + 0x204) 4).setReg (cisBase 0 + 0x208) 2)
     u.reg (cisBase 0 + 0x208) = 2 ∧ (u.check (u.tileMaster tile3) (cisAddr 0 256) 64 1).1 = none ∧ (u.readBuckets 0 1 (cisAddr 0 256)).2.1 = false) ∧
    (let u := issuedAt (running 0x47 0 0 0 0)
     0 % 2 < (u.tile tile3).halves.length ∧ ((slotCycles ((u.tile tile3).patterns.getD 0 []) 4000000 256).getLast?).isSome = true) ∧
    (issueOf (running 0x48 0 0 0 0)).part < live.drbgs.length ∧ (issueOf (running 0x45 0 0 0 0)).w.op2 < 4 ∧
    ((issuedAt (running 0x44 0 0 0 0)).tile tile3).inbox = [] ∧
    (let s := (running 0x44 0 0 0 0).modTile tile3 (fun x => { x with inbox := [(4000000, zeros 128)] })
     ((issuedAt s).tile tile3).inbox = [(4000000, zeros 128)] ∧ (issueOf s).at_ ≤ 4000000) ∧
    slotCycles (((issuedAt (running 0x43 0 0 0 0)).tile tile3).patterns.getD 0 []) (issueOf (running 0x43 0 0 0 0)).at_ 1 = [4000000] ∧
    (let g := segmentOf ((running 0x45 0 0 0 0).tile tile3 |>.rowsAt 64 64)
     let u := issuedAt (running 0x45 0 0 0 0)
     (u.check (u.tileMaster tile3) (cisAddr 0 0) (64 + g.payload) 1).1 = none ∧ segmentReason (zeros 64) g 0 ≠ 0 ∧
       (u.devRead 0 (cisAddr 0 0) (64 + g.payload)).2.1 = false ∧ segmentReason (sealCrc (bytesOf [0x4B, 1] ++ zeros 62)) g 0 = 0) := by
  decide +kernel

/-- Pump 0 of well 0 with a unit of a kind and pair at the front, crossed second. -/
def pumping (k pair : Nat) (data : Bytes) : State :=
  (written live).modPump ⟨0, 0⟩ (fun x => { x with queue := [⟨16 * k + pair, 0, 1024, data, 3, 1, none⟩] })

/-- With an earlier unit of a kind and the same pair in pump 1. -/
def behind (s : State) (k pair : Nat) : State := s.modPump ⟨0, 1⟩ (fun x => { x with queue := [⟨16 * k + pair, 0, 1024, zeros 128, 3, 0, none⟩] })

/-- A ZERO descriptor of two buckets from 1024, and a COPY descriptor of two buckets from 1024 to LPDDR5X bucket 8. -/
def zeroDesc : Bytes := sealCrc (bytesOf [1, 0, 0, 0] ++ toLE 2 4 ++ toLE 0 4 ++ toLE 1024 4 ++ zeros 16)
def copyDesc : Bytes := sealCrc (bytesOf [2, 0, 0, 0] ++ toLE 2 4 ++ toLE 1024 4 ++ toLE 8 4 ++ zeros 16)

theorem wit_PumpUnitsApplied :
    (∀ k ∈ [1, 2, 3, 4, 5, 6, 7, 8, 9, 10],
      let s := pumping k 2 (zeros 128)
      s.alive = true ∧ 0 < s.wells.length ∧ 0 < (s.well 0).pumps.length ∧ (s.pump ⟨0, 0⟩).queue = ⟨16 * k + 2, 0, 1024, zeros 128, 3, 1, none⟩ :: [] ∧
        PumpUnit.kind ⟨16 * k + 2, 0, 1024, zeros 128, 3, 1, none⟩ = k ∧ (s.pump ⟨0, 0⟩).halted = false ∧
        ((s.dropUnit ⟨0, 0⟩).check ⟨masterOfPump ⟨0, 0⟩, s.owner 0⟩ (cisAddr 0 (1024 * 64)) 128 3).1 = none ∧ 1024 ∉ (s.well 0).cisBad) ∧
    (pumping 5 2 (zeros 128)).pairBusy 0 10 2 1 = false ∧ (behind (pumping 5 2 (zeros 128)) 10 2).pairBusy 0 10 2 1 = true ∧
    (behind (pumping 10 2 (zeros 128)) 5 2).pairBusy 0 5 2 1 = true ∧ (pumping 10 2 (zeros 128)).pairBusy 0 5 2 1 = false ∧
    1024 ∈ (((pumping 1 0 (zeros 128)).modWell 0 (fun x => { x with cisBad := [1024] })).well 0).cisBad := by
  decide +kernel

theorem wit_PumpDescriptors :
    (∃ d ∈ unitDescriptors (zeroDesc ++ zeros 96), rd d 0xC 4 ≤ 1024 ∧ 1024 < rd d 0xC 4 + rd d 4 4) ∧ (pumping 8 0 (zeroDesc ++ zeros 96)).pumpOf 0 1024 = 0 ∧
    (∀ d ∈ unitDescriptors (zeroDesc ++ zeros 96), ¬ rd d 0xC 4 ≤ 1023) ∧ unitDescriptors (copyDesc ++ zeros 96) = [copyDesc] ∧ descriptorBad 2 copyDesc = false ∧
    descriptorBad 2 zeroDesc = true ∧ live.refuses ⟨masterOfPump ⟨0, 0⟩, 0⟩ (cisAddr 0 (1024 * 64)) 3 = none ∧
    64 < (List.replicate 64 (⟨1024, 8, 2, true, 0, 0⟩ : CopyDesc)).length + (unitDescriptors (copyDesc ++ zeros 96)).length ∧ 0 % 2 < (live.well 0).copy.length ∧ (live.chan 0 0).halted = false := by
  decide +kernel

theorem wit_Copies :
    (let d : CopyDesc := ⟨1024, 8, 2, true, 0, 0⟩
     let s := (((written live).modWell 0 (fun x => { x with lpxKey := zeros 32 })).modPart 0 (fun x => { x with
       image := { x.image with wellRecords := [⟨1000, 16, [bytesOf [1] ++ zeros 299], []⟩] } })).modChan 0 0 (fun y => { y with queue := [d] })
     s.alive = true ∧ (s.chan 0 0).queue = d :: [] ∧ (s.chan 0 0).running = none ∧ s.pumpsPast 0 0 = true ∧
       s.copyEnd 0 0 d ≠ none ∧ s.refusesRange ⟨0x2000, 0⟩ 1 2 (d.srcAddr 0) = none ∧ s.refusesRange ⟨0x2000, 0⟩ 2 2 (d.dstAddr 0) = none ∧ (s.well 0).cisBad = [] ∧ (s.well 0).lpx = []) ∧
    (let s := (behind live 1 0).modChan 0 0 (fun y => { y with queue := [⟨1024, 8, 2, true, 0, 1⟩] })
     s.pumpsPast 0 1 = false) ∧
    (let s := (withCkpt live .copying 8).modChan 0 0 (fun y => { y with running := some ⟨1024, 8, 2, true, 0, 0⟩ })
     (s.chan 0 0).running = some ⟨1024, 8, 2, true, 0, 0⟩ ∧ (s.chan 0 0).doneAt ≤ s.devtime ∧ s.owner 0 < 24 ∧ (s.round (s.owner 0)).ckpt = some (ckpt .copying) ∧ s.owner 0 < s.parts.length) ∧
    (let s := live.modChan 0 0 (fun y => { y with running := some ⟨1024, 8, 2, true, 0, 0⟩, doneAt := 1000001 })
     (s.chan 0 0).running = some ⟨1024, 8, 2, true, 0, 0⟩ ∧ s.devtime < (s.chan 0 0).doneAt) ∧
    live.copyEnd 0 0 ⟨1024, 8, 2, true, 0, 0⟩ = none ∧ (live.chan 0 1).running = none := by
  decide +kernel

theorem wit_LimitsKept : live.withinLimits ∧ State.reset.withinLimits := by
  unfold State.withinLimits
  decide

theorem wit_steps_answer : ∃ t, step { live with pending := [.vRunAdjust true] } = .next t := ⟨_, rfl⟩

/-! ## Completions that rest on a signature: ML-DSA is a free value (log entry 6), so each takes the signature's verdict as a premise -/

/-- A firmware container (R270 to R272): one FW_TEXT of 64 bytes, serial 7, and a signature block with a key of zero bytes. -/
def fwImage : Bytes :=
  sealCrc (toLE 0x4F585950 4 ++ bytesOf [1, 3] ++ toLE 1 2 ++ toLE 4032 4 ++ bytesOf [0x1F, 0, 0, 0] ++ toLE 7 8 ++ toLE 0x2416 2 ++ zeros 38) ++
    toLE 0x0201 2 ++ bytesOf [255, 255] ++ toLE 128 4 ++ toLE 64 4 ++ toLE (crc32c (bytesOf (List.range 64))) 4 ++ zeros 48 ++ bytesOf (List.range 64) ++
    sealCrc (bytesOf [1, 1, 0, 0] ++ toLE 3840 4 ++ keyDigest ++ zeros 24) ++ zeros 3776

theorem wit_FirmwareLoads_good (h : signatureGood fwImage = true) :
    MbxTakes (withMbx (withSigner live) 1 4032) 1 fwImage ∧ (withMbx (withSigner live) 1 4032).loadInProgress = false ∧
      (withMbx (withSigner live) 1 4032).fwVerdict fwImage fwImage.length = .ok () := by
  refine ⟨by unfold MbxTakes; decide +kernel, by decide +kernel, ?_⟩
  have hk : sigKey (sigBlock fwImage) = zeros 1312 := by decide +kernel
  unfold State.fwVerdict
  dsimp only
  rw [h, hk, sha3_zero_key]
  decide +kernel

/-- A KEX_FINISH of session 6 with a tenant key of zero bytes. -/
def kexFinishMsg : Bytes := sesMsg 3 0 4884 6 0 ++ zeros 4820

/-- A STARTED session of a partition whose record holds the digest of that key. -/
def keyed : State :=
  let s := withSession live .started
  { s with plan := { s.plan with records := [⟨0, 1, 30, 0, 0, 0, 1000, 0, 64, 64, 0, keyDigest⟩] } }

theorem wit_SessionMessagesAnswered_finish
    (h : Config.mldsaVerify (slice kexFinishMsg 1152 1312) (sha3 ((keyed.session 0).kexStart ++ (keyed.session 0).kexReport ++ kexFinishMsg.take 2464))
      (ascii "OSTUSO KEX") (slice kexFinishMsg 2464 2420) = true) :
    SesTakes keyed 1 3 kexFinishMsg 0 ∧ keyed.kexFinishFails 0 kexFinishMsg = none := by
  refine ⟨by unfold SesTakes; decide +kernel, ?_⟩
  have hk : slice kexFinishMsg 1152 1312 = zeros 1312 := by decide +kernel
  rw [hk] at h
  simp only [State.kexFinishFails, hk, sha3_zero_key, h]
  decide +kernel

end Sys2Proof.Tests
end

namespace Sys2Proof.Machine

open Sys2Proof

/-! ## The register tables -/

/-- Do two fields share no bit? -/
def Fld.apart (f g : Fld) : Bool := decide (f.hi < g.lo) || decide (g.hi < f.lo)

/-- Is a row of whole words with disjoint fields inside them? -/
def RegRow.sound (r : RegRow) : Bool :=
  decide (r.base % 4 = 0) && decide (r.stride % 4 = 0) && r.flds.all (fun f => decide (f.hi < 32)) && decide (r.flds.Pairwise (fun f g => f.apart g = true))

/-- A block, if there is one, has sound rows, and its base is a word's address at or below the offset. -/
def BlockSound (x : Nat) (o : Option (List RegRow × Nat)) : Prop :=
  ∀ rows b, o = some (rows, b) → rows.all RegRow.sound = true ∧ b % 4 = 0 ∧ b ≤ x

theorem blockSound_none (x : Nat) : BlockSound x none := nofun

theorem blockSound_some {x b : Nat} {rows : List RegRow} (hr : rows.all RegRow.sound = true) (h4 : b % 4 = 0) (hx : b ≤ x) :
    BlockSound x (some (rows, b)) := by
  rintro _ _ ⟨⟩
  exact ⟨hr, h4, hx⟩

theorem blockSound_ite {x : Nat} {c : Prop} [Decidable c] {o q : Option (List RegRow × Nat)} (ho : c → BlockSound x o) (hq : ¬c → BlockSound x q) :
    BlockSound x (if c then o else q) := iteInduction ho hq

theorem blockOf_sound (x : Nat) : BlockSound x (blockOf x) := by
  unfold blockOf
  dsimp only
  (repeat' refine blockSound_ite (fun _ => ?_) (fun _ => ?_)) <;>
    first
    | exact blockSound_none x
    | exact blockSound_some (by decide +kernel) (by omega) (by omega)

theorem regRow_sound {x : Nat} {r : RegRow} (h : regRow x = some r) : r.sound = true := by
  unfold regRow at h
  split at h
  · rename_i rows b hb
    exact List.all_eq_true.mp (blockOf_sound x rows b hb).1 r (List.mem_of_find?_eq_some h)
  · cases h

/-- Every register lies at a multiple of four (R10). -/
theorem regRow_aligned {x : Nat} {r : RegRow} (h : regRow x = some r) : x % 4 = 0 := by
  have hs := regRow_sound h
  unfold regRow at h
  split at h
  · rename_i rows b hb
    obtain ⟨-, hb4, hbx⟩ := blockOf_sound x rows b hb
    have hh := List.find?_some h
    simp only [RegRow.sound, RegRow.has, Bool.and_eq_true, decide_eq_true_eq] at hs hh
    have hd : 4 ∣ x - b - r.base := (Nat.dvd_of_mod_eq_zero hs.1.1.2).trans (Nat.dvd_of_mod_eq_zero hh.1.2)
    omega
  · cases h

/-- The fields of a register lie inside its word. -/
theorem regRow_fld_hi {x : Nat} {r : RegRow} (h : regRow x = some r) {f : Fld} (hf : f ∈ r.flds) : f.hi < 32 := by
  have hs := regRow_sound h
  simp only [RegRow.sound, Bool.and_eq_true, List.all_eq_true, decide_eq_true_eq] at hs
  exact hs.1.2 f hf

/-- Two fields of a register that share a bit are one. -/
theorem regRow_fld_unique {x : Nat} {r : RegRow} (h : regRow x = some r) {f g : Fld} (hf : f ∈ r.flds) (hg : g ∈ r.flds) {i : Nat}
    (hfi : f.lo ≤ i ∧ i ≤ f.hi) (hgi : g.lo ≤ i ∧ i ≤ g.hi) : f = g := by
  have hs := regRow_sound h
  simp only [RegRow.sound, Bool.and_eq_true, decide_eq_true_eq] at hs
  by_contra hne
  have hsymm : Std.Symm (fun f g : Fld => f.apart g = true) := ⟨fun f g h => by simpa [Fld.apart, or_comm] using h⟩
  have ha : f.apart g = true := hs.2.forall hf hg hne
  simp only [Fld.apart, Bool.or_eq_true, decide_eq_true_eq] at ha
  omega

/-! ## Masks -/

/-- A bit of a field's mask. -/
theorem fldMask_testBit (f : Fld) (i : Nat) : ((2 ^ (f.hi + 1 - f.lo) - 1) <<< f.lo).testBit i = (decide (f.lo ≤ i) && decide (i ≤ f.hi)) := by
  rw [Nat.testBit_shiftLeft, Nat.testBit_two_pow_sub_one]
  by_cases h : f.lo ≤ i
  · simp only [ge_iff_le, h, decide_true, Bool.true_and, decide_eq_decide]
    omega
  · simp [h]

/-- A bit of a row's mask is set when a field that passes the test holds it. -/
theorem RegRow.mask_testBit (r : RegRow) (t : Acc → Bool) (i : Nat) :
    (r.mask t).testBit i = r.flds.any (fun f => t f.acc && (decide (f.lo ≤ i) && decide (i ≤ f.hi))) := by
  have hfold : ∀ (l : List Fld) (m : Nat),
      (l.foldl (fun m f => if t f.acc then m ||| ((2 ^ (f.hi + 1 - f.lo) - 1) <<< f.lo) else m) m).testBit i =
        (m.testBit i || l.any (fun f => t f.acc && (decide (f.lo ≤ i) && decide (i ≤ f.hi)))) := by
    intro l
    induction l with
    | nil => simp
    | cons f l ih =>
      intro m
      rw [List.foldl_cons, ih, List.any_cons]
      cases t f.acc
      · simp
      · rw [if_pos rfl, Nat.testBit_or, fldMask_testBit, Bool.true_and, Bool.or_assoc]
  rw [RegRow.mask, hfold]
  simp

/-- The field that holds a bit decides whether a mask has it. -/
theorem mask_testBit_of_fld {x : Nat} {r : RegRow} (h : regRow x = some r) {f : Fld} (hf : f ∈ r.flds) {i : Nat} (hlo : f.lo ≤ i) (hhi : i ≤ f.hi)
    (t : Acc → Bool) : (r.mask t).testBit i = t f.acc := by
  rw [RegRow.mask_testBit, Bool.eq_iff_iff, List.any_eq_true]
  constructor
  · rintro ⟨g, hg, ht⟩
    simp only [Bool.and_eq_true, decide_eq_true_eq] at ht
    rw [regRow_fld_unique h hf hg ⟨hlo, hhi⟩ ht.2]
    exact ht.1
  · intro ht
    exact ⟨f, hf, by simp [ht, hlo, hhi]⟩

/-- A bit of no field is in no mask. -/
theorem mask_testBit_of_reserved {r : RegRow} {i : Nat} (h : ∀ f ∈ r.flds, i < f.lo ∨ f.hi < i) (t : Acc → Bool) : (r.mask t).testBit i = false := by
  rw [RegRow.mask_testBit, List.any_eq_false]
  intro f hf
  have := h f hf
  simp only [Bool.and_eq_true, decide_eq_true_eq]
  omega

/-- A mask is a 32-bit word. -/
theorem mask_lt {x : Nat} {r : RegRow} (h : regRow x = some r) (t : Acc → Bool) : r.mask t < 2 ^ 32 := by
  refine Nat.lt_pow_two_of_testBit _ (fun i hi => mask_testBit_of_reserved (fun f hf => .inr ?_) t)
  exact lt_of_lt_of_le (regRow_fld_hi h hf) hi

/-- A bit of the complement of a 32-bit word. -/
theorem notWord_testBit (v i : Nat) (h : i < 32) : (0xFFFFFFFF ^^^ v).testBit i = !v.testBit i := by
  have hone : (0xFFFFFFFF : Nat).testBit i = true := by
    rw [show (0xFFFFFFFF : Nat) = 2 ^ 32 - 1 by rfl, Nat.testBit_two_pow_sub_one]
    exact decide_eq_true h
  rw [Nat.testBit_xor, hone, Bool.true_xor]

/-! ## Words written by access types (R15) -/

/-- A written bit of a field, by the field's access type. -/
theorem written_testBit {x : Nat} {r : RegRow} (h : regRow x = some r) {f : Fld} (hf : f ∈ r.flds) {i : Nat} (hlo : f.lo ≤ i) (hhi : i ≤ f.hi) (old v : Nat) :
    (r.written old v).testBit i =
      ((old.testBit i && (f.acc == .ro || f.acc == .wo)) || (v.testBit i && (f.acc == .rw || f.acc == .rwl)) ||
        (old.testBit i && (f.acc == .w1c) && !v.testBit i)) := by
  simp only [RegRow.written, RegRow.writable, Nat.testBit_or, Nat.testBit_and, mask_testBit_of_fld h hf hlo hhi,
    notWord_testBit v i (lt_of_le_of_lt hhi (regRow_fld_hi h hf))]

/-- A bit of no field is written as zero. -/
theorem written_testBit_reserved {r : RegRow} {i : Nat} (h : ∀ f ∈ r.flds, i < f.lo ∨ f.hi < i) (old v : Nat) : (r.written old v).testBit i = false := by
  simp only [RegRow.written, RegRow.writable, Nat.testBit_or, Nat.testBit_and, mask_testBit_of_reserved h, Bool.and_false, Bool.false_and, Bool.or_false]

end Sys2Proof.Machine

namespace Sys2Proof.Machine

open Sys2Proof

/-! ## Frames of the operations that an access begins with -/

/-- A message changes a function's pending bits and the output alone. -/
theorem State.msix_eq (s : State) (f v : Nat) : s.msix f v = { s with fns := (s.msix f v).fns, out := (s.msix f v).out } := by
  unfold State.msix
  (repeat' split) <;> rfl

/-- Raising an event changes the log and its drop counter alone. -/
theorem State.raise_eq (s : State) (code part src : Nat) (l : List (Nat × Nat)) :
    s.raise code part src l = { s with regs := (s.raise code part src l).regs, fresh := (s.raise code part src l).fresh, log := (s.raise code part src l).log } := by
  unfold State.raise
  split <;> rfl

/-- An access that arrives changes the link's and the power state, and what a wake event notes. -/
theorem State.arrive_eq (s : State) (who : Nat) :
    s.arrive who = { s with
      regs := (s.arrive who).regs, fresh := (s.arrive who).fresh, host := (s.arrive who).host, power := (s.arrive who).power,
      fns := (s.arrive who).fns, out := (s.arrive who).out } := by
  have hact : ∀ u : State, u.activity = { u with
      regs := u.activity.regs, fresh := u.activity.fresh, power := u.activity.power, fns := u.activity.fns, out := u.activity.out } := by
    intro u
    unfold State.activity State.powerInt
    dsimp only
    (repeat' split)
    · rw [State.msix_eq]
      rfl
    · rfl
    · rfl
  unfold State.arrive
  rw [hact]
  split <;> rfl

@[simp] theorem State.arrive_access (s : State) (who : Nat) : (s.arrive who).access = s.access := by rw [State.arrive_eq]

/-- The wells of a partition are those that access control gives it (R39). -/
theorem wellsOf_of_access {s t : State} (h : t.access = s.access) (p : Nat) : t.wellsOf p = s.wellsOf p := by
  simp only [State.wellsOf, State.owner, State.ownerVote, h]

/-- Where an access falls depends on the owners of the wells alone. -/
theorem spotOf_arrive (s : State) (who : Nat) (a : RegAccess) : (s.arrive who).spotOf a = s.spotOf a := by
  simp only [State.spotOf, State.vfSpot, wellsOf_of_access (s.arrive_access who)]

/-! ## The check of an access to a register -/

/-- Four bytes from a register touch one bucket at least. -/
theorem bucketsOf_word_pos (x : Nat) : ∃ n, bucketsOf x 4 = n + 1 := ⟨_, rfl⟩

/-- The bytes of a register lie in one bucket. -/
theorem bucketsOf_register {x : Nat} {r : RegRow} (h : regRow x = some r) : bucketsOf x 4 = 1 := by
  have := regRow_aligned h
  simp only [bucketsOf, reduceIte, OfNat.ofNat_ne_zero]
  omega

/-- A register access that its check allows has only had its votes read. -/
theorem check_register_allowed {s : State} {m : Master} {x need : Nat} {r : RegRow} (hr : regRow x = some r)
    (h : (s.votesFor x).refuses m x need = none) : s.check m x 4 need = (none, s.votesFor x) := by
  simp only [State.check, bucketsOf_register hr, State.refusesRange, h]

/-- A register access that its check refuses is recorded at its own address. -/
theorem check_register_refused {s : State} {m : Master} {x need : Nat} {y : RefuseReason} (h : (s.votesFor x).refuses m x need = some y) :
    s.check m x 4 need = (some y.status, (s.votesFor x).recordRefusal m x y) := by
  obtain ⟨n, hn⟩ := bucketsOf_word_pos x
  simp only [State.check, hn, State.refusesRange, h]

/-! ## Writes -/

/-- A whole write that is not poisoned goes where it falls. -/
theorem writeAt_whole {s : State} {a : RegAccess} (hp : a.poisoned = false) (hb : a.be = 15) : s.writeAt a = (s.arrive a.who).placeWrite a := by
  simp [State.writeAt, hp, hb]

/-- A whole write that falls on a register, by the answer of its check. -/
theorem writeAt_register_allowed {s : State} {a : RegAccess} {x : Nat} {r : RegRow} (hp : a.poisoned = false) (hb : a.be = 15)
    (hx : s.spotOf a = .register x) (hr : regRow x = some r) (h : (s.atReg a x).refuses (accessMaster a.who) x 2 = none) :
    s.writeAt a = (s.atReg a x).putReg a x := by
  rw [writeAt_whole hp hb]
  simp only [State.placeWrite, spotOf_arrive, hx, check_register_allowed hr h]
  rfl

theorem writeAt_register_refused {s : State} {a : RegAccess} {x : Nat} {y : RefuseReason} (hp : a.poisoned = false) (hb : a.be = 15)
    (hx : s.spotOf a = .register x) (h : (s.atReg a x).refuses (accessMaster a.who) x 2 = some y) :
    s.writeAt a = (s.atReg a x).recordRefusal (accessMaster a.who) x y := by
  rw [writeAt_whole hp hb]
  simp only [State.placeWrite, spotOf_arrive, hx, check_register_refused h]
  rfl

/-- A write that arrives at its register is put there, as the row of the table that it is. -/
theorem writeAs_arrives {s : State} {a : RegAccess} {x : Nat} {r : RegRow} {row : WriteRow} (h : Arrives s a x r) (hrow : s.rowOfWrite a = row) :
    s.writeAs row a = (s.atReg a x).putReg a x := by
  obtain ⟨hacc, hp, hb, hx, hr, href⟩ := h
  rw [State.writeAs, if_neg (not_not.mpr hrow), if_pos hacc, writeAt_register_allowed hp hb hx hr href]

/-- The row of a write to a register whose kind has no action: HI_WRITE for the high half of a writable pair. -/
theorem rowOfWrite_plain {s : State} {a : RegAccess} {x : Nat} {r : RegRow} (hx : s.spotOf a = .register x) (hr : regRow x = some r) (hk : kindOf x = .plain) :
    s.rowOfWrite a = if r.writable ≠ 0 ∧ r.half = .high then .high else .register := by
  simp [State.rowOfWrite, hx, hk, hr]

/-- A register that is no half of a writable pair and neither locked nor written an illegal word takes its action. -/
theorem putReg_acts {s : State} {a : RegAccess} {x : Nat} {r : RegRow} (hr : regRow x = some r) (hh : r.half = .single ∨ r.writable = 0)
    (hl : s.lockedOut r x = false) (he : encodingLegal x a.value.toNat = true) : s.putReg a x = s.actOn a x := by
  rcases hh with hh | hh <;> simp [State.putReg, hr, hh, hl, he]

theorem putReg_locked {s : State} {a : RegAccess} {x : Nat} {r : RegRow} (hr : regRow x = some r) (hh : r.half = .single ∨ r.writable = 0)
    (hl : s.lockedOut r x = true) : s.putReg a x = s.discard a.who a.bar a.offset 3 := by
  rcases hh with hh | hh <;> simp [State.putReg, hr, hh, hl]

theorem putReg_illegal {s : State} {a : RegAccess} {x : Nat} {r : RegRow} (hr : regRow x = some r) (hh : r.half = .single ∨ r.writable = 0)
    (hl : s.lockedOut r x = false) (he : encodingLegal x a.value.toNat = false) : s.putReg a x = s.discard a.who a.bar a.offset 2 := by
  rcases hh with hh | hh <;> simp [State.putReg, hr, hh, hl, he]

/-- REGISTER_WRITE of a plain single register sets its word by its access types and what survives of this tick. -/
theorem registerWrite_plain {s : State} {a : RegAccess} {x : Nat} {r : RegRow} (h : Writes s a x r) (hk : kindOf x = .plain) (hh : r.half = .single) :
    exec (.registerWrite a) s =
      .next ((s.atReg a x).setReg x (r.written ((s.atReg a x).reg x) a.value.toNat ||| (s.atReg a x).survives r x)) := by
  obtain ⟨harr, hl, he⟩ := h
  obtain ⟨-, -, -, hx, hr, -⟩ := id harr
  have hrow : s.rowOfWrite a = .register := by rw [rowOfWrite_plain hx hr hk, if_neg (by simp [hh])]
  show Host.Outcome.next (s.writeAs .register a) = _
  rw [writeAs_arrives harr hrow, putReg_acts hr (.inl hh) hl he]
  simp only [State.actOn, hk, State.typedWrite, hr]

/-! ## Register words -/

theorem State.regW_setReg_self (s : State) (x v : Nat) : (s.setReg x v).regW x = BitVec.ofNat 32 v := by
  apply BitVec.eq_of_toNat_eq
  rw [BitVec.toNat_ofNat]
  exact s.reg_setReg_self x v

theorem onlyRegs_setReg (s : State) (x v : Nat) : OnlyRegs s (s.setReg x v) [x] := fun y hy => State.reg_setReg_ne s x v y (by simpa using hy)

/-- Settles O28: the field that holds a bit decides what each mask of R15 has there, and a plain write is one register update. -/
theorem registerFieldTypes : Obligations.RegisterFieldTypes := by
  unfold Obligations.RegisterFieldTypes
  refine ⟨fun x r f i old v hr hf hlo hhi => ?_, fun x r i old v _ hi => written_testBit_reserved hi old v, fun a x r s h hk hh => ?_⟩
  · rw [written_testBit hr hf hlo hhi]
    generalize old.testBit i = o
    generalize v.testBit i = w
    revert o w
    cases f.acc <;> decide
  · exact ⟨_, registerWrite_plain h hk hh, State.regW_setReg_self _ _ _, onlyRegs_setReg _ _ _, rfl⟩

end Sys2Proof.Machine

namespace Sys2Proof.Machine

open Sys2Proof

/-! ## Latches and staged halves (R13, R14) -/

/-- A reader's or writer's entry for a pair, after the entry of one of them for one pair is removed. -/
theorem find_latch_removed (l : List (Nat × Nat × W32)) (who lo w y : Nat) :
    (l.filter (fun e => !(e.1 == who && e.2.1 == lo))).find? (fun e => e.1 == w && e.2.1 == y) =
      if w = who ∧ y = lo then none else l.find? (fun e => e.1 == w && e.2.1 == y) := by
  rw [List.find?_filter]
  by_cases h : w = who ∧ y = lo
  · obtain ⟨rfl, rfl⟩ := h
    rw [if_pos ⟨rfl, rfl⟩, List.find?_eq_none]
    intro e _
    cases (e.1 == w && e.2.1 == y) <;> decide
  · rw [if_neg h]
    congr 1
    funext e
    by_cases he : e.1 = w ∧ e.2.1 = y
    · have hne : (w == who && y == lo) = false := by simpa using h
      simp [he.1, he.2, hne]
    · have hne : (e.1 == w && e.2.1 == y) = false := by simpa using he
      simp [hne]

/-- The same, after that entry is set. -/
theorem find_latch_set (l : List (Nat × Nat × W32)) (who lo w y : Nat) (v : W32) :
    (l.filter (fun e => !(e.1 == who && e.2.1 == lo)) ++ [(who, lo, v)]).find? (fun e => e.1 == w && e.2.1 == y) =
      if w = who ∧ y = lo then some (who, lo, v) else l.find? (fun e => e.1 == w && e.2.1 == y) := by
  rw [List.find?_append, find_latch_removed]
  by_cases h : w = who ∧ y = lo
  · obtain ⟨rfl, rfl⟩ := h
    simp
  · have hne : ¬(who = w ∧ lo = y) := fun hc => h ⟨hc.1.symm, hc.2.symm⟩
    simp [h, hne]

/-- What a writer has staged for a pair after one half is staged. -/
theorem staged_stage (s : State) (who lo v w y : Nat) : (s.stage who lo v).staged w y = if w = who ∧ y = lo then v % 2 ^ 32 else s.staged w y := by
  simp only [State.staged, State.stage, State.unstage, find_latch_set]
  split <;> simp

/-- What a writer has staged for a pair after one staged half is forgotten. -/
theorem staged_unstage (s : State) (who lo w y : Nat) : (s.unstage who lo).staged w y = if w = who ∧ y = lo then 0 else s.staged w y := by
  simp only [State.staged, State.unstage, find_latch_removed]
  split <;> simp

/-- What a reader has latched for a pair after one half is latched. -/
theorem latched_latch (s : State) (who lo v w y : Nat) : (s.latch who lo v).latched w y = if w = who ∧ y = lo then v % 2 ^ 32 else s.latched w y := by
  simp only [State.latched, State.latch, find_latch_set]
  split <;> simp

/-- Nothing is staged where no entry stands. -/
theorem staged_eq_zero {s : State} {w y : Nat} (h : ∀ e ∈ s.writeLatch, e.1 ≠ w ∨ e.2.1 ≠ y) : s.staged w y = 0 := by
  have hnone : s.writeLatch.find? (fun e => e.1 == w && e.2.1 == y) = none := by
    rw [List.find?_eq_none]
    intro e he
    have := h e he
    simp only [Bool.and_eq_true, beq_iff_eq]
    tauto
  simp [State.staged, hnone]

/-! ## Pairs (R14) -/

/-- REGISTER_WRITE of the low half of a writable pair stages it. -/
theorem registerWrite_low {s : State} {a : RegAccess} {x : Nat} {r : RegRow} (h : Arrives s a x r) (hk : kindOf x = .plain) (hh : r.half = .low)
    (hw : r.writable ≠ 0) : exec (.registerWrite a) s = .next ((s.atReg a x).stage a.who x a.value.toNat) := by
  obtain ⟨-, -, -, hx, hr, -⟩ := id h
  have hrow : s.rowOfWrite a = .register := by rw [rowOfWrite_plain hx hr hk, if_neg (by simp [hh])]
  show Host.Outcome.next (s.writeAs .register a) = _
  rw [writeAs_arrives h hrow]
  simp [State.putReg, hr, hh, hw]

/-- HI_WRITE of a pair that no lock, encoding or live queue holds back writes both halves, the low one as staged. -/
theorem hiWrite_pair {s : State} {a : RegAccess} {x : Nat} {r : RegRow} (h : Writes s a x r) (hk : kindOf x = .plain) (hh : r.half = .high)
    (hw : r.writable ≠ 0) (hlo : encodingLegal (x - 4) ((s.atReg a x).staged a.who (x - 4)) = true)
    (hb : (s.atReg a x).basesFixed (x - 4) ((s.atReg a x).staged a.who (x - 4) + 2 ^ 32 * a.value.toNat) = false) :
    exec (.hiWrite a) s =
      .next ((((s.atReg a x).unstage a.who (x - 4)).putFields (x - 4) ((s.atReg a x).staged a.who (x - 4))).putFields x a.value.toNat) := by
  obtain ⟨harr, hl, he⟩ := h
  obtain ⟨-, -, -, hx, hr, -⟩ := id harr
  have hrow : s.rowOfWrite a = .high := by rw [rowOfWrite_plain hx hr hk, if_pos ⟨hw, hh⟩]
  show Host.Outcome.next (s.writeAs .high a) = _
  rw [writeAs_arrives harr hrow]
  simp only [State.putReg, hr, hh, State.writePair, hl, he, hlo, hb]
  rw [if_neg (by simp), if_pos ⟨hw, trivial⟩]
  rfl

theorem putFields_row {x : Nat} {r : RegRow} (s : State) (v : Nat) (hr : regRow x = some r) :
    s.putFields x v = s.setReg x ((s.reg x &&& (0xFFFFFFFF ^^^ r.writable)) ||| (v &&& r.writable)) := by
  simp only [State.putFields, hr]

theorem State.regW_setReg_ne (s : State) (x v y : Nat) (h : y ≠ x) : (s.setReg x v).regW y = s.regW y :=
  BitVec.eq_of_toNat_eq (State.reg_setReg_ne s x v y h)

/-- Settles O30: a low half only enters the staging latch, and HI_WRITE is two register updates and one removal from that latch. -/
theorem pairWritesStaged : Obligations.PairWritesStaged := by
  unfold Obligations.PairWritesStaged
  refine ⟨fun a x r s h hk hh hw => ?_, fun a x r q s h hk hh hw hq h4 => ?_, fun s w y h => staged_eq_zero h⟩
  · refine ⟨_, registerWrite_low h hk hh hw, rfl, ?_, fun w y hwy => ?_, rfl⟩
    · rw [staged_stage, if_pos ⟨rfl, rfl⟩, Nat.mod_eq_of_lt a.value.isLt]
    · rw [staged_stage, if_neg (by tauto)]
  · intro u lo hlo hb
    have hr : regRow x = some r := h.1.2.2.2.2.1
    have hne : x ≠ x - 4 := by omega
    refine ⟨_, hiWrite_pair h hk hh hw hlo hb, ?_⟩
    rw [putFields_row _ _ hq, putFields_row _ _ hr, State.reg_setReg_ne _ _ _ _ hne]
    refine ⟨?_, State.regW_setReg_self _ _ _, fun y hy => ?_, ?_, fun w y hwy => ?_, rfl⟩
    · rw [State.regW_setReg_ne _ _ _ _ hne.symm, State.regW_setReg_self]
      rfl
    · simp only [List.mem_cons, List.not_mem_nil, or_false, not_or] at hy
      rw [State.reg_setReg_ne _ _ _ _ hy.2, State.reg_setReg_ne _ _ _ _ hy.1]
      rfl
    · exact (staged_unstage u a.who (x - 4) a.who (x - 4)).trans (if_pos ⟨rfl, rfl⟩)
    · exact (staged_unstage u a.who (x - 4) w y).trans (if_neg (by tauto))

/-! ## Discarded writes (R382) -/

/-- A register after a record is set. -/
theorem State.reg_setRecord (s : State) (x v y : Nat) : (s.setRecord x v).reg y = if y = x then v % 2 ^ 32 else s.reg y := by
  rw [State.setRecord, State.reg_setReg]
  split <;> rfl

/-- HQ_DISCARD_LAST of a discarded write (R386). -/
def discardWord (bar off reason : Nat) : Nat := 2 ^ 31 + 2 ^ 28 * reason + (if bar = 2 then 2 ^ 27 else 0) + off % 2 ^ 26

/-- The count and the record of a function's discarded write. -/
def State.discardNoted (s : State) (who w : Nat) : State := (s.count (hqBase who + 4)).setRecord (hqBase who + 8) w

theorem State.discardNoted_eq (s : State) (who w : Nat) :
    s.discardNoted who w = { s with regs := (s.discardNoted who w).regs, fresh := (s.discardNoted who w).fresh } := rfl

/-- A function's write is discarded with its count and record, and for the first of a second with an event besides. -/
theorem discard_cases (s : State) {who : Nat} (bar off reason : Nat) (hw : who < 25) :
    s.discard who bar off reason = s.discardNoted who (discardWord bar off reason) ∨
      ∃ f l, s.discard who bar off reason =
        ((s.discardNoted who (discardWord bar off reason)).modFn who f).raise 0x0909 (tagOfFn who) (masterOfFn who) l := by
  have h : s.discard who bar off reason = if ((s.discardNoted who (discardWord bar off reason)).fn who).lastDiscard = some s.second
      then s.discardNoted who (discardWord bar off reason)
      else ((s.discardNoted who (discardWord bar off reason)).modFn who (fun f => { f with lastDiscard := some s.second })).raise 0x0909 (tagOfFn who)
        (masterOfFn who) [(8, who), (8, bar), (32, off), (8, reason)] := if_pos hw
  rw [h]
  split
  · exact .inl rfl
  · exact .inr ⟨_, _, rfl⟩

/-- A discarded write of a function changes registers, what has been counted, the function and the log. -/
theorem State.discard_eq (s : State) {who : Nat} (bar off reason : Nat) (hw : who < 25) :
    s.discard who bar off reason = { s with
      regs := (s.discard who bar off reason).regs, fresh := (s.discard who bar off reason).fresh, fns := (s.discard who bar off reason).fns,
      log := (s.discard who bar off reason).log } := by
  obtain h | ⟨f, l, h⟩ := discard_cases s bar off reason hw
  · rw [h, State.discardNoted_eq]
  · rw [h, State.raise_eq, State.discardNoted_eq]
    rfl

theorem State.reg_discardNoted (s : State) (who w y : Nat) :
    (s.discardNoted who w).reg y =
      if y = hqBase who + 8 then w % 2 ^ 32 else if y = hqBase who + 4 then min (s.reg (hqBase who + 4) + 1) 0xFFFFFFFF else s.reg y := by
  rw [State.discardNoted, State.reg_setRecord, State.reg_count]

/-- A register after a function's write is discarded: the count and the record, and the log's drop counter apart every other is as before. -/
theorem State.reg_discard (s : State) {who : Nat} (bar off reason y : Nat) (hw : who < 25) (hy : y ≠ logBase + 4) :
    (s.discard who bar off reason).reg y =
      if y = hqBase who + 8 then discardWord bar off reason % 2 ^ 32
      else if y = hqBase who + 4 then min (s.reg (hqBase who + 4) + 1) 0xFFFFFFFF else s.reg y := by
  rw [← State.reg_discardNoted]
  obtain h | ⟨f, l, h⟩ := discard_cases s bar off reason hw
  · rw [h]
  · rw [h, State.reg_raise _ _ _ _ _ _ hy, State.modFn_reg]

/-- A discarded write of a function changes no other function. -/
theorem onlyFn_discard (s : State) {who : Nat} (bar off reason : Nat) (hw : who < 25) : OnlyFn s (s.discard who bar off reason) who := by
  intro g hg
  obtain h | ⟨f, l, h⟩ := discard_cases s bar off reason hw
  · rw [h]
    rfl
  · rw [h, State.raise_fn, State.fn_modFn, if_neg (fun hc => hg hc.1)]
    rfl

/-- A write of a row, at a block that the writer may access. -/
theorem writeAs_accessible {s : State} {a : RegAccess} {row : WriteRow} (hrow : s.rowOfWrite a = row) (hacc : s.accessible a.who = true) :
    s.writeAs row a = s.writeAt a := by rw [State.writeAs, if_neg (not_not.mpr hrow), if_pos hacc]

/-- Settles O31: the record is two register updates and an event, and each cause ends its write there. -/
theorem discardedWritesRecorded : Obligations.DiscardedWritesRecorded := by
  unfold Obligations.DiscardedWritesRecorded
  refine ⟨fun s who bar off reason hw hreason hbar => ?_, fun a s hacc hrow => ?_, fun a s hacc hs => ?_,
    fun a s hacc hrow hs hup hbad hl1 hvf hw => ?_⟩
  · have h4 : hqBase who + 4 ≠ logBase + 4 := by simp only [hqBase, logBase]; omega
    have h8 : hqBase who + 8 ≠ logBase + 4 := by simp only [hqBase, logBase]; omega
    refine ⟨?_, ?_, fun y hy => ?_, onlyFn_discard _ _ _ _ hw, State.discard_eq _ _ _ _ hw⟩
    · rw [State.reg_discard _ _ _ _ _ hw h4, if_neg (by omega), if_pos rfl]
    · rw [State.reg_discard _ _ _ _ _ hw h8, if_pos rfl, discardWord, Nat.mod_eq_of_lt hreason]
      split <;> omega
    · simp only [List.mem_cons, List.not_mem_nil, or_false, not_or] at hy
      rw [State.reg_discard _ _ _ _ _ hw hy.2.2, if_neg hy.2.1, if_neg hy.1]
  · have hex : exec (.registerWrite a) s = .next (s.writeAt a) := congrArg _ (writeAs_accessible hrow hacc)
    rw [hex]
    refine ⟨fun hp => ?_, fun hp hb hm => ?_, fun hp hb hx => ?_, fun x hp hb hx => ⟨fun r href hr hh => ⟨fun hl => ?_, fun hl he => ?_⟩, fun y href => ?_⟩⟩
    · simp [State.writeAt, hp]
    · simp [State.writeAt, hp, hb, spotOf_arrive, hm]
    · rw [writeAt_whole hp hb, State.placeWrite, spotOf_arrive, hx]
    · rw [writeAt_register_allowed hp hb hx hr href, putReg_locked hr hh hl]
    · rw [writeAt_register_allowed hp hb hx hr href, putReg_illegal hr hh hl he]
    · rw [writeAt_register_refused hp hb hx href]
  · show Host.Outcome.next (s.writeAs .register a) = _
    simp [State.writeAs, hacc, State.hold, hs]
  · show Host.Outcome.next (s.writeAs .register a) = _
    simp [State.writeAs, hacc, hrow, State.hold, hs, hup, hbad, hl1, hvf, hw]

end Sys2Proof.Machine

namespace Sys2Proof.Machine

open Sys2Proof

/-! ## Words and bytes of a read (R10) -/

theorem and_allOnes (v : Nat) : v &&& 0xFFFFFFFF = v % 2 ^ 32 := Nat.and_two_pow_sub_one_eq_mod v 32

/-- All four byte enables give the word. -/
theorem enabledBytes_all (v : Nat) : enabledBytes 15 v = v % 2 ^ 32 := by
  simp only [enabledBytes, bits, bit, List.range_succ, List.range_zero, Nat.shiftRight_eq_div_pow]
  norm_num [Nat.testBit_succ]
  omega

theorem enabledBytes_zero (be : Nat) : enabledBytes be 0 = 0 := by
  simp [enabledBytes, bits, List.range_succ]

/-! ## Reads that reach a register -/

/-- A read that reaches its register delivers what the register answers, as the row of the table that it is. -/
theorem readAs_reads {s : State} {a : RegAccess} {x : Nat} {r : RegRow} {row : ReadRow} (h : Reads s a x r) (hrow : s.rowOfRead a = row) :
    s.readAs row a = ((s.atReg a x).readReg a.who x).2.deliver a ((s.atReg a x).readReg a.who x).1 := by
  obtain ⟨hacc, hx, hr, href⟩ := h
  rw [State.readAs, if_neg (not_not.mpr hrow), if_pos hacc]
  simp only [State.readAt, spotOf_arrive, hx, check_register_allowed hr href]
  rfl

/-- The row of a read of a register: a low half is latched or drawn. -/
theorem rowOfRead_register {s : State} {a : RegAccess} {x : Nat} {r : RegRow} (hx : s.spotOf a = .register x) (hr : regRow x = some r) :
    s.rowOfRead a = if r.half = .low then if within x 0x30000 0x318FF then .random else .low else .register := by
  simp [State.rowOfRead, hx, hr]

/-- REGISTER_READ_CLEAR of a single register delivers its value and clears its RC fields. -/
theorem registerReadClear_single {s : State} {a : RegAccess} {x : Nat} {r : RegRow} (h : Reads s a x r) (hh : r.half = .single) :
    exec (.registerReadClear a) s = .next (((s.atReg a x).readClears r x).deliver a ((s.atReg a x).valueRead r x)) := by
  obtain ⟨-, hx, hr, -⟩ := id h
  show Host.Outcome.next (s.readAs .register a) = _
  rw [readAs_reads h (by rw [rowOfRead_register hx hr, if_neg (by simp [hh])])]
  simp only [State.readReg, hr, hh]

/-- REGISTER_READ_CLEAR of a high half delivers what the reader has latched. -/
theorem registerReadClear_high {s : State} {a : RegAccess} {x : Nat} {r : RegRow} (h : Reads s a x r) (hh : r.half = .high) :
    exec (.registerReadClear a) s = .next ((s.atReg a x).deliver a ((s.atReg a x).latched a.who (x - 4))) := by
  obtain ⟨-, hx, hr, -⟩ := id h
  show Host.Outcome.next (s.readAs .register a) = _
  rw [readAs_reads h (by rw [rowOfRead_register hx hr, if_neg (by simp [hh])])]
  simp only [State.readReg, hr, hh]

/-- LO_READ of a pair outside the random number registers delivers the low half and latches the high one. -/
theorem loRead_pair {s : State} {a : RegAccess} {x : Nat} {r : RegRow} (h : Reads s a x r) (hh : r.half = .low) (hw : within x 0x30000 0x318FF = false) :
    exec (.loRead a) s = .next (((s.atReg a x).latch a.who x ((s.atReg a x).regValue (x + 4))).deliver a ((s.atReg a x).regValue x)) := by
  obtain ⟨-, hx, hr, -⟩ := id h
  show Host.Outcome.next (s.readAs .low a) = _
  rw [readAs_reads h (by rw [rowOfRead_register hx hr, if_pos hh, if_neg (by simp [hw])])]
  simp only [State.readReg, hr, hh, hw]
  rfl

/-- RNG_DATA_READ delivers four bytes of the block's DRBG and latches its state, or counts an underflow. -/
theorem rngDataRead_low {s : State} {a : RegAccess} {x : Nat} {r : RegRow} (h : Reads s a x r) (hh : r.half = .low) (hw : within x 0x30000 0x318FF = true) :
    exec (.rngDataRead a) s = .next (((s.atReg a x).readReg a.who x).2.deliver a ((s.atReg a x).readReg a.who x).1) := by
  obtain ⟨-, hx, hr, -⟩ := id h
  show Host.Outcome.next (s.readAs .random a) = _
  rw [readAs_reads h (by rw [rowOfRead_register hx hr, if_pos hh, if_pos hw])]

/-! ## Read-and-clear (R15, R17) -/

/-- The bits of an RC field after a read: what this tick has counted there; the others as before. -/
theorem State.reg_readClears {x : Nat} {r : RegRow} (s : State) (hr : regRow x = some r) (hk : kindOf x ≠ .thmMax) :
    (s.readClears r x).reg x =
      ((s.reg x) &&& (0xFFFFFFFF ^^^ r.mask (fun y => y == .rc))) ||| (((s.freshAt x).getD (0, 0)).1 &&& r.mask (fun y => y == .rc)) := by
  have hm := mask_lt hr (fun y => y == .rc)
  have hword : ∀ n : Nat, (s.reg x &&& n) ||| (((s.freshAt x).getD (0, 0)).1 &&& r.mask (fun y => y == .rc)) < 2 ^ 32 := fun n =>
    Nat.or_lt_two_pow (lt_of_le_of_lt Nat.and_le_left (s.reg_lt x)) (lt_of_le_of_lt Nat.and_le_right hm)
  by_cases h0 : r.mask (fun y => y == .rc) = 0
  · simp only [State.readClears, h0, reduceIte, Nat.xor_zero, Nat.and_zero, Nat.or_zero, and_allOnes]
    exact (Nat.mod_eq_of_lt (s.reg_lt x)).symm
  · rw [← Nat.mod_eq_of_lt (hword _)]
    simp only [State.readClears, h0, reduceIte, hk]
    cases s.freshAt x with
    | none => simp
    | some e => simp

/-- A read-and-clear touches one register and what has been counted. -/
theorem State.readClears_eq (s : State) (r : RegRow) (x : Nat) :
    s.readClears r x = { s with regs := (s.readClears r x).regs, fresh := (s.readClears r x).fresh } := by
  unfold State.readClears
  dsimp only
  (repeat' split) <;> rfl

theorem onlyRegs_readClears (s : State) (r : RegRow) (x : Nat) : OnlyRegs s (s.readClears r x) [x] := by
  intro y hy
  have hyx : y ≠ x := by simpa using hy
  unfold State.readClears
  dsimp only
  (repeat' split) <;> simp [State.reg_setReg_ne _ _ _ _ hyx]

/-- Without an increment in this tick the value read is the register's. -/
theorem State.valueRead_of_not_fresh {s : State} {x : Nat} (r : RegRow) (h : s.freshAt x = none) : s.valueRead r x = s.regValue x := by
  simp only [State.valueRead, h]

/-! ## Counters (R17) -/

/-- The row of a counter: one field, cleared by reading, of 32 bits. -/
def RegRow.isCounter (r : RegRow) : Prop := r.flds = [⟨31, 0, .rc, 0⟩]

/-- A mask of a counter's row is all ones or none. -/
theorem mask_counter {r : RegRow} (h : r.isCounter) (t : Acc → Bool) : r.mask t = if t .rc then 0xFFFFFFFF else 0 := by
  unfold RegRow.isCounter at h
  simp [RegRow.mask, h]

theorem State.freshAt_noteFresh_self (s : State) (x n before : Nat) : (s.noteFresh x n before).freshAt x = some (n, before) := by
  simp [State.noteFresh, State.freshAt, look_put]

/-- Counting is noted for its tick, with the value before it. -/
theorem freshAt_count {s : State} {x : Nat} (h : s.freshAt x = none) : (s.count x).freshAt x = some (1, s.reg x) := by
  show (s.noteCount x 1).freshAt x = _
  simp [State.noteCount, h, State.freshAt_noteFresh_self]

/-- A write of a counter leaves what this tick has counted. -/
theorem written_counter {r : RegRow} (h : r.isCounter) (s : State) (x old v : Nat) :
    r.written old v ||| s.survives r x = ((s.freshAt x).getD (0, 0)).1 % 2 ^ 32 := by
  simp [RegRow.written, RegRow.writable, State.survives, mask_counter h, and_allOnes, show (Acc.rc == Acc.ro) = false from rfl,
    show (Acc.rc == Acc.wo) = false from rfl, show (Acc.rc == Acc.rw) = false from rfl, show (Acc.rc == Acc.rwl) = false from rfl,
    show (Acc.rc == Acc.w1c) = false from rfl]

/-- A counter after a read: what this tick has counted. -/
theorem State.reg_readClears_counter {x : Nat} {r : RegRow} (s : State) (hr : regRow x = some r) (hc : r.isCounter) (hk : kindOf x ≠ .thmMax) :
    (s.readClears r x).reg x = ((s.freshAt x).getD (0, 0)).1 % 2 ^ 32 := by
  rw [State.reg_readClears s hr hk]
  simp [mask_counter hc, and_allOnes]

/-- The value of a counter of the register file is its word. -/
theorem regValue_counter {s : State} {x : Nat} {r : RegRow} (hr : regRow x = some r) (hc : r.isCounter) (hv : s.viewOf x = none) : s.regValue x = s.reg x := by
  simp only [State.regValue, hr, hv, mask_counter hc, Option.getD_none]
  exact (and_allOnes _).trans (Nat.mod_eq_of_lt (s.reg_lt x))

/-- A counter that has counted in this tick is read as it was before. -/
theorem valueRead_counter {s : State} {x n b : Nat} {r : RegRow} (hc : r.isCounter) (hf : s.freshAt x = some (n, b)) :
    s.valueRead r x = b % 2 ^ 32 := by
  simp [State.valueRead, hf, mask_counter hc, and_allOnes]

/-- A cleared counter counts one. -/
theorem reg_count_of_zero {s : State} {x : Nat} (h : s.reg x = 0) : (s.count x).reg x = 1 := by
  simp [State.reg_count, h]

/-- A word of a read with all four byte enables. -/
theorem deliver_all {s : State} {a : RegAccess} (v : Nat) (h : a.be = 15) : (s.deliver a v).out = s.out ++ [.readData a.who (BitVec.ofNat 32 v)] := by
  have hw : BitVec.ofNat 32 (v % 2 ^ 32) = BitVec.ofNat 32 v := BitVec.eq_of_toNat_eq (by simp)
  rw [State.deliver, h, enabledBytes_all, hw]
  rfl

/-- Settles O29: for a counter's row every mask is all ones or none, so a write or read leaves what the tick has counted. -/
theorem countersSaturate : Obligations.CountersSaturate := by
  unfold Obligations.CountersSaturate
  intro x r hr hc hh hk
  refine ⟨fun s => ⟨?_, ?_, freshAt_count⟩, fun a s h => ?_, ?_⟩
  · rw [State.reg_count, if_pos rfl]
  · have := s.reg_lt x
    omega
  · refine ⟨_, registerWrite_plain h hk hh, onlyRegs_setReg _ _ _, fun hf => ?_, fun b hf => ?_⟩
    · have h0 : ((s.atReg a x).setReg x (r.written ((s.atReg a x).reg x) a.value.toNat ||| (s.atReg a x).survives r x)).reg x = 0 := by
        rw [State.reg_setReg_self, written_counter hc, hf]
        rfl
      exact ⟨h0, reg_count_of_zero h0⟩
    · rw [State.reg_setReg_self, written_counter hc, hf]
      rfl
  · intro a s h hbe u hv
    have hreg : (u.readClears r x).reg x = ((u.freshAt x).getD (0, 0)).1 % 2 ^ 32 := u.reg_readClears_counter hr hc (by simp [hk])
    have hout : ∀ v, ((u.readClears r x).deliver a v).out = u.out ++ [.readData a.who (BitVec.ofNat 32 v)] := fun v => by
      rw [deliver_all v hbe, State.readClears_eq]
    refine ⟨_, registerReadClear_single h hh, fun y hy => onlyRegs_readClears u r x y hy, fun hf => ⟨?_, ?_⟩, fun b hf => ⟨?_, ?_⟩⟩
    · rw [hout, State.valueRead_of_not_fresh r hf, regValue_counter hr hc hv]
      simp [State.reg]
    · have h0 : ((u.readClears r x).deliver a (u.valueRead r x)).reg x = 0 := by
        refine hreg.trans ?_
        rw [hf]
        rfl
      exact ⟨h0, reg_count_of_zero h0⟩
    · rw [hout, valueRead_counter hc hf]
      congr 3
      exact BitVec.eq_of_toNat_eq (by simp)
    · refine hreg.trans ?_
      rw [hf]
      rfl

end Sys2Proof.Machine

namespace Sys2Proof.Machine

open Sys2Proof

/-! ## Draws of a seeded DRBG (R436 to R438, R443) -/

/-- A register after some of its bits are set. -/
theorem State.reg_setBits (s : State) (x hi lo v y : Nat) :
    (s.setBits x hi lo v).reg y =
      if y = x then (((s.reg x) &&& (0xFFFFFFFF ^^^ ((2 ^ (hi + 1 - lo) - 1) <<< lo))) ||| ((v <<< lo) &&& ((2 ^ (hi + 1 - lo) - 1) <<< lo))) % 2 ^ 32
      else s.reg y := by
  rw [State.setBits, State.reg_setReg]
  split <;> rfl

/-- A register that is not written by `setBits` is as before. -/
theorem State.reg_setBits_ne (s : State) (x hi lo v y : Nat) (h : y ≠ x) : (s.setBits x hi lo v).reg y = s.reg y := by
  rw [State.reg_setBits, if_neg h]

/-- The highest bit of a register once it is set. -/
theorem regBits_setBits_top (s : State) (x : Nat) : (s.setBits x 31 31 1).regBits x 31 31 = 1 := by
  have h : ((s.setBits x 31 31 1).reg x).testBit 31 = true := by
    rw [State.reg_setBits, if_pos rfl, Nat.testBit_mod_two_pow, Nat.testBit_or, Bool.or_eq_true_iff.mpr (.inr (by decide))]
    rfl
  simp only [State.regBits, bits]
  rw [Nat.testBit, Nat.one_and_eq_mod_two] at h
  simpa using h

/-- What a draw from a DRBG may change: that DRBG, and the counts and the event of a reseed. -/
structure DrawsOnly (s t : State) (b : Nat) : Prop where
  drbg : OnlyDrbg s t b
  regs : OnlyRegs s t [rngBase b + 0x14, rngBase b + 0x1C, logBase + 4]
  wells : t.wells = s.wells
  lantus : t.lantus = s.lantus
  out : t.out = s.out

theorem DrawsOnly.trans {s t u : State} {b : Nat} (h : DrawsOnly s t b) (k : DrawsOnly t u b) : DrawsOnly s u b where
  drbg c hc := (k.drbg c hc).trans (h.drbg c hc)
  regs x hx := (k.regs x hx).trans (h.regs x hx)
  wells := k.wells.trans h.wells
  lantus := k.lantus.trans h.lantus
  out := k.out.trans h.out

theorem drawsOnly_modDrbg (s : State) (b : Nat) (f : Drbg → Drbg) : DrawsOnly s (s.modDrbg b f) b where
  drbg c hc := by rw [State.drbg_modDrbg, if_neg (fun h => hc h.1)]
  regs _ _ := rfl
  wells := rfl
  lantus := rfl
  out := rfl

theorem drawsOnly_count (s : State) (b : Nat) {x : Nat} (h : x ∈ [rngBase b + 0x14, rngBase b + 0x1C, logBase + 4]) : DrawsOnly s (s.count x) b where
  drbg _ _ := rfl
  regs y hy := by rw [State.reg_count, if_neg (fun hyx : y = x => hy (hyx ▸ h))]
  wells := rfl
  lantus := rfl
  out := rfl

theorem drawsOnly_raise (s : State) (b code part src : Nat) (l : List (Nat × Nat)) : DrawsOnly s (s.raise code part src l) b where
  drbg _ _ := State.raise_drbg _ _ _ _ _ _
  regs y hy := State.reg_raise _ _ _ _ _ _ (fun h => hy (by simp [h]))
  wells := by simp
  lantus := by simp
  out := by simp

theorem drawsOnly_modRound (s : State) (b p : Nat) (f : Round → Round) : DrawsOnly s (s.modRound p f) b where
  drbg _ _ := rfl
  regs _ _ := rfl
  wells := rfl
  lantus := rfl
  out := rfl

/-- A seeded DRBG is one of the machine's. -/
theorem drbg_length_of_seeded {s : State} {b : Nat} (h : (s.drbg b).state = .seeded) : b < s.drbgs.length := by
  by_contra hb
  rw [State.drbg, List.getD_eq_default _ _ (by omega)] at h
  cases h

/-- A reseed of a seeded DRBG restarts its count. -/
theorem reseed_seeded {s : State} {b : Nat} (h : (s.drbg b).state = .seeded) :
    DrawsOnly s (s.reseed b) b ∧ ((s.reseed b).drbg b).state = .seeded ∧ ((s.reseed b).drbg b).count = 0 := by
  have hb := drbg_length_of_seeded h
  unfold State.reseed
  extract_lets d kv s1 s2
  have h1 : DrawsOnly s s1 b := (drawsOnly_modDrbg _ _ _).trans (drawsOnly_count _ _ (by simp))
  have hd1 : s1.drbg b = { (s.drbg b).goto .seeded with key := kv.1, v := kv.2, count := 0, pool := (s.drbg b).pool.drop 2 } := by
    rw [State.count_drbg, State.drbg_modDrbg, if_pos ⟨rfl, hb⟩]
  have hs1 : (s1.drbg b).state = .seeded ∧ (s1.drbg b).count = 0 := by
    rw [hd1]
    simp [Drbg.goto, h]
  have h2 : DrawsOnly s s2 b := h1.trans (drawsOnly_count _ _ (by simp))
  have hs2 : s2.drbg b = s1.drbg b := State.count_drbg _ _ _
  clear_value s1 s2
  split
  · split
    · refine ⟨h2.trans ((drawsOnly_modRound _ _ _ _).trans (drawsOnly_raise _ _ _ _ _ _)), ?_⟩
      rw [State.raise_drbg, State.modRound_drbg, hs2]
      exact hs1
    · exact ⟨h2, by rw [hs2]; exact hs1⟩
  · exact ⟨h1, hs1⟩

/-- A seeded DRBG below its limit gives 64 bytes and stays seeded. -/
theorem generate_gives {s : State} {b : Nat} (h : Gives s b) :
    ∃ out t, s.generate b = (some out, t) ∧ (t.drbg b).state = .seeded ∧ DrawsOnly s t b := by
  obtain ⟨hs, hc⟩ := h
  have hmid : ∃ u, (if 65536 ≤ (s.drbg b).count ∧ 2 ≤ (s.drbg b).pool.length then s.reseed b else s) = u ∧ DrawsOnly s u b ∧
      (u.drbg b).state = .seeded ∧ (u.drbg b).count + 2 < 2 ^ 24 := by
    refine ⟨_, rfl, ?_⟩
    split
    · obtain ⟨hd, hst, h0⟩ := reseed_seeded hs
      exact ⟨hd, hst, by rw [h0]; decide⟩
    · exact ⟨⟨fun _ _ => rfl, fun _ _ => rfl, rfl, rfl, rfl⟩, hs, hc⟩
  obtain ⟨u, hu, hd, hst, hcu⟩ := hmid
  have hb := drbg_length_of_seeded hst
  refine ⟨_, _, by rw [State.generate, if_neg (not_not.mpr hs), hu], ?_⟩
  have hv : ∀ f : Drbg → Drbg, (u.modDrbg b f).drbg b = f (u.drbg b) := fun f => by rw [State.drbg_modDrbg, if_pos ⟨rfl, hb⟩]
  rw [State.atLimit, if_pos (by rw [hv]; show (u.drbg b).count + 1 < 2 ^ 24; omega)]
  exact ⟨by rw [hv]; exact hst, hd.trans (drawsOnly_modDrbg _ _ _)⟩

/-- A reader of a seeded DRBG below its limit gets a value. -/
theorem readRandom_gives {s : State} {b : Nat} (h : Gives s b) (who : Nat) :
    ∃ v t, s.readRandom b who = (some v, t) ∧ (t.drbg b).state = .seeded ∧ DrawsOnly s t b := by
  have hs := h.1
  have hstate : ∀ (u : State) (f : Drbg → Drbg), (u.drbg b).state = .seeded → (∀ x, (f x).state = x.state) → ((u.modDrbg b f).drbg b).state = .seeded := by
    intro u f hu hf
    rw [State.drbg_modDrbg, if_pos ⟨rfl, drbg_length_of_seeded hu⟩, hf, hu]
  unfold State.readRandom
  dsimp only
  rw [if_neg (not_not.mpr hs)]
  split
  · exact ⟨_, _, rfl, hstate _ _ hs (fun _ => rfl), drawsOnly_modDrbg _ _ _⟩
  · obtain ⟨out, t, hg, ht, hd⟩ := generate_gives h
    rw [hg]
    refine ⟨_, _, rfl, ?_⟩
    rw [if_pos ht]
    exact ⟨hstate _ _ ht (fun _ => rfl), hd.trans (drawsOnly_modDrbg _ _ _)⟩

/-- A reader of a DRBG that is not seeded gets nothing. -/
theorem readRandom_not_seeded {s : State} {b : Nat} (h : (s.drbg b).state ≠ .seeded) (who : Nat) : s.readRandom b who = (none, s) := if_pos h

/-! ## RNG_DATA -/

/-- What an underflow of RNG_DATA changes: it is noted and counted (R443). -/
structure Underflows (s t : State) (b : Nat) : Prop where
  count : t.reg (rngBase b + 0x18) = min (s.reg (rngBase b + 0x18) + 1) 0xFFFFFFFF
  noted : t.regBits (rngBase b) 31 31 = 1
  regs : OnlyRegs s t [rngBase b, rngBase b + 0x18]
  drbgs : t.drbgs = s.drbgs
  out : t.out = s.out

theorem underflows_noted (s : State) (b : Nat) : Underflows s ((s.setBits (rngBase b) 31 31 1).count (rngBase b + 0x18)) b := by
  have hne : rngBase b ≠ rngBase b + 0x18 := by omega
  refine ⟨?_, ?_, fun y hy => ?_, rfl, rfl⟩
  · rw [State.reg_count, if_pos rfl, State.reg_setBits_ne _ _ _ _ _ _ hne.symm]
  · rw [State.regBits, State.reg_count, if_neg hne]
    exact regBits_setBits_top s (rngBase b)
  · simp only [List.mem_cons, List.not_mem_nil, or_false, not_or] at hy
    rw [State.reg_count, if_neg hy.2, State.reg_setBits_ne _ _ _ _ _ _ hy.1]

/-- RNG_DATA_LO of a DRBG that is not seeded reads zero with an underflow. -/
theorem readReg_not_seeded {s : State} {x : Nat} {r : RegRow} (who : Nat) (hr : regRow x = some r) (hh : r.half = .low) (hw : within x 0x30000 0x318FF = true)
    (h : (s.drbg ((x - 0x30000) / 0x100)).state ≠ .seeded) :
    ∃ t w, s.readReg who x = (0, State.latch t who x w) ∧ Underflows s t ((x - 0x30000) / 0x100) := by
  simp only [State.readReg, hr, hh, hw, readRandom_not_seeded h, reduceIte]
  exact ⟨_, _, rfl, underflows_noted _ _⟩

/-- RNG_DATA_LO of a DRBG that gives draws from it. -/
theorem readReg_gives {s : State} {x : Nat} {r : RegRow} (who : Nat) (hr : regRow x = some r) (hh : r.half = .low) (hw : within x 0x30000 0x318FF = true)
    (h : Gives s ((x - 0x30000) / 0x100)) :
    ∃ v t w, s.readReg who x = (v, State.latch t who x w) ∧ (t.drbg ((x - 0x30000) / 0x100)).state = .seeded ∧ DrawsOnly s t ((x - 0x30000) / 0x100) := by
  obtain ⟨v, t, ht, hst, hd⟩ := readRandom_gives h who
  simp only [State.readReg, hr, hh, hw, ht, reduceIte]
  exact ⟨_, _, _, rfl, hst, hd⟩

/-- A read that the check refuses is recorded and delivers zero (R37). -/
theorem readAs_refused {s : State} {a : RegAccess} {x : Nat} {y : RefuseReason} {row : ReadRow} (hacc : s.accessible a.who = true)
    (hx : s.spotOf a = .register x) (h : (s.atReg a x).refuses (accessMaster a.who) x 1 = some y) (hrow : s.rowOfRead a = row) :
    s.readAs row a = ((s.atReg a x).recordRefusal (accessMaster a.who) x y).deliver a 0 := by
  rw [State.readAs, if_neg (not_not.mpr hrow), if_pos hacc]
  simp only [State.readAt, spotOf_arrive, hx, check_register_refused h]
  rfl

/-- Settles O32: each row of a read is one answer of its register, and only RC fields, a latch or a DRBG follow it. -/
theorem registerReadsDelivered : Obligations.RegisterReadsDelivered := by
  unfold Obligations.RegisterReadsDelivered
  refine ⟨fun a x r s h => ?_, fun a x y s hacc hx href hrow => congrArg _ (readAs_refused hacc hx href hrow)⟩
  have hr : regRow x = some r := h.2.2.1
  refine ⟨fun hh hk => ?_, fun hh => registerReadClear_high h hh, fun hh hx => ?_, fun hh hlo hhi => ?_⟩
  · refine ⟨_, registerReadClear_single h hh, ?_, State.reg_readClears _ hr hk, fun hf => State.valueRead_of_not_fresh r hf,
      onlyRegs_readClears _ _ _, ?_⟩
    · rw [State.deliver, State.readClears_eq]
      rfl
    · rw [State.deliver, State.readClears_eq]
      rfl
  · have hw : within x 0x30000 0x318FF = false := by
      simp only [within, Bool.and_eq_false_iff, decide_eq_false_iff_not]
      omega
    refine ⟨_, loRead_pair h hh hw, rfl, ?_, fun w y hwy => ?_, rfl⟩
    · exact (latched_latch _ _ _ _ _ _).trans (if_pos ⟨rfl, rfl⟩)
    · exact (latched_latch _ _ _ _ _ _).trans (if_neg (by tauto))
  · have hw : within x 0x30000 0x318FF = true := by simp [within, hlo, hhi]
    intro b
    refine ⟨fun hns => ?_, fun hg => ?_⟩
    · obtain ⟨t, w, hread, hu⟩ := readReg_not_seeded a.who hr hh hw hns
      rw [rngDataRead_low h hh hw, hread]
      refine ⟨_, rfl, ?_, hu.count, hu.noted, hu.regs, hu.drbgs⟩
      rw [State.deliver, enabledBytes_zero, ← hu.out]
      rfl
    · obtain ⟨v, t, w, hread, hst, hd⟩ := readReg_gives a.who hr hh hw hg
      rw [rngDataRead_low h hh hw, hread]
      refine ⟨_, BitVec.ofNat 32 (enabledBytes a.be v), rfl, ?_, hst, hd.drbg, hd.regs, hd.wells, hd.lantus⟩
      show t.out ++ _ = _
      rw [hd.out]

/-- Settles O1: an empty queue's step is a tick, whose slow state is known. -/
theorem stepRunsFrontCommand : Obligations.StepRunsFrontCommand := by
  unfold Obligations.StepRunsFrontCommand
  refine ⟨fun c s rest h => ?_, fun s h => ⟨fun ht => ?_, fun ht => ⟨tick s, ?_, ?_⟩⟩⟩
  · rw [step, h]
  · rw [step, h]
    simp [tick, ht]
  · rw [step, h]
  · have hd : (tick s).devtime = s.devtime + s.tickLength := by
      rcases tick_slow s ht with h | h <;> exact congrArg Prod.fst h
    exact hd

end Sys2Proof.Machine

namespace Sys2Proof.Machine

open Sys2Proof

/-! ## What staging and filling tiles leave alone: partitions, floor plan, access control, Lantus and power -/

/-- The state that no write of registers or memories touches. -/
def State.ground (s : State) : List Partition × FloorPlan × Access × Lantus × Power := (s.parts, s.plan, s.access, s.lantus, s.power)

/-- A fold of operations that leave a reading alone leaves it alone. -/
theorem each_kept {α β : Type} (g : State → β) (s : State) (l : List α) (f : State → α → State) (h : ∀ a ∈ l, ∀ t, g (f t a) = g t) :
    g (s.each l f) = g s := by
  unfold State.each
  induction l generalizing s with
  | nil => rfl
  | cons a l ih => rw [List.foldl_cons, ih _ (fun b hb => h b (List.mem_cons_of_mem a hb)), h a List.mem_cons_self]

@[simp] theorem each_ground {α : Type} (s : State) (l : List α) (f : State → α → State) (h : ∀ t a, (f t a).ground = t.ground) :
    (s.each l f).ground = s.ground := each_kept State.ground s l f (fun a _ t => h t a)

@[simp] theorem ground_ite (c : Prop) [Decidable c] (a b : State) : (if c then a else b).ground = if c then a.ground else b.ground := apply_ite _ _ _ _

@[simp] theorem modWell_ground (s : State) (w : Nat) (f : Well → Well) : (s.modWell w f).ground = s.ground := rfl
@[simp] theorem modTile_ground (s : State) (t : TileRef) (f : Tile → Tile) : (s.modTile t f).ground = s.ground := rfl
@[simp] theorem modFn_ground (s : State) (n : Nat) (f : Function → Function) : (s.modFn n f).ground = s.ground := rfl
@[simp] theorem modQueue_ground (s : State) (n q : Nat) (f : Queue → Queue) : (s.modQueue n q f).ground = s.ground := rfl
@[simp] theorem modSource_ground (s : State) (n : Nat) (f : Source → Source) : (s.modSource n f).ground = s.ground := rfl
@[simp] theorem modDrbg_ground (s : State) (n : Nat) (f : Drbg → Drbg) : (s.modDrbg n f).ground = s.ground := rfl
@[simp] theorem draw_ground (s : State) : s.draw.2.ground = s.ground := rfl
@[simp] theorem setReg_ground (s : State) (x v : Nat) : (s.setReg x v).ground = s.ground := rfl
@[simp] theorem setReg64_ground (s : State) (x v : Nat) : (s.setReg64 x v).ground = s.ground := rfl
@[simp] theorem setBits_ground (s : State) (x hi lo v : Nat) : (s.setBits x hi lo v).ground = s.ground := rfl
@[simp] theorem count_ground (s : State) (x : Nat) : (s.count x).ground = s.ground := rfl
@[simp] theorem setRecord_ground (s : State) (x v : Nat) : (s.setRecord x v).ground = s.ground := rfl
@[simp] theorem clearRegs_ground (s : State) (lo hi : Nat) : (s.clearRegs lo hi).ground = s.ground := rfl
@[simp] theorem stage_ground (s : State) (who lo v : Nat) : (s.stage who lo v).ground = s.ground := rfl
@[simp] theorem unstage_ground (s : State) (who lo : Nat) : (s.unstage who lo).ground = s.ground := rfl
@[simp] theorem emit_ground (s : State) (o : Output) : (s.emit o).ground = s.ground := rfl

@[simp] theorem raise_ground (s : State) (code part src : Nat) (l : List (Nat × Nat)) : (s.raise code part src l).ground = s.ground := by
  rw [State.raise_eq]
  rfl

@[simp] theorem msix_ground (s : State) (f v : Nat) : (s.msix f v).ground = s.ground := by
  rw [State.msix_eq]
  rfl

@[simp] theorem hostWrite_ground (s : State) (f a : Nat) (b : Bytes) : (s.hostWrite f a b).ground = s.ground := by
  simp [State.hostWrite]

@[simp] theorem complete_ground (s : State) (c : Cmd) (st : Status) (result detail : Nat) : (s.complete c st result detail).ground = s.ground := by
  unfold State.complete
  dsimp only
  split
  · rfl
  · rw [msix_ground, modQueue_ground, hostWrite_ground]
    rfl

@[simp] theorem putFields_ground (s : State) (x v : Nat) : (s.putFields x v).ground = s.ground := by
  unfold State.putFields
  split <;> rfl

@[simp] theorem regPut_ground (s : State) (who x v : Nat) : (s.regPut who x v).ground = s.ground := by
  unfold State.regPut
  split <;> simp

@[simp] theorem putPresets_ground (s : State) (p : Nat) (b : Bytes) : (s.putPresets p b).ground = s.ground := by
  refine each_ground _ _ _ (fun t e => ?_)
  split <;> simp

/-! ### Memory -/

@[simp] theorem putBucket_ground (s : State) (lp : Bool) (w b : Nat) (data : Bytes) : (s.putBucket lp w b data).ground = s.ground := rfl

@[simp] theorem bankRead_ground (s : State) (lp : Bool) (w b : Nat) : (s.bankRead lp w b).2.ground = s.ground := by
  unfold State.bankRead
  split
  · rfl
  · split
    · rfl
    · exact draw_ground s

@[simp] theorem cisUncorrectable_ground (s : State) (w b kind : Nat) : (s.cisUncorrectable w b kind).ground = s.ground := by
  rw [State.cisUncorrectable, raise_ground, setRecord_ground, count_ground]

@[simp] theorem lpxReadFails_ground (s : State) (w b : Nat) : (s.lpxReadFails w b).ground = s.ground := by
  rw [State.lpxReadFails, modWell_ground, State.lpxUncorrectable, raise_ground, setReg64_ground, count_ground]

@[simp] theorem writeBack_ground (s : State) (lp : Bool) (w : Nat) (e : MergeEntry) : (s.writeBack lp w e).ground = s.ground := by
  unfold State.writeBack
  dsimp only
  split
  · rw [modWell_ground, putBucket_ground, cisUncorrectable_ground, count_ground, bankRead_ground]
  · rw [putBucket_ground, count_ground, bankRead_ground]

@[simp] theorem settleEntry_ground (s : State) (lp : Bool) (w b : Nat) : (s.settleEntry lp w b).ground = s.ground := by
  unfold State.settleEntry
  split
  · exact writeBack_ground _ _ _ _
  · rfl

@[simp] theorem bucketRead_ground (s : State) (lp : Bool) (w b kind : Nat) : (s.bucketRead lp w b kind).2.2.ground = s.ground := by
  have h : ((s.settleEntry lp w b).bankRead lp w b).2.ground = s.ground := (bankRead_ground _ _ _ _).trans (settleEntry_ground _ _ _ _)
  unfold State.bucketRead
  dsimp only
  (repeat' split)
  · rw [lpxReadFails_ground, h]
  · exact h
  · rw [cisUncorrectable_ground, h]
  · exact h

@[simp] theorem readBuckets_ground (s : State) (kind n addr : Nat) : (s.readBuckets kind n addr).2.2.ground = s.ground := by
  induction n generalizing s addr with
  | zero => rfl
  | succ n ih =>
    unfold State.readBuckets
    split <;> simp [ih]

/-! ### Tables and tiles -/

@[simp] theorem loadTable_ground (s : State) (t : TileRef) (k : Nat) : (s.loadTable t k).ground = s.ground := by
  unfold State.loadTable
  split <;> simp

@[simp] theorem installTiles_ground (s : State) (p : Nat) (b : Bytes) : (s.installTiles p b).ground = s.ground := by
  refine each_ground _ _ _ (fun t e => each_ground _ _ _ (fun u k => ?_))
  exact (each_ground _ _ _ (fun v d => by simp)).trans (by simp)

@[simp] theorem stageSections_ground (s : State) (p : Nat) (b : Bytes) : (s.stageSections p b).ground = s.ground := by
  refine each_ground _ _ _ (fun t e => each_ground _ _ _ (fun u x => each_ground _ _ _ (fun v c => ?_)))
  simp

@[simp] theorem putPrimes_ground (s : State) (p : Nat) (b : Bytes) : (s.putPrimes p b).ground = s.ground := by
  unfold State.putPrimes
  split
  · rfl
  · rw [raise_ground, setReg_ground]
    exact each_ground _ _ _ (fun t w => each_ground _ _ _ (fun u k => each_ground _ _ _ (fun v e => rfl)))

/-- The lookup tables written into the image areas. -/
def State.writeLookups (s : State) (p : Nat) (b : Bytes) : State :=
  let q := s.params p
  let l := (imageLookups b q).getD []
  let ps := imagePrimes b
  s.each ((s.wellsOf p).zip (List.range 24)) (fun t e =>
    t.each (List.range 24) (fun u k =>
      u.each (((tileParts (tileBody b e.2 k)).dir.map dirEntry).filter (fun d => d.kind == 4)) (fun v d =>
        match l.find? (fun x => x.index == d.index) with
        | some x =>
          let poly := x.poly (bits q.rfs 12 9) (bits q.rfs 16 13) (bits q.rfs 18 17) (ps.headD 1) (ps.getD 1 1)
          let base := (wellRecord (wellBody b e.2)).areaBase + d.area
          v.each ((chunks 64 poly).zip (List.range d.rows)) (fun y c => y.putBucket false e.1 (base + c.2) c.1)
        | none => v)))

/-- The tables are written, and where the image has any their number and CRC are set and an event raised. -/
theorem putLookups_cases (s : State) (p : Nat) (b : Bytes) :
    s.putLookups p b = s.writeLookups p b ∨
      ∃ n crc l, s.putLookups p b = (((s.writeLookups p b).setReg (rfsBase p + 8) n).setReg (rfsBase p + 0xC) crc).raise 0x0404 p 0 l := by
  unfold State.putLookups
  dsimp only
  split
  · exact .inl rfl
  · exact .inr ⟨_, _, _, rfl⟩

@[simp] theorem writeLookups_ground (s : State) (p : Nat) (b : Bytes) : (s.writeLookups p b).ground = s.ground := by
  refine each_ground _ _ _ (fun t e => each_ground _ _ _ (fun u k => each_ground _ _ _ (fun v d => ?_)))
  split
  · exact each_ground _ _ _ (fun y c => rfl)
  · rfl

@[simp] theorem putLookups_ground (s : State) (p : Nat) (b : Bytes) : (s.putLookups p b).ground = s.ground := by
  obtain h | ⟨n, crc, l, h⟩ := putLookups_cases s p b <;> simp [h]

@[simp] theorem imageRegs_ground (s : State) (p : Nat) (b : Bytes) : (s.imageRegs p b).ground = s.ground := by
  unfold State.imageRegs
  dsimp only
  rw [each_ground _ _ _ (fun t k => setReg_ground _ _ _), setBits_ground, setReg_ground, setReg64_ground]

@[simp] theorem imageRecord_ground (s : State) (p : Nat) (st : Status) (check sec : Nat) : (s.imageRecord p st check sec).ground = s.ground := by
  rw [State.imageRecord, raise_ground, setRecord_ground, count_ground, setBits_ground, setBits_ground]

@[simp] theorem clearAreas_ground (s : State) (p : Nat) : (s.clearAreas p).ground = s.ground := by
  refine each_ground _ _ _ (fun t w => ?_)
  split <;> rfl

end Sys2Proof.Machine

namespace Sys2Proof.Machine

open Sys2Proof

/-! ## What a partition's commands leave alone: other partitions, floor plan, access control, Lantus and power -/

/-- Of partitions, floor plan, access control, Lantus and power only one partition may differ. -/
structure PartScope (s t : State) (p : Nat) : Prop where
  others : OnlyPart s t p
  length : t.parts.length = s.parts.length
  plan : t.plan = s.plan
  access : t.access = s.access
  lantus : t.lantus = s.lantus
  power : t.power = s.power

theorem PartScope.trans {s t u : State} {p : Nat} (h : PartScope s t p) (k : PartScope t u p) : PartScope s u p where
  others q hq := (k.others q hq).trans (h.others q hq)
  length := k.length.trans h.length
  plan := k.plan.trans h.plan
  access := k.access.trans h.access
  lantus := k.lantus.trans h.lantus
  power := k.power.trans h.power

theorem parts_of_ground {s t : State} (h : t.ground = s.ground) : t.parts = s.parts := congrArg Prod.fst h

theorem part_of_ground {s t : State} (h : t.ground = s.ground) (p : Nat) : t.part p = s.part p := by
  rw [State.part, parts_of_ground h, State.part]

theorem partScope_of_ground {s t : State} (h : t.ground = s.ground) (p : Nat) : PartScope s t p where
  others q _ := part_of_ground h q
  length := congrArg List.length (parts_of_ground h)
  plan := congrArg (fun g => g.2.1) h
  access := congrArg (fun g => g.2.2.1) h
  lantus := congrArg (fun g => g.2.2.2.1) h
  power := congrArg (fun g => g.2.2.2.2) h

theorem partScope_modPart (s : State) (p : Nat) (f : Partition → Partition) : PartScope s (s.modPart p f) p where
  others q hq := by rw [State.part_modPart, if_neg (fun h => hq h.1)]
  length := updAt_length _ _ _
  plan := rfl
  access := rfl
  lantus := rfl
  power := rfl

theorem part_modPart_self {s : State} {p : Nat} (f : Partition → Partition) (hp : p < s.parts.length) : (s.modPart p f).part p = f (s.part p) := by
  rw [State.part_modPart, if_pos ⟨rfl, hp⟩]

/-! ## A load that fails (R293) -/

theorem clearAreas_cmds (s : State) (p : Nat) : (s.clearAreas p).cmds = s.cmds := by
  refine each_kept State.cmds s _ _ (fun w _ t => ?_)
  split <;> rfl

/-- IMG_STATUS, IMG_REFUSE_COUNT and IMG_LAST_REFUSE of a refused or failed load (R299). -/
def State.imageNoted (s : State) (p check code w : Nat) : State :=
  (((s.setBits (imgBase p) 23 16 check).setBits (imgBase p) 15 8 code).count (imgBase p + 0x34)).setRecord (imgBase p + 0x38) w

/-- Registers and what has been counted in them, and nothing else, may differ. -/
def RegsOnly (s t : State) : Prop := t = { s with regs := t.regs, fresh := t.fresh }

theorem RegsOnly.trans {s t u : State} (h : RegsOnly s t) (k : RegsOnly t u) : RegsOnly s u := by
  unfold RegsOnly at h k ⊢
  exact k.trans (congrArg (fun v : State => { v with regs := u.regs, fresh := u.fresh }) h)

theorem regsOnly_setBits (s : State) (x hi lo v : Nat) : RegsOnly s (s.setBits x hi lo v) := rfl

theorem regsOnly_count (s : State) (x : Nat) : RegsOnly s (s.count x) := rfl

theorem regsOnly_setRecord (s : State) (x v : Nat) : RegsOnly s (s.setRecord x v) := rfl

theorem imageNoted_regsOnly (s : State) (p check code w : Nat) : RegsOnly s (s.imageNoted p check code w) :=
  (regsOnly_setBits _ _ _ _ _).trans ((regsOnly_setBits _ _ _ _ _).trans ((regsOnly_count _ _).trans (regsOnly_setRecord _ _ _)))

theorem imageRecord_raises (s : State) (p : Nat) (st : Status) (check sec : Nat) :
    ∃ w l, s.imageRecord p st check sec = (s.imageNoted p check st.code w).raise 0x0705 p 0 l := ⟨_, _, rfl⟩

/-- The record of a refused or failed load changes registers, what has been counted, and the log. -/
theorem imageRecord_eq (s : State) (p : Nat) (st : Status) (check sec : Nat) :
    s.imageRecord p st check sec = { s with
      regs := (s.imageRecord p st check sec).regs, fresh := (s.imageRecord p st check sec).fresh, log := (s.imageRecord p st check sec).log } := by
  obtain ⟨w, l, h⟩ := imageRecord_raises s p st check sec
  rw [h, State.raise_eq, show s.imageNoted p check st.code w = _ from imageNoted_regsOnly s p check st.code w]

theorem onlyRegs_imageRecord (s : State) (p : Nat) (st : Status) (check sec : Nat) :
    OnlyRegs s (s.imageRecord p st check sec) [imgBase p, imgBase p + 0x34, imgBase p + 0x38, logBase + 4] := by
  intro y hy
  simp only [List.mem_cons, List.not_mem_nil, or_false, not_or] at hy
  obtain ⟨h0, h34, h38, hlog⟩ := hy
  obtain ⟨w, l, h⟩ := imageRecord_raises s p st check sec
  rw [h, State.reg_raise _ _ _ _ _ _ hlog, State.imageNoted, State.reg_setRecord, if_neg h38, State.reg_count, if_neg h34,
    State.reg_setBits_ne _ _ _ _ _ _ h0, State.reg_setBits_ne _ _ _ _ _ _ h0]

/-- The image of a partition leaves with its areas, its registers and its arming. -/
theorem dropImage_scope (s : State) (p : Nat) : PartScope s (s.dropImage p) p :=
  (partScope_of_ground (t := s.clearImageRegs p) ((setReg_ground _ _ _).trans (clearRegs_ground _ _ _)) p).trans (partScope_modPart _ _ _)

theorem part_dropImage {s : State} {p : Nat} (hp : p < s.parts.length) : (s.dropImage p).part p = { s.part p with image := {}, armed := false } :=
  part_modPart_self (s := s.clearImageRegs p) _ hp

/-- A failed load before its command completes: areas cleared, image gone, record made. -/
def State.imageDropped (s : State) (p : Nat) (st : Status) (check sec : Nat) : State := ((s.clearAreas p).dropImage p).imageRecord p st check sec

theorem imageDropped_scope (s : State) (p : Nat) (st : Status) (check sec : Nat) : PartScope s (s.imageDropped p st check sec) p :=
  (partScope_of_ground (clearAreas_ground s p) p).trans
    ((dropImage_scope (s.clearAreas p) p).trans (partScope_of_ground (imageRecord_ground _ _ _ _ _) p))

theorem part_imageDropped {s : State} {p : Nat} (st : Status) (check sec : Nat) (hp : p < s.parts.length) :
    (s.imageDropped p st check sec).part p = { s.part p with image := {}, armed := false } := by
  have hg := clearAreas_ground s p
  rw [State.imageDropped, part_of_ground (imageRecord_ground _ _ _ _ _), part_dropImage (by rw [parts_of_ground hg]; exact hp), part_of_ground hg]

/-- The failure of a load completes the command that carries it. -/
theorem imageFail_completes {s : State} {p : Nat} {c : Cmd} (h : s.loadCmd p = some c) (st : Status) (check sec : Nat) :
    s.imageFail p st check sec = (s.imageDropped p st check sec).complete c st 0 check := by
  unfold State.loadCmd at h
  split at h
  · rename_i l hl
    have hc : (s.imageDropped p st check sec).cmds = s.cmds := (congrArg State.cmds (imageRecord_eq _ _ _ _ _)).trans (clearAreas_cmds s p)
    simp only [State.imageFail, hl]
    rw [← State.imageDropped, hc, h]
  · cases h

/-- A failed load changes its own partition alone, whether or not its command is still there. -/
theorem imageFail_scope (s : State) (p : Nat) (st : Status) (check sec : Nat) : PartScope s (s.imageFail p st check sec) p := by
  unfold State.imageFail
  split
  · exact partScope_of_ground rfl p
  · have h := imageDropped_scope s p st check sec
    dsimp only
    split
    · exact h.trans (partScope_of_ground (complete_ground _ _ _ _ _) p)
    · exact h

/-! ## Partition reset (R43, R363) -/

@[simp] theorem abortCmds_ground (s : State) (p : Nat) (keep reset : Option CmdRef) : (s.abortCmds p keep reset).ground = s.ground :=
  each_ground _ _ _ (fun _ _ => complete_ground _ _ _ _ _)

theorem resetImage_scope (s : State) (p cause : Nat) : PartScope s (s.resetImage p cause) p := by
  unfold State.resetImage
  split
  · exact partScope_of_ground rfl p
  · exact imageFail_scope s p _ _ _
  · exact (partScope_of_ground (clearAreas_ground s p) p).trans
      ((dropImage_scope (s.clearAreas p) p).trans (partScope_of_ground (raise_ground _ _ _ _ _) p))

theorem tdiError_ground (s : State) (f cause : Nat) : (s.tdiError f cause).ground = s.ground := by
  unfold State.tdiError
  split
  · rw [raise_ground]
    show (ite _ _ _ : State).ground = _
    split <;> rfl
  · rfl

theorem endSession_scope (s : State) {p : Nat} (cause : Nat) (hp : p < 24) : PartScope s (s.endSession p cause) p := by
  have h : ∀ f, PartScope s (s.modSession p f) p := fun f => by
    rw [State.modSession, if_neg (by omega)]
    exact partScope_modPart s p _
  unfold State.endSession
  dsimp only
  split
  · exact h _
  · exact (h _).trans (partScope_of_ground (raise_ground _ _ _ _ _) p)

/-- A session that has ended is NONE. -/
theorem endSession_none {s : State} {p : Nat} (cause : Nat) (hp : p < 24) (hl : p < s.parts.length) :
    ((s.endSession p cause).part p).session.state = .none := by
  have h : ∀ f, ((s.modSession p f).part p).session = f (s.part p).session := fun f => by
    rw [State.modSession, if_neg (by omega), part_modPart_self _ hl]
  unfold State.endSession
  dsimp only
  split
  · rw [h]
  · rw [part_of_ground (raise_ground _ _ _ _ _), h]

theorem resetWellRegs_ground (s : State) (w : Nat) : (s.resetWellRegs w).ground = s.ground := by
  unfold State.resetWellRegs
  dsimp only
  rw [each_ground _ _ _ (fun _ _ => clearRegs_ground _ _ _), clearRegs_ground, each_ground _ _ _ (fun _ _ => clearRegs_ground _ _ _)]

theorem resetPartRegs_ground (s : State) (p : Nat) : (s.resetPartRegs p).ground = s.ground := rfl

theorem rearmSources_ground (s : State) (p : Nat) : (s.rearmSources p).ground = s.ground := by
  unfold State.rearmSources
  dsimp only
  rw [raise_ground, State.formSeed, modDrbg_ground, each_ground _ _ _ (fun _ _ => modSource_ground _ _ _)]

theorem resetStrelul_scope (s : State) (p : Nat) : PartScope s (s.resetStrelul p) p :=
  let h := partScope_modPart s p (fun x => { x with
    regions := x.regions.map (fun (e : Nat × Region) =>
      if e.2.state = .valid ∨ e.2.state = .revoking then (e.1, { state := .unused, generation := nextGeneration e.2.generation : Region }) else e),
    accepted := [], acceptedTaken := false, evqLost := 0 })
  ⟨h.others, h.length, h.plan, h.access, h.lantus, h.power⟩

end Sys2Proof.Machine

namespace Sys2Proof.Machine

open Sys2Proof

/-- What a partition reset leaves of its partition: no round and no session; other partitions are as before. -/
theorem partitionReset_clears (s : State) {p : Nat} (cause ended : Nat) (keep reset : Option CmdRef) (hp : p < 24) (hl : p < s.parts.length) :
    PartScope s (s.partitionReset p cause ended keep reset) p ∧ (s.partitionReset p cause ended keep reset).round p = {} ∧
      ((s.partitionReset p cause ended keep reset).part p).session.state = .none := by
  unfold State.partitionReset
  extract_lets s1 s2 s3 s4 s5
  have hv : s1.ground = ((s.abortCmds p keep reset).resetImage p cause).ground := rfl
  have h1 : PartScope s s1 p := (partScope_of_ground (abortCmds_ground s p keep reset) p).trans
    ((resetImage_scope _ _ _).trans (partScope_of_ground hv p))
  clear_value s1
  have hz : ((s1.zeroIde (p + 1)).tdiError (p + 1) 3).ground = s1.ground := (tdiError_ground _ _ _).trans rfl
  have h2 : PartScope s1 s2 p := (partScope_of_ground hz p).trans (endSession_scope _ ended hp)
  have hs2 : (s2.part p).session.state = .none := endSession_none ended hp (by rw [parts_of_ground hz, h1.length]; exact hl)
  clear_value s2
  have g3 : s3.ground = s2.ground := each_ground _ _ _ (fun t w => (modWell_ground _ _ _).trans (resetWellRegs_ground t w))
  have h3 : PartScope s s3 p := (h1.trans h2).trans (partScope_of_ground g3 p)
  have h3l : p < s3.parts.length := by rw [h3.length]; exact hl
  have hs3 : (s3.part p).session.state = .none := by rw [part_of_ground g3, hs2]
  clear_value s3
  have hr : PartScope s3 (s3.resetStrelul p) p := resetStrelul_scope s3 p
  have hrs : ((s3.resetStrelul p).part p).session.state = .none := by
    show ((s3.modPart p _).part p).session.state = .none
    rw [part_modPart_self _ h3l]
    exact hs3
  have h4 : PartScope s s4 p := (h3.trans hr).trans ((partScope_of_ground (resetPartRegs_ground _ p) p).trans (partScope_modPart _ _ _))
  have h4p : s4.part p = Partition.reset ((s3.resetStrelul p).part p) := by
    have hlen : p < ((s3.resetStrelul p).resetPartRegs p).parts.length := by
      rw [parts_of_ground (resetPartRegs_ground _ _), hr.length]
      exact h3l
    exact (part_modPart_self _ hlen).trans (congrArg _ (part_of_ground (resetPartRegs_ground _ _) p))
  clear_value s4
  have h5 : s5.ground = s4.ground := rearmSources_ground s4 p
  clear_value s5
  have h6 : ({ s5 with lockParts := s5.lockParts.filter (fun q => q ≠ p) } : State).ground = s4.ground := h5
  have h6p := part_of_ground h6 p
  refine ⟨h4.trans (partScope_of_ground h6 p), ?_, ?_⟩
  · rw [State.round, h6p, h4p]
    rfl
  · rw [h6p, h4p]
    exact hrs

/-! ## The command that carries a load -/

/-- What a load reads of its command: whether a read has failed, the bytes that have arrived, and the length. -/
def loadRead (l : List Cmd) (c : CmdRef) : Option (Bool × Bytes × Nat) := (l.find? (fun d => d.is c)).map (fun d => (d.readFailed, d.data, d.length))

theorem Cmd.is_iff (d : Cmd) (r : CmdRef) : d.is r = true ↔ d.ref = r := by
  cases r
  simp [Cmd.is, Cmd.ref, and_assoc]

/-- A command that ends takes no other one with it. -/
theorem loadRead_filter (l : List Cmd) {r c : CmdRef} (h : r ≠ c) : loadRead (l.filter (fun d => !d.is r)) c = loadRead l c := by
  rw [loadRead, loadRead, List.find?_filter]
  congr 2
  funext d
  by_cases hd : d.is c = true
  · have hne : d.is r = false := by
      rw [Bool.eq_false_iff, ne_eq, Cmd.is_iff, (Cmd.is_iff d c).mp hd]
      exact h.symm
    simp [hd, hne]
  · simp [hd]

/-- A change of commands that keeps references, bytes and lengths keeps what a load reads. -/
theorem loadRead_map (l : List Cmd) (c : CmdRef) (f : Cmd → Cmd) (hr : ∀ d, (f d).ref = d.ref)
    (hd : ∀ d, ((f d).readFailed, (f d).data, (f d).length) = (d.readFailed, d.data, d.length)) : loadRead (l.map f) c = loadRead l c := by
  have his : (fun d => (f d).is c) = fun d : Cmd => d.is c := by
    funext d
    rw [Bool.eq_iff_iff, Cmd.is_iff, Cmd.is_iff, hr]
  rw [loadRead, loadRead, List.find?_map, Option.map_map]
  simp only [Function.comp_def, hd, his]

/-- A command that completes is in progress no more. -/
theorem complete_cmds (s : State) (k : Cmd) (st : Status) (result detail : Nat) :
    (s.complete k st result detail).cmds = s.cmds.filter (fun d => !d.is k.ref) := by
  have hw : ∀ (t : State) f a b, (t.hostWrite f a b).cmds = t.cmds := fun t f a b => by
    unfold State.hostWrite
    split <;> rfl
  unfold State.complete
  dsimp only
  split
  · rfl
  · rw [State.msix_eq]
    dsimp only
    rw [State.modQueue_cmds, hw]

end Sys2Proof.Machine

namespace Sys2Proof.Machine

open Sys2Proof

/-! ## A partition reset keeps the command of the load that causes it (R290, R363) -/

theorem loadRead_abortCmds (s : State) (p : Nat) (c : CmdRef) (reset : Option CmdRef) :
    loadRead (s.abortCmds p (some c) reset).cmds c = loadRead s.cmds c := by
  unfold State.abortCmds
  refine each_kept (fun t => loadRead t.cmds c) s _ _ (fun d hd t => ?_)
  have hne : d.ref ≠ c := by
    simp only [List.mem_filter, Bool.and_eq_true, Bool.not_eq_true', Bool.or_eq_false_iff, beq_eq_false_iff_ne, ne_eq, Option.some.injEq] at hd
    exact hd.2.2.1
  show loadRead (t.complete d _ 0 0).cmds c = loadRead t.cmds c
  rw [complete_cmds, loadRead_filter _ hne]

/-- No load is in progress that the reset would end, so commands stay. -/
theorem resetImage_cmds {s : State} {p : Nat} (cause : Nat) (h : (s.part p).image.state ≠ .loading) : (s.resetImage p cause).cmds = s.cmds := by
  unfold State.resetImage
  split
  · rfl
  · contradiction
  · exact (State.raise_cmds _ _ _ _ _).trans (clearAreas_cmds s p)

/-- An orphan command is read by its load as before. -/
theorem loadRead_orphans (l : List Cmd) (c : CmdRef) (test : Cmd → Bool) :
    loadRead (l.map (fun d => if test d then { d with orphan := true } else d)) c = loadRead l c := by
  refine loadRead_map l c _ (fun d => ?_) (fun d => ?_) <;> (split <;> rfl)

theorem loadRead_disableVf (s : State) (p : Nat) (keep : Option CmdRef) (c : CmdRef) : loadRead (s.disableVf p keep).cmds c = loadRead s.cmds c := by
  have h := loadRead_orphans s.cmds c (fun d => decide (d.fn = p + 1 ∧ keep.all (fun k => k.fn != p + 1 || k.q != d.q)))
  simp only [decide_eq_true_eq] at h
  exact h

theorem loadRead_tdiError (s : State) (f : Nat) (c : CmdRef) : loadRead (s.tdiError f 3).cmds c = loadRead s.cmds c := by
  have h := loadRead_orphans s.cmds c (fun d => decide (d.fn = f))
  simp only [decide_eq_true_eq] at h
  unfold State.tdiError
  split
  · rw [State.raise_cmds]
    exact h
  · rfl

theorem endSession_cmds (s : State) (p cause : Nat) : (s.endSession p cause).cmds = s.cmds := by
  have h : ∀ f, (s.modSession p f).cmds = s.cmds := fun f => by
    unfold State.modSession
    split <;> rfl
  unfold State.endSession
  dsimp only
  split
  · exact h _
  · rw [State.raise_cmds, h]

theorem resetWellRegs_cmds (s : State) (w : Nat) : (s.resetWellRegs w).cmds = s.cmds := by
  unfold State.resetWellRegs
  dsimp only
  rw [each_kept State.cmds _ _ _ (fun _ _ _ => State.clearRegs_cmds _ _ _), State.clearRegs_cmds,
    each_kept State.cmds _ _ _ (fun _ _ _ => State.clearRegs_cmds _ _ _)]

theorem resetPartRegs_cmds (s : State) (p : Nat) : (s.resetPartRegs p).cmds = s.cmds := by
  simp only [State.resetPartRegs, State.clearRegs_cmds]

theorem resetStrelul_cmds (s : State) (p : Nat) : (s.resetStrelul p).cmds = s.cmds := rfl

theorem rearmSources_cmds (s : State) (p : Nat) : (s.rearmSources p).cmds = s.cmds := by
  unfold State.rearmSources
  dsimp only
  rw [State.raise_cmds]
  exact each_kept State.cmds s _ _ (fun _ _ _ => rfl)

theorem loadRead_partitionReset {s : State} {p : Nat} (cause ended : Nat) (c : CmdRef) (reset : Option CmdRef) (h : (s.part p).image.state ≠ .loading) :
    loadRead (s.partitionReset p cause ended (some c) reset).cmds c = loadRead s.cmds c := by
  unfold State.partitionReset
  extract_lets s1 s2 s3 s4 s5
  have h1 : loadRead s1.cmds c = loadRead s.cmds c := by
    have hst : ((s.abortCmds p (some c) reset).part p).image.state ≠ .loading := by rwa [part_of_ground (abortCmds_ground _ _ _ _)]
    rw [loadRead_disableVf, resetImage_cmds cause hst, loadRead_abortCmds]
  clear_value s1
  have h2 : loadRead s2.cmds c = loadRead s1.cmds c := by
    rw [endSession_cmds, loadRead_tdiError]
    rfl
  clear_value s2
  have h3 : s3.cmds = s2.cmds := each_kept State.cmds _ _ _ (fun w _ t => (State.modWell_cmds _ _ _).trans (resetWellRegs_cmds t w))
  clear_value s3
  have h4 : s4.cmds = s3.cmds := (State.modPart_cmds _ _ _).trans ((resetPartRegs_cmds _ p).trans (resetStrelul_cmds s3 p))
  clear_value s4
  have h5 : s5.cmds = s4.cmds := rearmSources_cmds s4 p
  show loadRead s5.cmds c = _
  rw [h5, h4, h3, h2, h1]

/-! ## IMAGE_LOAD (R290, R291, R295) -/

/-- A load whose header has not arrived yet only notes the bytes that have. -/
theorem imageArrived_waits {s : State} {p n : Nat} {l : Loading} {b : Bytes} (himg : (s.part p).image.loading = some l)
    (hread : loadRead s.cmds l.cmd = some (false, b, n)) (hb : b.length < 64) (h1 : 1 ≤ n) (hn : n ≤ 1073741824) :
    s.imageArrived p = s.setReg (imgBase p + 0x30) b.length := by
  obtain ⟨k, hk, hcore⟩ := Option.map_eq_some_iff.mp hread
  obtain ⟨hf, rfl, rfl⟩ : k.readFailed = false ∧ k.data = b ∧ k.length = n := by simpa using hcore
  have hload : s.loadCmd p = some k := by simp only [State.loadCmd, himg, hk]
  have hlen : ¬(k.length = 0 ∨ largestLength 2 < k.length) := by
    rw [show largestLength 2 = 1073741824 from rfl]
    omega
  simp only [State.imageArrived, hload, hf, if_neg hlen, hb]
  rfl

/-- A command that may start is the one in progress with its reference. -/
theorem find_of_ready {s : State} {c : CmdRef} {op : Nat} {k : Cmd} (h : s.ready c op = some k) : s.cmds.find? (fun d => d.is c) = some k := by
  unfold State.ready at h
  split at h
  · cases h
  · split at h
    · cases h
    · rename_i d hd
      dsimp only at h
      split at h
      · rw [hd, h]
      · cases h

/-- A load that check 0 accepts finds no load of its partition in progress. -/
theorem not_loading_of_accepted {s : State} {p : Nat} (h : s.imageRefusal p = none) : (s.part p).image.state ≠ .loading := by
  intro hl
  simp [State.imageRefusal, hl] at h

/-- A partition whose image is LOADING. -/
def Partition.takesLoad (l : Loading) (x : Partition) : Partition := { x with image := { state := .loading, loading := some l } }

/-- The start of an accepted load in a partition that has been reset: its command has started, and its image is LOADING (R291). -/
def State.startLoad (v : State) (p : Nat) (l : Loading) : State := (v.startCmd l.cmd).modPart p (Partition.takesLoad l)

theorem startLoad_scope (v : State) (p : Nat) (l : Loading) : PartScope v (v.startLoad p l) p :=
  have hg : (v.startCmd l.cmd).ground = v.ground := rfl
  (partScope_of_ground hg p).trans (partScope_modPart _ _ _)

theorem part_startLoad {v : State} {p : Nat} (l : Loading) (hl : p < v.parts.length) : (v.startLoad p l).part p = (v.part p).takesLoad l :=
  part_modPart_self (s := v.startCmd l.cmd) _ hl

theorem loadRead_startLoad (v : State) (p : Nat) (l : Loading) (c : CmdRef) : loadRead (v.startLoad p l).cmds c = loadRead v.cmds c := by
  refine loadRead_map v.cmds c _ (fun d => ?_) (fun d => ?_) <;> (split <;> rfl)

/-- IMG_STAGED and event 0x0703 of a load that has started. -/
def State.noteLoad (w : State) (p n : Nat) : State := (w.setReg (imgBase p + 0x30) 0).raise 0x0703 p 0 [(8, p), (32, n)]

theorem noteLoad_ground (w : State) (p n : Nat) : (w.noteLoad p n).ground = w.ground := by
  rw [State.noteLoad, raise_ground, setReg_ground]

theorem noteLoad_cmds (w : State) (p n : Nat) : (w.noteLoad p n).cmds = w.cmds := State.raise_cmds _ _ _ _ _

/-- IMAGE_LOAD of a load that check 0 accepts: a reset, a start, a note, and what the bytes that have arrived decide. -/
theorem imageLoad_steps {c : CmdRef} {k : Cmd} {s : State} (hr : s.ready c 0x20 = some k) (hp : k.part < 24) (hacc : s.imageRefusal k.part = none) :
    exec (.imageLoad c) s = .next
      ((((s.partitionReset k.part 2 2 (some c) none).startLoad k.part ⟨c, k.length, s.devtime⟩).noteLoad k.part k.length).imageArrived k.part) := by
  show execImageLoad c s = _
  simp only [execImageLoad, hr, hacc, if_neg (show ¬24 ≤ k.part by omega), State.noteLoad, State.startLoad]
  rfl

/-- The partition of an accepted load: reset, and its image LOADING for the command. -/
theorem imageLoad_accepted {c : CmdRef} {k : Cmd} {s : State} (hr : s.ready c 0x20 = some k) (hp : k.part < 24) (hl : k.part < s.parts.length)
    (hacc : s.imageRefusal k.part = none) (hf : k.readFailed = false) (hb : k.data.length < 64) (h1 : 1 ≤ k.length) (hn : k.length ≤ 1073741824) :
    ∃ t, exec (.imageLoad c) s = .next t ∧ PartScope s t k.part ∧ t.round k.part = {} ∧ (t.part k.part).session.state = .none ∧
      (t.part k.part).image = { state := .loading, loading := some ⟨c, k.length, s.devtime⟩ } := by
  have hex := imageLoad_steps hr hp hacc
  obtain ⟨hs1, hround, hses⟩ := partitionReset_clears s 2 2 (some c) none hp hl
  have hread : loadRead (s.partitionReset k.part 2 2 (some c) none).cmds c = some (false, k.data, k.length) := by
    rw [loadRead_partitionReset 2 2 c none (not_loading_of_accepted hacc), loadRead, find_of_ready hr, Option.map_some, hf]
  generalize s.partitionReset k.part 2 2 (some c) none = v at hs1 hround hses hread hex
  generalize hload : Loading.mk c k.length s.devtime = l at hex ⊢
  have hlc : l.cmd = c := hload ▸ rfl
  have hpart := part_startLoad l (hs1.length.symm ▸ hl)
  have hscope := hs1.trans (startLoad_scope v k.part l)
  rw [← loadRead_startLoad v k.part l, ← noteLoad_cmds _ k.part k.length] at hread
  have hg := noteLoad_ground (v.startLoad k.part l) k.part k.length
  generalize (v.startLoad k.part l).noteLoad k.part k.length = w at hread hg hex
  have hw : w.part k.part = (v.part k.part).takesLoad l := (part_of_ground hg _).trans hpart
  rw [imageArrived_waits (l := l) (by rw [hw]; rfl) (by rw [hlc]; exact hread) hb h1 hn] at hex
  have ht := setReg_ground w (imgBase k.part + 0x30) k.data.length
  refine ⟨_, hex, (hscope.trans (partScope_of_ground hg _)).trans (partScope_of_ground ht _), ?_, ?_, ?_⟩
  · rw [State.round, part_of_ground ht, hw]
    exact hround
  · rw [part_of_ground ht, hw]
    exact hses
  · rw [part_of_ground ht, hw]
    rfl

/-- A load that check 0 refuses is recorded and completes with that status. -/
theorem imageLoad_refused {c : CmdRef} {k : Cmd} {st : Status} {s : State} (hr : s.ready c 0x20 = some k) (hp : k.part < 24)
    (href : s.imageRefusal k.part = some st) : exec (.imageLoad c) s = .next ((s.imageRecord k.part st 0 0x1FFF).complete k st 0 0) := by
  show execImageLoad c s = _
  simp only [execImageLoad, hr, href, if_neg (show ¬24 ≤ k.part by omega)]

end Sys2Proof.Machine

namespace Sys2Proof.Machine

open Sys2Proof

/-! ## The substitution tables during an installation (R223) -/

/-- What the check of a well's substitution table reads: whether the well is in service, its table, and the CRC stored with it. -/
def State.substView (s : State) (w : Nat) : Bool × List Nat × Nat := ((s.well w).inService, (s.well w).subst, s.reg (substBase w + 0x18))

theorem setReg_substView (s : State) {x : Nat} (v : Nat) (h : ∀ w, substBase w + 0x18 ≠ x) : (s.setReg x v).substView = s.substView := by
  funext w
  rw [State.substView, State.reg_setReg_ne _ _ _ _ (h w)]
  rfl

theorem raise_substView (s : State) (code part src : Nat) (l : List (Nat × Nat)) : (s.raise code part src l).substView = s.substView := by
  funext w
  rw [State.substView, State.reg_raise _ _ _ _ _ _ (by simp only [substBase, wellBase, logBase]; omega), State.raise_well]
  rfl

theorem putBucket_substView (s : State) (w b : Nat) (data : Bytes) : (s.putBucket false w b data).substView = s.substView := by
  have h : ∀ v, ((s.putBucket false w b data).well v).inService = (s.well v).inService ∧ ((s.putBucket false w b data).well v).subst = (s.well v).subst := by
    intro v
    rw [State.putBucket, State.well_modWell]
    split
    · rename_i hv
      rw [hv.1]
      exact ⟨rfl, rfl⟩
    · exact ⟨rfl, rfl⟩
  funext v
  rw [State.substView, (h v).1, (h v).2]
  rfl

/-- The prime tables lie in the pumps' registers, apart from the stored CRCs. -/
theorem putPrimes_substView (s : State) (p : Nat) (b : Bytes) : (s.putPrimes p b).substView = s.substView := by
  unfold State.putPrimes
  split
  · rfl
  · dsimp only
    rw [raise_substView, setReg_substView _ _ (by intro w; simp only [substBase, wellBase, ctxBase]; omega)]
    refine each_kept _ _ _ _ (fun w _ t => each_kept _ _ _ _ (fun k hk u => each_kept _ _ _ _ (fun e he v => ?_)))
    have hk16 : k < 16 := List.mem_range.mp hk
    have he80 : e.2 < 80 := List.mem_range.mp (List.of_mem_zip he).2
    exact setReg_substView _ _ (by intro y; simp only [substBase, wellBase, pumpBase]; omega)

theorem putLookups_substView (s : State) (p : Nat) (b : Bytes) : (s.putLookups p b).substView = s.substView := by
  have hw : (s.writeLookups p b).substView = s.substView := by
    refine each_kept _ _ _ _ (fun e _ t => each_kept _ _ _ _ (fun k _ u => each_kept _ _ _ _ (fun d _ v => ?_)))
    split
    · exact each_kept _ _ _ _ (fun c _ y => putBucket_substView y _ _ _)
    · rfl
  obtain h | ⟨n, crc, l, h⟩ := putLookups_cases s p b
  · rw [h, hw]
  · rw [h, raise_substView, setReg_substView _ _ (by intro w; simp only [substBase, wellBase, rfsBase]; omega),
      setReg_substView _ _ (by intro w; simp only [substBase, wellBase, rfsBase]; omega), hw]

/-- A well in service whose table agrees with its CRC passes the check unchanged. -/
theorem checkSubst_good {s : State} {w : Nat} (h : (s.well w).inService = true → s.substGood w = true) : s.checkSubst w = s := by
  unfold State.checkSubst
  split
  · rename_i hc
    simp only [Bool.and_eq_true, Bool.not_eq_true'] at hc
    rw [h hc.1] at hc
    exact absurd hc.2 (by decide)
  · rfl

/-- The check of a table depends on what it reads. -/
theorem substGood_of_view {s t : State} {w : Nat} (hv : t.substView = s.substView) (h : (s.well w).inService = true → s.substGood w = true) :
    (t.well w).inService = true → t.substGood w = true := by
  have hw := congrFun hv w
  simp only [State.substView, Prod.mk.injEq] at hw
  obtain ⟨hin, hsub, hreg⟩ := hw
  have hcrc : (t.well w).substCrc = (s.well w).substCrc := by simp only [Well.substCrc, Well.substWord, hsub]
  rw [hin, State.substGood, hreg, hcrc]
  exact h

/-- A fold of operations that leave a state as it is leaves it as it is. -/
theorem each_id {α : Type} {s : State} {l : List α} {f : State → α → State} (h : ∀ a ∈ l, f s a = s) : s.each l f = s := by
  unfold State.each
  induction l with
  | nil => rfl
  | cons a l ih => rw [List.foldl_cons, h a List.mem_cons_self, ih (fun b hb => h b (List.mem_cons_of_mem a hb))]

/-! ## The regions of an image (R312) -/

/-- Registering the regions of an image changes its partition's regions alone. -/
theorem putRegions_scope {s t : State} {p : Nat} {l : List Bytes} (hp : p < s.parts.length) (h : s.putRegions p l = some t) :
    PartScope s t p ∧ (t.part p).image = (s.part p).image ∧ t.round p = s.round p := by
  induction l generalizing s with
  | nil =>
    cases h
    exact ⟨partScope_of_ground rfl p, rfl, rfl⟩
  | cons r l ih =>
    unfold State.putRegions at h
    split at h
    · have hg : ∃ g, (s.registerRegion p r).ground = (s.modPart p (fun x => { x with regions := put (rd r 2 2) g x.regions })).ground := ⟨_, rfl⟩
      obtain ⟨g, hg⟩ := hg
      have hscope := (partScope_modPart s p (fun x => { x with regions := put (rd r 2 2) g x.regions })).trans (partScope_of_ground hg p)
      have hpart := (part_of_ground hg p).trans (part_modPart_self (fun x => { x with regions := put (rd r 2 2) g x.regions }) hp)
      obtain ⟨h1, h2, h3⟩ := ih (by rw [hscope.length]; exact hp) h
      refine ⟨hscope.trans h1, ?_, ?_⟩
      · rw [h2, hpart]
      · rw [h3, State.round, hpart]
        rfl
    · cases h

/-! ## IMG registers of an installed image (R299) -/

theorem mem_insertNat (k : Nat) (l : List Nat) : k ∈ insertNat k l := by
  induction l with
  | nil => simp [insertNat]
  | cons a l ih =>
    unfold insertNat
    split
    · simp
    · split
      · simp [*]
      · simp [ih]

theorem leNat_lt (b : Bytes) : leNat b < 256 ^ b.length := by
  induction b with
  | nil => simp [leNat]
  | cons x b ih =>
    have := x.isLt
    rw [leNat, List.length_cons, pow_succ]
    omega

/-- The serial of a container is a 64-bit number. -/
theorem serial_lt (b : Bytes) : (headerOf b).serial < 2 ^ 64 := by
  have hlen : (slice b 0x10 8).length ≤ 8 := by simp [slice]
  calc (headerOf b).serial < 256 ^ (slice b 0x10 8).length := leNat_lt _
    _ ≤ 256 ^ 8 := Nat.pow_le_pow_right (by decide) hlen
    _ = 2 ^ 64 := by decide

theorem reg64_setReg64_self (s : State) (x : Nat) {v : Nat} (h : v < 2 ^ 64) : (s.setReg64 x v).reg64 x = v := by
  rw [State.reg64, State.setReg64, State.reg_setReg_self, State.reg_setReg_ne _ _ _ _ (by omega), State.reg_setReg_self]
  omega

theorem reg64_setReg_ne (s : State) {x y : Nat} (v : Nat) (h : x ≠ y) (h4 : x + 4 ≠ y) : (s.setReg y v).reg64 x = s.reg64 x := by
  rw [State.reg64, State.reg_setReg_ne _ _ _ _ h, State.reg_setReg_ne _ _ _ _ h4, State.reg64]

theorem reg64_setBits_ne (s : State) {x y : Nat} (hi lo v : Nat) (h : x ≠ y) (h4 : x + 4 ≠ y) : (s.setBits y hi lo v).reg64 x = s.reg64 x := by
  rw [State.reg64, State.reg_setBits_ne _ _ _ _ _ _ h, State.reg_setBits_ne _ _ _ _ _ _ h4, State.reg64]

theorem reg64_raise (s : State) {x : Nat} (code part src : Nat) (l : List (Nat × Nat)) (h : x ≠ logBase + 4) (h4 : x + 4 ≠ logBase + 4) :
    (s.raise code part src l).reg64 x = s.reg64 x := by
  rw [State.reg64, State.reg_raise _ _ _ _ _ _ h, State.reg_raise _ _ _ _ _ _ h4, State.reg64]

theorem imageRegs_serial (s : State) (p : Nat) (b : Bytes) : (s.imageRegs p b).reg64 (imgBase p + 8) = (headerOf b).serial := by
  unfold State.imageRegs
  dsimp only
  rw [each_kept (fun t => t.reg64 (imgBase p + 8)) _ _ _ (fun k _ t => reg64_setReg_ne t _ (by omega) (by omega)),
    reg64_setBits_ne _ _ _ _ (by omega) (by omega), reg64_setReg_ne _ _ (by omega) (by omega), reg64_setReg64_self _ _ (serial_lt b)]

theorem imageRegs_lockParts (s : State) (p : Nat) (b : Bytes) : (s.imageRegs p b).lockParts = s.lockParts := by
  unfold State.imageRegs
  dsimp only
  rw [each_kept State.lockParts _ _ _ (fun _ _ _ => State.setReg_lockParts _ _ _), State.setBits_lockParts, State.setReg_lockParts, State.setReg64_lockParts]

/-! ## IMAGE_INSTALL (R292) -/

/-- What an installed image leaves of its partition and its registers. -/
structure Installs (s u : State) (p : Nat) (b : Bytes) : Prop where
  scope : PartScope s u p
  image : (u.part p).image = installedImage b
  round : u.round p = s.round p
  locked : p ∈ u.lockParts
  serial : u.reg64 (imgBase p + 8) = (headerOf b).serial

/-- An image that has passed every check is installed, on wells whose substitution tables agree with their CRCs. -/
theorem installImage_installs {s : State} {p : Nat} (c : Cmd) (b : Bytes) (hp : p < s.parts.length)
    (hgood : ∀ w ∈ s.wellsOf p, (s.well w).inService = true → s.substGood w = true) :
    ∃ u : State, s.installImage p c b = u.complete c .ok 0 0 ∧ Installs s u p b := by
  unfold State.installImage
  extract_lets s1 s2 s3 s4 s5
  refine ⟨_, rfl, ?_⟩
  have g1 : s1.ground = s.ground := putPrimes_ground s p b
  have v1 : s1.substView = s.substView := putPrimes_substView s p b
  clear_value s1
  have hp1 : p < s1.parts.length := by rw [parts_of_ground g1]; exact hp
  have g2 : s2.ground = (s1.modPart p (fun x => { x with image := installedImage b })).ground := putLookups_ground _ _ _
  have v2 : s2.substView = s.substView := (putLookups_substView _ p b).trans v1
  clear_value s2
  have h2 : PartScope s s2 p := (partScope_of_ground g1 p).trans ((partScope_modPart s1 p _).trans (partScope_of_ground g2 p))
  have hpart2 : s2.part p = { s.part p with image := installedImage b } := by
    rw [part_of_ground g2, part_modPart_self _ hp1, part_of_ground g1]
  have hwells := wellsOf_of_access h2.access p
  have hcheck : s2.each (s2.wellsOf p) State.checkSubst = s2 :=
    each_id (fun w hw => checkSubst_good (substGood_of_view v2 (hgood w (hwells ▸ hw))))
  have g3 : s3.ground = s2.ground := (installTiles_ground _ p b).trans (congrArg State.ground hcheck)
  clear_value s3
  have h3 : PartScope s s3 p := h2.trans (partScope_of_ground g3 p)
  have hp3 : p < s3.parts.length := by rw [h3.length]; exact hp
  have h4 : PartScope s3 s4 p ∧ (s4.part p).image = (s3.part p).image ∧ s4.round p = s3.round p := by
    cases hr : s3.putRegions p (regionBytes b) with
    | none =>
      have hs4 : s4 = s3 := congrArg (fun o => Option.getD o s3) hr
      rw [hs4]
      exact ⟨partScope_of_ground rfl p, rfl, rfl⟩
    | some t =>
      have hs4 : s4 = t := congrArg (fun o => Option.getD o s3) hr
      rw [hs4]
      exact putRegions_scope hp3 hr
  clear_value s4
  obtain ⟨hs4, himg4, hround4⟩ := h4
  have g5 : s5.ground = s4.ground := imageRegs_ground _ p b
  have hlock : p ∈ s5.lockParts := by
    rw [show s5.lockParts = insertNat p s4.lockParts from imageRegs_lockParts _ p b]
    exact mem_insertNat p s4.lockParts
  have hserial : s5.reg64 (imgBase p + 8) = (headerOf b).serial := imageRegs_serial _ p b
  clear_value s5
  have g6 := (raise_ground s5 0x0704 p 0 [(8, p), (64, (headerOf b).serial), (32, (imageSets b).length)]).trans g5
  refine ⟨(h3.trans hs4).trans (partScope_of_ground g6 p), ?_, ?_, ?_, ?_⟩
  · rw [part_of_ground g6, himg4, part_of_ground g3, hpart2]
  · rw [State.round, part_of_ground g6]
    refine hround4.trans ?_
    rw [State.round, part_of_ground g3, hpart2]
    rfl
  · rw [State.raise_lockParts]
    exact hlock
  · rw [reg64_raise _ _ _ _ _ (by simp only [imgBase, logBase]; omega) (by simp only [imgBase, logBase]; omega)]
    exact hserial

/-- IMAGE_INSTALL of a container that has been read whole gives its verdict. -/
theorem imageInstall_verdict {s : State} {p : Nat} {c : Cmd} {rec : PlanRecord} (hs : s.serves = true) (hc : s.loadCmd p = some c)
    (hrec : s.record p = some rec) (hf : c.readFailed = false) (hlen : c.length ≤ c.data.length) :
    exec (.imageInstall p) s = .next (s.imageVerdict p c rec) := by
  show execImageInstall p s = _
  simp only [execImageInstall, hc, hrec, hs, hf, if_neg (show ¬c.data.length < c.length by omega)]
  rfl

/-- A container that passes every check is installed on its staged sections and its presets. -/
theorem imageVerdict_passes {s : State} {p : Nat} {c : Cmd} {rec : PlanRecord} (hok : s.imageFirst p rec c.data c.length = .ok ()) :
    let s0 := s.modPart p (fun x => { x with image := { x.image with wellRecords := imageWells c.data } })
    let s1 := s0.stageSections p c.data
    s0.stagingBad p c.data = false → s1.imageLast (s1.putPresets p c.data) p rec c.data = .ok () →
      s.imageVerdict p c rec = (s1.putPresets p c.data).installImage p c c.data := by
  intro s0 s1 hstage hlast
  unfold State.imageVerdict
  dsimp only
  rw [hok]
  dsimp only
  rw [hstage, if_neg (by decide), hlast]

/-- Settles O17: a load is a partition reset and an image entry, an install the image's sections, presets and registers, and each failure one record. -/
theorem imageLoads : Obligations.ImageLoads := by
  unfold Obligations.ImageLoads
  refine ⟨fun c k s hr hp hl hacc hf hb h1 hn => ?_, fun c k st s hr hp href => ?_, fun p c rec e s hs hc hrec hf hlen he hl => ?_,
    fun p c rec s hs hc hrec hf hlen hok hl => ?_⟩
  · obtain ⟨t, hex, hscope, hround, hses, himg⟩ := imageLoad_accepted hr hp hl hacc hf hb h1 hn
    refine ⟨t, hex, by rw [himg], by rw [himg], hround, ?_, hscope.others, hscope.lantus, hscope.power, hscope.plan, hscope.access⟩
    rw [State.session, if_neg (by omega), hses]
  · exact ⟨_, imageLoad_refused hr hp href, onlyRegs_imageRecord _ _ _ _ _, imageRecord_eq _ _ _ _ _⟩
  · have hex := imageInstall_verdict hs hc hrec hf hlen
    simp only [State.imageVerdict, he] at hex
    rw [imageFail_completes hc] at hex
    have hscope := imageDropped_scope s p e.1 e.2.1 e.2.2
    have hpart := part_imageDropped (s := s) e.1 e.2.1 e.2.2 hl
    refine ⟨_, hex, by rw [hpart], ?_, hscope.others, hscope.lantus, hscope.power, hscope.plan, hscope.access⟩
    rw [State.round, hpart]
    rfl
  · intro s0 s1 t hstage hlast hgood
    have hg : t.ground = s0.ground := (putPresets_ground s1 p c.data).trans (stageSections_ground s0 p c.data)
    have hscope : PartScope s t p := (partScope_modPart s p _).trans (partScope_of_ground hg p)
    have hround : t.round p = s.round p := by
      rw [State.round, part_of_ground hg, part_modPart_self _ hl]
      rfl
    have hwells := wellsOf_of_access hscope.access p
    obtain ⟨u, hu, hi⟩ := installImage_installs c c.data (by rw [hscope.length]; exact hl) (fun w hw => hgood w (hwells ▸ hw))
    have hex := imageInstall_verdict hs hc hrec hf hlen
    rw [imageVerdict_passes hok hstage hlast, hu] at hex
    have hsu := hscope.trans hi.scope
    exact ⟨u, hex, hi.image, hi.locked, hi.serial, hi.round.trans hround, hsu.others, hsu.lantus, hsu.power, hsu.plan, hsu.access⟩

end Sys2Proof.Machine

namespace Sys2Proof.Machine

open Sys2Proof

/-! ## Device-fatal causes (R486) -/

/-- A bit of a register once it is set. -/
theorem regBits_setBits_one (s : State) (x : Nat) {b : Nat} (hb : b < 32) : (s.setBits x b b 1).regBits x b b = 1 := by
  have h : ((s.setBits x b b 1).reg x).testBit b = true := by
    rw [State.reg_setBits, if_pos rfl, show b + 1 - b = 1 by omega]
    rw [Nat.testBit_mod_two_pow _ 32]
    simp [hb]
  rw [State.regBits, bits, show b + 1 - b = 1 by omega]
  rw [Nat.testBit, Nat.one_and_eq_mod_two] at h
  simpa using h

/-- Asserting a fault changes its pin, its record and the log. -/
theorem State.assertFault_eq (s : State) (cause : Nat) :
    s.assertFault cause = { s with
      faultN := (s.assertFault cause).faultN, regs := (s.assertFault cause).regs, fresh := (s.assertFault cause).fresh, log := (s.assertFault cause).log } := by
  unfold State.assertFault
  split
  · rfl
  · rw [State.raise_eq]
    rfl

/-- A fault that is asserted shows in SVC_FAULT. -/
theorem regBits_assertFault (s : State) {cause : Nat} (h : cause < 32) : (s.assertFault cause).regBits (logBase + 0x804) cause cause = 1 := by
  unfold State.assertFault
  split
  · assumption
  · rw [State.regBits, State.reg_raise _ _ _ _ _ _ (by simp only [logBase]; decide)]
    exact regBits_setBits_one _ _ h

/-! ## Keys that a stop zeroes (R468, R469) -/

/-- No session, memory, IDE or queue pair key is held. -/
structure Keyless (t : State) : Prop where
  session : ∀ p, (t.session p).kLink = [] ∧ (t.session p).kMem = [] ∧ (t.session p).kShare = [] ∧ (t.session p).kIde = []
  memory : ∀ w, (t.well w).lpxKey = []
  ide : ∀ i ∈ t.host.ide, i.keys = []
  queuePairs : ∀ e ∈ t.qps, e.2.txKey = [] ∧ e.2.rxKey = []

theorem session_zeroKeys (s : State) (p : Nat) : s.zeroKeys.session p = { lastStatus := (s.session p).lastStatus } := by
  unfold State.session
  split
  · rfl
  · exact congrArg Partition.session (List.getD_map _ (d := ({} : Partition)) (n := p) (fun x : Partition => { x with session := { lastStatus := x.session.lastStatus } }))

theorem lpxKey_zeroKeys (s : State) (w : Nat) : (s.zeroKeys.well w).lpxKey = [] := by
  rw [State.well, List.getD_eq_getElem?_getD]
  simp only [State.zeroKeys, List.getElem?_map]
  cases s.wells[w]? <;> rfl

theorem keyless_zeroKeys (s : State) : Keyless s.zeroKeys where
  session p := by simp [session_zeroKeys]
  memory := lpxKey_zeroKeys s
  ide i hi := by
    obtain ⟨j, -, rfl⟩ := List.mem_map.mp hi
    rfl
  queuePairs e he := by
    obtain ⟨q, -, rfl⟩ := List.mem_map.mp he
    exact ⟨rfl, rfl⟩

/-- Keys stand in sessions, wells, the host interface and queue pairs. -/
theorem Keyless.of_eq {s t : State} (h : Keyless s) (ho : t.opSession = s.opSession) (hp : t.parts = s.parts) (hw : t.wells = s.wells) (hh : t.host = s.host)
    (hq : t.qps = s.qps) : Keyless t where
  session p := by
    have := h.session p
    rwa [State.session, State.part, ← ho, ← hp] at this
  memory w := by
    have := h.memory w
    rwa [State.well, ← hw] at this
  ide := by rw [hh]; exact h.ide
  queuePairs := by rw [hq]; exact h.queuePairs

/-- Raising an event and asserting a fault leave keys alone. -/
theorem Keyless.assertFault {s : State} (h : Keyless s) (cause : Nat) : Keyless (s.assertFault cause) := by
  rw [State.assertFault_eq]
  exact h.of_eq rfl rfl rfl rfl rfl

theorem Keyless.raise {s : State} (h : Keyless s) (code part src : Nat) (l : List (Nat × Nat)) : Keyless (s.raise code part src l) := by
  rw [State.raise_eq]
  exact h.of_eq rfl rfl rfl rfl rfl

/-! ## Resets (R470, R503) -/

/-- What a reset leaves of a state: the reset values, and of the OTP the slots, the firmware floor and the debug fuse. -/
structure ResetTo (s t : State) : Prop where
  regs : t.regs = []
  parts : t.parts = State.reset.parts
  wells : t.wells = State.reset.wells
  qps : t.qps = []
  cmds : t.cmds = []
  plan : t.plan = {}
  access : t.access = State.reset.access
  log : t.log = {}
  floor : t.lantus.fwFloor = s.lantus.fwFloor
  fuse : t.lantus.debugDisabled = s.lantus.debugDisabled
  values : t.lantus.keys.map KeySlot.value = s.lantus.keys.map KeySlot.value
  otp : t.lantus.keys.map KeySlot.otp = s.lantus.keys.map KeySlot.otp
  pending : t.pending = s.pending

theorem resetTo_atReset (s : State) : ResetTo s s.atReset where
  regs := rfl
  parts := rfl
  wells := rfl
  qps := rfl
  cmds := rfl
  plan := rfl
  access := rfl
  log := rfl
  floor := rfl
  fuse := rfl
  values := by simp [State.atReset, Function.comp_def]
  otp := by simp [State.atReset, Function.comp_def]
  pending := rfl

/-- Settles O40: a stop is the zeroing of the keys and one asserted fault, and a reset is `State.atReset` with its life, time and debug arming. -/
theorem stopsAndResets : Obligations.StopsAndResets := by
  unfold Obligations.StopsAndResets
  refine ⟨fun s hoff hheld => ?_, fun s htime hlock => ?_, fun s hoff hlow => ?_, fun s => ?_⟩
  · intro gone
    refine ⟨fun hp3 htrip hhot => ?_, ?_⟩
    · have hex : exec .thermalTrip s = .next { (s.zeroKeys.raise 0x0C0C 0x1F 0 [(8, s.hottest.1), (16, unsgn 16 s.hottest.2)]).assertFault 4 with
          thermTrip := true, life := .stopped } := by
        show execThermalTrip s = _
        simp only [execThermalTrip]
        rw [if_neg (by simp [hoff, hheld, hp3, htrip]; omega)]
      have hk := ((keyless_zeroKeys s).raise 0x0C0C 0x1F 0 [(8, s.hottest.1), (16, unsgn 16 s.hottest.2)]).assertFault 4
      refine ⟨_, hex, ⟨rfl, hk.session, hk.memory, hk.ide, hk.queuePairs, ?_, ?_⟩, rfl, regBits_assertFault _ (by decide)⟩ <;>
        rw [State.assertFault_eq, State.raise_eq] <;> rfl
    · have hex : exec .pwrFailN s = .next { s.zeroKeys.assertFault 5 with pwrFailLow := true, life := .stopped } := by
        show execPwrFailN s = _
        rw [execPwrFailN, if_neg hoff, if_neg hheld]
      have hk := (keyless_zeroKeys s).assertFault 5
      refine ⟨_, hex, ⟨rfl, hk.session, hk.memory, hk.ide, hk.queuePairs, ?_, ?_⟩, rfl, regBits_assertFault _ (by decide)⟩ <;>
        rw [State.assertFault_eq] <;> rfl
  · have hex : exec .pllLockLost s = .next { ((s.raise 0x0C07 0x1F 0 []).assertFault 1).modPower (fun x => { x with pllLocked := false }) with
        life := .stopped } := by
      show execPllLockLost s = _
      simp [execPllLockLost, htime, hlock]
    refine ⟨_, hex, rfl, ?_, regBits_assertFault _ (by decide), ?_, ?_, ?_⟩ <;> rw [State.assertFault_eq, State.raise_eq] <;> rfl
  · have hex : exec .pwrFailDeassert s = .next (if s.life = .stopped then ({ s with pwrFailLow := false } : State).raise 0x0C0D 0x1F 0 []
        else { s with pwrFailLow := false }) := by
      show execPwrFailDeassert s = _
      rw [execPwrFailDeassert, if_neg (by simp [hoff, hlow])]
    refine ⟨_, hex, ?_⟩
    split
    · exact ⟨State.raise_pwrFailLow _ _ _ _ _, State.raise_life _ _ _ _ _, State.raise_eq _ _ _ _ _⟩
    · exact ⟨rfl, rfl, rfl⟩
  · intro cleared
    obtain ⟨h1, h2, h3, h4, h5, h6, h7, h8, h9, h10, h11, h12, h13⟩ := resetTo_atReset s
    have hc : cleared s.atReset := ⟨h1, h2, h3, h4, h5, h6, h7, h8, h9, h10, h11, h12, h13⟩
    refine ⟨fun hoff => ⟨_, if_neg hoff, rfl, rfl, hc⟩, fun hoff => ⟨_, if_pos hoff, rfl, rfl, hc⟩, fun hoff htrip => ?_, fun htrip => ?_⟩
    · exact ⟨_, if_neg (by simp [hoff, htrip]), rfl, rfl, rfl, rfl, hc⟩
    · show execDeviceReset s = _
      rw [execDeviceReset, if_pos (by simp [htrip])]

end Sys2Proof.Machine

namespace Sys2Proof.Machine

open Sys2Proof

/-! ## Folds over the state -/

/-- What one step of a fold keeps, the fold keeps. -/
theorem each_invariant {α : Type} {P : State → Prop} {s : State} {l : List α} {f : State → α → State} (hs : P s) (h : ∀ a ∈ l, ∀ t, P t → P (f t a)) :
    P (s.each l f) := by
  unfold State.each
  induction l generalizing s with
  | nil => exact hs
  | cons a l ih =>
    rw [List.foldl_cons]
    exact ih (h a List.mem_cons_self s hs) (fun b hb => h b (List.mem_cons_of_mem a hb))

/-- What each step of a fold brings about for its own element and no other step undoes stands at the end. -/
theorem each_establishes {α : Type} {P : State → Prop} {s : State} {l : List α} {f : State → α → State} {a : α} (ha : a ∈ l)
    (hset : ∀ t, P (f t a)) (hkeep : ∀ b ∈ l, ∀ t, P t → P (f t b)) : P (s.each l f) := by
  obtain ⟨l₁, l₂, rfl⟩ := List.append_of_mem ha
  have h : s.each (l₁ ++ a :: l₂) f = (f (s.each l₁ f) a).each l₂ f := by simp [State.each]
  rw [h]
  exact each_invariant (hset _) (fun b hb => hkeep b (by simp [hb]))

/-! ## What a completion changes -/

theorem State.hostWrite_eq (s : State) (f a : Nat) (b : Bytes) : s.hostWrite f a b = { s with out := (s.hostWrite f a b).out } := by
  unfold State.hostWrite
  split <;> rfl

/-- Completing a command changes the commands in progress, the functions and what has left the device. -/
theorem State.complete_eq (s : State) (c : Cmd) (st : Status) (result detail : Nat) :
    s.complete c st result detail = { s with
      cmds := (s.complete c st result detail).cmds, fns := (s.complete c st result detail).fns, out := (s.complete c st result detail).out } := by
  unfold State.complete
  dsimp only
  split
  · rfl
  · rw [State.msix_eq, State.hostWrite_eq]
    rfl

/-! ## Registers that are cleared -/

/-- A register after a range is cleared. -/
theorem State.regW_clearRegs (s : State) (lo hi x : Nat) : (s.clearRegs lo hi).regW x = if lo ≤ x ∧ x < hi then regReset x else s.regW x := by
  have h := look_filter x s.regs (fun k => decide (k < lo) || decide (hi ≤ k))
  simp only [State.regW, State.clearRegs, h]
  by_cases hx : lo ≤ x ∧ x < hi
  · rw [if_pos hx, if_neg (by simp only [Bool.or_eq_true, decide_eq_true_eq]; omega)]
    rfl
  · rw [if_neg hx, if_pos (by simp only [Bool.or_eq_true, decide_eq_true_eq]; omega)]

theorem State.regW_raise (s : State) (code part src : Nat) (l : List (Nat × Nat)) {x : Nat} (h : x ≠ logBase + 4) :
    (s.raise code part src l).regW x = s.regW x := BitVec.eq_of_toNat_eq (State.reg_raise s code part src l x h)

/-- The registers of a partition's round are at their reset values after its registers are reset (R43). -/
theorem regW_resetPartRegs (s : State) (p : Nat) {x : Nat} (hlo : rndBase p ≤ x) (hhi : x < rndBase p + 0x400) :
    (s.resetPartRegs p).regW x = regReset x := by
  simp only [State.resetPartRegs, State.regW_clearRegs, if_pos (And.intro hlo hhi), ite_self]

/-! ## The wells of a partition that is reset (R218, R251, R263) -/

/-- Only the wells of a list may differ, and they keep their retirements, substitution table and failed tiles. -/
structure WellScope (s t : State) (ws : List Nat) : Prop where
  others : ∀ w, w ∉ ws → t.well w = s.well w
  length : t.wells.length = s.wells.length
  kept : ∀ w, (t.well w).retired = (s.well w).retired ∧ (t.well w).subst = (s.well w).subst ∧ (t.well w).failed = (s.well w).failed

theorem WellScope.trans {s t u : State} {ws : List Nat} (h : WellScope s t ws) (k : WellScope t u ws) : WellScope s u ws where
  others w hw := (k.others w hw).trans (h.others w hw)
  length := k.length.trans h.length
  kept w := by
    obtain ⟨h1, h2, h3⟩ := h.kept w
    obtain ⟨k1, k2, k3⟩ := k.kept w
    exact ⟨k1.trans h1, k2.trans h2, k3.trans h3⟩

theorem wellScope_of_wells {s t : State} (h : t.wells = s.wells) (ws : List Nat) : WellScope s t ws where
  others w _ := by rw [State.well, h, State.well]
  length := congrArg List.length h
  kept w := by rw [State.well, h, State.well]; exact ⟨rfl, rfl, rfl⟩

theorem wellScope_modWell (s : State) {w : Nat} {ws : List Nat} {f : Well → Well} (hw : w ∈ ws)
    (hf : ∀ x, (f x).retired = x.retired ∧ (f x).subst = x.subst ∧ (f x).failed = x.failed) : WellScope s (s.modWell w f) ws where
  others v hv := by
    rw [State.well_modWell, if_neg]
    rintro ⟨rfl, -⟩
    exact hv hw
  length := updAt_length _ _ _
  kept v := by
    rw [State.well_modWell]
    split
    · rename_i h
      rw [h.1]
      exact hf _
    · exact ⟨rfl, rfl, rfl⟩

theorem wellScope_each {α : Type} (s : State) (l : List α) {f : State → α → State} {ws : List Nat} (h : ∀ a ∈ l, ∀ t, WellScope t (f t a) ws) :
    WellScope s (s.each l f) ws :=
  each_invariant (P := fun t => WellScope s t ws) (wellScope_of_wells rfl ws) (fun a ha t ht => ht.trans (h a ha t))

/-- A fold whose steps each change registers changes registers. -/
theorem regsOnly_each {α : Type} (s : State) (l : List α) {f : State → α → State} (h : ∀ t a, RegsOnly t (f t a)) : RegsOnly s (s.each l f) :=
  each_invariant rfl (fun a _ t ht => ht.trans (h t a))

theorem regsOnly_clearRegs (s : State) (lo hi : Nat) : RegsOnly s (s.clearRegs lo hi) := rfl

theorem regsOnly_resetWellRegs (s : State) (w : Nat) : RegsOnly s (s.resetWellRegs w) := by
  unfold State.resetWellRegs
  exact (regsOnly_each _ _ (fun _ _ => regsOnly_clearRegs _ _ _)).trans
    ((regsOnly_clearRegs _ _ _).trans (regsOnly_each _ _ (fun _ _ => regsOnly_clearRegs _ _ _)))

theorem RegsOnly.wells {s t : State} (h : RegsOnly s t) : t.wells = s.wells := by
  rw [show t = { s with regs := t.regs, fresh := t.fresh } from h]
theorem RegsOnly.qps {s t : State} (h : RegsOnly s t) : t.qps = s.qps := by
  rw [show t = { s with regs := t.regs, fresh := t.fresh } from h]
theorem RegsOnly.commits {s t : State} (h : RegsOnly s t) : t.commits = s.commits := by
  rw [show t = { s with regs := t.regs, fresh := t.fresh } from h]

/-- A well after a reset of its partition: memories empty, and nothing halted or queued. -/
structure Well.Emptied (x : Well) : Prop where
  cis : x.cis = []
  cisValid : x.cisValid = []
  merge : x.merge = []
  lpxKey : x.lpxKey = []
  pumps : x.pumps = List.replicate 16 {}
  copy : x.copy = [{}, {}]

theorem Well.emptied_reset (x : Well) : x.reset.Emptied := ⟨rfl, rfl, rfl, rfl, rfl, rfl⟩

theorem resetWellRegs_wells (s : State) (w : Nat) : (s.resetWellRegs w).wells = s.wells := (regsOnly_resetWellRegs s w).wells

/-- The wells of a list are reset, registers and all. -/
def State.resetWells (s : State) (ws : List Nat) : State := s.each ws (fun t w => (t.resetWellRegs w).modWell w Well.reset)

theorem wellScope_resetWells (s : State) (ws : List Nat) : WellScope s (s.resetWells ws) ws :=
  wellScope_each s ws (fun w hw t => (wellScope_of_wells (resetWellRegs_wells t w) ws).trans (wellScope_modWell _ hw (fun _ => ⟨rfl, rfl, rfl⟩)))

/-- Each of the wells is emptied. -/
theorem emptied_resetWells (s : State) {ws : List Nat} {w : Nat} (hw : w ∈ ws) (hl : w < s.wells.length) : ((s.resetWells ws).well w).Emptied := by
  have hlen : ∀ (t : State) v, ((t.resetWellRegs v).modWell v Well.reset).wells.length = t.wells.length := fun t v =>
    (updAt_length _ _ _).trans (congrArg List.length (resetWellRegs_wells t v))
  have hset : ∀ t : State, w < t.wells.length → (((t.resetWellRegs w).modWell w Well.reset).well w).Emptied := fun t ht => by
    rw [State.well_modWell, if_pos ⟨rfl, by rw [resetWellRegs_wells]; exact ht⟩]
    exact Well.emptied_reset _
  refine (each_establishes (P := fun t => w < t.wells.length → (t.well w).Emptied) hw (fun t ht => ?_) (fun v _ t ht hv => ?_)) ?_
  · exact hset t (by rwa [hlen] at ht)
  · rw [hlen] at hv
    by_cases h : w = v
    · subst h
      exact hset t hv
    · rw [State.well_modWell, if_neg (fun hc => h hc.1), State.well, resetWellRegs_wells]
      exact ht hv
  · exact (wellScope_resetWells s ws).length.symm ▸ hl

/-! ## Queue pairs and committed packets -/

/-- The queue pairs and the packets on their way to memory are the same. -/
structure SameTraffic (s t : State) : Prop where
  qps : t.qps = s.qps
  commits : t.commits = s.commits

theorem SameTraffic.trans {s t u : State} (h : SameTraffic s t) (k : SameTraffic t u) : SameTraffic s u :=
  ⟨k.qps.trans h.qps, k.commits.trans h.commits⟩

theorem sameTraffic_each {α : Type} (s : State) (l : List α) {f : State → α → State} (h : ∀ a ∈ l, ∀ t, SameTraffic t (f t a)) : SameTraffic s (s.each l f) :=
  each_invariant ⟨rfl, rfl⟩ (fun a ha t ht => ht.trans (h a ha t))

theorem complete_links (s : State) (c : Cmd) (st : Status) (result detail : Nat) :
    SameTraffic s (s.complete c st result detail) ∧ (s.complete c st result detail).wells = s.wells := by
  rw [State.complete_eq]
  exact ⟨⟨rfl, rfl⟩, rfl⟩

/-- A queue pair of another partition is found when those of one partition are gone. -/
theorem look_filter_part (l : List (Nat × Qp)) (n p : Nat) (h : ((look n l).getD {}).part ≠ p) :
    (look n (l.filter (fun e => e.2.part ≠ p))).getD {} = (look n l).getD {} := by
  induction l with
  | nil => rfl
  | cons e l ih =>
    obtain ⟨k, q⟩ := e
    by_cases hk : k = n
    · have hq : q.part ≠ p := by simpa [look, hk] using h
      simp [look, hk, hq]
    · have hrest := ih (by simpa [look, hk] using h)
      by_cases hq : q.part = p
      · simpa [look, hk, hq] using hrest
      · simpa [look, hk, hq] using hrest

/-! ## The stages of a partition reset (R43, R363) -/

theorem clearAreas_links (s : State) (p : Nat) : SameTraffic s (s.clearAreas p) ∧ WellScope s (s.clearAreas p) (s.wellsOf p) := by
  refine ⟨sameTraffic_each _ _ (fun w _ t => ?_), wellScope_each _ _ (fun w hw t => ?_)⟩
  · split <;> exact ⟨rfl, rfl⟩
  · split
    · exact wellScope_modWell t hw (fun _ => ⟨rfl, rfl, rfl⟩)
    · exact wellScope_of_wells rfl _

theorem abortCmds_links (s : State) (p : Nat) (keep reset : Option CmdRef) :
    SameTraffic s (s.abortCmds p keep reset) ∧ (s.abortCmds p keep reset).wells = s.wells :=
  ⟨sameTraffic_each _ _ (fun _ _ _ => (complete_links _ _ _ _ _).1), each_kept State.wells _ _ _ (fun _ _ _ => (complete_links _ _ _ _ _).2)⟩

theorem imageDropped_links (s : State) (p : Nat) (st : Status) (check sec : Nat) :
    SameTraffic s (s.imageDropped p st check sec) ∧ WellScope s (s.imageDropped p st check sec) (s.wellsOf p) := by
  obtain ⟨ht, hw⟩ := clearAreas_links s p
  rw [State.imageDropped, imageRecord_eq]
  refine ⟨ht.trans ⟨?_, ?_⟩, hw.trans (wellScope_of_wells ?_ _)⟩ <;> rfl

theorem resetImage_links (s : State) (p cause : Nat) :
    SameTraffic s (s.resetImage p cause) ∧ WellScope s (s.resetImage p cause) (s.wellsOf p) := by
  unfold State.resetImage
  split
  · exact ⟨⟨rfl, rfl⟩, wellScope_of_wells rfl _⟩
  · unfold State.imageFail
    split
    · exact ⟨⟨rfl, rfl⟩, wellScope_of_wells rfl _⟩
    · obtain ⟨ht, hw⟩ := imageDropped_links s p .aborted 14 0x1FFF
      dsimp only
      split
      · obtain ⟨kt, kw⟩ := complete_links (s.imageDropped p .aborted 14 0x1FFF) (by assumption) .aborted 0 14
        exact ⟨ht.trans kt, hw.trans (wellScope_of_wells kw _)⟩
      · exact ⟨ht, hw⟩
  · obtain ⟨ht, hw⟩ := clearAreas_links s p
    rw [State.imageUnload, State.raise_eq]
    refine ⟨ht.trans ⟨?_, ?_⟩, hw.trans (wellScope_of_wells ?_ _)⟩ <;> rfl

theorem tdiError_links (s : State) (f cause : Nat) : SameTraffic s (s.tdiError f cause) ∧ (s.tdiError f cause).wells = s.wells := by
  unfold State.tdiError
  split
  · rw [State.raise_eq]
    by_cases h : cause = 3
    · rw [if_pos h]
      exact ⟨⟨rfl, rfl⟩, rfl⟩
    · rw [if_neg h]
      exact ⟨⟨rfl, rfl⟩, rfl⟩
  · exact ⟨⟨rfl, rfl⟩, rfl⟩

theorem endSession_links (s : State) (p cause : Nat) : SameTraffic s (s.endSession p cause) ∧ (s.endSession p cause).wells = s.wells := by
  have h : ∀ f, SameTraffic s (s.modSession p f) ∧ (s.modSession p f).wells = s.wells := fun f => by
    unfold State.modSession
    split <;> exact ⟨⟨rfl, rfl⟩, rfl⟩
  unfold State.endSession
  dsimp only
  split
  · exact h _
  · rw [State.raise_eq]
    exact ⟨(h _).1.trans ⟨rfl, rfl⟩, (h _).2⟩

theorem sameTraffic_resetWells (s : State) (ws : List Nat) : SameTraffic s (s.resetWells ws) :=
  sameTraffic_each _ _ (fun w _ t => 
    ⟨(State.modWell_qps _ _ _).trans (regsOnly_resetWellRegs t w).qps, (State.modWell_commits _ _ _).trans (regsOnly_resetWellRegs t w).commits⟩)

/-- Re-arming its sources leaves queue pairs, packets, partitions and wells alone. -/
theorem rearmSources_keeps (s : State) (p : Nat) :
    (s.rearmSources p).qps = s.qps ∧ (s.rearmSources p).commits = s.commits ∧ (s.rearmSources p).parts = s.parts ∧ (s.rearmSources p).wells = s.wells := by
  obtain ⟨q, hq⟩ := each_invariant (P := fun t : State => ∃ q, t = { s with sources := q }) (s := s) (l := s.wellsOf p)
    (f := fun t w => t.modSource w (fun x => x.rearm s.devtime)) ⟨_, rfl⟩ (by
      rintro w - t ⟨q, rfl⟩
      exact ⟨_, rfl⟩)
  unfold State.rearmSources
  dsimp only
  rw [State.raise_eq, hq]
  exact ⟨rfl, rfl, rfl, rfl⟩

theorem regW_rearmSources (s : State) (p : Nat) {x : Nat} (hx : x ≠ logBase + 4) : (s.rearmSources p).regW x = s.regW x := by
  have h := each_kept State.regs s (s.wellsOf p) (fun t w => t.modSource w (fun x => x.rearm s.devtime)) (fun _ _ _ => rfl)
  unfold State.rearmSources
  dsimp only
  rw [State.regW_raise _ _ _ _ _ hx, State.regW, State.regW]
  exact congrArg (fun r => (look x r).getD (regReset x)) h

/-- What a partition reset leaves of its partition, its queue pairs, its registers, its locks and the wells. -/
structure ResetsPartition (s t : State) (p : Nat) : Prop where
  part : ∃ y, t.part p = Partition.reset y
  locks : p ∉ t.lockParts
  qps : t.qps = s.qps.filter (fun e => e.2.part ≠ p)
  commits : t.commits = s.commits.filter (fun c => c.part ≠ p)
  regs : ∀ x, rndBase p ≤ x → x < rndBase p + 0x400 → t.regW x = regReset x
  wells : WellScope s t (s.wellsOf p)
  emptied : ∀ w ∈ s.wellsOf p, w < s.wells.length → (t.well w).Emptied

theorem partitionReset_resets (s : State) {p : Nat} (cause ended : Nat) (keep reset : Option CmdRef) (hp : p < 24) (hl : p < s.parts.length) :
    ResetsPartition s (s.partitionReset p cause ended keep reset) p := by
  unfold State.partitionReset
  extract_lets s1 s2 s3 s4 s5
  have hv : s1.ground = ((s.abortCmds p keep reset).resetImage p cause).ground := rfl
  have hs1 : PartScope s s1 p := (partScope_of_ground (abortCmds_ground s p keep reset) p).trans
    ((resetImage_scope _ _ _).trans (partScope_of_ground hv p))
  have h1 : SameTraffic s s1 ∧ WellScope s s1 (s.wellsOf p) := by
    obtain ⟨ht, hw⟩ := abortCmds_links s p keep reset
    obtain ⟨kt, kw⟩ := resetImage_links (s.abortCmds p keep reset) p cause
    rw [wellsOf_of_access (congrArg (fun g => g.2.2.1) (abortCmds_ground s p keep reset) : (s.abortCmds p keep reset).access = s.access)] at kw
    refine ⟨ht.trans (kt.trans ⟨?_, ?_⟩), (wellScope_of_wells hw _).trans (kw.trans (wellScope_of_wells ?_ _))⟩ <;> rfl
  clear_value s1
  have hz : ((s1.zeroIde (p + 1)).tdiError (p + 1) 3).ground = s1.ground := (tdiError_ground _ _ _).trans rfl
  have hs2 : PartScope s s2 p := hs1.trans ((partScope_of_ground hz p).trans (endSession_scope _ ended hp))
  have h2 : SameTraffic s s2 ∧ WellScope s s2 (s.wellsOf p) := by
    obtain ⟨ht, hw⟩ := tdiError_links (s1.zeroIde (p + 1)) (p + 1) 3
    obtain ⟨kt, kw⟩ := endSession_links ((s1.zeroIde (p + 1)).tdiError (p + 1) 3) p ended
    exact ⟨h1.1.trans (SameTraffic.trans ⟨ht.qps, ht.commits⟩ kt), h1.2.trans (wellScope_of_wells (s := s1) (kw.trans hw) _)⟩
  clear_value s2
  have hs3 : PartScope s s3 p := hs2.trans (partScope_of_ground (each_ground _ _ _ (fun t w => (modWell_ground _ _ _).trans (resetWellRegs_ground t w))) p)
  have he3 : s3 = s2.resetWells (s.wellsOf p) := rfl
  have h3 : SameTraffic s s3 := by rw [he3]; exact h2.1.trans (sameTraffic_resetWells _ _)
  have hw3 : WellScope s s3 (s.wellsOf p) := by rw [he3]; exact h2.2.trans (wellScope_resetWells _ _)
  have hem : ∀ w ∈ s.wellsOf p, w < s.wells.length → (s3.well w).Emptied := fun w hw hlt => by
    rw [he3]
    exact emptied_resetWells s2 hw (by rw [h2.2.length]; exact hlt)
  clear_value s3
  have h4part : s4.part p = Partition.reset (((s3.resetStrelul p).resetPartRegs p).part p) := by
    refine part_modPart_self _ ?_
    rw [parts_of_ground (resetPartRegs_ground _ _), (resetStrelul_scope s3 p).length, hs3.length]
    exact hl
  have h4q : s4.qps = s.qps.filter (fun e => e.2.part ≠ p) := by rw [← h3.qps]; rfl
  have h4c : s4.commits = s.commits.filter (fun c => c.part ≠ p) := by rw [← h3.commits]; rfl
  have h4r : ∀ x, rndBase p ≤ x → x < rndBase p + 0x400 → s4.regW x = regReset x := fun x hlo hhi => by
    rw [← regW_resetPartRegs (s3.resetStrelul p) p hlo hhi, State.regW, State.regW, State.modPart_regs]
  have h4w : s4.wells = s3.wells := by simp [s4, State.resetStrelul, State.resetPartRegs]
  clear_value s4
  obtain ⟨h5q, h5c, h5p, h5w⟩ : s5.qps = s4.qps ∧ s5.commits = s4.commits ∧ s5.parts = s4.parts ∧ s5.wells = s4.wells := rearmSources_keeps s4 p
  have h5r : ∀ x, rndBase p ≤ x → x < rndBase p + 0x400 → s5.regW x = regReset x := fun x hlo hhi =>
    (regW_rearmSources s4 p (by simp only [rndBase, logBase] at *; omega)).trans (h4r x hlo hhi)
  clear_value s5
  rw [State.part, ← h5p] at h4part
  refine ⟨⟨_, h4part⟩, by simp, h5q.trans h4q, h5c.trans h4c, h5r, hw3.trans (wellScope_of_wells ?_ _), fun w hw hlt => ?_⟩
  · exact h5w.trans h4w
  · have := hem w hw hlt
    rwa [State.well, ← h4w, ← h5w] at this

/-- Settles O12: the stages of a partition reset each clear what they name, and nothing after them fills it again. -/
theorem partitionResets : Obligations.PartitionResets := by
  unfold Obligations.PartitionResets
  intro c k s hr hf hl p
  have hp : p < 24 := by
    simp only [State.formed, Bool.and_eq_true, decide_eq_true_eq] at hf
    exact hf.1.2
  have hex : exec (.partitionReset c) s = .next (s.partitionReset p 0 1 none (some k.ref)) := by
    show execPartitionReset c s = _
    simp only [execPartitionReset, State.partCmd, hr, hf, if_pos]
    rfl
  obtain ⟨hscope, hround, hses⟩ := partitionReset_clears s 0 1 none (some k.ref) hp hl
  obtain ⟨⟨y, hy⟩, hlock, hqps, hcommits, hregs, hw, hem⟩ := partitionReset_resets s 0 1 none (some k.ref) hp hl
  generalize s.partitionReset p 0 1 none (some k.ref) = t at hex hscope hround hses hy hlock hqps hcommits hregs hw hem
  refine ⟨t, hex, hround, by rw [hy]; rfl, by rw [hy]; rfl, by rw [hy]; rfl, ?_, hlock, fun e he => ?_, fun e he => ?_, hregs, fun w hwp hlt => ?_,
    hscope.others, hw.others, fun n hn => ?_, hscope.lantus, hscope.power, hscope.plan, hscope.access⟩
  · rw [State.session, if_neg (by omega)]
    exact hses
  · rw [hqps] at he
    exact of_decide_eq_true (List.mem_filter.mp he).2
  · rw [hcommits] at he
    exact of_decide_eq_true (List.mem_filter.mp he).2
  · obtain ⟨h1, h2, h3, h4, h5, h6⟩ := hem w hwp hlt
    exact ⟨h1, h2, h3, h4, h5, h6, hw.kept w⟩
  · rw [State.qp, hqps]
    exact look_filter_part s.qps n p hn

end Sys2Proof.Machine

namespace Sys2Proof.Machine

open Sys2Proof

/-! ## Commands and verdicts -/

/-- A changed command that keeps its reference is found by it. -/
theorem find_map_cmd (l : List Cmd) (r : CmdRef) {f : Cmd → Cmd} (hf : ∀ c, (f c).is r = c.is r) :
    (l.map (fun c => if c.is r then f c else c)).find? (fun c => c.is r) = (l.find? (fun c => c.is r)).map f := by
  induction l with
  | nil => rfl
  | cons c l ih => by_cases h : c.is r = true <;> simp [h, hf, ih]

/-- The first of the checks in order, then the others. -/
theorem checkAll_cons_error (e : Status × Nat × Nat) (vs : List Verdict) : checkAll (.error e :: vs) = .error e := rfl

theorem checkAll_cons_ok (vs : List Verdict) : checkAll (.ok () :: vs) = checkAll vs := rfl

/-- A container beyond the largest length fails check 1 whatever its header holds (R270). -/
theorem headerVerdict_of_too_long (b : Bytes) {len kind : Nat} (stepping : Nat) (target : Nat → Bool) (wells : Nat) (h : largestLength kind < len) :
    headerVerdict b len kind stepping target wells = .error (.lengthExceeds, 1, 0x1FFF) := by
  have h0 : (len != 0) = true := by simp; omega
  have h1 : decide (len ≤ largestLength kind) = false := by simpa using h
  simp only [headerVerdict, need, h0, h1, if_true, checkAll_cons_ok]
  rfl

/-- A plan whose header fails fails with the header's verdict. -/
theorem planVerdict_of_header_error {s : State} {b : Bytes} {len : Nat} {e : Status × Nat × Nat} (h : s.planHeaderVerdict b len = .error e) :
    s.planVerdict b len = .error e := by
  simp only [State.planVerdict, h, checkAll_cons_error]

/-! ## A load whose bytes are all there (R280) -/

/-- The state that a load leaves by the verdict on its plan. -/
def State.planEnds (s : State) (c : Cmd) : Verdict → State
  | .error (st, ch, sec) => s.refusePlan c st ch sec
  | .ok () => s.installPlan c c.data

/-- The verdict decides a load whose bytes are all there. -/
theorem planArrived_of_complete {s : State} {l : Loading} {c : Cmd} (hl : s.plan.loading = some l) (hc : s.cmds.find? (fun c => c.is l.cmd) = some c)
    (hf : c.readFailed = false) (hd : c.data.length = c.length) (hpos : 1 ≤ c.length) :
    s.planArrived = s.planEnds c (s.planVerdict c.data c.length) := by
  unfold State.planArrived
  by_cases hlong : largestLength 1 < c.length
  · have hv := headerVerdict_of_too_long c.data (s.reg 4 % 256) (fun t => t == 0x1F) 0 hlong
    have hz : s.planHeaderVerdict (zeros 64) c.length = _ := headerVerdict_of_too_long (zeros 64) (s.reg 4 % 256) (fun t => t == 0x1F) 0 hlong
    have hw : ¬ ((zeros 64).length < 64 ∧ (zeros 64).length < c.length) := by simp [zeros]
    simp only [hl, hc, hf, if_pos (Or.inr hlong : c.length = 0 ∨ largestLength 1 < c.length), if_neg hw, hz, planVerdict_of_header_error hv, State.planEnds,
      Bool.false_eq_true, if_false]
  · have hw : ¬ (c.data.length < 64 ∧ c.data.length < c.length) := by omega
    have hb : ¬ (c.length = 0 ∨ largestLength 1 < c.length) := by omega
    simp only [hl, hc, hf, if_neg hb, if_neg hw, Bool.false_eq_true, if_false]
    cases hv : s.planHeaderVerdict c.data c.length with
    | error e =>
      rw [planVerdict_of_header_error hv]
      rfl
    | ok =>
      simp only [if_neg (show ¬ c.data.length < c.length by omega)]
      cases s.planVerdict c.data c.length <;> rfl

/-- A refused plan changes the record of the load and the lock. -/
theorem refusePlan_keeps (s : State) (c : Cmd) (st : Status) (ch sec : Nat) :
    (s.refusePlan c st ch sec).plan = { s.plan with loading := none } ∧ (s.refusePlan c st ch sec).access = s.access ∧
      (s.refusePlan c st ch sec).parts = s.parts ∧ (s.refusePlan c st ch sec).wells = s.wells ∧ (s.refusePlan c st ch sec).lockGlobal = s.plan.inForce := by
  unfold State.refusePlan
  rw [State.complete_eq]
  simp [State.planStatus]

/-! ## Installation (R281, R282) -/

/-- Only sources and generators differ. -/
def SeedsOnly (s t : State) : Prop := ∃ src gen, t = { s with sources := src, drbgs := gen }

theorem SeedsOnly.trans {s t u : State} (h : SeedsOnly s t) (k : SeedsOnly t u) : SeedsOnly s u := by
  obtain ⟨_, _, rfl⟩ := h
  obtain ⟨_, _, rfl⟩ := k
  exact ⟨_, _, rfl⟩

theorem seedsOnly_each {α : Type} (s : State) (l : List α) {f : State → α → State} (h : ∀ t a, SeedsOnly t (f t a)) : SeedsOnly s (s.each l f) :=
  each_invariant ⟨_, _, rfl⟩ (fun a _ t ht => ht.trans (h t a))

theorem seedsOnly_restartSource (s : State) (w owner : Nat) : SeedsOnly s (s.restartSource w owner) := ⟨_, _, rfl⟩

theorem seedsOnly_reformDrbg (s : State) (p : Nat) (was now : Bool) : SeedsOnly s (s.reformDrbg p was now) := by
  unfold State.reformDrbg
  split
  · exact ⟨_, _, rfl⟩
  · split <;> exact ⟨_, _, rfl⟩

theorem regsOnly_setReg (s : State) (x v : Nat) : RegsOnly s (s.setReg x v) := rfl

theorem regsOnly_setReg64 (s : State) (x v : Nat) : RegsOnly s (s.setReg64 x v) := rfl

theorem regsOnly_planStatus (s : State) (st : Status) (ch : Nat) : RegsOnly s (s.planStatus st ch) :=
  (regsOnly_setBits _ _ _ _ _).trans (regsOnly_setBits _ _ _ _ _)

theorem regsOnly_planRegs (s : State) (serial : Nat) (d : Bytes) : RegsOnly s (s.planRegs serial d) :=
  ((regsOnly_planStatus _ _ _).trans (regsOnly_setReg64 _ _ _)).trans (regsOnly_each _ _ (fun _ _ => regsOnly_setReg _ _ _))

/-- The floor plan that an installation puts in force. -/
def State.planFormed (s : State) (b : Bytes) : FloorPlan :=
  { inForce := true, serial := (headerOf b).serial, digestCopies := List.replicate 3 (imageDigest b), records := (planRecords b).filter (fun r => r.wells != 0),
    slots := if s.plan.inForce then s.plan.slots else planRuns b,
    slotsNext := if s.plan.inForce then some (s.nextFrame, planRuns b) else none, loading := none }

/-- The access control that an installation puts in force. -/
def State.accessFormed (s : State) (b : Bytes) : Access :=
  { s.access with owners := List.replicate 3 ((List.range 24).map (recordOwner (planRecords b))), roots := List.replicate 3 (crc32c (bodyOf b 2)), tables := planTables b }

/-- An installation changes the plan, the access control and the lock, sources and generators, registers, the log, and what a completion changes. -/
theorem installPlan_eq (s : State) (c : Cmd) (b : Bytes) :
    ∃ src gen rg fr lg cmds fns out, s.installPlan c b = { s with
      plan := s.planFormed b, lockGlobal := true, access := s.accessFormed b, sources := src, drbgs := gen, regs := rg, fresh := fr, log := lg,
      cmds := cmds, fns := fns, out := out } := by
  unfold State.installPlan
  extract_lets rs owners d root serial was changed plan acc s1 s2 s3
  obtain ⟨src, gen, h3⟩ : SeedsOnly s1 s3 :=
    (seedsOnly_each _ _ (fun t w => seedsOnly_restartSource t w _)).trans (seedsOnly_each _ _ (fun t p => seedsOnly_reformDrbg t p _ _))
  have h4 : s3.planRegs serial d = _ := regsOnly_planRegs s3 serial d
  rw [State.complete_eq, State.raise_eq, h4, h3]
  exact ⟨_, _, _, _, _, _, _, _, rfl⟩

/-- Three equal copies give the owner they hold. -/
theorem owner_of_replicate {s : State} {owners : List Nat} (h : s.access.owners = List.replicate 3 owners) (w : Nat) : s.owner w = owners.getD w 0x1F := by
  simp [State.owner, State.ownerVote, h, vote]

/-! ## FLOORPLAN_LOAD and its bytes -/

/-- A load that starts before its header is there waits for it. -/
theorem floorplanLoad_waits {c : CmdRef} {k : Cmd} {s : State} (hr : s.ready c 0x21 = some k) (hn : s.plan.loading = none) (hu : s.lantus.state ≠ .updating)
    (hl : s.noLoads = false) (hp : ∀ x ∈ s.parts, x.image.state ≠ .loading) (hf : k.readFailed = false) (h64 : k.data.length < 64)
    (hd : k.data.length < k.length) (hpos : 1 ≤ k.length) (hmax : k.length ≤ 262144) :
    exec (.floorplanLoad c) s = .next { s.startCmd c with plan := { s.plan with loading := some ⟨c, k.length, s.devtime⟩ }, lockGlobal := false } := by
  have hany : s.parts.any (fun x => x.image.state == .loading) = false := by
    rw [List.any_eq_false]
    intro x hx
    simpa using hp x hx
  have hfind : (s.startCmd c).cmds.find? (fun x => x.is c) = some { k with started := true, startTime := s.devtime } := by
    refine (find_map_cmd s.cmds c (f := fun x => { x with started := true, startTime := s.devtime }) (fun _ => rfl)).trans ?_
    rw [find_of_ready hr]
    rfl
  show execFloorplanLoad c s = _
  have hb : ¬ (k.length = 0 ∨ largestLength 1 < k.length) := by
    simp only [largestLength, if_true]
    omega
  simp only [execFloorplanLoad, hr, hn, hany, hu, hl, Option.isSome_none, Bool.false_eq_true, or_self, if_false, State.planArrived, hfind, hf,
    if_neg hb, if_pos (And.intro h64 hd)]
  rfl

/-- A command has got the next bytes of its host reads. -/
def State.gotBytes (s : State) (c : CmdRef) (bs : Bytes) : State :=
  { s.modCmd c (fun x => { x with data := (x.data ++ bs).take (readLength x) }) with host := { s.host with lastTlp := s.devtime } }

/-- Bytes that a started command still waits for are taken, and its load follows them. -/
theorem hostReadCompletion_gets {c : CmdRef} {d : Cmd} (bs : Bytes) {s : State} (hup : s.host.up = true) (hp0 : s.power.state = .p0)
    (hfind : s.cmds.find? (fun x => x.is c) = some d) (hf : d.readFailed = false) (hlt : d.data.length < readLength d) (hok : s.streamBad d.fn = false) :
    exec (.hostReadCompletion c (some bs)) s = .next ((s.gotBytes c bs).loadsFollow c) := by
  have hact : s.activity = s := by simp [State.activity, hp0]
  have hmore : ¬ (d.readFailed = true ∨ readLength d ≤ d.data.length) := by
    rw [hf]
    simp
    omega
  show execHostReadCompletion c (some bs) s = _
  rw [execHostReadCompletion, hact]
  dsimp only
  rw [if_neg (by simp [hup])]
  simp only [hfind, hok, if_neg hmore, Bool.false_eq_true, if_false]
  rfl

/-- The last bytes of a load end it by the verdict on them. -/
theorem hostReadCompletion_endsPlan {c : CmdRef} {d : Cmd} {l : Loading} {bs : Bytes} {s : State} (hup : s.host.up = true) (hp0 : s.power.state = .p0)
    (hfind : s.cmds.find? (fun x => x.is c) = some d) (hop : d.opcode = 0x21) (hst : d.started = true) (hf : d.readFailed = false)
    (hlt : d.data.length < d.length) (hok : s.streamBad d.fn = false) (hl : s.plan.loading = some l) (hc : l.cmd = c)
    (hb : ((d.data ++ bs).take d.length).length = d.length) :
    exec (.hostReadCompletion c (some bs)) s =
      .next ((s.gotBytes c bs).planEnds { d with data := (d.data ++ bs).take d.length } (s.planVerdict ((d.data ++ bs).take d.length) d.length)) := by
  have hlen : readLength d = d.length := by simp [readLength, hop, namesStructure]
  have hfu : (s.gotBytes c bs).cmds.find? (fun x => x.is c) = some { d with data := (d.data ++ bs).take d.length } := by
    refine (find_map_cmd s.cmds c (f := fun x => { x with data := (x.data ++ bs).take (readLength x) }) (fun _ => rfl)).trans ?_
    rw [hfind, Option.map_some, hlen]
  have hend := planArrived_of_complete (s := s.gotBytes c bs) (c := { d with data := (d.data ++ bs).take d.length }) hl (hc ▸ hfu) hf hb (by show 1 ≤ d.length; omega)
  have hfollow : (s.gotBytes c bs).loadsFollow c = (s.gotBytes c bs).planArrived := by
    simp only [State.loadsFollow, hfu, hst, hop, Bool.not_true, Bool.false_eq_true, if_false, if_true]
    rw [if_neg (by decide)]
  rw [hostReadCompletion_gets bs hup hp0 hfind hf (by rw [hlen]; exact hlt) hok, hfollow, hend]
  rfl

/-- Settles O18: a load waits for its header, and with its last byte the verdict alone decides between installation and refusal. -/
theorem floorPlansLoad : Obligations.FloorPlansLoad := by
  unfold Obligations.FloorPlansLoad
  refine ⟨fun c k s hr hn hu hl hp hf h64 hd hpos hmax => ?_, fun c k s hr hbusy => ?_,
    fun c d l bs s hup hp0 hfind hop hst hf hlt hok hl hc => ?_, fun n l s hal hn => ?_⟩
  · exact ⟨_, floorplanLoad_waits hr hn hu hl hp hf h64 hd hpos hmax, rfl, rfl⟩
  · refine ⟨((s.planStatus .state 0).count (fplBase + 0x30)).raise 0x0702 0x1F 0 [(8, Status.state.code), (8, 0), (16, 0x1FFF)], ?_, ?_⟩
    · show execFloorplanLoad c s = _
      simp only [execFloorplanLoad, hr]
      rw [if_pos (by tauto)]
      rfl
    · have h : (s.planStatus .state 0).count (fplBase + 0x30) = _ := (regsOnly_planStatus s _ _).trans (regsOnly_count _ _)
      rw [State.raise_eq, h]
  · intro b hb
    have hex := hostReadCompletion_endsPlan hup hp0 hfind hop hst hf hlt hok hl hc hb
    refine ⟨fun hv => ?_, fun e hv => ?_⟩ <;> rw [hv] at hex
    · obtain ⟨src, gen, rg, fr, lg, cm, fns, out, ht⟩ := installPlan_eq (s.gotBytes c bs) { d with data := b } b
      rw [State.planEnds, ht] at hex
      refine ⟨_, hex, rfl, rfl, rfl, rfl, rfl, rfl, rfl, fun w hw => ?_, rfl, rfl, rfl, rfl⟩
      rw [owner_of_replicate (owners := (List.range 24).map (recordOwner (planRecords b))) rfl]
      simp [List.getD_eq_getElem?_getD, hw]
    · obtain ⟨st, ch, sec⟩ := e
      exact ⟨_, hex, refusePlan_keeps (s.gotBytes c bs) { d with data := b } st ch sec⟩
  · show execSlotOwnerSwitch s = _
    simp only [execSlotOwnerSwitch, hn, hal, true_and]
    split <;> rfl

end Sys2Proof.Machine

namespace Sys2Proof.Machine

open Sys2Proof

/-! ## What a failed round leaves alone

A round that fails changes partitions, tiles, queue pairs, registers and commands. The device's life and time, its power, Lantus, the access control, and
whether a well is in service are as before. -/

/-- Whether a well serves: the state of its LPDDR5X and its being in service. -/
def Well.service (x : Well) : LpxState × Bool := (x.lpxState, x.inService)

/-- The device's life and time, power, Lantus, access control and the service of the wells. -/
def State.steady (s : State) : (Life × Nat × Power × Lantus × Access) × List (LpxState × Bool) :=
  ((s.life, s.devtime, s.power, s.lantus, s.access), s.wells.map Well.service)

theorem steady_of_service {s t : State} (hc : t.steady.1 = s.steady.1) (hw : t.wells.map Well.service = s.wells.map Well.service) : t.steady = s.steady :=
  Prod.ext hc hw

@[simp] theorem each_steady {α : Type} (s : State) (l : List α) (f : State → α → State) (h : ∀ t a, (f t a).steady = t.steady) :
    (s.each l f).steady = s.steady := each_kept State.steady s l f (fun a _ t => h t a)

@[simp] theorem steady_ite (c : Prop) [Decidable c] (a b : State) : (if c then a else b).steady = if c then a.steady else b.steady := apply_ite _ _ _ _

theorem map_updAt_self {α β : Type} (g : α → β) (l : List α) (i : Nat) {f : α → α} (h : ∀ x, g (f x) = g x) : (updAt l i f).map g = l.map g := by
  induction l generalizing i with
  | nil => rfl
  | cons a l ih => cases i <;> simp [updAt, h, ih]

/-- A change to a well that keeps its service keeps the steady part. -/
theorem modWell_steady (s : State) (w : Nat) {f : Well → Well} (h : ∀ x, (f x).service = x.service) : (s.modWell w f).steady = s.steady :=
  steady_of_service rfl (map_updAt_self _ _ _ h)

@[simp] theorem modTile_steady (s : State) (t : TileRef) (f : Tile → Tile) : (s.modTile t f).steady = s.steady := modWell_steady s t.well (fun _ => rfl)
@[simp] theorem modPart_steady (s : State) (p : Nat) (f : Partition → Partition) : (s.modPart p f).steady = s.steady := rfl
@[simp] theorem modRound_steady (s : State) (p : Nat) (f : Round → Round) : (s.modRound p f).steady = s.steady := rfl
@[simp] theorem modFn_steady (s : State) (n : Nat) (f : Function → Function) : (s.modFn n f).steady = s.steady := rfl
@[simp] theorem modQp_steady (s : State) (n : Nat) (f : Qp → Qp) : (s.modQp n f).steady = s.steady := rfl
@[simp] theorem emit_steady (s : State) (o : Output) : (s.emit o).steady = s.steady := rfl
@[simp] theorem setReg_steady (s : State) (x v : Nat) : (s.setReg x v).steady = s.steady := rfl
@[simp] theorem setBits_steady (s : State) (x hi lo v : Nat) : (s.setBits x hi lo v).steady = s.steady := rfl
@[simp] theorem countBy_steady (s : State) (x n : Nat) : (s.countBy x n).steady = s.steady := rfl
@[simp] theorem count_steady (s : State) (x : Nat) : (s.count x).steady = s.steady := rfl
@[simp] theorem modPort_steady (s : State) (n : Nat) (f : Port → Port) : (s.modPort n f).steady = s.steady := rfl
@[simp] theorem clearRegs_steady (s : State) (lo hi : Nat) : (s.clearRegs lo hi).steady = s.steady := rfl

@[simp] theorem raise_steady (s : State) (code part src : Nat) (l : List (Nat × Nat)) : (s.raise code part src l).steady = s.steady := by
  rw [State.raise_eq]
  rfl

@[simp] theorem assertFault_steady (s : State) (cause : Nat) : (s.assertFault cause).steady = s.steady := by
  rw [State.assertFault_eq]
  rfl

@[simp] theorem complete_steady (s : State) (c : Cmd) (st : Status) (result detail : Nat) : (s.complete c st result detail).steady = s.steady := by
  rw [State.complete_eq]
  rfl

@[simp] theorem hostWrite_steady (s : State) (f a : Nat) (b : Bytes) : (s.hostWrite f a b).steady = s.steady := by
  rw [State.hostWrite_eq]
  rfl

@[simp] theorem msix_steady (s : State) (f v : Nat) : (s.msix f v).steady = s.steady := by
  rw [State.msix_eq]
  rfl

@[simp] theorem roundInt_steady (s : State) (p b : Nat) : (s.roundInt p b).steady = s.steady := by simp [State.roundInt]

@[simp] theorem firstIn_steady (s : State) (p kind obj period : Nat) : (s.firstIn p kind obj period).2.steady = s.steady := by
  unfold State.firstIn
  split <;> rfl

@[simp] theorem tripleEvent_steady (s : State) (part ident : Nat) (fixed : Option Nat) : (s.tripleEvent part ident fixed).steady = s.steady := by
  unfold State.tripleEvent
  split <;> simp

/-! ### Windlasses (R212, R217) -/

@[simp] theorem stopWindlasses_steady (s : State) (p : Nat) : (s.stopWindlasses p).steady = s.steady := by simp [State.stopWindlasses]

@[simp] theorem takeEntry_steady (s : State) (p : Nat) (t : TileRef) (e : QEntry) (dst : Nat) : (s.takeEntry p t e dst).steady = s.steady := by
  simp [State.takeEntry]

@[simp] theorem serveWaits_steady (s : State) (p : Nat) : (s.serveWaits p).steady = s.steady := by
  refine each_steady _ _ _ (fun t r => ?_)
  split
  · split <;> simp
  · split
    · split <;> simp
    · rfl
  · rfl

@[simp] theorem showState_steady (s : State) (p : Nat) (st : RoundState) : (s.showState p st).steady = s.steady := by simp [State.showState]

@[simp] theorem enterState_steady (s : State) (p : Nat) (st : RoundState) : (s.enterState p st).steady = s.steady := by
  simp [State.enterState, State.releaseState]

/-! ### Queue pairs (R317, R323) -/

@[simp] theorem ringWrite_steady (s : State) (p : Nat) (rec : Bytes) : (s.ringWrite p rec).steady = s.steady := by simp [State.ringWrite]

@[simp] theorem eventRecord_steady (s : State) (p kind : Nat) (st : Status) (object a b : Nat) : (s.eventRecord p kind st object a b).steady = s.steady := by
  simp [State.eventRecord]

@[simp] theorem recordLost_steady (s : State) (p n k : Nat) : (s.recordLost p n k).steady = s.steady := by
  unfold State.recordLost
  (repeat' split) <;> simp

@[simp] theorem sendFrame_steady (s : State) (port prio : Nat) (frame : Bytes) : (s.sendFrame port prio frame).steady = s.steady := by simp [State.sendFrame]

@[simp] theorem sendPacket_steady (s : State) (n op : Nat) (first last ackReq : Bool) (path cls attempt psn : Nat) (ext payload : Bytes) :
    (s.sendPacket n op first last ackReq path cls attempt psn ext payload).steady = s.steady := by
  simp only [State.sendPacket]
  split <;> simp

@[simp] theorem nextPsn_steady (s : State) (n cls : Nat) : (s.nextPsn n cls).2.steady = s.steady := by simp [State.nextPsn]

@[simp] theorem controlOut_steady (s : State) (n op path : Nat) (ext payload : Bytes) : (s.controlOut n op path ext payload).steady = s.steady := by
  simp [State.controlOut]

@[simp] theorem abandonUpload_steady (s : State) (p : Nat) (u : Upload) : (s.abandonUpload p u).steady = s.steady := by simp [State.abandonUpload]

@[simp] theorem qpError_steady (s : State) (n : Nat) (st : Status) (kind : Nat) : (s.qpError n st kind).steady = s.steady := by simp [State.qpError]

@[simp] theorem queueRecord_steady (s : State) (p n : Nat) (rec : Bytes) : (s.queueRecord p n rec).steady = s.steady := by simp [State.queueRecord]

/-! ### The end of a round (R51, R70, R82) -/

/-- Emptying a list of ranges keeps a well's service. -/
theorem service_zeroRanges (l : List (Nat × Nat × Nat)) (x : Well) :
    (l.foldl (fun y e => (y.dropUnits e.2.1 e.2.2).zeroRange e.2.1 (e.2.2 + 1 - e.2.1)) x).service = x.service := by
  induction l generalizing x with
  | nil => rfl
  | cons e l ih => exact ih _

@[simp] theorem wipeRanges_steady (s : State) (p : Nat) : (s.wipeRanges p).steady = s.steady :=
  each_steady _ _ _ (fun _ _ => modWell_steady _ _ (fun _ => service_zeroRanges _ _))

@[simp] theorem dropUploads_steady (s : State) (p : Nat) : (s.dropUploads p).steady = s.steady :=
  each_steady _ _ _ (fun _ _ => modQp_steady _ _ _)

@[simp] theorem completeAborts_steady (s : State) (p : Nat) : (s.completeAborts p).steady = s.steady := by simp [State.completeAborts]

@[simp] theorem failNow_steady (s : State) (p : Nat) (st : Status) : (s.failNow p st).steady = s.steady := by simp [State.failNow]

@[simp] theorem finishRound_steady (s : State) (p : Nat) (st : Status) : (s.finishRound p st).steady = s.steady := by simp [State.finishRound]

@[simp] theorem failRound_steady (s : State) (p : Nat) (st : Status) : (s.failRound p st).steady = s.steady := by simp [State.failRound]

@[simp] theorem faultCause_steady (s : State) (p : Nat) (st : Status) : (s.faultCause p st).steady = s.steady := by simp [State.faultCause]

/-! ### The image that leaves (R262, R295) -/

@[simp] theorem tilesOff_steady (s : State) (p : Nat) : (s.tilesOff p).steady = s.steady := by simp [State.tilesOff]

@[simp] theorem clearAreas_steady (s : State) (p : Nat) : (s.clearAreas p).steady = s.steady := by
  refine each_steady _ _ _ (fun t w => ?_)
  split
  · exact modWell_steady _ _ (fun _ => rfl)
  · rfl

@[simp] theorem imageUnload_steady (s : State) (p cause : Nat) : (s.imageUnload p cause).steady = s.steady := by
  simp [State.imageUnload, State.dropImage, State.clearImageRegs]

end Sys2Proof.Machine

namespace Sys2Proof.Machine

open Sys2Proof

/-- The service of a well is part of what is steady. -/
theorem service_of_steady {s t : State} (h : t.steady = s.steady) (w : Nat) : (t.well w).service = (s.well w).service := by
  have hm : t.wells.map Well.service = s.wells.map Well.service := congrArg Prod.snd h
  rw [State.well, State.well, ← List.getD_map t.wells (d := {}) Well.service, hm, List.getD_map]

/-! ## LPX_FAILED (R253) -/

/-- A well that leaves service has its LPDDR5X as before. -/
theorem service_wellOut (s : State) {w : Nat} (cause : Nat) (hw : w < s.wells.length) : ((s.wellOut w cause).well w).service = ((s.well w).lpxState, false) := by
  unfold State.wellOut
  split
  · rw [service_of_steady ((faultCause_steady _ _ _).trans (raise_steady _ _ _ _ _)), State.well_modWell, if_pos ⟨rfl, hw⟩]
    rfl
  · rename_i h
    rw [Well.service, Bool.eq_false_of_not_eq_true h]

/-- Its device failed, a well is out of service; Lantus and power are as before. -/
theorem lpxFail_service (s : State) {w : Nat} (reason : Nat) (hw : w < s.wells.length) : ((s.lpxFail w reason).well w).service = (.failed, false) := by
  unfold State.lpxFail
  rw [service_wellOut _ _ (by simpa [State.modWell, updAt_length] using hw), State.raise_well, State.well_modWell, if_pos ⟨rfl, hw⟩]

theorem wellOut_core (s : State) (w cause : Nat) : (s.wellOut w cause).steady.1 = s.steady.1 := by
  unfold State.wellOut
  split
  · rw [faultCause_steady, raise_steady]
    rfl
  · rfl

theorem lpxFail_core (s : State) (w reason : Nat) : (s.lpxFail w reason).steady.1 = s.steady.1 := by
  unfold State.lpxFail
  rw [wellOut_core, raise_steady]
  rfl

/-! ## The votes of the scan (R261, R262) -/

/-- Of the steps of a fold over different elements one alone touches a view. -/
theorem each_once {α β : Type} (g : State → β) (s : State) {l : List α} {f : State → α → State} {a : α} (hn : l.Nodup) (ha : a ∈ l)
    (hkeep : ∀ b, b ≠ a → ∀ t, g (f t b) = g t) : ∃ t, g t = g s ∧ g (s.each l f) = g (f t a) := by
  obtain ⟨l₁, l₂, rfl⟩ := List.append_of_mem ha
  have hout : a ∉ l₁ ∧ a ∉ l₂ := by
    rw [List.nodup_middle, List.nodup_cons] at hn
    simpa using hn.1
  refine ⟨s.each l₁ f, each_kept g _ _ _ (fun b hb t => hkeep b (fun h => hout.1 (h ▸ hb)) t), ?_⟩
  have h : s.each (l₁ ++ a :: l₂) f = (f (s.each l₁ f) a).each l₂ f := by simp [State.each]
  rw [h]
  exact each_kept g _ _ _ (fun b hb t => hkeep b (fun h => hout.2 (h ▸ hb)) t)

/-- Only the key slots, registers and the log differ. -/
def SlotsOnly (s t : State) : Prop := ∃ ks rg fr lg, t = { s with lantus := { s.lantus with keys := ks }, regs := rg, fresh := fr, log := lg }

theorem SlotsOnly.trans {s t u : State} (h : SlotsOnly s t) (k : SlotsOnly t u) : SlotsOnly s u := by
  obtain ⟨_, _, _, _, rfl⟩ := h
  obtain ⟨_, _, _, _, rfl⟩ := k
  exact ⟨_, _, _, _, rfl⟩

theorem slotsOnly_raise (s : State) (code part src : Nat) (l : List (Nat × Nat)) : SlotsOnly s (s.raise code part src l) := by
  rw [State.raise_eq]
  exact ⟨_, _, _, _, rfl⟩

theorem slotsOnly_tripleEvent (s : State) (part ident : Nat) (fixed : Option Nat) : SlotsOnly s (s.tripleEvent part ident fixed) := by
  unfold State.tripleEvent
  split
  · exact slotsOnly_raise _ _ _ _ _
  · exact ⟨_, _, _, _, rfl⟩

theorem slotsOnly_keys (s : State) (ks : List KeySlot) : SlotsOnly s (s.modLantus (fun l => { l with keys := ks })) := ⟨_, _, _, _, rfl⟩

theorem slotsOnly_voteSlot (s : State) (n : Nat) : SlotsOnly s (s.voteSlot n) := by
  unfold State.voteSlot
  extract_lets k v s1
  have h1 : SlotsOnly s s1 := (slotsOnly_keys s _).trans (slotsOnly_tripleEvent _ _ _ _)
  split
  · exact h1
  · split
    · exact h1.trans ((slotsOnly_keys s1 _).trans (slotsOnly_raise _ _ _ _ _))
    · exact h1

theorem slotsOnly_voteSlots (s : State) : SlotsOnly s s.voteSlots :=
  each_invariant ⟨_, _, _, _, rfl⟩ (fun n _ t ht => ht.trans (slotsOnly_voteSlot t n))

/-- A slot and the number of slots. -/
def State.slotView (s : State) (n : Nat) : KeySlot × Nat := (s.slot n, s.lantus.keys.length)

theorem slotView_raise (s : State) (n code part src : Nat) (l : List (Nat × Nat)) : (s.raise code part src l).slotView n = s.slotView n := by
  rw [State.slotView, State.slotView, State.slot, State.slot, State.raise_lantus]

theorem slotView_tripleEvent (s : State) (n part ident : Nat) (fixed : Option Nat) : (s.tripleEvent part ident fixed).slotView n = s.slotView n := by
  unfold State.tripleEvent
  split
  · exact slotView_raise _ _ _ _ _ _
  · rfl

/-- A key slot is changed. -/
def State.modSlot (s : State) (n : Nat) (f : KeySlot → KeySlot) : State := s.modLantus (fun l => { l with keys := updAt l.keys n f })

theorem slotView_modSlot (s : State) (m n : Nat) (f : KeySlot → KeySlot) :
    (s.modSlot n f).slotView m = if m = n ∧ n < s.lantus.keys.length then (f (s.slot m), s.lantus.keys.length) else s.slotView m := by
  have hl : (s.modSlot n f).lantus.keys.length = s.lantus.keys.length := updAt_length _ _ _
  have hs : (s.modSlot n f).slot m = if m = n ∧ n < s.lantus.keys.length then f (s.slot n) else s.slot m := updAt_getD _ _ _ _ _
  rw [State.slotView, hl, hs]
  split
  · rename_i h
    rw [h.1]
  · rfl

theorem slotView_voteSlot_ne (s : State) {m n : Nat} (h : n ≠ m) : (s.voteSlot n).slotView m = s.slotView m := by
  have hne : ∀ (t : State) f, (t.modSlot n f).slotView m = t.slotView m := fun t f => by
    rw [slotView_modSlot, if_neg (fun hc => h hc.1.symm)]
  have h1 : ∀ f part ident fixed, ((s.modSlot n f).tripleEvent part ident fixed).slotView m = s.slotView m := fun f _ _ _ =>
    (slotView_tripleEvent _ _ _ _ _).trans (hne s f)
  unfold State.voteSlot
  dsimp only
  split
  · exact h1 _ _ _ _
  · split
    · exact (slotView_raise _ _ _ _ _ _).trans ((hne _ _).trans (h1 _ _ _ _))
    · exact h1 _ _ _ _

/-- The vote on a slot keeps its value, repairs its copies, and makes it unusable where they all differ. -/
theorem slot_voteSlot (s : State) {n : Nat} (hn : n < s.lantus.keys.length) :
    ((s.voteSlot n).slot n).attrs = (votedCopies (s.slot n).attrs 0).1 ∧ ((s.voteSlot n).slot n).value = (s.slot n).value ∧
      ((votedCopies (s.slot n).attrs 0).2.2 = true → ((s.voteSlot n).slot n).unusable = true) := by
  unfold State.voteSlot
  extract_lets k v s1
  have h1 : s1.slotView n = ({ s.slot n with attrs := v.1 }, s.lantus.keys.length) := by
    refine (slotView_tripleEvent (s.modSlot n (fun x => { x with attrs := v.1 })) _ _ _ _).trans ?_
    rw [slotView_modSlot, if_pos ⟨rfl, hn⟩]
  have hs1 : s1.slot n = { s.slot n with attrs := v.1 } := congrArg Prod.fst h1
  split
  · rename_i hu
    rw [hs1]
    exact ⟨rfl, rfl, fun _ => hu⟩
  · split
    · have h2 := slotView_modSlot s1 n n (fun x => { x with unusable := true })
      rw [if_pos ⟨rfl, by rw [show s1.lantus.keys.length = _ from congrArg Prod.snd h1]; exact hn⟩, hs1] at h2
      have hs2 := congrArg Prod.fst ((slotView_raise (s1.modSlot n (fun x => { x with unusable := true })) n 0x060D 0x1F 0 [(8, n)]).trans h2)
      exact ⟨(congrArg KeySlot.attrs hs2).trans rfl, (congrArg KeySlot.value hs2).trans rfl, fun _ => (congrArg KeySlot.unusable hs2).trans rfl⟩
    · rename_i hv
      rw [hs1]
      refine ⟨rfl, rfl, fun h => absurd ?_ hv⟩
      rw [show v.2.2 = true from h, Bool.true_or]

/-- Each slot of the 64 is voted on once. -/
theorem slot_voteSlots (s : State) {n : Nat} (h64 : n < 64) (hn : n < s.lantus.keys.length) :
    (s.voteSlots.slot n).attrs = (votedCopies (s.slot n).attrs 0).1 ∧ (s.voteSlots.slot n).value = (s.slot n).value ∧
      ((votedCopies (s.slot n).attrs 0).2.2 = true → (s.voteSlots.slot n).unusable = true) := by
  obtain ⟨t, ht, he⟩ := each_once (fun u => u.slotView n) s (f := fun t m => t.voteSlot m) List.nodup_range (List.mem_range.mpr h64)
    (fun m hm u => slotView_voteSlot_ne u hm)
  have hslot : ∀ u v : State, u.slotView n = v.slotView n → u.slot n = v.slot n := fun _ _ h => congrArg Prod.fst h
  rw [State.voteSlots, hslot _ _ he, ← hslot _ _ ht]
  exact slot_voteSlot t (by rw [show t.lantus.keys.length = _ from congrArg Prod.snd ht]; exact hn)

/-! ### The other votes -/

/-- What every stage of the scan but the votes on slots, roots and divider leaves alone. -/
def State.scanned (s : State) : Life × Nat × Power × Lantus × List Nat × List Nat :=
  (s.life, s.devtime, s.power, s.lantus, s.access.roots, s.access.divider)

theorem scanned_of_core {s t : State} (h : t.steady.1 = s.steady.1) : t.scanned = s.scanned :=
  congrArg (fun v : Life × Nat × Power × Lantus × Access => (v.1, v.2.1, v.2.2.1, v.2.2.2.1, v.2.2.2.2.roots, v.2.2.2.2.divider)) h

theorem scanned_of_steady {s t : State} (h : t.steady = s.steady) : t.scanned = s.scanned := scanned_of_core (congrArg Prod.fst h)

theorem scanned_repairOwner (s : State) (w : Nat) : (s.repairOwner w).scanned = s.scanned := by
  unfold State.repairOwner
  split
  · rfl
  · refine (scanned_of_steady (tripleEvent_steady _ _ _ _)).trans ?_
    rfl

theorem scanned_wellOut (s : State) (w cause : Nat) : (s.wellOut w cause).scanned = s.scanned := scanned_of_core (wellOut_core s w cause)

theorem scanned_raise (s : State) (code part src : Nat) (l : List (Nat × Nat)) : (s.raise code part src l).scanned = s.scanned :=
  scanned_of_steady (raise_steady _ _ _ _ _)

theorem scanned_voteOwner (s : State) (w : Nat) : (s.voteOwner w).scanned = s.scanned := by
  unfold State.voteOwner
  dsimp only
  split
  · exact (scanned_wellOut _ _ _).trans ((scanned_raise _ _ _ _ _).trans (scanned_repairOwner s w))
  · exact scanned_repairOwner s w

theorem scanned_votePlan (s : State) : s.votePlan.scanned = s.scanned := by
  unfold State.votePlan
  split
  · rfl
  · extract_lets v plan s1
    have h1 : s1.scanned = s.scanned := by
      refine (scanned_of_steady (tripleEvent_steady _ _ _ _)).trans ?_
      rfl
    split
    · refine (scanned_of_steady ?_).trans h1
      rw [assertFault_steady, each_steady _ _ _ (fun t p => faultCause_steady t p _), raise_steady]
    · exact h1

theorem scanned_voteImage (s : State) (p : Nat) : (s.voteImage p).scanned = s.scanned := by
  unfold State.voteImage
  split
  · rfl
  · extract_lets v s1
    have h1 : s1.scanned = s.scanned := by
      refine (scanned_of_steady (tripleEvent_steady _ _ _ _)).trans ?_
      rfl
    split
    · refine (scanned_of_steady ?_).trans h1
      rw [imageUnload_steady, tilesOff_steady, faultCause_steady, raise_steady]
    · exact h1

theorem scanned_checkSubst (s : State) (w : Nat) : (s.checkSubst w).scanned = s.scanned := by
  unfold State.checkSubst
  split
  · exact (scanned_wellOut _ _ _).trans (scanned_raise _ _ _ _ _)
  · rfl

/-- Copies that agree are what the vote leaves, and do not all differ. -/
theorem votedCopies_of_agree {α : Type} [DecidableEq α] {l : List α} {d : α} (h : agree l d = true) :
    votedCopies l d = ([l.getD 0 d, l.getD 1 d, l.getD 2 d], none, false) := by
  simp only [agree, decide_eq_true_eq] at h
  unfold votedCopies
  dsimp only
  rw [if_pos h.1, if_pos h.2]

theorem eq_of_length_three {α : Type} {l : List α} (d : α) (h : l.length = 3) : [l.getD 0 d, l.getD 1 d, l.getD 2 d] = l := by
  obtain ⟨a, b, c, rfl⟩ := List.length_eq_three.mp h
  rfl

/-- The vote on the roots leaves the copies as it repairs them. -/
theorem scanned_voteRoots {s : State} (h : s.access.roots.length = 3) :
    s.voteRoots.scanned = (s.life, s.devtime, s.power, s.lantus, (votedCopies s.access.roots 0).1, s.access.divider) := by
  have hr : s.repairRoots.scanned = (s.life, s.devtime, s.power, s.lantus, (votedCopies s.access.roots 0).1, s.access.divider) := by
    unfold State.repairRoots
    split
    · rename_i ha
      rw [votedCopies_of_agree ha, eq_of_length_three 0 h]
      rfl
    · refine (scanned_of_steady (tripleEvent_steady _ _ _ _)).trans ?_
      rfl
  unfold State.voteRoots
  dsimp only
  split
  · exact (scanned_raise _ _ _ _ _).trans hr
  · exact hr

/-- The vote on the divider stops the device when all its copies differ. -/
theorem voteDivider_stops (s : State) :
    s.voteDivider.life = (if (votedCopies s.access.divider 0).2.2 = true then .stopped else s.life) ∧ s.voteDivider.lantus = s.lantus ∧
      s.voteDivider.power = s.power ∧ s.voteDivider.devtime = s.devtime ∧ s.voteDivider.access.roots = s.access.roots := by
  unfold State.voteDivider
  split
  · rename_i h
    rw [votedCopies_of_agree h]
    exact ⟨rfl, rfl, rfl, rfl, rfl⟩
  · extract_lets v acc s1 s2
    have h1 : s1.steady.1 = (s.life, s.devtime, s.power, s.lantus, { s.access with divider := v.1 }) := by
      refine (congrArg Prod.fst (tripleEvent_steady _ _ _ _)).trans ?_
      rfl
    have h2 : s2.steady.1 = s1.steady.1 := by
      rw [assertFault_steady, raise_steady]
    rw [h1] at h2
    simp only [State.steady, Prod.mk.injEq] at h1 h2
    obtain ⟨hlife, htime, hpower, hlantus, hacc⟩ := h1
    obtain ⟨-, htime2, hpower2, hlantus2, hacc2⟩ := h2
    split
    · exact ⟨rfl, hlantus2, hpower2, htime2, (congrArg Access.roots hacc2).trans rfl⟩
    · exact ⟨hlife, hlantus, hpower, htime, (congrArg Access.roots hacc).trans rfl⟩

/-- The scan up to the divider: the slots and the roots as their votes leave them. -/
theorem scanned_scan (s : State) (h : s.access.roots.length = 3) :
    ((((s.voteSlots.each (List.range 24) (fun t w => t.voteOwner w)).voteRoots.votePlan).each (List.range 24) (fun t p => t.voteImage p)).each (List.range 24)
        (fun t w => t.checkSubst w)).scanned =
      (s.life, s.devtime, s.power, s.voteSlots.lantus, (votedCopies s.access.roots 0).1, s.access.divider) := by
  obtain ⟨ks, rg, fr, lg, hs⟩ := slotsOnly_voteSlots s
  have h2 : (s.voteSlots.each (List.range 24) (fun t w => t.voteOwner w)).scanned =
      (s.life, s.devtime, s.power, s.voteSlots.lantus, s.access.roots, s.access.divider) := by
    rw [each_kept State.scanned _ _ _ (fun w _ t => scanned_voteOwner t w), hs]
    rfl
  rw [each_kept State.scanned _ _ _ (fun w _ t => scanned_checkSubst t w), each_kept State.scanned _ _ _ (fun p _ t => scanned_voteImage t p), scanned_votePlan]
  generalize s.voteSlots.each (List.range 24) (fun t w => t.voteOwner w) = t at h2 ⊢
  simp only [State.scanned, Prod.mk.injEq] at h2
  obtain ⟨h1, h2, h3, h4, h5, h6⟩ := h2
  rw [scanned_voteRoots (by rw [h5]; exact h), h1, h2, h3, h4, h5, h6]

end Sys2Proof.Machine

namespace Sys2Proof.Machine

open Sys2Proof

/-! ## The boot self-test (R222, R253, R258) -/

/-- One well alone may differ, and its substitution table does not; partitions, Lantus and power are as before. -/
structure BootKeeps (s t : State) (w : Nat) : Prop where
  others : OnlyWell s t w
  length : t.wells.length = s.wells.length
  subst : (t.well w).subst = (s.well w).subst
  parts : t.parts = s.parts
  lantus : t.lantus = s.lantus
  power : t.power = s.power

theorem BootKeeps.refl (s : State) (w : Nat) : BootKeeps s s w := ⟨fun _ _ => rfl, rfl, rfl, rfl, rfl, rfl⟩

theorem BootKeeps.trans {s t u : State} {w : Nat} (h : BootKeeps s t w) (k : BootKeeps t u w) : BootKeeps s u w where
  others v hv := (k.others v hv).trans (h.others v hv)
  length := k.length.trans h.length
  subst := k.subst.trans h.subst
  parts := k.parts.trans h.parts
  lantus := k.lantus.trans h.lantus
  power := k.power.trans h.power

theorem bootKeeps_each {α : Type} (s : State) (l : List α) {f : State → α → State} {w : Nat} (h : ∀ a t, BootKeeps t (f t a) w) : BootKeeps s (s.each l f) w :=
  each_invariant (P := fun t => BootKeeps s t w) (BootKeeps.refl s w) (fun a _ _ ht => ht.trans (h a _))

theorem bootKeeps_regsOnly {s t : State} (w : Nat) (h : RegsOnly s t) : BootKeeps s t w := by
  rw [show t = _ from h]
  exact ⟨fun _ _ => rfl, rfl, rfl, rfl, rfl, rfl⟩

theorem bootKeeps_raise (s : State) (w code part src : Nat) (l : List (Nat × Nat)) : BootKeeps s (s.raise code part src l) w := by
  rw [State.raise_eq]
  exact ⟨fun _ _ => rfl, rfl, rfl, rfl, rfl, rfl⟩

theorem bootKeeps_modWell (s : State) (w : Nat) {f : Well → Well} (h : ∀ x, (f x).subst = x.subst) : BootKeeps s (s.modWell w f) w where
  others v hv := by rw [State.well_modWell, if_neg (fun hc => hv hc.1)]
  length := updAt_length _ _ _
  subst := by
    rw [State.well_modWell]
    split
    · exact h _
    · rfl
  parts := rfl
  lantus := rfl
  power := rfl

theorem bootKeeps_markFailed (s : State) (w k : Nat) : BootKeeps s (s.markFailed ⟨w, k⟩) w :=
  ((bootKeeps_modWell s w (fun _ => by rfl)).trans (bootKeeps_modWell _ w (fun _ => by rfl))).trans (bootKeeps_regsOnly w (regsOnly_setBits _ _ _ _ _))

theorem bootKeeps_retire (s : State) (w b : Nat) : BootKeeps s (s.retire w b) w := by
  unfold State.retire
  extract_lets bank row s1
  have h1 : BootKeeps s s1 w := (bootKeeps_modWell s w (fun _ => by rfl)).trans (bootKeeps_raise _ _ _ _ _ _)
  split
  · exact h1.trans (bootKeeps_raise _ _ _ _ _ _)
  · exact h1

/-- The tiles of a well that pass its self-test. -/
def passingTiles (r : WellTest) : List Nat := (List.range 25).filter (fun k => (r.failedTiles.find? (fun e => e.1 == k)).isNone)

/-- What the self-test leaves of a well: its first 24 passing tiles mapped, its device's state, and its service. -/
structure Well.Booted (x : Well) (r : WellTest) : Prop where
  service : x.inService = (decide (24 ≤ (passingTiles r).length) && r.lpddrTrained)
  subst : x.subst = (passingTiles r ++ List.replicate 24 0x1F).take 24
  device : x.lpxState = if r.lpddrTrained = true then .ready else .failed

/-- The self-test of one well leaves every other well, partitions, Lantus and power as before, and the well as its tiles and its device allow. -/
theorem bootWell_scope (s : State) (w : Nat) (r : WellTest) :
    (OnlyWell s (s.bootWell w r) w ∧ (s.bootWell w r).wells.length = s.wells.length ∧ (s.bootWell w r).parts = s.parts ∧
      (s.bootWell w r).lantus = s.lantus ∧ (s.bootWell w r).power = s.power) ∧ (w < s.wells.length → ((s.bootWell w r).well w).Booted r) := by
  unfold State.bootWell
  extract_lets bad s1 pass s2 s3 many s4 s5
  have h1 : BootKeeps s s1 w := bootKeeps_each _ _ (fun k t => by
    split
    · exact (bootKeeps_regsOnly w (regsOnly_setReg _ _ _)).trans ((bootKeeps_markFailed _ _ _).trans (bootKeeps_raise _ _ _ _ _ _))
    · exact bootKeeps_regsOnly w (regsOnly_setReg _ _ _))
  let m : State := s1.modWell w (fun x => { x with subst := (pass ++ List.replicate 24 0x1F).take 24 })
  have hm : OnlyWell s1 m w ∧ m.wells.length = s1.wells.length :=
    ⟨fun v hv => by rw [State.well_modWell, if_neg (fun hc => hv hc.1)], updAt_length _ _ _⟩
  have h2 : BootKeeps m s2 w := bootKeeps_regsOnly w (regsOnly_setReg _ _ _)
  have h3 : BootKeeps s2 s3 w := bootKeeps_each s2 r.badBuckets (fun b t => by
    split
    · exact bootKeeps_retire t w b
    · exact BootKeeps.refl t w)
  have h4 : BootKeeps s3 s4 w := by
    by_cases hmany : many = true
    · rw [show s4 = _ from if_pos hmany]
      exact bootKeeps_raise _ _ _ _ _ _
    · rw [show s4 = _ from if_neg hmany]
      exact BootKeeps.refl _ _
  have h5 : BootKeeps s4 s5 w ∧ (w < s4.wells.length → (s5.well w).lpxState = if r.lpddrTrained = true then .ready else .failed) := by
    by_cases ht : r.lpddrTrained = true
    · rw [show s5 = _ from if_pos ht, if_pos ht]
      refine ⟨bootKeeps_modWell _ _ (fun _ => by rfl), fun hw => ?_⟩
      rw [State.well_modWell, if_pos ⟨rfl, hw⟩]
    · rw [show s5 = _ from if_neg ht, if_neg ht]
      refine ⟨(bootKeeps_modWell _ _ (fun _ => by rfl)).trans (bootKeeps_raise _ _ _ _ _ _), fun hw => ?_⟩
      rw [State.raise_well, State.well_modWell, if_pos ⟨rfl, hw⟩]
  have hrest := h2.trans (h3.trans (h4.trans h5.1))
  have hend := bootKeeps_modWell s5 w (f := fun x => { x with inService := !many && r.lpddrTrained }) (fun _ => by rfl)
  have hall := hrest.trans hend
  refine ⟨⟨fun v hv => ?_, ?_, ?_, ?_, ?_⟩, fun hw => ?_⟩
  · rw [hall.others v hv, hm.1 v hv, h1.others v hv]
  · rw [hall.length, hm.2, h1.length]
  · exact hall.parts.trans h1.parts
  · exact hall.lantus.trans h1.lantus
  · exact hall.power.trans h1.power
  · have hw1 : w < s1.wells.length := by rw [h1.length]; exact hw
    have hw4 : w < s4.wells.length := by rw [(h2.trans (h3.trans h4)).length, hm.2]; exact hw1
    have hw5 : w < s5.wells.length := by rw [h5.1.length]; exact hw4
    have hsub : (s5.well w).subst = (pass ++ List.replicate 24 0x1F).take 24 := by
      rw [hrest.subst, State.well_modWell, if_pos ⟨rfl, hw1⟩]
    have hmany : (!many) = decide (24 ≤ (passingTiles r).length) := by
      rw [show many = decide ((passingTiles r).length ≤ 23) from rfl, ← decide_not]
      exact decide_eq_decide.mpr (by omega)
    rw [State.well_modWell, if_pos ⟨rfl, hw5⟩]
    exact ⟨by rw [← hmany], hsub, h5.2 hw4⟩

/-- The self-test of all wells. -/
def State.bootWells (s : State) (r : List WellTest) : State := s.each (r.zip (List.range 24)) (fun t e => t.bootWell e.2 e.1)

theorem bootWells_keeps (s : State) (r : List WellTest) :
    (s.bootWells r).wells.length = s.wells.length ∧ (s.bootWells r).parts = s.parts ∧ (s.bootWells r).lantus = s.lantus ∧ (s.bootWells r).power = s.power :=
  each_invariant (P := fun t => t.wells.length = s.wells.length ∧ t.parts = s.parts ∧ t.lantus = s.lantus ∧ t.power = s.power) ⟨rfl, rfl, rfl, rfl⟩
    (fun e _ t ⟨hl, hp, ha, hpw⟩ => by
      obtain ⟨⟨-, kl, kp, ka, kpw⟩, -⟩ := bootWell_scope t e.2 e.1
      exact ⟨kl.trans hl, kp.trans hp, ka.trans ha, kpw.trans hpw⟩)

/-- Each well is as its own self-test leaves it. -/
theorem booted_bootWells (s : State) {r : List WellTest} {w : Nat} {e : WellTest} (h24 : r.length = 24) (he : r[w]? = some e) (hw : w < s.wells.length) :
    ((s.bootWells r).well w).Booted e := by
  obtain ⟨hlt, rfl⟩ := List.getElem?_eq_some_iff.mp he
  have hzip : (r.zip (List.range 24))[w]? = some (r[w], w) := by
    rw [List.getElem?_zip_eq_some]
    exact ⟨List.getElem?_eq_getElem hlt, List.getElem?_range (by omega)⟩
  refine each_establishes (P := fun t => w < t.wells.length → (t.well w).Booted r[w]) (a := (r[w], w)) (List.mem_of_getElem? hzip)
    (fun t ht => ?_) (fun b hb t ht hlen => ?_) ((bootWells_keeps s r).1.symm ▸ hw)
  · obtain ⟨⟨-, hl, -⟩, hb⟩ := bootWell_scope t w r[w]
    exact hb (hl ▸ ht)
  · obtain ⟨⟨ho, hl, -⟩, hself⟩ := bootWell_scope t b.2 b.1
    by_cases hv : w = b.2
    · have hbr : b = (r[w], w) := by
        obtain ⟨i, hi⟩ := List.mem_iff_getElem?.mp hb
        obtain ⟨h1, h2⟩ := List.getElem?_zip_eq_some.mp hi
        have hi24 : i < 24 := by simpa using (List.getElem?_eq_some_iff.mp h2).1
        have hiw : i = w := by
          rw [hv]
          simpa [hi24] using h2
        rw [hiw, List.getElem?_eq_getElem hlt] at h1
        exact Prod.ext (Option.some.inj h1).symm hv.symm
      rw [hbr] at hself hl hlen ⊢
      exact hself (hl ▸ hlen)
    · rw [ho w hv]
      exact ht (hl ▸ hlen)

/-! ## RESET_RELEASE (R400, R427, R435) -/

/-- The state in which the ROM votes on the slots. -/
def State.released (s : State) : State :=
  { s with
    life := .rom, resetLow := false, pwrFailLow := false,
    lantus := { s.lantus with
      debugEnabled := s.lantus.debugArmed, debugArmed := false,
      keys := s.lantus.keys.map (fun (k : KeySlot) => { k with attrs := k.otp, unusable := false }) } }

/-- The ROM has computed the identity keys and waits. -/
def State.romWaits (s : State) : State :=
  s.modLantus (fun l => { l with identityPk := s.identityKeys.1, identitySk := s.identityKeys.2, state := .romWait })

/-- Settles O41: each stage of the boot and of the scan by the rule of what it touches. -/
theorem bootSequence : Obligations.BootSequence := by
  unfold Obligations.BootSequence
  refine ⟨fun s hheld hsrc hgen => ?_, fun r s hrom hrun hpll h24 => ?_, fun s hserves hroots => ?_, fun w s hal hw hdev => ?_⟩
  · have hv := slotsOnly_voteSlots s.released
    have hex : exec .resetRelease s = .next ((s.released.voteSlots.romWaits.modSource 24 (fun x => x.start s.devtime 0)).formSeed 24) := by
      show execResetRelease s = _
      rw [execResetRelease, if_neg (by simp [hheld])]
      rfl
    generalize s.released.voteSlots = v at hv hex
    obtain ⟨ks, rg, fr, lg, rfl⟩ := hv
    refine ⟨_, hex, rfl, rfl, rfl, rfl, rfl, rfl, ?_, ?_, fun m hm => ?_, fun m hm => ?_, rfl, rfl, rfl⟩
    · refine (congrArg Source.state (State.source_modSource _ _ _ _)).trans ?_
      rw [if_pos ⟨rfl, hsrc⟩]
      rfl
    · refine (congrArg Drbg.state (State.drbg_modDrbg _ _ _ _)).trans ?_
      rw [if_pos ⟨rfl, hgen⟩]
    · refine (State.source_modSource _ _ _ _).trans ?_
      rw [if_neg (fun h => hm h.1)]
      rfl
    · refine (State.drbg_modDrbg _ _ _ _).trans ?_
      rw [if_neg (fun h => hm h.1)]
      rfl
  · have hex : exec (.bootSelftestDone r) s = .next ({ s.bootWells r with life := .running }.trainPorts) := by
      show execBootSelftestDone r s = _
      rw [execBootSelftestDone, if_neg (by simp [hrom, hrun, hpll, h24])]
      rfl
    obtain ⟨-, hp, hl, hpw⟩ := bootWells_keeps s r
    refine ⟨_, hex, rfl, fun w e he hw => ?_, hp, hl, hpw⟩
    obtain ⟨h1, h2, h3⟩ := booted_bootWells s h24 he hw
    exact ⟨h1, h2, h3⟩
  · have hrun : s.life = .running := by
      simp only [State.serves, Bool.and_eq_true, beq_iff_eq] at hserves
      exact hserves.1.1
    have hscan := scanned_scan s hroots
    have hex : exec .tripleVoteScan s = .next ((((s.voteSlots.each (List.range 24) (fun t w => t.voteOwner w)).voteRoots.votePlan).each (List.range 24)
        (fun t p => t.voteImage p)).each (List.range 24) (fun t w => t.checkSubst w)).voteDivider := by
      show execTripleVoteScan s = _
      rw [execTripleVoteScan, if_neg (by simp [hserves])]
    generalize (((s.voteSlots.each (List.range 24) (fun t w => t.voteOwner w)).voteRoots.votePlan).each (List.range 24)
        (fun t p => t.voteImage p)).each (List.range 24) (fun t w => t.checkSubst w) = u at hscan hex
    simp only [State.scanned, Prod.mk.injEq] at hscan
    obtain ⟨h1, h2, h3, h4, h5, h6⟩ := hscan
    obtain ⟨k1, k2, k3, k4, k5⟩ := voteDivider_stops u
    refine ⟨_, hex, fun n h64 hn => ?_, k5.trans h5, ?_, k3.trans h3, k4.trans h2⟩
    · have hslot : u.voteDivider.slot n = s.voteSlots.slot n := by rw [State.slot, k2, h4, State.slot]
      rw [hslot]
      exact slot_voteSlots s h64 hn
    · rw [k1, h6, h1, hrun]
  · have hex : exec (.lpxFailed w) s = .next (s.lpxFail w 2) := by
      show execLpxFailed w s = _
      rw [execLpxFailed, if_neg]
      rcases hdev with h | h <;> simp [hal, h]
    have hs := lpxFail_service s 2 hw
    have hc := lpxFail_core s w 2
    simp only [State.steady, Prod.mk.injEq] at hc
    obtain ⟨-, -, hpower, hlantus, -⟩ := hc
    exact ⟨_, hex, congrArg Prod.fst hs, congrArg Prod.snd hs, hlantus, hpower⟩

end Sys2Proof.Machine

namespace Sys2Proof.Machine

open Sys2Proof

/-! ## Bytes of a memory -/

theorem toLE_leNat (b : Bytes) : toLE (leNat b) b.length = b := by
  induction b with
  | nil => rfl
  | cons x b ih =>
    have hx := x.isLt
    have h1 : BitVec.ofNat 8 (leNat (x :: b)) = x := BitVec.eq_of_toNat_eq (by simp only [leNat, BitVec.toNat_ofNat]; omega)
    have h2 : leNat (x :: b) / 256 = leNat b := by simp only [leNat]; omega
    rw [List.length_cons, toLE, h1, h2, ih]

theorem leNat_map_range (n : Nat) (f : Nat → Byte) : leNat ((List.range n).map f) = ∑ i ∈ Finset.range n, 256 ^ i * (f i).toNat := by
  induction n generalizing f with
  | zero => rfl
  | succ n ih =>
    rw [List.range_succ_eq_map, List.map_cons, List.map_map, leNat, ih, Finset.sum_range_succ', Finset.mul_sum, add_comm]
    simp [pow_succ, mul_comm, mul_left_comm, Nat.succ_eq_add_one]

/-- The share of one cell in the number of a range. -/
def cellNat (c : Host.Cell) (base len : Nat) : Nat := if base ≤ c.1 ∧ c.1 < base + len then 256 ^ (c.1 - base) * c.2.toNat else 0

theorem memNat_cons (c : Host.Cell) (m : Mem) (base len : Nat) : memNat (c :: m) base len = cellNat c base len + memNat m base len := by
  have hacc : ∀ (l : Mem) (a : Nat),
      l.foldl (fun a c => if base ≤ c.1 ∧ c.1 < base + len then a + 256 ^ (c.1 - base) * c.2.toNat else a) a = a + memNat l base len := by
    intro l
    induction l with
    | nil => simp [memNat]
    | cons d l ih =>
      intro a
      rw [memNat, List.foldl_cons, List.foldl_cons, ih, ih]
      split <;> omega
  rw [memNat, List.foldl_cons, hacc, cellNat]
  split <;> omega

theorem memByte_cons (c : Host.Cell) (m : Mem) (a : Nat) : memByte (c :: m) a = if c.1 = a then c.2 else memByte m a := by
  obtain ⟨k, v⟩ := c
  simp only [memByte, look]
  split <;> rfl

/-- An address below every cell of a memory reads as zero. -/
theorem memByte_of_below {m : Mem} {a : Nat} (h : ∀ c ∈ m, a < c.1) : memByte m a = 0 := by
  induction m with
  | nil => rfl
  | cons c m ih =>
    have hc := h c List.mem_cons_self
    rw [memByte_cons, if_neg (by omega), ih (fun d hd => h d (List.mem_cons_of_mem c hd))]

theorem memNat_eq_sum {m : Mem} (h : m.wf) (base len : Nat) : memNat m base len = ∑ i ∈ Finset.range len, 256 ^ i * (memByte m (base + i)).toNat := by
  induction m with
  | nil => simp [memNat, memByte, look]
  | cons c m ih =>
    obtain ⟨hp, hz⟩ := h
    rw [List.pairwise_cons] at hp
    have hbelow := memByte_of_below (m := m) (a := c.1) hp.1
    have hsplit : ∀ i, 256 ^ i * (memByte (c :: m) (base + i)).toNat =
        (if base + i = c.1 then 256 ^ i * c.2.toNat else 0) + 256 ^ i * (memByte m (base + i)).toNat := by
      intro i
      rw [memByte_cons]
      by_cases hi : base + i = c.1
      · rw [if_pos hi.symm, if_pos hi, hi, hbelow]
        simp
      · rw [if_neg (fun hc => hi hc.symm), if_neg hi, zero_add]
    have hcell : cellNat c base len = ∑ i ∈ Finset.range len, if base + i = c.1 then 256 ^ i * c.2.toNat else 0 := by
      rw [cellNat]
      by_cases hc : base ≤ c.1 ∧ c.1 < base + len
      · rw [if_pos hc, Finset.sum_eq_single (c.1 - base)]
        · rw [if_pos (by omega)]
        · intro i _ hi
          rw [if_neg (by omega)]
        · intro hn
          exact absurd (Finset.mem_range.mpr (by omega)) hn
      · rw [if_neg hc]
        refine (Finset.sum_eq_zero (fun i hi => ?_)).symm
        have := Finset.mem_range.mp hi
        rw [if_neg (by omega)]
    rw [memNat_cons, ih ⟨hp.2, fun d hd => hz d (List.mem_cons_of_mem c hd)⟩, hcell, ← Finset.sum_add_distrib]
    exact Finset.sum_congr rfl (fun i _ => (hsplit i).symm)

/-- A read of a canonical memory gives its bytes in order. -/
theorem memRead_eq_map {m : Mem} (h : m.wf) (base len : Nat) : memRead m base len = (List.range len).map (fun i => memByte m (base + i)) := by
  have hn : memNat m base len = leNat ((List.range len).map (fun i => memByte m (base + i))) := by rw [memNat_eq_sum h, leNat_map_range]
  have hl : ((List.range len).map (fun i => memByte m (base + i))).length = len := by simp
  rw [memRead, hn]
  conv_lhs => rw [← hl]
  rw [hl]
  have := toLE_leNat ((List.range len).map (fun i => memByte m (base + i)))
  rwa [hl] at this

/-! ## Bytes under a mask (R237) -/

/-- A byte of an overlay is the new one where the mask says so. -/
theorem overlay_getD (o n : Bytes) (m : List Bool) {i : Nat} (ho : i < o.length) (hn : i < n.length) (hm : i < m.length) :
    (overlay o n m).getD i 0 = if m.getD i false then n.getD i 0 else o.getD i 0 := by
  induction o generalizing n m i with
  | nil => simp at ho
  | cons x o ih =>
    cases n with
    | nil => simp at hn
    | cons y n =>
      cases m with
      | nil => simp at hm
      | cons z m =>
        cases i with
        | zero => simp [overlay]
        | succ i =>
          simp only [List.length_cons, Nat.add_lt_add_iff_right] at ho hn hm
          simpa [overlay] using ih n m ho hn hm

/-- A value of a list with a piece replaced. -/
theorem getD_replaced {α : Type} (l new : List α) (off i : Nat) (d : α) (h : off + new.length ≤ l.length) :
    (l.take off ++ new ++ l.drop (off + new.length)).getD i d = if off ≤ i ∧ i < off + new.length then new.getD (i - off) d else l.getD i d := by
  have hto : (l.take off).length = off := by rw [List.length_take]; omega
  by_cases h1 : i < off
  · rw [if_neg (by omega), List.append_assoc, List.getD_append _ _ _ _ (by omega)]
    simp [List.getD_eq_getElem?_getD, h1]
  · by_cases h2 : i < off + new.length
    · rw [if_pos (by omega), List.append_assoc, List.getD_append_right _ _ _ _ (by omega), hto, List.getD_append _ _ _ _ (by omega)]
    · rw [if_neg (by omega), List.getD_append_right _ _ _ _ (by simp; omega)]
      simp only [List.getD_eq_getElem?_getD, List.getElem?_drop, List.length_append, hto]
      rw [show off + new.length + (i - (off + new.length)) = i by omega]

/-! ## A well's cistern as software sees it (R231, R237) -/

/-- The merge entry of a bucket. -/
def Well.entry (x : Well) (b : Nat) : Option MergeEntry := x.merge.find? (fun e => e.bucket == b)

/-- A byte of a bucket that has a merge entry. -/
theorem seen_of_entry {x : Well} {e : MergeEntry} {a : Nat} (h : x.entry (a / 64) = some e) :
    x.seen a = if e.mask.getD (a % 64) false then e.data.getD (a % 64) 0 else memByte x.cis a := by
  rw [Well.entry] at h
  simp only [Well.seen, h]

/-- A byte of a bucket without one. -/
theorem seen_of_no_entry {x : Well} {a : Nat} (h : x.entry (a / 64) = none) : x.seen a = memByte x.cis a := by
  rw [Well.entry] at h
  simp only [Well.seen, h]

/-- A byte is seen alike where its bucket has the same entry and the bank the same byte. -/
theorem seen_congr {x y : Well} {a : Nat} (he : y.entry (a / 64) = x.entry (a / 64)) (hm : memByte y.cis a = memByte x.cis a) : y.seen a = x.seen a := by
  cases h : x.entry (a / 64) with
  | none => rw [seen_of_no_entry h, seen_of_no_entry (he.trans h), hm]
  | some e => rw [seen_of_entry h, seen_of_entry (he.trans h), hm]

/-- The entry of a bucket when the entries of another, or its own, are gone. -/
theorem find_other_buckets (l : List MergeEntry) (b c : Nat) :
    (l.filter (fun e => e.bucket ≠ b)).find? (fun e => e.bucket == c) = if c = b then none else l.find? (fun e => e.bucket == c) := by
  induction l with
  | nil => simp
  | cons e l ih =>
    by_cases he : e.bucket = b
    · by_cases hc : c = b
      · simp [hc] at ih ⊢
      · have hne : ¬ b = c := fun h => hc h.symm
        simpa [he, hc, hne] using ih
    · by_cases hec : e.bucket = c
      · have hc : ¬ c = b := fun h => he (hec.trans h)
        simp [hec, hc]
      · simpa [he, hec] using ih

theorem fit_getD (bs : Bytes) {n i : Nat} (h : i < n) : (fit bs n).getD i 0 = bs.getD i 0 := by
  simp only [fit, zeros, List.getD_eq_getElem?_getD, List.getElem?_take, h, if_true, List.getElem?_append]
  split
  · rfl
  · rename_i hlen
    rw [List.getElem?_replicate, List.getElem?_eq_none (by omega)]
    split <;> rfl

/-- What a well shows after a whole bucket is written: its bytes in the bucket, and outside as before. -/
theorem seen_putCis (x : Well) (b : Nat) (data : Bytes) (a : Nat) : (x.putCis b data).seen a = if a / 64 = b then data.getD (a % 64) 0 else x.seen a := by
  have he : (x.putCis b data).entry (a / 64) = if a / 64 = b then none else x.entry (a / 64) := find_other_buckets _ _ _
  have hm : memByte (x.putCis b data).cis a = if a / 64 = b then data.getD (a % 64) 0 else memByte x.cis a := by
    show memByte (memWrite x.cis (b * 64) (fit data 64)) a = _
    rw [memByte_memWrite, length_fit]
    by_cases hb : a / 64 = b
    · rw [if_pos (by omega), if_pos hb, show a - b * 64 = a % 64 by omega, fit_getD _ (by omega)]
    · rw [if_neg (by omega), if_neg hb]
  by_cases hb : a / 64 = b
  · rw [if_pos hb] at he hm
    rw [if_pos hb, seen_of_no_entry he, hm]
  · rw [if_neg hb] at he hm
    rw [if_neg hb, seen_congr he hm]

theorem cisOk_putCis {x : Well} (h : x.cisOk) (b : Nat) (data : Bytes) : (x.putCis b data).cisOk := by
  obtain ⟨hm, hp, he⟩ := h
  exact ⟨memWrite_wf _ _ _ hm, hp.filter _, fun e hm => he e (List.mem_of_mem_filter hm)⟩

theorem cisBad_putCis (x : Well) (b : Nat) (data : Bytes) (c : Nat) : c ∈ (x.putCis b data).cisBad ↔ c ∈ x.cisBad ∧ c ≠ b := by
  simp [Well.putCis]

/-- An entry found for a bucket names it, and is one of the well's. -/
theorem entry_bucket {x : Well} {b : Nat} {e : MergeEntry} (h : x.entry b = some e) : e.bucket = b ∧ e ∈ x.merge :=
  ⟨by simpa using List.find?_some h, List.mem_of_find?_eq_some h⟩

end Sys2Proof.Machine

namespace Sys2Proof.Machine

open Sys2Proof

theorem mem_insertNat_iff (k j : Nat) (l : List Nat) : j ∈ insertNat k l ↔ j = k ∨ j ∈ l := by
  induction l with
  | nil => simp [insertNat]
  | cons a l ih =>
    simp only [insertNat]
    split
    · simp
    · split
      · rename_i h
        simp [h]
      · simp only [List.mem_cons, ih]
        tauto

/-! ## What an access to one cistern may touch (R232, R237, R256) -/

/-- One well alone may differ, with the counters and the record of its cistern, the access control as its votes repair it, and the log. -/
structure BankScope (s t : State) (w : Nat) : Prop where
  others : OnlyWell s t w
  length : t.wells.length = s.wells.length
  regs : OnlyRegs s t [cisBase w + 0x10, cisBase w + 8, cisBase w + 0x18, logBase + 4]
  frame : t = { s with wells := t.wells, regs := t.regs, fresh := t.fresh, access := t.access, log := t.log }

theorem BankScope.refl (s : State) (w : Nat) : BankScope s s w := ⟨fun _ _ => rfl, rfl, fun _ _ => rfl, rfl⟩

theorem BankScope.trans {s t u : State} {w : Nat} (h : BankScope s t w) (k : BankScope t u w) : BankScope s u w where
  others v hv := (k.others v hv).trans (h.others v hv)
  length := k.length.trans h.length
  regs x hx := (k.regs x hx).trans (h.regs x hx)
  frame := k.frame.trans (congrArg (fun v : State => { v with wells := u.wells, regs := u.regs, fresh := u.fresh, access := u.access, log := u.log }) h.frame)

theorem bankScope_modWell (s : State) (w : Nat) (f : Well → Well) : BankScope s (s.modWell w f) w where
  others v hv := by rw [State.well_modWell, if_neg (fun h => hv h.1)]
  length := updAt_length _ _ _
  regs _ _ := rfl
  frame := rfl

theorem bankScope_count (s : State) (w : Nat) {x : Nat} (hx : x ∈ [cisBase w + 0x10, cisBase w + 8, cisBase w + 0x18, logBase + 4]) :
    BankScope s (s.count x) w where
  others _ _ := rfl
  length := rfl
  regs y hy := by
    rw [State.reg_count, if_neg]
    rintro rfl
    exact hy hx
  frame := rfl

theorem bankScope_setRecord (s : State) (w v : Nat) {x : Nat} (hx : x ∈ [cisBase w + 0x10, cisBase w + 8, cisBase w + 0x18, logBase + 4]) :
    BankScope s (s.setRecord x v) w where
  others _ _ := rfl
  length := rfl
  regs y hy := by
    rw [State.reg_setRecord, if_neg]
    rintro rfl
    exact hy hx
  frame := rfl

theorem bankScope_raise (s : State) (w code part src : Nat) (l : List (Nat × Nat)) : BankScope s (s.raise code part src l) w where
  others v _ := by rw [State.raise_well]
  length := by rw [State.raise_wells]
  regs y hy := State.reg_raise _ _ _ _ _ _ (fun h => hy (by simp [h]))
  frame := by
    rw [State.raise_eq]

theorem bankScope_cisUncorrectable (s : State) (w b kind : Nat) : BankScope s (s.cisUncorrectable w b kind) w :=
  ((bankScope_count s w (by simp)).trans (bankScope_setRecord _ w _ (by simp))).trans (bankScope_raise _ _ _ _ _ _)

theorem well_cisUncorrectable (s : State) (w b kind v : Nat) : (s.cisUncorrectable w b kind).well v = s.well v := by
  rw [State.cisUncorrectable, State.raise_well, State.setRecord_well, State.count_well]

theorem putBucket_cis (s : State) (w b : Nat) (data : Bytes) : s.putBucket false w b data = s.modWell w (fun x => x.putCis b data) := rfl

/-! ## Writing an entry back (R237) -/

/-- A well whose entry has been written into its bank; a bucket that was marked stays marked. -/
def Well.settled (x : Well) (e : MergeEntry) : Well :=
  let y := x.putCis e.bucket (overlay (memRead x.cis (e.bucket * 64) 64) e.data e.mask)
  if e.bucket ∈ x.cisBad then { y with cisBad := insertNat e.bucket y.cisBad } else y

theorem writeBack_settles (s : State) {w : Nat} (e : MergeEntry) (hw : w < s.wells.length) :
    BankScope s (s.writeBack false w e) w ∧ (s.writeBack false w e).well w = (s.well w).settled e := by
  have h1 : BankScope s (s.count (cisBase w + 0x10)) w := bankScope_count s w (by simp)
  by_cases hb : e.bucket ∈ (s.well w).cisBad
  · have hwb : s.writeBack false w e = (((s.count (cisBase w + 0x10)).cisUncorrectable w e.bucket 3).putBucket false w e.bucket
        (overlay (memRead (s.well w).cis (e.bucket * 64) 64) e.data e.mask)).modWell w (fun x => { x with cisBad := insertNat e.bucket x.cisBad }) := by
      simp [State.writeBack, State.bankRead, hb]
    have h2 := bankScope_cisUncorrectable (s.count (cisBase w + 0x10)) w e.bucket 3
    have hwell := well_cisUncorrectable (s.count (cisBase w + 0x10)) w e.bucket 3 w
    rw [State.count_well] at hwell
    rw [hwb, putBucket_cis]
    generalize (s.count (cisBase w + 0x10)).cisUncorrectable w e.bucket 3 = t at h2 hwell ⊢
    have hl : w < t.wells.length := by
      rw [h2.length, State.count_wells]
      exact hw
    have h3 := bankScope_modWell t w (fun x => x.putCis e.bucket (overlay (memRead (s.well w).cis (e.bucket * 64) 64) e.data e.mask))
    refine ⟨h1.trans (h2.trans (h3.trans (bankScope_modWell _ _ _))), ?_⟩
    rw [State.well_modWell, if_pos ⟨rfl, by rw [h3.length]; exact hl⟩, State.well_modWell, if_pos ⟨rfl, hl⟩, hwell]
    simp [Well.settled, hb]
  · have hwb : s.writeBack false w e = (s.count (cisBase w + 0x10)).putBucket false w e.bucket
        (overlay (memRead (s.well w).cis (e.bucket * 64) 64) e.data e.mask) := by
      simp [State.writeBack, State.bankRead, hb]
    rw [hwb, putBucket_cis]
    refine ⟨h1.trans (bankScope_modWell _ _ _), ?_⟩
    rw [State.well_modWell, if_pos ⟨rfl, by rw [h1.length]; exact hw⟩, State.count_well]
    simp [Well.settled, hb]

theorem seen_settled {x : Well} {e : MergeEntry} (h : x.cisOk) (he : x.entry e.bucket = some e) (a : Nat) : (x.settled e).seen a = x.seen a := by
  obtain ⟨hm, -, hl⟩ := h
  obtain ⟨hd, hk⟩ := hl e (entry_bucket he).2
  have hy : (x.settled e).seen a = (x.putCis e.bucket (overlay (memRead x.cis (e.bucket * 64) 64) e.data e.mask)).seen a := by
    unfold Well.settled
    dsimp only
    split <;> rfl
  rw [hy, seen_putCis]
  split
  · rename_i hb
    rw [← hb] at he
    rw [seen_of_entry he, memRead_eq_map hm, overlay_getD _ _ _ (by simp; omega) (by omega) (by omega)]
    split
    · rfl
    · simp [List.getD_eq_getElem?_getD, Nat.mod_lt, ← hb, show a / 64 * 64 + a % 64 = a by omega]
  · rfl

theorem cisOk_settled {x : Well} (h : x.cisOk) (e : MergeEntry) : (x.settled e).cisOk := by
  unfold Well.settled
  dsimp only
  split <;> exact cisOk_putCis h _ _

theorem cisBad_settled (x : Well) (e : MergeEntry) (b : Nat) : b ∈ (x.settled e).cisBad ↔ b ∈ x.cisBad := by
  unfold Well.settled
  dsimp only
  split
  · rename_i h
    rw [mem_insertNat_iff, cisBad_putCis]
    constructor
    · rintro (rfl | hb)
      · exact h
      · exact hb.1
    · intro hb
      by_cases hbe : b = e.bucket
      · exact Or.inl hbe
      · exact Or.inr ⟨hb, hbe⟩
  · rename_i h
    rw [cisBad_putCis]
    exact ⟨fun hb => hb.1, fun hb => ⟨hb, fun hbe => h (hbe ▸ hb)⟩⟩

/-- The entries of a settled well are the other buckets'. -/
theorem entry_settled (x : Well) (e : MergeEntry) (b : Nat) : (x.settled e).entry b = if b = e.bucket then none else x.entry b := by
  have hy : (x.settled e).entry b = (x.putCis e.bucket (overlay (memRead x.cis (e.bucket * 64) 64) e.data e.mask)).entry b := by
    unfold Well.settled
    dsimp only
    split <;> rfl
  rw [hy]
  exact find_other_buckets _ _ _

/-! ## Writes of part of a bucket (R237) -/

/-- A well whose merge buffer takes an entry in place of its bucket's. -/
def Well.merged (x : Well) (e : MergeEntry) : Well := { x with merge := x.merge.filter (fun d => d.bucket ≠ e.bucket) ++ [e] }

theorem seen_merged (x : Well) (e : MergeEntry) (a : Nat) :
    (x.merged e).seen a = if a / 64 = e.bucket then (if e.mask.getD (a % 64) false then e.data.getD (a % 64) 0 else memByte x.cis a) else x.seen a := by
  have he : (x.merged e).entry (a / 64) = if a / 64 = e.bucket then some e else x.entry (a / 64) := by
    show (x.merge.filter (fun d => d.bucket ≠ e.bucket) ++ [e]).find? (fun d => d.bucket == a / 64) = _
    rw [List.find?_append, find_other_buckets]
    by_cases hb : a / 64 = e.bucket
    · simp [hb]
    · have hne : ¬ e.bucket = a / 64 := fun h => hb h.symm
      simp [hb, hne, Well.entry]
  split
  · rename_i hb
    rw [if_pos hb] at he
    rw [seen_of_entry he]
    rfl
  · rename_i hb
    rw [if_neg hb] at he
    exact seen_congr he rfl

theorem cisOk_merged {x : Well} {e : MergeEntry} (h : x.cisOk) (hd : e.data.length = 64) (hk : e.mask.length = 64) : (x.merged e).cisOk := by
  obtain ⟨hm, hp, hl⟩ := h
  refine ⟨hm, List.pairwise_append.mpr ⟨hp.filter _, List.pairwise_singleton _ _, ?_⟩, ?_⟩
  · intro a ha b hb
    rw [List.mem_singleton.mp hb]
    simpa using (List.mem_filter.mp ha).2
  · intro d hd'
    rcases List.mem_append.mp hd' with hd' | hd'
    · exact hl d (List.mem_of_mem_filter hd')
    · rw [List.mem_singleton.mp hd']
      exact ⟨hd, hk⟩

/-- An entry with bytes put at an offset: those bytes, masked in, and the others as before. -/
theorem entry_add (e : MergeEntry) (off now : Nat) (bs : Bytes) (hd : e.data.length = 64) (hk : e.mask.length = 64) (hlen : off + bs.length ≤ 64) :
    ((e.add off bs now).data.length = 64 ∧ (e.add off bs now).mask.length = 64) ∧
      (∀ i, (e.add off bs now).data.getD i 0 = if off ≤ i ∧ i < off + bs.length then bs.getD (i - off) 0 else e.data.getD i 0) ∧
      (∀ i, (e.add off bs now).mask.getD i false = (decide (off ≤ i ∧ i < off + bs.length) || e.mask.getD i false)) := by
  refine ⟨⟨?_, ?_⟩, fun i => getD_replaced e.data bs off i 0 (by omega), fun i => ?_⟩
  · simp only [MergeEntry.add, patch, List.length_append, List.length_take, List.length_drop]
    omega
  · simp only [MergeEntry.add, List.length_append, List.length_take, List.length_drop, List.length_replicate]
    omega
  · have h := getD_replaced e.mask (List.replicate bs.length true) off i false (by rw [List.length_replicate]; omega)
    rw [List.length_replicate] at h
    refine h.trans ?_
    by_cases hi : off ≤ i ∧ i < off + bs.length
    · rw [if_pos hi, decide_eq_true hi, Bool.true_or, List.getD_eq_getElem?_getD, List.getElem?_replicate, if_pos (by omega)]
      rfl
    · rw [if_neg hi, decide_eq_false hi, Bool.false_or]

/-- Bytes written at an offset of one cistern: they are what the range shows, and every other byte shows what it did. -/
structure WritesCis (s t : State) (w o : Nat) (bs : Bytes) : Prop where
  scope : BankScope s t w
  ok : (t.well w).cisOk
  seen : ∀ a, (t.well w).seen a = if o ≤ a ∧ a < o + bs.length then bs.getD (a - o) 0 else (s.well w).seen a

theorem writesCis_nil (s : State) {w : Nat} (o : Nat) (h : (s.well w).cisOk) : WritesCis s s w o [] :=
  ⟨BankScope.refl s w, h, fun a => by rw [if_neg (by rw [List.length_nil]; omega)]⟩

/-- A write in two pieces. -/
theorem WritesCis.append {s t u : State} {w o k : Nat} {bs : Bytes} (h : WritesCis s t w o (bs.take k)) (g : WritesCis t u w (o + k) (bs.drop k)) :
    WritesCis s u w o bs := by
  refine ⟨h.scope.trans g.scope, g.ok, fun a => ?_⟩
  rw [g.seen, h.seen]
  simp only [List.length_drop, List.length_take, List.getD_eq_getElem?_getD, List.getElem?_drop, List.getElem?_take]
  by_cases h1 : o + k ≤ a ∧ a < o + k + (bs.length - k)
  · rw [if_pos h1, if_pos (by omega), show k + (a - (o + k)) = a - o by omega]
  · rw [if_neg h1]
    by_cases h2 : o ≤ a ∧ a < o + bs.length
    · rw [if_pos (by omega), if_pos h2, if_pos (by omega)]
    · rw [if_neg (by omega), if_neg h2]

/-- The entry of a new bucket. -/
def freshEntry (b : Nat) : MergeEntry := MergeEntry.mk b (zeros 64) (List.replicate 64 false) 0

/-- The bytes that a well with an entry grown by a write shows in its bucket. -/
theorem seen_grown {x : Well} {e : MergeEntry} {off now a : Nat} {bs : Bytes} (hd : e.data.length = 64) (hk : e.mask.length = 64) (hlen : off + bs.length ≤ 64)
    (hold : x.seen a = if e.mask.getD (a % 64) false then e.data.getD (a % 64) 0 else memByte x.cis a) (hb : a / 64 = e.bucket) :
    (if (e.add off bs now).mask.getD (a % 64) false then (e.add off bs now).data.getD (a % 64) 0 else memByte x.cis a) =
      if e.bucket * 64 + off ≤ a ∧ a < e.bucket * 64 + off + bs.length then bs.getD (a - (e.bucket * 64 + off)) 0 else x.seen a := by
  have ha : a = e.bucket * 64 + a % 64 := by omega
  have hm : a % 64 < 64 := Nat.mod_lt _ (by omega)
  obtain ⟨-, hdata, hmask⟩ := entry_add e off now bs hd hk hlen
  rw [hmask, hdata]
  by_cases hi : off ≤ a % 64 ∧ a % 64 < off + bs.length
  · rw [decide_eq_true hi, Bool.true_or, if_pos rfl, if_pos hi, if_pos (by omega), show a - (e.bucket * 64 + off) = a % 64 - off by omega]
  · rw [decide_eq_false hi, Bool.false_or, if_neg hi, ← hold, if_neg (by omega)]

theorem writesCis_partialWrite {s : State} {w b off : Nat} {bs : Bytes} (hw : w < s.wells.length) (h : (s.well w).cisOk) (hlen : off + bs.length ≤ 64) :
    WritesCis s (s.partialWrite false w b off bs) w (b * 64 + off) bs := by
  have hmerged : ∀ (t : State) (e : MergeEntry) (f : Well → Well), f (t.well w) = (t.well w).merged (e.add off bs s.devtime) → e.bucket = b →
      e.data.length = 64 → e.mask.length = 64 → BankScope s t w → (t.well w).cisOk → (∀ a, (t.well w).seen a = (s.well w).seen a) →
      (∀ a, a / 64 = b → (t.well w).seen a = if e.mask.getD (a % 64) false then e.data.getD (a % 64) 0 else memByte (t.well w).cis a) →
      WritesCis s (t.modWell w f) w (b * 64 + off) bs := by
    intro t e f hf hb hd hk hsc hok hseen hold
    obtain ⟨⟨hd1, hk1⟩, -⟩ := entry_add e off s.devtime bs hd hk hlen
    have hwell : (t.modWell w f).well w = (t.well w).merged (e.add off bs s.devtime) := by
      rw [State.well_modWell, if_pos ⟨rfl, by rw [hsc.length]; exact hw⟩, hf]
    refine ⟨hsc.trans (bankScope_modWell _ _ _), by rw [hwell]; exact cisOk_merged hok hd1 hk1, fun a => ?_⟩
    rw [hwell, seen_merged, show (e.add off bs s.devtime).bucket = b from hb]
    by_cases hab : a / 64 = b
    · rw [if_pos hab, seen_grown hd hk hlen (hold a hab) (hab.trans hb.symm), hb, hseen]
    · rw [if_neg hab, if_neg (by omega), hseen]
  unfold State.partialWrite
  dsimp only
  split
  · rename_i e he
    have he' : (s.well w).entry b = some e := he
    obtain ⟨hb, hmem⟩ := entry_bucket he'
    obtain ⟨hd, hk⟩ := h.2.2 e hmem
    have hold : ∀ a, a / 64 = b → (s.well w).seen a = if e.mask.getD (a % 64) false then e.data.getD (a % 64) 0 else memByte (s.well w).cis a :=
      fun a hab => seen_of_entry (by rw [hab]; exact he')
    split
    · rename_i hall
      obtain ⟨⟨hd1, hk1⟩, -⟩ := entry_add e off s.devtime bs hd hk hlen
      have hwell : (s.putBucket false w b (e.add off bs s.devtime).data).well w = (s.well w).putCis b (e.add off bs s.devtime).data := by
        rw [putBucket_cis, State.well_modWell, if_pos ⟨rfl, hw⟩]
      refine ⟨bankScope_modWell _ _ _, by rw [hwell]; exact cisOk_putCis h _ _, fun a => ?_⟩
      rw [hwell, seen_putCis]
      by_cases hab : a / 64 = b
      · have hm1 : (e.add off bs s.devtime).mask.getD (a % 64) false = true := by
          have hlt : a % 64 < (e.add off bs s.devtime).mask.length := by omega
          rw [List.getD_eq_getElem _ _ hlt]
          exact List.all_eq_true.mp hall _ (List.getElem_mem hlt)
        have hg := seen_grown (now := s.devtime) hd hk hlen (hold a hab) (hab.trans hb.symm)
        rw [if_pos hm1, hb] at hg
        rw [if_pos hab, hg]
      · rw [if_neg hab, if_neg (by omega)]
    · refine hmerged s e _ ?_ hb hd hk (BankScope.refl s w) h (fun _ => rfl) hold
      simp [Well.merged, Well.setEntries, Well.entriesOf, MergeEntry.add, hb]
  · rename_i hnone
    have hn : (s.well w).entry b = none := hnone
    have hfresh : ∀ t : State, (t.well w).entry b = none →
        (∀ a, a / 64 = b → (t.well w).seen a = if (freshEntry b).mask.getD (a % 64) false then (freshEntry b).data.getD (a % 64) 0 else memByte (t.well w).cis a) ∧
          (t.well w).setEntries false ((t.well w).entriesOf false ++ [(freshEntry b).add off bs s.devtime]) =
            (t.well w).merged ((freshEntry b).add off bs s.devtime) := by
      intro t ht
      refine ⟨fun a hab => ?_, ?_⟩
      · have hm : (freshEntry b).mask.getD (a % 64) false = false := by
          rw [freshEntry, List.getD_eq_getElem?_getD, List.getElem?_replicate, if_pos (Nat.mod_lt _ (by omega))]
          rfl
        rw [seen_of_no_entry (by rw [hab]; exact ht), hm]
        rfl
      · have hall : (t.well w).merge.filter (fun d => d.bucket ≠ b) = (t.well w).merge := List.filter_eq_self.mpr (fun d hd => by
          have := List.find?_eq_none.mp ht d hd
          simpa using this)
        rw [Well.merged, show ((freshEntry b).add off bs s.devtime).bucket = b from rfl, hall]
        rfl
    have hlen64 : (freshEntry b).data.length = 64 ∧ (freshEntry b).mask.length = 64 := by simp [freshEntry, zeros]
    split
    · rename_i e0 l hl
      split
      · have he0 : (s.well w).entry e0.bucket = some e0 := by
          rw [Well.entry, show (s.well w).merge = e0 :: l from hl]
          simp
        obtain ⟨hsc, hwell⟩ := writeBack_settles s e0 hw
        have ht : ((s.writeBack false w e0).well w).entry b = none := by
          rw [hwell, entry_settled]
          split
          · rfl
          · exact hn
        obtain ⟨hold, hf⟩ := hfresh _ ht
        exact hmerged _ (freshEntry b) _ hf rfl hlen64.1 hlen64.2 hsc (by rw [hwell]; exact cisOk_settled h e0)
          (fun a => by rw [hwell]; exact seen_settled h he0 a) hold
      · obtain ⟨hold, hf⟩ := hfresh s hn
        exact hmerged s (freshEntry b) _ hf rfl hlen64.1 hlen64.2 (BankScope.refl s w) h (fun _ => rfl) hold
    · obtain ⟨hold, hf⟩ := hfresh s hn
      exact hmerged s (freshEntry b) _ hf rfl hlen64.1 hlen64.2 (BankScope.refl s w) h (fun _ => rfl) hold

end Sys2Proof.Machine

namespace Sys2Proof.Machine

open Sys2Proof

/-! ## Addresses of a cistern (R28) -/

theorem memoryAt_cisAddr {w o : Nat} (hw : w < 24) (ho : o < 2 ^ 27) : memoryAt (cisAddr w o) = some (false, w, o) := by
  have hp : placeOf (cisAddr w o) = .cistern w o := by
    unfold placeOf cisAddr
    rw [if_neg (by omega), if_pos (by omega)]
    dsimp only
    rw [if_pos (by omega)]
    congr 1 <;> omega
  rw [memoryAt, hp]

theorem eq_cisAddr_of_memoryAt {a w o : Nat} (h : memoryAt a = some (false, w, o)) : a = cisAddr w o ∧ w < 24 ∧ o < 2 ^ 27 := by
  have hp : placeOf a = .cistern w o := by
    unfold memoryAt at h
    split at h
    · rename_i v p hv
      rw [hv]
      simp only [Option.some.injEq, Prod.mk.injEq] at h
      rw [h.2.1, h.2.2]
    · simp at h
    · simp at h
  unfold placeOf at hp
  split at hp
  · simp at hp
  · split at hp
    · rename_i hr
      dsimp only at hp
      split at hp
      · simp only [Place.cistern.injEq] at hp
        unfold cisAddr
        omega
      · simp at hp
    · split at hp
      · dsimp only at hp
        split at hp <;> simp at hp
      · simp at hp

/-- The buckets of a range of a cistern. -/
theorem bucketsOf_cisAddr (w o len : Nat) : bucketsOf (cisAddr w o) len = if len = 0 then 0 else (o + len - 1) / 64 - o / 64 + 1 := by
  unfold bucketsOf cisAddr
  split
  · rfl
  · omega

/-! ## Writes of any length -/

theorem writesCis_bucketWrite {s : State} {w b off : Nat} {bs : Bytes} (hw : w < s.wells.length) (h : (s.well w).cisOk) (hlen : off + bs.length ≤ 64) :
    WritesCis s (s.bucketWrite false w b off bs) w (b * 64 + off) bs := by
  unfold State.bucketWrite
  split
  · rename_i hall
    have hwell : (s.putBucket false w b bs).well w = (s.well w).putCis b bs := by rw [putBucket_cis, State.well_modWell, if_pos ⟨rfl, hw⟩]
    refine ⟨bankScope_modWell _ _ _, by rw [hwell]; exact cisOk_putCis h _ _, fun a => ?_⟩
    rw [hwell, seen_putCis]
    by_cases hab : a / 64 = b
    · rw [if_pos hab, if_pos (by omega), show a - (b * 64 + off) = a % 64 by omega]
    · rw [if_neg hab, if_neg (by omega)]
  · split
    · rename_i he
      rw [List.isEmpty_iff.mp he]
      exact writesCis_nil s _ h
    · exact writesCis_partialWrite hw h hlen

theorem writesCis_devWriteAux (n : Nat) {s : State} {w o : Nat} {bs : Bytes} (hw : w < s.wells.length) (hw24 : w < 24) (h : (s.well w).cisOk)
    (hlen : o + bs.length ≤ 2 ^ 27) (hn : n = bucketsOf (cisAddr w o) bs.length) : WritesCis s (s.devWriteAux n (cisAddr w o) bs) w o bs := by
  induction n generalizing s o bs with
  | zero =>
    rw [bucketsOf_cisAddr] at hn
    have hnil : bs = [] := List.eq_nil_of_length_eq_zero (by split at hn <;> omega)
    rw [hnil]
    exact writesCis_nil s _ h
  | succ n ih =>
    rw [bucketsOf_cisAddr] at hn
    have hne : bs.length ≠ 0 := by
      intro h0
      rw [if_pos h0] at hn
      omega
    rw [if_neg hne] at hn
    have hk : 64 - cisAddr w o % 64 = 64 - o % 64 := by unfold cisAddr; omega
    have hb := writesCis_bucketWrite (b := o / 64) (off := o % 64) (bs := bs.take (64 - o % 64)) hw h (by rw [List.length_take]; omega)
    rw [show o / 64 * 64 + o % 64 = o by omega] at hb
    have hnext : n = bucketsOf (cisAddr w (o + (64 - o % 64))) (bs.drop (64 - o % 64)).length := by
      rw [bucketsOf_cisAddr, List.length_drop]
      split <;> omega
    have hrest := ih (s := s.bucketWrite false w (o / 64) (o % 64) (bs.take (64 - o % 64))) (o := o + (64 - o % 64)) (bs := bs.drop (64 - o % 64))
      (by rw [hb.scope.length]; exact hw) hb.ok (by rw [List.length_drop]; omega) hnext
    rw [State.devWriteAux, hk]
    simp only [memoryAt_cisAddr hw24 (show o < 2 ^ 27 by omega)]
    rw [show cisAddr w o + (64 - o % 64) = cisAddr w (o + (64 - o % 64)) by unfold cisAddr; omega]
    exact hb.append hrest

/-- A write of device memory inside one cistern changes the bytes of its range. -/
theorem writesCis_devWrite {s : State} {w o : Nat} {bs : Bytes} (hw : w < s.wells.length) (hw24 : w < 24) (h : (s.well w).cisOk)
    (hlen : o + bs.length ≤ 2 ^ 27) : WritesCis s (s.devWrite (cisAddr w o) bs) w o bs :=
  writesCis_devWriteAux _ hw hw24 h hlen rfl

/-! ## Reads (R232, R237) -/

/-- Entries of a well may be written back: what it shows, its form and its marks are as before. -/
structure Settles (s t : State) (w : Nat) : Prop where
  scope : BankScope s t w
  ok : (t.well w).cisOk
  seen : ∀ a, (t.well w).seen a = (s.well w).seen a
  bad : ∀ b, b ∈ (t.well w).cisBad ↔ b ∈ (s.well w).cisBad

theorem Settles.refl {s : State} {w : Nat} (h : (s.well w).cisOk) : Settles s s w := ⟨BankScope.refl s w, h, fun _ => rfl, fun _ => Iff.rfl⟩

theorem Settles.trans {s t u : State} {w : Nat} (h : Settles s t w) (k : Settles t u w) : Settles s u w :=
  ⟨h.scope.trans k.scope, k.ok, fun a => (k.seen a).trans (h.seen a), fun b => (k.bad b).trans (h.bad b)⟩

theorem settles_settleEntry {s : State} {w : Nat} (b : Nat) (hw : w < s.wells.length) (h : (s.well w).cisOk) :
    Settles s (s.settleEntry false w b) w ∧ ((s.settleEntry false w b).well w).entry b = none := by
  unfold State.settleEntry
  split
  · rename_i e he
    have he' : (s.well w).entry b = some e := he
    obtain ⟨hb, -⟩ := entry_bucket he'
    obtain ⟨hsc, hwell⟩ := writeBack_settles s e hw
    refine ⟨⟨hsc, by rw [hwell]; exact cisOk_settled h e, fun a => ?_, fun c => ?_⟩, ?_⟩ <;> rw [hwell]
    · exact seen_settled h (by rw [hb]; exact he') a
    · exact cisBad_settled _ e c
    · rw [entry_settled, if_pos hb.symm]
  · rename_i he
    exact ⟨Settles.refl h, he⟩

/-- The bytes that software sees from an offset of a well's cistern. -/
def Well.shows (x : Well) (o len : Nat) : Bytes := (List.range len).map (fun i => x.seen (o + i))

/-- A read of a bucket that is not marked gives what the well shows. -/
theorem bucketRead_shows {s : State} {w b : Nat} (kind : Nat) (hw : w < s.wells.length) (h : (s.well w).cisOk) (hb : b ∉ (s.well w).cisBad) :
    (s.bucketRead false w b kind).1 = (s.well w).shows (b * 64) 64 ∧ (s.bucketRead false w b kind).2.1 = false ∧
      Settles s (s.bucketRead false w b kind).2.2 w := by
  obtain ⟨hset, he⟩ := settles_settleEntry b hw h
  have hbad : b ∉ ((s.settleEntry false w b).well w).cisBad := fun hc => hb ((hset.bad b).mp hc)
  have hread : s.bucketRead false w b kind = (memRead ((s.settleEntry false w b).well w).cis (b * 64) 64, false, s.settleEntry false w b) := by
    simp [State.bucketRead, State.bankRead, hbad]
  rw [hread]
  refine ⟨?_, rfl, hset⟩
  rw [memRead_eq_map hset.ok.1, Well.shows]
  refine List.map_congr_left (fun i hi => ?_)
  have hi64 := List.mem_range.mp hi
  rw [← hset.seen, seen_of_no_entry (by rw [show (b * 64 + i) / 64 = b by omega]; exact he)]

theorem shows_append (x : Well) (o m n : Nat) : x.shows o m ++ x.shows (o + m) n = x.shows o (m + n) := by
  simp only [Well.shows, List.range_add, List.map_append, List.map_map]
  congr 1
  exact List.map_congr_left (fun i _ => by simp [Nat.add_assoc])

theorem shows_congr {x y : Well} (h : ∀ a, y.seen a = x.seen a) (o len : Nat) : y.shows o len = x.shows o len :=
  List.map_congr_left (fun _ _ => h _)

/-- A piece of what a well shows. -/
theorem slice_shows (x : Well) (o off len n : Nat) (h : off + len ≤ n) : slice (x.shows o n) off len = x.shows (o + off) len := by
  apply List.ext_getElem?
  intro i
  simp only [slice, Well.shows, List.getElem?_take, List.getElem?_drop, List.getElem?_map]
  by_cases hi : i < len
  · rw [if_pos hi, List.getElem?_range (by omega), List.getElem?_range hi]
    simp [Nat.add_assoc]
  · rw [if_neg hi, List.getElem?_eq_none (by simp; omega)]
    rfl

/-- Buckets of one cistern, none of them marked, are read in order. -/
theorem readGood_shows (n : Nat) {s : State} {w b : Nat} (hw : w < s.wells.length) (hw24 : w < 24) (h : (s.well w).cisOk) (hn : (b + n) * 64 ≤ 2 ^ 27)
    (hbad : ∀ c ∈ (s.well w).cisBad, c < b ∨ b + n ≤ c) :
    (s.readGood n (cisAddr w (b * 64))).1 = (s.well w).shows (b * 64) (n * 64) ∧ (s.readGood n (cisAddr w (b * 64))).2.1 = false ∧
      Settles s (s.readGood n (cisAddr w (b * 64))).2.2 w := by
  induction n generalizing s b with
  | zero => exact ⟨by simp [State.readGood, Well.shows], rfl, Settles.refl h⟩
  | succ n ih =>
    have hb : b ∉ (s.well w).cisBad := fun hc => by
      have := hbad b hc
      omega
    obtain ⟨hbytes, hgood, hset⟩ := bucketRead_shows 0 hw h hb
    have hr1 : (s.readBuckets 0 1 (cisAddr w (b * 64))) =
        ((s.bucketRead false w b 0).1, (s.bucketRead false w b 0).2.1, (s.bucketRead false w b 0).2.2) := by
      simp [State.readBuckets, memoryAt_cisAddr hw24 (show b * 64 < 2 ^ 27 by omega)]
    obtain ⟨ib, ig, is⟩ := ih (s := (s.bucketRead false w b 0).2.2) (b := b + 1) (by rw [hset.scope.length]; exact hw) hset.ok (by omega)
      (fun c hc => by
        have := hbad c ((hset.bad c).mp hc)
        by_cases hcb : c = b
        · exact absurd ((hset.bad c).mp hc) (hcb ▸ hb)
        · omega)
    have haddr : cisAddr w (b * 64) + 64 = cisAddr w ((b + 1) * 64) := by unfold cisAddr; omega
    rw [State.readGood]
    simp only [hr1, hgood, haddr, Bool.false_eq_true, if_false]
    refine ⟨?_, ig, hset.trans is⟩
    rw [hbytes, ib, shows_congr hset.seen, show (b + 1) * 64 = b * 64 + 64 by omega, shows_append, show 64 + n * 64 = (n + 1) * 64 by omega]

/-! ## The access check (R39, R44) -/

theorem bankScope_access (s : State) (w : Nat) (a : Access) : BankScope s { s with access := a } w := ⟨fun _ _ => rfl, rfl, fun _ _ => rfl, rfl⟩

theorem bankScope_tripleEvent (s : State) (w part ident : Nat) (fixed : Option Nat) : BankScope s (s.tripleEvent part ident fixed) w := by
  unfold State.tripleEvent
  split
  · exact bankScope_raise _ _ _ _ _ _
  · exact BankScope.refl _ _

theorem bankScope_repairRoots (s : State) (w : Nat) : BankScope s s.repairRoots w := by
  unfold State.repairRoots
  split
  · exact BankScope.refl _ _
  · exact (bankScope_access s w _).trans (bankScope_tripleEvent _ _ _ _ _)

theorem bankScope_repairOwner (s : State) (w v : Nat) : BankScope s (s.repairOwner v) w := by
  unfold State.repairOwner
  split
  · exact BankScope.refl _ _
  · exact (bankScope_access s w _).trans (bankScope_tripleEvent _ _ _ _ _)

theorem bankScope_votesFor (s : State) (w addr : Nat) : BankScope s (s.votesFor addr) w := by
  unfold State.votesFor
  split
  · split
    · exact (bankScope_repairRoots s w).trans (bankScope_repairOwner _ _ _)
    · exact bankScope_repairRoots s w
    · exact BankScope.refl _ _
  · exact (bankScope_repairRoots s w).trans (bankScope_repairOwner _ _ _)
  · exact (bankScope_repairRoots s w).trans (bankScope_repairOwner _ _ _)
  · exact BankScope.refl _ _

@[simp] theorem tripleEvent_wells (s : State) (part ident : Nat) (fixed : Option Nat) : (s.tripleEvent part ident fixed).wells = s.wells := by
  unfold State.tripleEvent
  split
  · rw [State.raise_wells]
  · rfl

@[simp] theorem repairRoots_wells (s : State) : s.repairRoots.wells = s.wells := by
  unfold State.repairRoots
  split
  · rfl
  · rw [tripleEvent_wells]

@[simp] theorem repairOwner_wells (s : State) (w : Nat) : (s.repairOwner w).wells = s.wells := by
  unfold State.repairOwner
  split
  · rfl
  · rw [tripleEvent_wells]

@[simp] theorem votesFor_wells (s : State) (addr : Nat) : (s.votesFor addr).wells = s.wells := by
  unfold State.votesFor
  split
  · split <;> simp
  · simp
  · simp
  · rfl

@[simp] theorem recordRefusal_wells (s : State) (m : Master) (addr : Nat) (r : RefuseReason) : (s.recordRefusal m addr r).wells = s.wells := by
  unfold State.recordRefusal State.refusedAt
  dsimp only
  split
  · split
    · simp
    · rw [State.raise_wells]
      simp
  · simp

theorem check_wells (s : State) (m : Master) (addr len need : Nat) : (s.check m addr len need).2.wells = s.wells := by
  unfold State.check
  dsimp only
  split <;> simp

/-- A check that passes leaves the state its votes leave. -/
theorem check_passes {s : State} {m : Master} {addr len need : Nat} (h : (s.check m addr len need).1 = none) :
    s.check m addr len need = (none, s.votesFor addr) := by
  unfold State.check at h ⊢
  dsimp only at h ⊢
  split at h
  · simp at h
  · rfl

/-- A DMA that is not refused has bytes to move, and its check leaves the state its votes leave. -/
theorem dmaRefusal_passes {s : State} {k : Cmd} {need : Nat} (h : (s.dmaRefusal k need).1 = none) :
    s.dmaRefusal k need = (none, s.votesFor k.p1) ∧ 1 ≤ k.length := by
  unfold State.dmaRefusal at h ⊢
  split at h
  · simp at h
  · split at h
    · simp at h
    · rename_i h1 h2
      rw [if_neg h1, if_neg h2]
      exact ⟨check_passes h, by omega⟩

theorem dmaRefusal_wells (s : State) (k : Cmd) (need : Nat) : (s.dmaRefusal k need).2.wells = s.wells := by
  unfold State.dmaRefusal
  split
  · rfl
  · split
    · rfl
    · exact check_wells _ _ _ _ _

/-! ## Host DMA (R373) -/

/-- A write to the host leaves when the link is up, the stream is secure and the interface is not in ERROR (R355, R380, R381). -/
theorem hostWrite_leaves {s : State} {f : Nat} (addr : Nat) (bs : Bytes) (hup : s.host.up = true) (hok : s.streamBad f = false) (ht : (s.fn f).tdi ≠ .error) :
    s.hostWrite f addr bs = { s with out := s.out ++ [.hostWrite f addr bs] } := by
  unfold State.hostWrite
  rw [if_neg (by simp [hup, hok, ht])]
  rfl

/-- A DMA to memory writes the bytes of its range. -/
theorem dmaToDevice_writes {c : CmdRef} {k : Cmd} {w o : Nat} {s : State} (hr : s.ready c 0x10 = some k) (hd : (s.dmaRefusal k 2).1 = none)
    (hf : k.readFailed = false) (hlen : k.data.length = k.length) (hm : memoryAt k.p1 = some (false, w, o)) (hfit : o + k.length ≤ 2 ^ 27)
    (hw : w < s.wells.length) (h : (s.well w).cisOk) : ∃ u, exec (.dmaToDevice c) s = .next (u.complete k .ok k.length 0) ∧ WritesCis s u w o k.data := by
  obtain ⟨hp1, hw24, -⟩ := eq_cisAddr_of_memoryAt hm
  obtain ⟨hpass, -⟩ := dmaRefusal_passes hd
  have hv := bankScope_votesFor s w k.p1
  have hwell : (s.votesFor k.p1).well w = s.well w := by rw [State.well, votesFor_wells, State.well]
  have hwr := writesCis_devWrite (s := s.votesFor k.p1) (bs := k.data) (by rw [votesFor_wells]; exact hw) hw24 (by rw [hwell]; exact h) (by rw [hlen]; exact hfit)
  refine ⟨(s.votesFor k.p1).devWrite k.p1 k.data, ?_, ?_⟩
  · show execDmaToDevice c s = _
    simp only [execDmaToDevice, hr, hpass, hf, hlen, Nat.lt_irrefl, if_false, Bool.false_eq_true]
    rw [State.dmaWrite, if_neg (by rw [hp1]; unfold cisAddr; omega)]
  · rw [← hp1] at hwr
    exact ⟨hv.trans hwr.scope, hwr.ok, fun a => by rw [hwr.seen, hwell]⟩

/-- A DMA from memory sends what the well shows, and keeps it. -/
theorem dmaToHost_sends {c : CmdRef} {k : Cmd} {w o : Nat} {s : State} (hr : s.ready c 0x11 = some k) (ho : k.orphan = false)
    (hd : (s.dmaRefusal k 1).1 = none) (hup : s.host.up = true) (hok : s.streamBad k.fn = false) (ht : (s.fn k.fn).tdi ≠ .error)
    (hm : memoryAt k.p1 = some (false, w, o)) (hfit : o + k.length ≤ 2 ^ 27) (hw : w < s.wells.length) (h : (s.well w).cisOk)
    (hbad : ∀ b ∈ (s.well w).cisBad, b < o / 64 ∨ (o + k.length - 1) / 64 < b) :
    ∃ u v : State, Settles s u w ∧ v = { u with out := s.out ++ [.hostWrite k.fn k.addr ((s.well w).shows o k.length)] } ∧
      exec (.dmaToHost c) s = .next (if s.owner w < 24 then (v.complete k .ok k.length 0).advance (s.owner w) else v.complete k .ok k.length 0) := by
  obtain ⟨hp1, hw24, ho27⟩ := eq_cisAddr_of_memoryAt hm
  obtain ⟨hpass, hpos⟩ := dmaRefusal_passes hd
  have hv := bankScope_votesFor s w k.p1
  have hwell : (s.votesFor k.p1).well w = s.well w := by rw [State.well, votesFor_wells, State.well]
  have hn : bucketsOf k.p1 k.length = (o + k.length - 1) / 64 - o / 64 + 1 := by rw [hp1, bucketsOf_cisAddr, if_neg (by omega)]
  have haddr : k.p1 / 64 * 64 = cisAddr w (o / 64 * 64) := by rw [hp1]; unfold cisAddr; omega
  obtain ⟨hbytes, hgood, hset⟩ := readGood_shows (bucketsOf k.p1 k.length) (s := s.votesFor k.p1) (b := o / 64) (by rw [votesFor_wells]; exact hw) hw24
    (by rw [hwell]; exact h) (by rw [hn]; omega) (fun b hb => by
      rw [hwell] at hb
      have := hbad b hb
      rw [hn]
      omega)
  rw [← haddr] at hbytes hgood hset
  have hsettle : Settles s ((s.votesFor k.p1).readGood (bucketsOf k.p1 k.length) (k.p1 / 64 * 64)).2.2 w :=
    ⟨hv.trans hset.scope, hset.ok, fun a => by rw [hset.seen, hwell], fun b => by rw [hset.bad, hwell]⟩
  have hout : slice ((s.votesFor k.p1).readGood (bucketsOf k.p1 k.length) (k.p1 / 64 * 64)).1 (k.p1 % 64) k.length = (s.well w).shows o k.length := by
    rw [hbytes, hwell, show k.p1 % 64 = o % 64 by rw [hp1]; unfold cisAddr; omega, slice_shows _ _ _ _ _ (by rw [hn]; omega),
      show o / 64 * 64 + o % 64 = o by omega]
  generalize hu : (s.votesFor k.p1).readGood (bucketsOf k.p1 k.length) (k.p1 / 64 * 64) = r at *
  have hfr := hsettle.scope.frame
  have hwr := hostWrite_leaves (s := r.2.2) (f := k.fn) k.addr ((s.well w).shows o k.length) (by rw [hfr]; exact hup) (by rw [hfr]; exact hok) (by rw [hfr]; exact ht)
  have hso : r.2.2.out = s.out := by rw [hfr]
  rw [hso] at hwr
  refine ⟨r.2.2, r.2.2.hostWrite k.fn k.addr ((s.well w).shows o k.length), hsettle, hwr, ?_⟩
  have hne : ((s.well w).shows o k.length).isEmpty = false := by
    rw [List.isEmpty_eq_false_iff, ← List.length_pos_iff]
    simp [Well.shows]
    omega
  show execDmaToHost c s = _
  simp only [execDmaToHost, hr, ho, hpass, hm, Bool.false_eq_true, if_false, Option.elim_some]
  rw [if_neg (by rw [hp1]; unfold cisAddr; omega)]
  simp only [hu, hout, hne, hgood, Bool.false_eq_true, if_false]

/-- Settles O13: a DMA is one access check, then a write of its bytes or a read of its buckets inside one cistern. -/
theorem hostDmaMovesBytes : Obligations.HostDmaMovesBytes := by
  unfold Obligations.HostDmaMovesBytes
  refine ⟨fun c k w o s hr hd hf hlen hm hfit hw h => ?_, fun c k w o s hr ho hd hup hok ht hm hfit hw h hbad => ?_, fun c k st t s hr hd => ?_,
    fun c k st t s hr ho hd => ?_, fun c k s hr ho => ?_⟩
  · obtain ⟨u, hex, hwr⟩ := dmaToDevice_writes hr hd hf hlen hm hfit hw h
    have hseen := hwr.seen
    rw [hlen] at hseen
    exact ⟨u, hex, hseen, hwr.ok, hwr.scope.others, hwr.scope.regs, hwr.scope.frame⟩
  · obtain ⟨u, v, hset, hv, hex⟩ := dmaToHost_sends hr ho hd hup hok ht hm hfit hw h hbad
    refine ⟨v, hex, ?_, ?_, ?_, ?_⟩
    · rw [hv]
      rfl
    · rw [hv]
      exact hset.seen
    · rw [hv]
      exact hset.scope.others
    · have hfr := hset.scope.frame
      rw [hv, hfr]
  · refine ⟨?_, ?_⟩
    · show execDmaToDevice c s = _
      simp only [execDmaToDevice, hr, hd]
    · have hw := dmaRefusal_wells s k 2
      rwa [hd] at hw
  · refine ⟨?_, ?_⟩
    · show execDmaToHost c s = _
      simp only [execDmaToHost, hr, ho, hd, Bool.false_eq_true, if_false]
    · have hw := dmaRefusal_wells s k 1
      rwa [hd] at hw
  · show execDmaToHost c s = _
    simp only [execDmaToHost, hr, ho, if_true]

end Sys2Proof.Machine

namespace Sys2Proof.Machine

open Sys2Proof

/-! ## The tiles of the wells -/

/-- The tiles of every well. -/
def State.looms (s : State) : List (List Tile) := s.wells.map Well.tiles

theorem looms_of_wells {s t : State} (h : t.wells = s.wells) : t.looms = s.looms := by rw [State.looms, h, State.looms]

theorem tiles_of_looms {s d : State} (h : d.looms = s.looms) (w : Nat) : (d.well w).tiles = (s.well w).tiles := by
  have hm : d.wells.map Well.tiles = s.wells.map Well.tiles := h
  rw [State.well, State.well, ← List.getD_map d.wells (d := {}) Well.tiles, hm, List.getD_map]

/-- Where the tiles are the same, so is each of them. -/
theorem tile_of_looms {s d : State} (h : d.looms = s.looms) (r : TileRef) : d.tile r = s.tile r := by rw [State.tile, State.tile, tiles_of_looms h]

theorem held_of_looms {s d : State} (h : d.looms = s.looms) {r : TileRef} (hr : Held s r) : Held d r := by
  obtain ⟨h1, h2, h3, h4⟩ := hr
  have hl : d.wells.length = s.wells.length := by
    have := congrArg List.length h
    simpa [State.looms] using this
  exact ⟨h1, h2, hl ▸ h3, by rw [tiles_of_looms h]; exact h4⟩

/-- A change to a well that keeps its tiles keeps the tiles. -/
theorem looms_modWell (s : State) (w : Nat) {f : Well → Well} (h : ∀ x, (f x).tiles = x.tiles) : (s.modWell w f).looms = s.looms := map_updAt_self _ _ _ h

theorem looms_raise (s : State) (code part src : Nat) (l : List (Nat × Nat)) : (s.raise code part src l).looms = s.looms := looms_of_wells (State.raise_wells _ _ _ _ _)

/-! ## What an operation on one tile may touch -/

/-- A well without its tiles. -/
def Well.untiled (x : Well) : Well := { x with tiles := [] }

/-- One tile alone may differ, and the registers of a list; what the wells hold but tiles is as before. -/
structure TileScope (s d : State) (t : TileRef) (regs : List Nat) : Prop where
  others : ∀ r, r ≠ t → d.tile r = s.tile r
  held : ∀ r, Held s r → Held d r
  wells : OnlyWell s d t.well
  untiled : ∀ w, (d.well w).untiled = (s.well w).untiled
  regs : OnlyRegs s d regs

theorem TileScope.refl (s : State) (t : TileRef) (l : List Nat) : TileScope s s t l := ⟨fun _ _ => rfl, fun _ h => h, fun _ _ => rfl, fun _ => rfl, fun _ _ => rfl⟩

theorem TileScope.trans {s d e : State} {t : TileRef} {l : List Nat} (h : TileScope s d t l) (k : TileScope d e t l) : TileScope s e t l where
  others r hr := (k.others r hr).trans (h.others r hr)
  held r hr := k.held r (h.held r hr)
  wells w hw := (k.wells w hw).trans (h.wells w hw)
  untiled w := (k.untiled w).trans (h.untiled w)
  regs x hx := (k.regs x hx).trans (h.regs x hx)

theorem tileScope_of_wells {s d : State} {l : List Nat} (h : d.wells = s.wells) (t : TileRef) (hr : OnlyRegs s d l) : TileScope s d t l where
  others r _ := tile_of_looms (looms_of_wells h) r
  held _ hr := held_of_looms (looms_of_wells h) hr
  wells w _ := by rw [State.well, h, State.well]
  untiled w := by rw [State.well, h, State.well]
  regs := hr

theorem tileScope_modTile (s : State) (t : TileRef) (f : Tile → Tile) (l : List Nat) : TileScope s (s.modTile t f) t l where
  others r hr := by rw [State.tile_modTile, if_neg (fun h => hr h.1)]
  held r hr := by
    obtain ⟨h1, h2, h3, h4⟩ := hr
    refine ⟨h1, h2, by rw [State.modTile, State.modWell, updAt_length]; exact h3, ?_⟩
    rw [State.modTile, State.well_modWell]
    split
    · rename_i h
      rw [← h.1, updAt_length]
      exact h4
    · exact h4
  wells w hw := by rw [State.modTile, State.well_modWell, if_neg (fun h => hw h.1)]
  untiled w := by
    rw [State.modTile, State.well_modWell]
    split
    · rename_i h
      rw [h.1]
      rfl
    · rfl
  regs _ _ := rfl

/-- A held tile after a change. -/
theorem tile_modTile_held {s : State} {t : TileRef} (h : Held s t) (f : Tile → Tile) : (s.modTile t f).tile t = f (s.tile t) := by
  rw [State.tile_modTile, if_pos ⟨rfl, h.2.2.1, h.2.2.2⟩]

theorem tileScope_raise (s : State) (t : TileRef) {l : List Nat} (hl : logBase + 4 ∈ l) (code part src : Nat) (p : List (Nat × Nat)) :
    TileScope s (s.raise code part src p) t l :=
  tileScope_of_wells (State.raise_wells _ _ _ _ _) t (fun _ hy => State.reg_raise _ _ _ _ _ _ (fun h => hy (h ▸ hl)))

theorem tileScope_countBy (s : State) (t : TileRef) {x : Nat} (n : Nat) {l : List Nat} (hl : x ∈ l) : TileScope s (s.countBy x n) t l :=
  tileScope_of_wells (s := s) (State.countBy_wells _ _ _) t (fun y hy => by
    rw [State.reg_countBy, if_neg]
    rintro rfl
    exact hy hl)

theorem tileScope_setReg (s : State) (t : TileRef) {x : Nat} (v : Nat) {l : List Nat} (hl : x ∈ l) : TileScope s (s.setReg x v) t l :=
  tileScope_of_wells (s := s) (State.setReg_wells _ _ _) t (fun y hy => State.reg_setReg_ne _ _ _ _ (by
    rintro rfl
    exact hy hl))

theorem tileScope_modRound (s : State) (t : TileRef) (p : Nat) (f : Round → Round) (l : List Nat) : TileScope s (s.modRound p f) t l :=
  tileScope_of_wells (s := s) (State.modRound_wells _ _ _) t (fun _ _ => State.modRound_reg _ _ _ _)

/-! ## The issue of a step (R205, R206, R215) -/

/-- A step that issues runs its operation in the state of its issue. -/
theorem execStep_of_issues {s u : State} {t : TileRef} {op : Nat} {i : Issue} (h : Issues s t op i u) (run : TileRef → Issue → State → State) :
    s.execStep t op run = .next (run t i u) := by
  unfold Issues at h
  unfold State.execStep
  dsimp only at h ⊢
  generalize s.skipNops t (s.owner t.well) 2048 = v at h ⊢
  obtain ⟨⟨hal, hown, hrun, hstop⟩, hdue, hfault, hop, hfree, hat, hi, hu⟩ := h
  rw [if_neg (by simp [hal, hrun, hstop]; omega), if_neg (by omega)]
  simp only [hfault]
  have hw : i.w = stepWord ((v.tile t).stepBytes (v.tile t).next) := by rw [hi]
  have hat' : i.at_ = (v.tile t).issueAt (unitsOf (stepWord ((v.tile t).stepBytes (v.tile t).next))) := by rw [hi]
  rw [if_neg, hu]
  · rw [hi]
  · rw [← hat', hop, hfree]
    simp
    omega

/-- Noting that a step is late and that it issues touches its tile and the tile's registers alone. -/
def issueRegs (t : TileRef) : List Nat := [tileBase t + 0x18, tileBase t + 0x1C, tileBase t + 0x20, tileBase t + 0x24, logBase + 4]

theorem tileScope_noteLate (s : State) (t : TileRef) (p k late : Nat) : TileScope s (s.noteLate t p k late) t (issueRegs t) := by
  unfold State.noteLate
  split
  · exact TileScope.refl _ _ _
  · have h1 : TileScope s (s.count (tileBase t + 0x20)) t (issueRegs t) := tileScope_countBy s t 1 (by simp [issueRegs])
    dsimp only
    split
    · exact h1
    · exact h1.trans ((tileScope_modRound _ t p _ _).trans (tileScope_raise _ t (by simp [issueRegs]) _ _ _ _))

theorem tileScope_issued (s : State) (t : TileRef) (k at_ gap stretch : Nat) : TileScope s (s.issued t k at_ gap stretch) t (issueRegs t) :=
  (((tileScope_setReg s t _ (by simp [issueRegs])).trans (tileScope_setReg _ t _ (by simp [issueRegs])))).trans (tileScope_modTile _ t _ _)

theorem held_skipNops (s : State) (t : TileRef) (p fuel : Nat) {r : TileRef} (h : Held s r) : Held (s.skipNops t p fuel) r := by
  induction fuel generalizing s with
  | zero => exact h
  | succ fuel ih =>
    unfold State.skipNops
    dsimp only
    split
    · exact ih _ ((tileScope_issued _ t _ _ _ _).held r ((tileScope_noteLate s t _ _ _).held r h))
    · exact h

/-- A tile that is held is held when its step issues. -/
theorem held_of_issues {s u : State} {t r : TileRef} {op : Nat} {i : Issue} (h : Issues s t op i u) (hr : Held s r) : Held u r := by
  have hk := held_skipNops s t (s.owner t.well) 2048 hr
  unfold Issues at h
  generalize s.skipNops t (s.owner t.well) 2048 = v at h hk
  obtain ⟨-, -, -, -, -, -, -, rfl⟩ := h
  exact (tileScope_issued _ t _ _ _ _).held r ((tileScope_noteLate _ t _ _ _).held r hk)

/-- The step that issues has its opcode, and its partition is formed. -/
theorem opcode_of_issues {s u : State} {t : TileRef} {op : Nat} {i : Issue} (h : Issues s t op i u) : i.w.opcode = op ∧ i.part < 24 := by
  unfold Issues at h
  generalize s.skipNops t (s.owner t.well) 2048 = v at h
  obtain ⟨⟨-, hown, -, -⟩, -, -, hop, -, -, hi, -⟩ := h
  rw [hi]
  exact ⟨hop, hown⟩

/-! ## The accesses of the transfer unit (R193) -/

/-- The transfer unit comes first at every bank: what it writes is never discarded. -/
theorem losesTo_of_transfer {q f : Touch} (h : q.unit = 4) : q.losesTo f = false := by
  simp [Touch.losesTo, unitRank, h]

/-- Entering accesses of the transfer unit changes when units are busy, the accesses still to come, and the count of conflicts. -/
theorem touch_transfer (s : State) (t : TileRef) (i : Issue) {all : List Touch} (h4 : ∀ q ∈ all, q.unit = 4) :
    TileScope s (s.touch t i all).2 t (issueRegs t) ∧
      (Held s t → ∃ fl bs, (s.touch t i all).2.tile t = { s.tile t with flight := fl, busy := bs }) := by
  unfold State.touch
  extract_lets x plan live mine others r lost moved s1 s2
  have hlost : lost = [] := by
    rw [List.flatMap_eq_nil_iff]
    intro q hq
    have hq4 := h4 q (List.mem_of_mem_filter hq)
    simp [losesTo_of_transfer hq4]
  let f : Tile → Tile := fun y => { y with
    flight := mine ++ r.2.2, busy := (y.busy.zip (List.range 5)).map (fun (e : Nat × Nat) => if e.1 ≤ i.at_ then e.1 else e.1 + movedBy e.2 moved) }
  have hs1 : s1 = (s.modTile t f).countBy (tileBase t + 0x24) r.2.1 := by
    show (s.modTile t _).countBy _ _ = _
    rw [hlost]
    rfl
  have h1 : TileScope s s1 t (issueRegs t) := by
    rw [hs1]
    exact (tileScope_modTile s t f _).trans (tileScope_countBy _ t _ (by simp [issueRegs]))
  have h2 : TileScope s1 s2 t (issueRegs t) ∧ s2.looms = s1.looms := by
    by_cases hc : r.2.1 = 0 ∨ 24 ≤ i.part ∨ (s.round i.part).firstConflict = true
    · rw [show s2 = s1 from if_pos hc]
      exact ⟨TileScope.refl _ _ _, rfl⟩
    · rw [show s2 = _ from if_neg hc]
      exact ⟨(tileScope_modRound _ t _ _ _).trans (tileScope_raise _ t (by simp [issueRegs]) _ _ _ _), looms_raise _ _ _ _ _⟩
  refine ⟨h1.trans h2.1, fun hh => ?_⟩
  have ht : s2.tile t = f x := by
    rw [tile_of_looms h2.2, hs1]
    exact tile_modTile_held hh f
  exact ⟨_, _, ht⟩

/-! ## A transfer step of one unit -/

/-- A state after the units of a step of tile `t` have moved: what the units left, and when the tile is busy. -/
structure Moved (s v : State) (t : TileRef) : Prop where
  scope : TileScope s v t (issueRegs t)
  tile : Held s t → ∃ fl bs n, v.tile t = { s.tile t with flight := fl, busy := bs, xfer := n }

theorem slotCycles_one {pat : Bytes} {at_ : Nat} (h : slotCycles pat at_ 1 ≠ []) : ∃ c, slotCycles pat at_ 1 = [c] := by
  unfold slotCycles at h ⊢
  dsimp only at h ⊢
  split
  · rename_i h0
    rw [if_pos h0] at h
    exact absurd rfl h
  · exact ⟨_, rfl⟩

theorem slotCycles_eq_nil {pat : Bytes} {at_ n : Nat} (hn : 1 ≤ n) : slotCycles pat at_ n = [] ↔ slotCycles pat at_ 1 = [] := by
  unfold slotCycles
  dsimp only
  split
  · simp
  · simp
    omega

/-- A step whose pattern has no slot stands still. -/
theorem runTransfer_stuck {s : State} {t : TileRef} {i : Issue} {units : Nat} (rows : Nat → Nat × Nat × Bool) (f : Nat → Nat → State → Bool × State)
    (h : slotCycles ((s.tile t).patterns.getD i.w.pattern []) i.at_ units = []) :
    s.runTransfer t i units rows f = s.modTile t (fun x => { x with stuckSince := some (i.at_, i.idx) }) := by
  simp only [State.runTransfer, h, List.getLast?_nil]

/-- A step whose units stop it leaves what they leave. -/
theorem runTransfer_stops {s s1 : State} {t : TileRef} {i : Issue} {units : Nat} (rows : Nat → Nat × Nat × Bool) {f : Nat → Nat → State → Bool × State}
    (hr : s.runUnits f (slotCycles ((s.tile t).patterns.getD i.w.pattern []) i.at_ units) 0 = (false, s1)) :
    s.runTransfer t i units rows f = s1 := by
  have hne : slotCycles ((s.tile t).patterns.getD i.w.pattern []) i.at_ units ≠ [] := by
    intro h
    rw [h] at hr
    simp [State.runUnits] at hr
  unfold State.runTransfer
  dsimp only
  split
  · rename_i h
    exact absurd (List.getLast?_eq_none_iff.mp h) hne
  · rw [hr]
    rfl

/-- A step whose units have all moved keeps the tile busy until the last one has. -/
theorem runTransfer_moves {s s1 : State} {t : TileRef} {i : Issue} {units : Nat} (rows : Nat → Nat × Nat × Bool) {f : Nat → Nat → State → Bool × State}
    (hne : slotCycles ((s.tile t).patterns.getD i.w.pattern []) i.at_ units ≠ [])
    (hr : s.runUnits f (slotCycles ((s.tile t).patterns.getD i.w.pattern []) i.at_ units) 0 = (true, s1)) :
    Moved s1 (s.runTransfer t i units rows f) t := by
  unfold State.runTransfer
  dsimp only
  split
  · rename_i h
    exact absurd (List.getLast?_eq_none_iff.mp h) hne
  · rw [hr, if_neg (by simp)]
    obtain ⟨hsc, htile⟩ := touch_transfer s1 t i (all := ((slotCycles ((s.tile t).patterns.getD i.w.pattern []) i.at_ units).zip (List.range units)).map (fun e =>
      Touch.mk 4 (if (rows e.2).2.2 then e.1 + 24 else e.1) 1 (rows e.2).1 (rows e.2).2.1 (rows e.2).2.2)) (by
        rintro q hq
        obtain ⟨e, -, rfl⟩ := List.mem_map.mp hq
        rfl)
    refine ⟨hsc.trans (tileScope_modTile _ t _ _), fun hh => ?_⟩
    obtain ⟨fl, bs, ht⟩ := htile hh
    exact ⟨fl, _, _, by rw [tile_modTile_held (hsc.held t hh), ht]; rfl⟩

/-- One unit that stops its step. -/
theorem runTransfer_one_stops {s s1 : State} {t : TileRef} {i : Issue} {c : Nat} (rows : Nat → Nat × Nat × Bool) {f : Nat → Nat → State → Bool × State}
    (hc : slotCycles ((s.tile t).patterns.getD i.w.pattern []) i.at_ 1 = [c]) (hf : f 0 c s = (false, s1)) : s.runTransfer t i 1 rows f = s1 :=
  runTransfer_stops rows (by rw [hc]; simp [State.runUnits, hf])

/-- One unit that moves. -/
theorem runTransfer_one_moves {s s1 : State} {t : TileRef} {i : Issue} {c : Nat} (rows : Nat → Nat × Nat × Bool) {f : Nat → Nat → State → Bool × State}
    (hc : slotCycles ((s.tile t).patterns.getD i.w.pattern []) i.at_ 1 = [c]) (hf : f 0 c s = (true, s1)) : Moved s1 (s.runTransfer t i 1 rows f) t :=
  runTransfer_moves rows (by rw [hc]; simp) (by rw [hc]; simp [State.runUnits, hf])

end Sys2Proof.Machine

namespace Sys2Proof.Machine

open Sys2Proof

/-! ## What a read of memory depends on (R232, R237, R252) -/

/-- Two states hold the same memories, and all else that a read of them depends on. -/
structure SameBanks (s d : State) : Prop where
  length : d.wells.length = s.wells.length
  well : ∀ w, (d.well w).untiled = (s.well w).untiled
  free : d.freeCount = s.freeCount
  time : d.devtime = s.devtime

theorem SameBanks.refl (s : State) : SameBanks s s := ⟨rfl, fun _ => rfl, rfl, rfl⟩

theorem SameBanks.symm {s d : State} (h : SameBanks s d) : SameBanks d s := ⟨h.length.symm, fun w => (h.well w).symm, h.free.symm, h.time.symm⟩

theorem SameBanks.trans {s d e : State} (h : SameBanks s d) (k : SameBanks d e) : SameBanks s e :=
  ⟨k.length.trans h.length, fun w => (k.well w).trans (h.well w), k.free.trans h.free, k.time.trans h.time⟩

/-- Two states with the same memories, and a step of each that keeps them. -/
theorem SameBanks.both {s d s1 d1 : State} (h : SameBanks s d) (hs : SameBanks s s1) (hd : SameBanks d d1) : SameBanks s1 d1 := hs.symm.trans (h.trans hd)

theorem sameBanks_of_wells {s d : State} (hw : d.wells = s.wells) (hf : d.freeCount = s.freeCount) (ht : d.devtime = s.devtime) : SameBanks s d :=
  ⟨by rw [hw], fun w => by rw [State.well, hw, State.well], hf, ht⟩

/-- A change to the wells that does not look at tiles. -/
theorem SameBanks.modWell {s d : State} (h : SameBanks s d) (w : Nat) {f : Well → Well} (hf : ∀ x, (f x).untiled = (f x.untiled).untiled) :
    SameBanks (s.modWell w f) (d.modWell w f) where
  length := by simp only [State.modWell, updAt_length, h.length]
  well v := by
    rw [State.well_modWell, State.well_modWell, h.length]
    split
    · rw [hf, h.well, ← hf]
    · exact h.well v
  free := h.free
  time := h.time

/-- What a well holds beside its tiles is the same. -/
theorem SameBanks.field {s d : State} (h : SameBanks s d) (w : Nat) {α : Type} {f : Well → α} (hf : ∀ x, f x.untiled = f x) : f (d.well w) = f (s.well w) := by
  rw [← hf, h.well, hf]

theorem sameBanks_count (s : State) (x : Nat) : SameBanks s (s.count x) :=
  sameBanks_of_wells (State.count_wells _ _) (State.count_freeCount _ _) (State.count_devtime _ _)

theorem sameBanks_raise (s : State) (code part src : Nat) (l : List (Nat × Nat)) : SameBanks s (s.raise code part src l) :=
  sameBanks_of_wells (State.raise_wells _ _ _ _ _) (by rw [State.raise_eq]) (by rw [State.raise_eq])

theorem sameBanks_cisUncorrectable (s : State) (w b kind : Nat) : SameBanks s (s.cisUncorrectable w b kind) :=
  ((sameBanks_count s _).trans (sameBanks_of_wells (State.setRecord_wells _ _ _) (State.setRecord_freeCount _ _ _) (State.setRecord_devtime _ _ _))).trans (sameBanks_raise _ _ _ _ _)

theorem sameBanks_lpxUncorrectable (s : State) (w b : Nat) : SameBanks s (s.lpxUncorrectable w b) :=
  ((sameBanks_count s _).trans (sameBanks_of_wells (State.setReg64_wells _ _ _) (State.setReg64_freeCount _ _ _) (State.setReg64_devtime _ _ _))).trans (sameBanks_raise _ _ _ _ _)

/-- A change to one tile keeps the memories. -/
theorem sameBanks_modTile (s : State) (t : TileRef) (f : Tile → Tile) : SameBanks s (s.modTile t f) :=
  ⟨by simp only [State.modTile, State.modWell, updAt_length], (tileScope_modTile s t f []).untiled, rfl, rfl⟩

section
variable {s d : State} (h : SameBanks s d)
include h

theorem SameBanks.bankRead (lp : Bool) (w b : Nat) : (d.bankRead lp w b).1 = (s.bankRead lp w b).1 ∧ SameBanks (s.bankRead lp w b).2 (d.bankRead lp w b).2 := by
  have hc : (d.well w).cis = (s.well w).cis := h.field w (f := Well.cis) (fun _ => rfl)
  have hl : (d.well w).lpx = (s.well w).lpx := h.field w (f := Well.lpx) (fun _ => rfl)
  have hr : (d.well w).lpxWritten = (s.well w).lpxWritten := h.field w (f := Well.lpxWritten) (fun _ => rfl)
  unfold State.bankRead
  rw [hc, hl, hr]
  split
  · exact ⟨rfl, h⟩
  · split
    · exact ⟨rfl, h⟩
    · refine ⟨?_, h.length, h.well, congrArg (· + 1) h.free, h.time⟩
      show toLE (Config.free d.freeCount) 64 = toLE (Config.free s.freeCount) 64
      rw [h.free]

theorem SameBanks.putBucket (lp : Bool) (w b : Nat) (data : Bytes) : SameBanks (s.putBucket lp w b data) (d.putBucket lp w b data) :=
  h.modWell w (fun x => by cases lp <;> rfl)

theorem SameBanks.writeBack (lp : Bool) (w : Nat) (e : MergeEntry) : SameBanks (s.writeBack lp w e) (d.writeBack lp w e) := by
  have hc : (d.well w).cisBad = (s.well w).cisBad := h.field w (f := Well.cisBad) (fun _ => rfl)
  obtain ⟨hb, hr⟩ := h.bankRead lp w e.bucket
  unfold State.writeBack
  dsimp only
  rw [hb, hc]
  have h1 := hr.both (sameBanks_count _ (if lp = true then lpxBase w + 0x10 else cisBase w + 0x10)) (sameBanks_count _ (if lp = true then lpxBase w + 0x10 else cisBase w + 0x10))
  split
  · exact ((h1.both (sameBanks_cisUncorrectable _ _ _ _) (sameBanks_cisUncorrectable _ _ _ _)).putBucket lp w _ _).modWell w (fun _ => rfl)
  · exact h1.putBucket lp w _ _

theorem SameBanks.settleEntry (lp : Bool) (w b : Nat) : SameBanks (s.settleEntry lp w b) (d.settleEntry lp w b) := by
  have he : (d.well w).entriesOf lp = (s.well w).entriesOf lp := h.field w (f := fun x => x.entriesOf lp) (fun _ => by cases lp <;> rfl)
  unfold State.settleEntry
  rw [he]
  split
  · exact h.writeBack lp w _
  · exact h

theorem SameBanks.lpxReadFails (w b : Nat) : SameBanks (s.lpxReadFails w b) (d.lpxReadFails w b) := by
  unfold State.lpxReadFails
  rw [h.time]
  exact (h.both (sameBanks_lpxUncorrectable _ _ _) (sameBanks_lpxUncorrectable _ _ _)).modWell w (fun _ => rfl)

end

/-- Two reads give the same bytes and the same mark, and leave the same memories. -/
structure ReadsAlike (p q : Bytes × Bool × State) : Prop where
  bytes : q.1 = p.1
  bad : q.2.1 = p.2.1
  banks : SameBanks p.2.2 q.2.2

theorem SameBanks.bucketRead {s d : State} (h : SameBanks s d) (lp : Bool) (w b kind : Nat) : ReadsAlike (s.bucketRead lp w b kind) (d.bucketRead lp w b kind) := by
  have h1 := h.settleEntry lp w b
  have hc : ((d.settleEntry lp w b).well w).cisBad = ((s.settleEntry lp w b).well w).cisBad := h1.field w (f := Well.cisBad) (fun _ => rfl)
  have hl : ((d.settleEntry lp w b).well w).lpxBad = ((s.settleEntry lp w b).well w).lpxBad := h1.field w (f := Well.lpxBad) (fun _ => rfl)
  obtain ⟨hb, hr⟩ := h1.bankRead lp w b
  unfold State.bucketRead
  dsimp only
  rw [hc, hl]
  split
  · split
    · exact ⟨hb, rfl, hr.lpxReadFails w b⟩
    · exact ⟨hb, rfl, hr⟩
  · split
    · exact ⟨hb, rfl, hr.both (sameBanks_cisUncorrectable _ _ _ _) (sameBanks_cisUncorrectable _ _ _ _)⟩
    · exact ⟨hb, rfl, hr⟩

theorem SameBanks.readBuckets {s d : State} (h : SameBanks s d) (kind n addr : Nat) : ReadsAlike (s.readBuckets kind n addr) (d.readBuckets kind n addr) := by
  induction n generalizing s d addr with
  | zero => exact ⟨rfl, rfl, h⟩
  | succ n ih =>
    unfold State.readBuckets
    split
    · rename_i lp w o _
      obtain ⟨hb, hf, hs⟩ := h.bucketRead lp w (o / 64) kind
      obtain ⟨ib, jf, js⟩ := ih hs (addr + 64)
      exact ⟨by simp only [hb, ib], by simp only [hf, jf], js⟩
    · obtain ⟨ib, jf, js⟩ := ih h (addr + 64)
      exact ⟨by simp only [ib], jf, js⟩

theorem SameBanks.devRead {s d : State} (h : SameBanks s d) (kind addr len : Nat) : ReadsAlike (s.devRead kind addr len) (d.devRead kind addr len) := by
  obtain ⟨hb, hf, hs⟩ := h.readBuckets kind (bucketsOf addr len) (addr / 64 * 64)
  exact ⟨by simp only [State.devRead, hb], hf, hs⟩

end Sys2Proof.Machine

namespace Sys2Proof.Machine

open Sys2Proof

/-! ## What the access check depends on (R512) -/

/-- Two states answer every access check alike: tables, roots, owners, partitions, and which wells are in service with a key. -/
structure SameGate (s d : State) : Prop where
  tables : d.access.tables = s.access.tables
  roots : d.rootsOk = s.rootsOk
  votes : ∀ w, d.ownerVote w = s.ownerVote w
  parts : d.parts = s.parts
  service : ∀ w, (d.well w).inService = (s.well w).inService
  key : ∀ w, (d.well w).lpxKey = (s.well w).lpxKey

theorem SameGate.refl (s : State) : SameGate s s := ⟨rfl, rfl, fun _ => rfl, rfl, fun _ => rfl, fun _ => rfl⟩

theorem SameGate.symm {s d : State} (h : SameGate s d) : SameGate d s :=
  ⟨h.tables.symm, h.roots.symm, fun w => (h.votes w).symm, h.parts.symm, fun w => (h.service w).symm, fun w => (h.key w).symm⟩

theorem SameGate.trans {s d e : State} (h : SameGate s d) (k : SameGate d e) : SameGate s e :=
  ⟨k.tables.trans h.tables, k.roots.trans h.roots, fun w => (k.votes w).trans (h.votes w), k.parts.trans h.parts,
    fun w => (k.service w).trans (h.service w), fun w => (k.key w).trans (h.key w)⟩

theorem sameGate_of_access {s d : State} (ha : d.access = s.access) (hp : d.parts = s.parts) (hs : ∀ w, (d.well w).inService = (s.well w).inService)
    (hk : ∀ w, (d.well w).lpxKey = (s.well w).lpxKey) : SameGate s d :=
  ⟨by rw [ha], by rw [State.rootsOk, ha, State.rootsOk], fun w => by rw [State.ownerVote, ha, State.ownerVote], hp, hs, hk⟩

section
variable {s d : State} (h : SameGate s d)
include h

theorem SameGate.owner (w : Nat) : d.owner w = s.owner w := by rw [State.owner, h.votes, State.owner]

theorem SameGate.part (p : Nat) : d.part p = s.part p := by rw [State.part, h.parts, State.part]

theorem SameGate.rankOf (w : Nat) : d.rankOf w = s.rankOf w := by simp only [State.rankOf, h.owner]

theorem SameGate.tileMaster (t : TileRef) : d.tileMaster t = s.tileMaster t := by rw [State.tileMaster, h.owner, State.tileMaster]

theorem SameGate.tableRefuses (m : Master) (target : Nat) (well : Option Nat) (need : Nat) : d.tableRefuses m target well need = s.tableRefuses m target well need := by
  have he : d.entry target m.tag m.cls = s.entry target m.tag m.cls := by rw [State.entry, h.tables, State.entry]
  cases well with
  | none => simp only [State.tableRefuses, h.roots, he]
  | some w => simp only [State.tableRefuses, h.roots, h.votes, he]

theorem SameGate.rangeRefuses (m : Master) (w tgt bucket : Nat) (writes : Bool) : d.rangeRefuses m w tgt bucket writes = s.rangeRefuses m w tgt bucket writes := by
  have ha : d.armedRanges w = s.armedRanges w := by simp only [State.armedRanges, h.owner, h.part, h.rankOf, State.round]
  have hi : d.imageArea w = s.imageArea w := by simp only [State.imageArea, h.owner, h.part, h.rankOf]
  rw [State.rangeRefuses, ha, hi, State.rangeRefuses]

theorem SameGate.refuses (m : Master) (addr need : Nat) : d.refuses m addr need = s.refuses m addr need := by
  simp only [State.refuses, h.service, h.tableRefuses, h.rangeRefuses, h.key]

theorem SameGate.refusesRange (m : Master) (need n addr : Nat) : d.refusesRange m need n addr = s.refusesRange m need n addr := by
  induction n generalizing addr with
  | zero => rfl
  | succ n ih => rw [State.refusesRange, h.refuses, ih, State.refusesRange]

end

/-! ## Votes keep what they decide (R39) -/

/-- Copies that are as they were or as the vote repairs them have the same majority. -/
theorem vote_repaired {α : Type} [DecidableEq α] (l : List α) (d : α) {a b c : α} (ha : a = l.getD 0 d ∨ a = (votedCopies l d).1.getD 0 d)
    (hb : b = l.getD 1 d ∨ b = (votedCopies l d).1.getD 1 d) (hc : c = l.getD 2 d ∨ c = (votedCopies l d).1.getD 2 d) :
    vote a b c = vote (l.getD 0 d) (l.getD 1 d) (l.getD 2 d) := by
  unfold votedCopies at ha hb hc
  dsimp only at ha hb hc
  generalize l.getD 0 d = x at *
  generalize l.getD 1 d = y at *
  generalize l.getD 2 d = z at *
  by_cases h1 : x = y
  · subst h1
    by_cases h2 : x = z
    · subst h2
      simp only [if_true, List.getD_cons_zero, List.getD_cons_succ, or_self] at ha hb hc
      rw [ha, hb, hc]
    · simp only [h2, if_true, if_false, List.getD_cons_zero, List.getD_cons_succ, or_self] at ha hb
      rw [ha, hb]
      simp [vote]
  · by_cases h2 : y = z
    · subst h2
      simp only [h1, if_true, if_false, List.getD_cons_zero, List.getD_cons_succ, or_self] at ha hb hc
      rw [hb, hc]
      rcases ha with rfl | rfl <;> simp [vote, h1]
    · by_cases h3 : x = z
      · subst h3
        simp only [h1, h2, if_true, if_false, List.getD_cons_zero, List.getD_cons_succ, or_self] at ha hb hc
        rw [ha, hc]
        rcases hb with rfl | rfl <;> simp [vote, h1]
      · simp only [h1, h2, h3, if_false, List.getD_cons_zero, List.getD_cons_succ, or_self] at ha hb hc
        rw [ha, hb, hc]

theorem length_votedCopies {α : Type} [DecidableEq α] (l : List α) (d : α) : (votedCopies l d).1.length = 3 := by
  unfold votedCopies
  dsimp only
  (repeat' split) <;> rfl

theorem sameGate_tripleEvent (s : State) (part ident : Nat) (fixed : Option Nat) : SameGate s (s.tripleEvent part ident fixed) := by
  unfold State.tripleEvent
  split
  · exact sameGate_of_access (by rw [State.raise_eq]) (by rw [State.raise_eq]) (fun w => by rw [State.raise_well]) (fun w => by rw [State.raise_well])
  · exact SameGate.refl _

/-- The vote of the roots decides after their repair as before. -/
theorem sameGate_repairRoots (s : State) : SameGate s s.repairRoots := by
  unfold State.repairRoots
  split
  · exact SameGate.refl _
  · dsimp only
    refine SameGate.trans ?_ (sameGate_tripleEvent _ _ _ _)
    refine ⟨rfl, ?_, fun _ => rfl, rfl, fun _ => rfl, fun _ => rfl⟩
    show (vote _ _ _).isSome = (vote _ _ _).isSome
    rw [vote_repaired s.access.roots 0 (Or.inr rfl) (Or.inr rfl) (Or.inr rfl)]

/-- A copy of the owners with one entry rewritten. -/
theorem getD_rewritten (owners : List (List Nat)) (copies : List Nat) (w v i : Nat) (hi : i < copies.length) :
    ((((owners.zip copies).map (fun e => updAt e.1 w (fun _ => e.2))).getD i []).getD v 0x1F = (owners.getD i []).getD v 0x1F) ∨
      v = w ∧ (((owners.zip copies).map (fun e => updAt e.1 w (fun _ => e.2))).getD i []).getD v 0x1F = copies.getD i 0x1F := by
  rw [List.getD_eq_getElem?_getD (l := List.map _ _), List.getElem?_map, List.zip, List.getElem?_zipWith, List.getElem?_eq_getElem hi]
  by_cases ho : i < owners.length
  · rw [List.getElem?_eq_getElem ho, List.getD_eq_getElem _ _ ho, List.getD_eq_getElem _ _ hi]
    show (updAt _ _ _).getD v 0x1F = _ ∨ v = w ∧ (updAt _ _ _).getD v 0x1F = _
    rw [updAt_getD]
    split
    · rename_i h
      exact Or.inr ⟨h.1, rfl⟩
    · exact Or.inl rfl
  · rw [List.getElem?_eq_none (l := owners) (by omega), List.getD_eq_default owners _ (by omega)]
    exact Or.inl rfl

/-- The vote of an owner decides after a repair as before. -/
theorem sameGate_repairOwner (s : State) (w : Nat) : SameGate s (s.repairOwner w) := by
  unfold State.repairOwner
  split
  · exact SameGate.refl _
  · dsimp only
    refine SameGate.trans ?_ (sameGate_tripleEvent _ _ _ _)
    refine ⟨rfl, rfl, fun v => ?_, rfl, fun _ => rfl, fun _ => rfl⟩
    have hcopy : ∀ i, i < 3 → _ := fun i hi => getD_rewritten s.access.owners (votedCopies (s.access.owners.map (fun l => l.getD w 0x1F)) 0x1F).1 w v i
      (by rw [length_votedCopies]; exact hi)
    by_cases hv : v = w
    · subst hv
      have hold : ∀ i, (s.access.owners.map (fun l => l.getD v 0x1F)).getD i 0x1F = (s.access.owners.getD i []).getD v 0x1F := fun i =>
        List.getD_map s.access.owners (d := []) (fun l => l.getD v 0x1F)
      have h := vote_repaired (s.access.owners.map (fun l => l.getD v 0x1F)) 0x1F ((hcopy 0 (by omega)).imp (·.trans (hold 0).symm) And.right)
        ((hcopy 1 (by omega)).imp (·.trans (hold 1).symm) And.right) ((hcopy 2 (by omega)).imp (·.trans (hold 2).symm) And.right)
      rw [hold, hold, hold] at h
      exact h
    · have hcopy' := fun i hi => (hcopy i hi).resolve_right (fun h => hv h.1)
      show vote _ _ _ = vote _ _ _
      rw [hcopy' 0 (by omega), hcopy' 1 (by omega), hcopy' 2 (by omega)]

theorem sameGate_votesFor (s : State) (addr : Nat) : SameGate s (s.votesFor addr) := by
  unfold State.votesFor
  split
  · split
    · exact (sameGate_repairRoots s).trans (sameGate_repairOwner _ _)
    · exact sameGate_repairRoots s
    · exact SameGate.refl _
  · exact (sameGate_repairRoots s).trans (sameGate_repairOwner _ _)
  · exact (sameGate_repairRoots s).trans (sameGate_repairOwner _ _)
  · exact SameGate.refl _

/-- States with the same gate answer a check alike. -/
theorem SameGate.check {s d : State} (h : SameGate s d) (m : Master) (addr len need : Nat) : (d.check m addr len need).1 = (s.check m addr len need).1 := by
  have hv : SameGate (s.votesFor addr) (d.votesFor addr) := (sameGate_votesFor s addr).symm.trans (h.trans (sameGate_votesFor d addr))
  unfold State.check
  dsimp only
  rw [hv.refusesRange]
  split <;> rfl

end Sys2Proof.Machine

namespace Sys2Proof.Machine

open Sys2Proof

/-! ## What an access to memory leaves alone -/

/-- The offsets of the counters and records that the memories of a well keep (R232, R252, R256). -/
def MemRecord (x : Nat) : Prop := 0x1000000 ≤ x ∧ x % 0x10000 < 0x100

/-- An access to the memories: tiles, the access check, and every register but the memories' own and the log's drop counter are as before. -/
structure MemScope (s d : State) : Prop where
  looms : d.looms = s.looms
  regs : ∀ x, ¬ MemRecord x → x ≠ logBase + 4 → d.reg x = s.reg x
  gate : SameGate s d

theorem MemScope.refl (s : State) : MemScope s s := ⟨rfl, fun _ _ _ => rfl, SameGate.refl s⟩

theorem MemScope.trans {s d e : State} (h : MemScope s d) (k : MemScope d e) : MemScope s e :=
  ⟨k.looms.trans h.looms, fun x hx hl => (k.regs x hx hl).trans (h.regs x hx hl), h.gate.trans k.gate⟩

/-- A change of registers of the wells, and of what no check reads. -/
theorem memScope_of_wells {s d : State} (hw : d.wells = s.wells) (ha : d.access = s.access) (hp : d.parts = s.parts)
    (hr : ∀ x, ¬ MemRecord x → x ≠ logBase + 4 → d.reg x = s.reg x) : MemScope s d :=
  ⟨looms_of_wells hw, hr, sameGate_of_access ha hp (fun w => by rw [State.well, hw, State.well]) (fun w => by rw [State.well, hw, State.well])⟩

theorem memScope_modWell (s : State) (w : Nat) {f : Well → Well} (ht : ∀ x, (f x).tiles = x.tiles) (hs : ∀ x, (f x).inService = x.inService)
    (hk : ∀ x, (f x).lpxKey = x.lpxKey) : MemScope s (s.modWell w f) := by
  refine ⟨looms_modWell s w ht, fun _ _ _ => rfl, sameGate_of_access rfl rfl (fun v => ?_) (fun v => ?_)⟩ <;> rw [State.well_modWell] <;> split
  · rename_i h
    rw [hs, h.1]
  · rfl
  · rename_i h
    rw [hk, h.1]
  · rfl

theorem memScope_count (s : State) {x : Nat} (hx : MemRecord x) : MemScope s (s.count x) :=
  memScope_of_wells (State.count_wells _ _) (State.count_access _ _) (State.count_parts _ _) (fun y hy _ => by rw [State.reg_count, if_neg (by rintro rfl; exact hy hx)])

theorem memScope_setRecord (s : State) {x : Nat} (v : Nat) (hx : MemRecord x) : MemScope s (s.setRecord x v) :=
  memScope_of_wells (State.setRecord_wells _ _ _) (State.setRecord_access _ _ _) (State.setRecord_parts _ _ _)
    (fun y hy _ => by rw [State.reg_setRecord, if_neg (by rintro rfl; exact hy hx)])

theorem memScope_setReg64 (s : State) {x : Nat} (v : Nat) (hx : MemRecord x) (hx4 : MemRecord (x + 4)) : MemScope s (s.setReg64 x v) :=
  memScope_of_wells (State.setReg64_wells _ _ _) (State.setReg64_access _ _ _) (State.setReg64_parts _ _ _)
    (fun y hy _ => by rw [State.setReg64, State.reg_setReg_ne _ _ _ _ (by rintro rfl; exact hy hx4), State.reg_setReg_ne _ _ _ _ (by rintro rfl; exact hy hx)])

theorem memScope_raise (s : State) (code part src : Nat) (l : List (Nat × Nat)) : MemScope s (s.raise code part src l) :=
  memScope_of_wells (State.raise_wells _ _ _ _ _) (by rw [State.raise_eq]) (by rw [State.raise_eq]) (fun y _ hl => State.reg_raise _ _ _ _ _ _ hl)

theorem memRecord_of_lt (w : Nat) {o : Nat} (h : o < 0x100) : MemRecord (cisBase w + o) ∧ MemRecord (lpxBase w + o) := by
  unfold MemRecord cisBase lpxBase wellBase
  omega

theorem memScope_cisUncorrectable (s : State) (w b kind : Nat) : MemScope s (s.cisUncorrectable w b kind) :=
  ((memScope_count s (memRecord_of_lt w (by omega)).1).trans (memScope_setRecord _ _ (memRecord_of_lt w (by omega)).1)).trans (memScope_raise _ _ _ _ _)

theorem memScope_lpxUncorrectable (s : State) (w b : Nat) : MemScope s (s.lpxUncorrectable w b) :=
  ((memScope_count s (memRecord_of_lt w (by omega)).2).trans
    (memScope_setReg64 _ _ (memRecord_of_lt w (by omega)).2 (memRecord_of_lt w (o := 0x1C) (by omega)).2)).trans (memScope_raise _ _ _ _ _)

theorem memScope_bankRead (s : State) (lp : Bool) (w b : Nat) : MemScope s (s.bankRead lp w b).2 := by
  unfold State.bankRead
  split
  · exact MemScope.refl s
  · split
    · exact MemScope.refl s
    · exact memScope_of_wells rfl rfl rfl (fun _ _ _ => rfl)

theorem memScope_putBucket (s : State) (lp : Bool) (w b : Nat) (data : Bytes) : MemScope s (s.putBucket lp w b data) :=
  memScope_modWell s w (fun x => by cases lp <;> rfl) (fun x => by cases lp <;> rfl) (fun x => by cases lp <;> rfl)

theorem memScope_setEntries (s : State) (lp : Bool) (w : Nat) (l : Well → List MergeEntry) : MemScope s (s.modWell w (fun x => x.setEntries lp (l x))) :=
  memScope_modWell s w (fun x => by cases lp <;> rfl) (fun x => by cases lp <;> rfl) (fun x => by cases lp <;> rfl)

theorem memScope_writeBack (s : State) (lp : Bool) (w : Nat) (e : MergeEntry) : MemScope s (s.writeBack lp w e) := by
  have hx : MemRecord (if lp = true then lpxBase w + 0x10 else cisBase w + 0x10) := by
    split
    · exact (memRecord_of_lt w (by omega)).2
    · exact (memRecord_of_lt w (by omega)).1
  have h1 := (memScope_bankRead s lp w e.bucket).trans (memScope_count _ hx)
  unfold State.writeBack
  dsimp only
  split
  · exact ((h1.trans (memScope_cisUncorrectable _ _ _ _)).trans (memScope_putBucket _ _ _ _ _)).trans
      (memScope_modWell _ w (fun _ => rfl) (fun _ => rfl) (fun _ => rfl))
  · exact h1.trans (memScope_putBucket _ _ _ _ _)

theorem memScope_settleEntry (s : State) (lp : Bool) (w b : Nat) : MemScope s (s.settleEntry lp w b) := by
  unfold State.settleEntry
  split
  · exact memScope_writeBack _ _ _ _
  · exact MemScope.refl s

theorem memScope_bucketRead (s : State) (lp : Bool) (w b kind : Nat) : MemScope s (s.bucketRead lp w b kind).2.2 := by
  have h := (memScope_settleEntry s lp w b).trans (memScope_bankRead _ lp w b)
  unfold State.bucketRead
  dsimp only
  split
  · split
    · exact (h.trans (memScope_lpxUncorrectable _ _ _)).trans (memScope_modWell _ w (fun _ => rfl) (fun _ => rfl) (fun _ => rfl))
    · exact h
  · split
    · exact h.trans (memScope_cisUncorrectable _ _ _ _)
    · exact h

theorem memScope_readBuckets (s : State) (kind n addr : Nat) : MemScope s (s.readBuckets kind n addr).2.2 := by
  induction n generalizing s addr with
  | zero => exact MemScope.refl s
  | succ n ih =>
    unfold State.readBuckets
    split
    · exact (memScope_bucketRead s _ _ _ _).trans (ih _ _)
    · exact ih _ _

theorem memScope_devRead (s : State) (kind addr len : Nat) : MemScope s (s.devRead kind addr len).2.2 := memScope_readBuckets _ _ _ _

theorem memScope_partialWrite (s : State) (lp : Bool) (w b off : Nat) (bs : Bytes) : MemScope s (s.partialWrite lp w b off bs) := by
  unfold State.partialWrite
  dsimp only
  split
  · split
    · exact memScope_putBucket _ _ _ _ _
    · exact memScope_setEntries s lp w (fun _ => _)
  · split
    · split
      · exact (memScope_writeBack s lp w _).trans (memScope_setEntries _ lp w (fun x => x.entriesOf lp ++ _))
      · exact memScope_setEntries s lp w (fun x => x.entriesOf lp ++ _)
    · exact memScope_setEntries s lp w (fun x => x.entriesOf lp ++ _)

theorem memScope_bucketWrite (s : State) (lp : Bool) (w b off : Nat) (bs : Bytes) : MemScope s (s.bucketWrite lp w b off bs) := by
  unfold State.bucketWrite
  split
  · exact memScope_putBucket _ _ _ _ _
  · split
    · exact MemScope.refl s
    · exact memScope_partialWrite _ _ _ _ _ _

theorem memScope_devWriteAux (s : State) (n addr : Nat) (bs : Bytes) : MemScope s (s.devWriteAux n addr bs) := by
  induction n generalizing s addr bs with
  | zero => exact MemScope.refl s
  | succ n ih =>
    unfold State.devWriteAux
    dsimp only
    split
    · exact (memScope_bucketWrite s _ _ _ _ _).trans (ih _ _ _)
    · exact ih _ _ _

theorem memScope_devWrite (s : State) (addr : Nat) (bs : Bytes) : MemScope s (s.devWrite addr bs) := memScope_devWriteAux _ _ _ _

/-! ## The votes of a check -/

theorem reg_votesFor (s : State) (addr : Nat) {x : Nat} (h : x ≠ logBase + 4) : (s.votesFor addr).reg x = s.reg x := by
  have hbase : ∀ w, w = 0 ∨ w = 1 → cisBase w = 0x1030000 + 0x100000 * w := by intro w _; unfold cisBase wellBase; omega
  by_cases hx : x ∈ [cisBase 0 + 0x10, cisBase 0 + 8, cisBase 0 + 0x18, logBase + 4]
  · refine (bankScope_votesFor s 1 addr).regs x (fun hc => ?_)
    simp only [List.mem_cons, List.not_mem_nil, or_false, hbase 0 (Or.inl rfl), hbase 1 (Or.inr rfl)] at hx hc
    omega
  · exact (bankScope_votesFor s 0 addr).regs x hx

theorem sameBanks_votesFor (s : State) (addr : Nat) : SameBanks s (s.votesFor addr) :=
  have hf := (bankScope_votesFor s 0 addr).frame
  sameBanks_of_wells (votesFor_wells _ _) (by rw [hf]) (by rw [hf])

theorem memScope_votesFor (s : State) (addr : Nat) : MemScope s (s.votesFor addr) :=
  ⟨looms_of_wells (votesFor_wells _ _), fun _ _ hl => reg_votesFor s addr hl, sameGate_votesFor s addr⟩

/-- The answer of a check whose verdict is known, when it passes. -/
theorem check_votes {s : State} {m : Master} {addr len need : Nat} {w : State} (h : s.check m addr len need = (none, w)) : w = s.votesFor addr :=
  (congrArg Prod.snd ((check_passes (congrArg Prod.fst h)).symm.trans h)).symm

/-! ## Reads inside one cistern -/

theorem bankScope_bucketRead {s : State} {w : Nat} (b kind : Nat) (hw : w < s.wells.length) : BankScope s (s.bucketRead false w b kind).2.2 w := by
  have h : BankScope s (s.settleEntry false w b) w := by
    unfold State.settleEntry
    split
    · exact (writeBack_settles s _ hw).1
    · exact BankScope.refl s w
  unfold State.bucketRead
  dsimp only
  rw [if_neg (by simp)]
  split
  · exact h.trans (bankScope_cisUncorrectable _ _ _ _)
  · exact h

/-- The end of a cistern is no memory. -/
theorem memoryAt_cistern_end {w : Nat} (hw : w < 24) : memoryAt (cisAddr w (2 ^ 27)) = none := by
  have hp : placeOf (cisAddr w (2 ^ 27)) = .unmapped := by
    unfold placeOf cisAddr
    rw [if_neg (by omega)]
    split
    · dsimp only
      rw [if_neg (by omega)]
    · split
      · omega
      · rfl
  rw [memoryAt, hp]

/-- A read of one bucket at an offset of a cistern, or at its end, touches that well alone. -/
theorem onlyWell_readBucket {s : State} {w o : Nat} (hw : w < s.wells.length) (hw24 : w < 24) (ho : o ≤ 2 ^ 27) : OnlyWell s (s.readBuckets 0 1 (cisAddr w o)).2.2 w := by
  rcases Nat.lt_or_ge o (2 ^ 27) with h | h
  · simp only [State.readBuckets, memoryAt_cisAddr hw24 h]
    exact (bankScope_bucketRead _ _ hw).others
  · simp only [State.readBuckets, show o = 2 ^ 27 by omega, memoryAt_cistern_end hw24]
    exact fun _ _ => rfl

end Sys2Proof.Machine

namespace Sys2Proof.Machine

open Sys2Proof

/-! ## Rows of a calm tile -/

theorem badAt_of_no_errors {x : Tile} (h : x.storeBad = []) (row len : Nat) : x.badAt row len = false := by simp [Tile.badAt, h]

/-- Rows without a write still to come are read as they stand. -/
theorem rowsRead_of_no_flight {s : State} {t : TileRef} (h : (s.tile t).flight = []) (c row n : Nat) : s.rowsRead t c row n = ((s.tile t).rowsAt row (64 * n), s) := by
  simp [State.rowsRead, Tile.pendingWrite, h]

/-- An outbound unit of a calm tile is its two rows. -/
theorem unitData_of_calm {s : State} {t : TileRef} (h : (s.tile t).calm) (i : Issue) (j c : Nat) (k : Bytes → State → Bool × State) :
    s.unitData t i j c k = k ((s.tile t).rowsAt (rowOf i.w.srcA i.w.strideA j) 128) s := by
  obtain ⟨-, hbad, hfl⟩ := h
  simp only [State.unitData, badAt_of_no_errors hbad, rowsRead_of_no_flight hfl, Bool.false_eq_true, if_false]

/-! ## Units that move between a tile and its own cistern -/

/-- The unit of a step on the tile's own cistern has its place there. -/
theorem unitTarget_near {i : Issue} (hop : i.w.opcode ≠ 0x46) (hg : i.w.ext / 2 ^ 29 = 0) (s : State) (t : TileRef) (c : Nat) (out : Bool) :
    s.unitTarget t i 0 c out = some (cisAddr t.well (i.w.ext % 2 ^ 21 * 64)) := by
  simp only [State.unitTarget, State.unitPlace, hg, if_neg hop, State.reaches]
  simp

theorem guarded_refused {s w : State} {t : TileRef} {addr len need : Nat} {st : Status} (h : s.check (s.tileMaster t) addr len need = (some st, w)) (i : Issue)
    (k : State → Bool × State) : s.guarded t i addr len need k = (false, w.accessTrap t i st) := by
  simp only [State.guarded, h]

theorem guarded_passes {s w : State} {t : TileRef} {addr len need : Nat} (h : s.check (s.tileMaster t) addr len need = (none, w)) (i : Issue)
    (k : State → Bool × State) : s.guarded t i addr len need k = k w := by
  simp only [State.guarded, h]

/-! ## Buckets that land in a tile store -/

theorem held_of_memScope {s d : State} (h : MemScope s d) {t : TileRef} (ht : Held s t) : Held d t := held_of_looms h.looms ht

theorem landBucket_good {s : State} {t : TileRef} (h : Held s t) (row : Nat) (bs : Bytes) : (s.landBucket t row bs false).tile t = (s.tile t).putRows row bs :=
  tile_modTile_held h _

theorem tileScope_landBucket (s : State) (t : TileRef) (row : Nat) (bs : Bytes) (bad : Bool) (l : List Nat) : TileScope s (s.landBucket t row bs bad) t l :=
  tileScope_modTile s t _ l

/-- Two good buckets land in their rows. -/
theorem landUnit_tile {s : State} {t : TileRef} {row addr : Nat} (h : Held s t) (ha : (s.readBuckets 0 1 addr).2.1 = false)
    (hb : ((s.readBuckets 0 1 addr).2.2.readBuckets 0 1 (addr + 64)).2.1 = false) :
    (s.landUnit t row addr).tile t =
      ((s.tile t).putRows row (s.readBuckets 0 1 addr).1).putRows ((row + 1) % 16384) ((s.readBuckets 0 1 addr).2.2.readBuckets 0 1 (addr + 64)).1 := by
  unfold State.landUnit
  dsimp only
  rw [ha, hb]
  have hr := (memScope_readBuckets s 0 1 addr).trans (memScope_readBuckets (s.readBuckets 0 1 addr).2.2 0 1 (addr + 64))
  have h1 := held_of_memScope hr h
  rw [landBucket_good ((tileScope_landBucket _ t _ _ _ []).held t h1), landBucket_good h1, tile_of_looms hr.looms]

/-- A unit read from the tile's own cistern touches its well alone. -/
theorem onlyWell_landUnit {s : State} {t : TileRef} {o : Nat} (hw : t.well < s.wells.length) (hw24 : t.well < 24) (ho : o + 64 ≤ 2 ^ 27) (row : Nat) :
    OnlyWell s (s.landUnit t row (cisAddr t.well o)) t.well := by
  intro v hv
  have h1 := onlyWell_readBucket (s := s) (o := o) hw hw24 (by omega) v hv
  have hl : (s.readBuckets 0 1 (cisAddr t.well o)).2.2.wells.length = s.wells.length := by
    simpa [State.looms] using congrArg List.length (memScope_readBuckets s 0 1 (cisAddr t.well o)).looms
  have h2 := onlyWell_readBucket (s := (s.readBuckets 0 1 (cisAddr t.well o)).2.2) (o := o + 64) (by rw [hl]; exact hw) hw24 (by omega) v hv
  rw [show cisAddr t.well (o + 64) = cisAddr t.well o + 64 by unfold cisAddr; omega] at h2
  exact ((tileScope_modTile _ t _ []).wells v hv).trans (((tileScope_modTile _ t _ []).wells v hv).trans (h2.trans h1))

/-! ## LOAD (R200, R214) -/

theorem loadUnit_near {i : Issue} (hop : i.w.opcode ≠ 0x46) (hg : i.w.ext / 2 ^ 29 = 0) (s : State) (t : TileRef) (c : Nat) :
    s.loadUnit t i 0 c = s.guarded t i (cisAddr t.well (i.w.ext % 2 ^ 21 * 64)) 128 1
      (fun v => (true, v.landUnit t (rowOf i.w.dst i.w.strideD 0) (cisAddr t.well (i.w.ext % 2 ^ 21 * 64)))) := by
  simp only [State.loadUnit, hg, unitTarget_near hop hg]
  rfl

/-- A LOAD of one unit from the tile's cistern, whose access passes, lands the two buckets in its rows. -/
theorem load_lands {u w : State} {t : TileRef} {i : Issue} {c : Nat} (rows : Nat → Nat × Nat × Bool) (hh : Held u t) (hop : i.w.opcode ≠ 0x46)
    (hg : i.w.ext / 2 ^ 29 = 0) (hc : slotCycles ((u.tile t).patterns.getD i.w.pattern []) i.at_ 1 = [c])
    (hk : u.check (u.tileMaster t) (cisAddr t.well (i.w.ext % 2 ^ 21 * 64)) 128 1 = (none, w)) :
    let a := u.readBuckets 0 1 (cisAddr t.well (i.w.ext % 2 ^ 21 * 64))
    let b := a.2.2.readBuckets 0 1 (cisAddr t.well (i.w.ext % 2 ^ 21 * 64) + 64)
    let v := u.runTransfer t i 1 rows (fun j c s => s.loadUnit t i j c)
    a.2.1 = false → b.2.1 = false → rowOf i.w.dst i.w.strideD 0 < 16383 →
      (v.tile t).store = (((u.tile t).putRows (rowOf i.w.dst i.w.strideD 0) a.1).putRows (rowOf i.w.dst i.w.strideD 0 + 1) b.1).store ∧ OnlyWell u v t.well := by
  intro a b v ha hb hrow
  have hv := check_votes hk
  have hm := runTransfer_one_moves rows hc (f := fun j c s => s.loadUnit t i j c) (by
    show u.loadUnit t i 0 c = _
    rw [loadUnit_near hop hg, guarded_passes hk])
  have hsc : MemScope u w := by rw [hv]; exact memScope_votesFor u _
  have hw := held_of_memScope hsc hh
  obtain ⟨ab, af, as⟩ := (show SameBanks u w by rw [hv]; exact sameBanks_votesFor u _).readBuckets 0 1 (cisAddr t.well (i.w.ext % 2 ^ 21 * 64))
  obtain ⟨bb, bf, -⟩ := as.readBuckets 0 1 (cisAddr t.well (i.w.ext % 2 ^ 21 * 64) + 64)
  have hland := landUnit_tile (row := rowOf i.w.dst i.w.strideD 0) hw (af.trans ha) (bf.trans hb)
  have hscope : Held (w.landUnit t (rowOf i.w.dst i.w.strideD 0) (cisAddr t.well (i.w.ext % 2 ^ 21 * 64))) t :=
    (tileScope_modTile _ t _ []).held t ((tileScope_modTile _ t _ []).held t
      (held_of_memScope ((memScope_readBuckets w 0 1 _).trans (memScope_readBuckets _ 0 1 _)) hw))
  obtain ⟨fl, bs, n, htile⟩ := hm.tile hscope
  refine ⟨?_, fun x hx => ?_⟩
  · rw [htile, hland, ab, bb, tile_of_looms hsc.looms, Nat.mod_eq_of_lt (show rowOf i.w.dst i.w.strideD 0 + 1 < 16384 by omega)]
  · have hwells : w.well x = u.well x := by rw [hv, State.well, votesFor_wells, State.well]
    have hext : i.w.ext % 2 ^ 21 < 2 ^ 21 := Nat.mod_lt _ (by omega)
    exact (hm.scope.wells x hx).trans ((onlyWell_landUnit hw.2.2.1 hw.1 (by omega) _ x hx).trans hwells)

/-! ## STORE (R214) -/

/-- What a well's cistern shows does not depend on its tiles. -/
theorem seen_of_untiled {x y : Well} (h : x.untiled = y.untiled) (a : Nat) : x.seen a = y.seen a :=
  show x.untiled.seen a = y.untiled.seen a by rw [h]

theorem sendUnit_near {s : State} {t : TileRef} {i : Issue} (hop : i.w.opcode ≠ 0x46) (hg : i.w.ext / 2 ^ 29 = 0) (hm : (s.tile t).mute = false) (c : Nat) (data : Bytes) :
    s.sendUnit t i 0 c data = s.guarded t i (cisAddr t.well (i.w.ext % 2 ^ 21 * 64)) 128 2
      (fun v => (true, v.devWrite (cisAddr t.well (i.w.ext % 2 ^ 21 * 64)) data)) := by
  simp only [State.sendUnit, hm, hg, unitTarget_near hop hg]
  rfl

/-- A STORE of one unit to the tile's cistern, whose access passes, writes its two rows there. -/
theorem store_writes {u w : State} {t : TileRef} {i : Issue} {c : Nat} (rows : Nat → Nat × Nat × Bool) (hh : Held u t) (hop : i.w.opcode ≠ 0x46)
    (hg : i.w.ext / 2 ^ 29 = 0) (hc : slotCycles ((u.tile t).patterns.getD i.w.pattern []) i.at_ 1 = [c]) (hfit : i.w.ext % 2 ^ 21 + 2 ≤ 2 ^ 21)
    (hcalm : (u.tile t).calm) (hmute : (u.tile t).mute = false) (hok : (u.well t.well).cisOk)
    (hk : u.check (u.tileMaster t) (cisAddr t.well (i.w.ext % 2 ^ 21 * 64)) 128 2 = (none, w)) :
    let data := (u.tile t).rowsAt (rowOf i.w.srcA i.w.strideA 0) 128
    let v := u.runTransfer t i 1 rows (fun j c s => s.unitData t i j c (fun d y => y.sendUnit t i j c d))
    (∀ a, (v.well t.well).seen a = if i.w.ext % 2 ^ 21 * 64 ≤ a ∧ a < i.w.ext % 2 ^ 21 * 64 + 128 then data.getD (a - i.w.ext % 2 ^ 21 * 64) 0 else
      (u.well t.well).seen a) ∧ (v.tile t).store = (u.tile t).store ∧ OnlyWell u v t.well := by
  intro data v
  have hv := check_votes hk
  have hm := runTransfer_one_moves rows hc (f := fun j c s => s.unitData t i j c (fun d y => y.sendUnit t i j c d)) (by
    show u.unitData t i 0 c (fun d y => y.sendUnit t i 0 c d) = _
    rw [unitData_of_calm hcalm, sendUnit_near hop hg hmute, guarded_passes hk])
  have hlen : data.length = 128 := by simp [data, Tile.rowsAt, memRead]
  have hsc : MemScope u w := by rw [hv]; exact memScope_votesFor u _
  have hw := held_of_memScope hsc hh
  have hwells : ∀ x, w.well x = u.well x := fun x => by rw [hv, State.well, votesFor_wells, State.well]
  have hwr := writesCis_devWrite (s := w) (bs := data) (o := i.w.ext % 2 ^ 21 * 64) hw.2.2.1 hw.1 (by rw [hwells]; exact hok) (by omega)
  have hdw := memScope_devWrite w (cisAddr t.well (i.w.ext % 2 ^ 21 * 64)) data
  obtain ⟨fl, bs, n, htile⟩ := hm.tile (held_of_memScope hdw hw)
  refine ⟨fun a => ?_, ?_, fun x hx => ?_⟩
  · have hseen := hwr.seen a
    rw [hlen, hwells] at hseen
    exact (seen_of_untiled (hm.scope.untiled t.well) a).trans hseen
  · rw [htile, tile_of_looms hdw.looms, tile_of_looms hsc.looms]
  · exact (hm.scope.wells x hx).trans ((hwr.scope.others x hx).trans (hwells x))

end Sys2Proof.Machine

namespace Sys2Proof.Machine

open Sys2Proof

/-! ## PUMP (R241) -/

theorem State.pump_modPump (s : State) (p q : PumpRef) (f : Pump → Pump) :
    (s.modPump p f).pump q = if q = p ∧ p.well < s.wells.length ∧ p.pump < (s.well p.well).pumps.length then f (s.pump p) else s.pump q := by
  obtain ⟨w, k⟩ := p
  obtain ⟨v, j⟩ := q
  simp only [State.pump, State.modPump, State.well_modWell, PumpRef.mk.injEq]
  by_cases h : v = w ∧ w < s.wells.length
  · obtain ⟨rfl, h⟩ := h
    rw [if_pos ⟨rfl, h⟩, updAt_getD]
    by_cases hk : j = k ∧ k < (s.well v).pumps.length
    · rw [if_pos hk, if_pos ⟨⟨rfl, hk.1⟩, h, hk.2⟩]
    · rw [if_neg hk, if_neg (fun hc => hk ⟨hc.1.2, hc.2.2⟩)]
  · rw [if_neg h, if_neg (fun hc => h ⟨hc.1.1, hc.2.1⟩)]

theorem looms_modPump (s : State) (p : PumpRef) (f : Pump → Pump) : (s.modPump p f).looms = s.looms := looms_modWell s p.well (fun _ => rfl)

/-- The units that have crossed to a well do not depend on its tiles. -/
theorem crossed_of_untiled {x y : Well} (h : x.untiled = y.untiled) : x.crossed = y.crossed :=
  show x.untiled.crossed = y.untiled.crossed by rw [h]

/-- The pumps of a well do not depend on its tiles. -/
theorem pump_of_untiled {s d : State} (h : ∀ w, (d.well w).untiled = (s.well w).untiled) (p : PumpRef) : d.pump p = s.pump p := by
  show ((d.well p.well).untiled.pumps.getD p.pump {}) = ((s.well p.well).untiled.pumps.getD p.pump {})
  rw [h]

/-- The pump of a bucket depends on registers of the wells alone (R241). -/
theorem pumpOf_of_regs {s d : State} (h : ∀ x, x ≠ logBase + 4 → d.reg x = s.reg x) (w b : Nat) : d.pumpOf w b = s.pumpOf w b := by
  have hr : ∀ o i, d.reg (cisBase w + o + i) = s.reg (cisBase w + o + i) := fun o i => h _ (by unfold cisBase wellBase logBase; omega)
  have ht : d.turnAt w b = s.turnAt w b := by simp only [State.turnAt, hr]
  rw [State.pumpOf, State.bankOf, ht, State.pumpOf, State.bankOf]

/-- A unit of a pump stream that is not refused crosses the interface. -/
theorem pumpUnit_passes {u : State} {t : TileRef} {i : Issue} (hs : (u.well t.well).inService = true)
    (hr : u.tableRefuses (u.tileMaster t) (4 * t.well + 2) (some t.well) 2 = none) (data : Bytes) :
    u.pumpUnit t i 0 data = (true, (u.votesFor (cisAddr t.well (i.w.ext % 2 ^ 21 * 64))).cross t.well i.w.op2 i.w.prime (i.w.ext % 2 ^ 21) t.tile data) := by
  have hg := sameGate_votesFor u (cisAddr t.well (i.w.ext % 2 ^ 21 * 64))
  unfold State.pumpUnit
  simp only [Nat.mul_zero, Nat.add_zero, hg.service, hs, hg.tableRefuses, hr]
  rfl

/-- A unit that is no ZERO unit goes to the pump of its accumulator bucket; a pump that runs queues it. -/
theorem cross_enqueues {s : State} {w op aux b tile : Nat} {data : Bytes} (hk : op / 16 % 16 ≠ 8) (hw : w < s.wells.length)
    (hp : s.pumpOf w b < (s.well w).pumps.length) (hh : (s.pump ⟨w, s.pumpOf w b⟩).halted = false) :
    let e : PumpUnit := ⟨op, aux, b, data, tile, (s.well w).crossed, (s.tile ⟨w, tile⟩).serving⟩
    let v := s.cross w op aux b tile data
    v.looms = s.looms ∧ (v.well w).crossed = (s.well w).crossed + 1 ∧ (v.pump ⟨w, s.pumpOf w b⟩).queue = (s.pump ⟨w, s.pumpOf w b⟩).queue ++ [e] ∧
      ∀ q : PumpRef, q ≠ ⟨w, s.pumpOf w b⟩ → v.pump q = s.pump q := by
  intro e v
  let f : Well → Well := fun x => { x with crossed := x.crossed + 1 }
  have hwell : ∀ x, (s.modWell w f).well x = if x = w then f (s.well w) else s.well x := fun x => by
    rw [State.well_modWell]
    simp [hw]
  have hpump : ∀ q, (s.modWell w f).pump q = s.pump q := fun q => by
    rw [State.pump, hwell]
    split
    · rename_i h
      rw [State.pump, h]
    · rfl
  have hv : v = (s.modWell w f).modPump ⟨w, s.pumpOf w b⟩ (fun x => { x with queue := x.queue ++ [e] }) := by
    show s.cross w op aux b tile data = _
    have hq : (s.modWell w f).pumpOf w b = s.pumpOf w b := rfl
    show (if op / 16 % 16 = 8 then _ else _) = _
    rw [if_neg hk]
    show (s.modWell w f).enqueue ⟨w, (s.modWell w f).pumpOf w b⟩ e = _
    rw [hq, State.enqueue, hpump, hh]
    rfl
  have hlen : (s.modWell w f).wells.length = s.wells.length := updAt_length _ _ _
  rw [hv]
  refine ⟨(looms_modPump _ _ _).trans (looms_modWell s w (fun _ => rfl)), ?_, ?_, fun q hq => ?_⟩
  · rw [State.modPump, State.well_modWell, if_pos ⟨rfl, by rw [hlen]; exact hw⟩, hwell, if_pos rfl]
  · rw [State.pump_modPump, if_pos ⟨rfl, by rw [hlen]; exact hw, by rw [hwell, if_pos rfl]; exact hp⟩, hpump]
  · rw [State.pump_modPump, if_neg (fun h => hq h.1), hpump]

/-- A PUMP of one unit hands its two rows to the pump of its bucket. -/
theorem pump_hands {u : State} {t : TileRef} {i : Issue} {c : Nat} (rows : Nat → Nat × Nat × Bool) (hh : Held u t)
    (hc : slotCycles ((u.tile t).patterns.getD i.w.pattern []) i.at_ 1 = [c]) (hcalm : (u.tile t).calm) (hs : (u.well t.well).inService = true)
    (hk : i.w.op2 / 16 % 16 ≠ 8) (hr : u.tableRefuses (u.tileMaster t) (4 * t.well + 2) (some t.well) 2 = none) :
    let b := i.w.ext % 2 ^ 21
    let data := (u.tile t).rowsAt (rowOf i.w.srcA i.w.strideA 0) 128
    let e : PumpUnit := ⟨i.w.op2, i.w.prime, b, data, t.tile, (u.well t.well).crossed, (u.tile t).serving⟩
    let p : PumpRef := ⟨t.well, u.pumpOf t.well b⟩
    let v := u.runTransfer t i 1 rows (fun j c s => s.unitData t i j c (fun d y => y.pumpUnit t i j d))
    p.pump < (u.well t.well).pumps.length → (u.pump p).halted = false →
      (v.well t.well).crossed = (u.well t.well).crossed + 1 ∧ (v.pump p).queue = (u.pump p).queue ++ [e] ∧ (∀ q : PumpRef, q ≠ p → v.pump q = u.pump q) ∧
        (v.tile t).store = (u.tile t).store := by
  intro b data e p v hp hhalt
  have hm : Moved _ v t := runTransfer_one_moves rows hc (f := fun j c s => s.unitData t i j c (fun d y => y.pumpUnit t i j d)) (by
    show u.unitData t i 0 c (fun d y => y.pumpUnit t i 0 d) = _
    rw [unitData_of_calm hcalm, pumpUnit_passes hs hr])
  have hw : ∀ x, (u.votesFor (cisAddr t.well (b * 64))).well x = u.well x := fun x => by rw [State.well, votesFor_wells, State.well]
  have hq : (u.votesFor (cisAddr t.well (b * 64))).pumpOf t.well b = u.pumpOf t.well b := pumpOf_of_regs (fun x hx => reg_votesFor u _ hx) _ _
  have hu : ∀ q, (u.votesFor (cisAddr t.well (b * 64))).pump q = u.pump q := fun q => pump_of_untiled (fun x => by rw [hw]) q
  have ht : ∀ r, (u.votesFor (cisAddr t.well (b * 64))).tile r = u.tile r := fun r => tile_of_looms (memScope_votesFor u _).looms r
  have hheld := held_of_memScope (memScope_votesFor u (cisAddr t.well (b * 64))) hh
  have hcross := cross_enqueues (s := u.votesFor (cisAddr t.well (b * 64))) (w := t.well) (op := i.w.op2) (aux := i.w.prime) (b := b) (tile := t.tile) (data := data) hk
    hheld.2.2.1 (by rw [hq, hw]; exact hp) (by rw [hq, hu]; exact hhalt)
  simp only [hq, hw, hu, ht] at hcross
  obtain ⟨hl, hcr, hqu, hoth⟩ := hcross
  have hun := hm.scope.untiled
  obtain ⟨fl, bs, n, htile⟩ := hm.tile (held_of_looms hl hheld)
  refine ⟨?_, ?_, fun q hne => ?_, ?_⟩
  · rw [crossed_of_untiled (hun t.well)]
    exact hcr
  · rw [pump_of_untiled hun]
    exact hqu
  · rw [pump_of_untiled hun]
    exact hoth q hne
  · rw [htile, tile_of_looms hl, ht]

end Sys2Proof.Machine

namespace Sys2Proof.Machine

open Sys2Proof

/-! ## Units that arrive at a port (R202) -/

/-- A unit that lands at an armed port writes its rows and leaves the port armed for the units still to come. -/
theorem landInbound_tile (s : State) (r : TileRef) (p c : Nat) (data : Bytes) (row left : Nat) (stride : Nat) :
    TileScope s (s.landInbound r p c data row left stride) r (issueRegs r) ∧
      (Held s r → ∃ fl bs ss, (s.landInbound r p c data row left stride).tile r = { (s.tile r).putRows row data with
        flight := fl, busy := bs, stuckSince := ss, armed := if left ≤ 1 then none else some ((row + stride) % 16384, left - 1, stride) }) := by
  unfold State.landInbound
  extract_lets idx i
  have h1 : TileScope s (s.rowsWrite r row data) r (issueRegs r) := tileScope_modTile s r _ _
  obtain ⟨h2, ht⟩ := touch_transfer (s.rowsWrite r row data) r i (all := [⟨4, c + 24, 1, row, 2, true⟩]) (fun q hq => by rw [List.mem_singleton.mp hq])
  refine ⟨(h1.trans h2).trans (tileScope_modTile _ r _ _), fun hh => ?_⟩
  obtain ⟨fl, bs, htile⟩ := ht (h1.held r hh)
  have hrow : (s.rowsWrite r row data).tile r = (s.tile r).putRows row data := tile_modTile_held hh _
  rw [tile_modTile_held ((h1.trans h2).held r hh), htile, hrow]
  split
  · exact ⟨fl, _, _, rfl⟩
  · exact ⟨fl, bs, _, rfl⟩

/-! ## SEND (R202, R214) -/

/-- A unit for a tile of the same well finds its tile in any slot. -/
theorem peerTile_same_well {s : State} {t : TileRef} {i : Issue} (hp : s.peerWell i.part i.w.peerWell = some t.well) (ht : i.w.peerTile < 24) (c : Nat) (out : Bool) :
    s.peerTile t i c out = some ⟨t.well, s.physOf t.well i.w.peerTile⟩ := by
  simp [State.peerTile, hp, State.reaches, ht]

/-- A SEND of one unit to a tile of its own well brings its two rows to that tile's port. -/
theorem send_arrives {u : State} {t : TileRef} {i : Issue} {c : Nat} (rows : Nat → Nat × Nat × Bool)
    (hc : slotCycles ((u.tile t).patterns.getD i.w.pattern []) i.at_ 1 = [c]) (hcalm : (u.tile t).calm) (hm : (u.tile t).mute = false) (hg : i.w.ext / 2 ^ 29 = 3)
    (hp : u.peerWell i.part i.w.peerWell = some t.well) (ht : i.w.peerTile < 24) :
    Moved (u.inbound ⟨t.well, u.physOf t.well i.w.peerTile⟩ i.part c ((u.tile t).rowsAt (rowOf i.w.srcA i.w.strideA 0) 128))
      (u.runTransfer t i 1 rows (fun j c s => s.unitData t i j c (fun d y => y.sendUnit t i j c d))) t :=
  runTransfer_one_moves rows hc (f := fun j c s => s.unitData t i j c (fun d y => y.sendUnit t i j c d)) (by
    show u.unitData t i 0 c (fun d y => y.sendUnit t i 0 c d) = _
    rw [unitData_of_calm hcalm]
    simp only [State.sendUnit, hm, hg, peerTile_same_well hp ht, if_true, Bool.false_eq_true, if_false])

theorem inbound_eq_landInbound {s : State} {r : TileRef} {row left stride : Nat} (h : (s.tile r).armed = some (row, left, stride)) (p c : Nat) (data : Bytes) :
    s.inbound r p c data = s.landInbound r p c data row left stride := by simp only [State.inbound, h]

/-- At an armed port the unit is written, and the port's next row is the stride on. -/
theorem inbound_armed {u v : State} {t r : TileRef} {p c row left stride : Nat} {data : Bytes} (hv : Moved (u.inbound r p c data) v t) (hne : r ≠ t) (hr : Held u r)
    (hh : Held u t) (ha : (u.tile r).armed = some (row, left, stride)) :
    (v.tile r).store = ((u.tile r).putRows row data).store ∧
      (v.tile r).armed = (if left ≤ 1 then none else some ((row + stride) % 16384, left - 1, stride)) ∧ (v.tile t).store = (u.tile t).store := by
  rw [inbound_eq_landInbound ha] at hv
  obtain ⟨hsc, htile⟩ := landInbound_tile u r p c data row left stride
  obtain ⟨fl, bs, ss, hrt⟩ := htile hr
  obtain ⟨fl', bs', n, htt⟩ := hv.tile (hsc.held t hh)
  rw [hv.scope.others r hne, hrt, htt, hsc.others t hne.symm]
  exact ⟨rfl, rfl, rfl⟩

/-- At a port that is not armed the unit waits. -/
theorem inbound_unarmed {u v : State} {t r : TileRef} {p c : Nat} {data : Bytes} (hv : Moved (u.inbound r p c data) v t) (hne : r ≠ t) (hr : Held u r)
    (ha : (u.tile r).armed = none) : v.tile r = { u.tile r with inbox := (u.tile r).inbox ++ [(c, data)] } := by
  have hin : u.inbound r p c data = u.modTile r (fun x => { x with inbox := x.inbox ++ [(c, data)] }) := by simp only [State.inbound, ha]
  rw [hv.scope.others r hne, hin, tile_modTile_held hr]

/-! ## Ports that are not armed -/

theorem updAt_fixed {α : Type} (l : List α) (i : Nat) {f : α → α} {d : α} (h : f (l.getD i d) = l.getD i d) : updAt l i f = l := by
  induction l generalizing i with
  | nil => rfl
  | cons a l ih =>
    cases i with
    | zero => rw [updAt, show f a = a from h]
    | succ i => rw [updAt, ih i h]

/-- A change that leaves the tile as it is leaves the state as it is. -/
theorem modTile_fixed {s : State} {t : TileRef} {f : Tile → Tile} (h : f (s.tile t) = s.tile t) : s.modTile t f = s := by
  have ht : updAt (s.well t.well).tiles t.tile f = (s.well t.well).tiles := updAt_fixed _ _ h
  have hw : updAt s.wells t.well (fun w => { w with tiles := updAt w.tiles t.tile f }) = s.wells := updAt_fixed (d := {}) _ _ (by
    show ({ s.well t.well with tiles := updAt (s.well t.well).tiles t.tile f } : Well) = s.well t.well
    rw [ht])
  rw [State.modTile, State.modWell, hw]

/-- A unit that has not arrived yet stays on its way. -/
theorem settlePort_waits {u : State} {r : TileRef} {c till : Nat} {d : Bytes} (hb : (u.tile r).inbox = [(c, d)]) (h : till ≤ c) : u.settlePort r till = u := by
  have hn : ¬ c < till := by omega
  unfold State.settlePort
  simp only [hb, List.isEmpty_cons, Bool.false_eq_true, if_false, List.filter_cons, h, hn, decide_true, decide_false, if_true, List.filter_nil]
  exact modTile_fixed (by rw [← hb])


theorem each_singleton {α : Type} (s : State) (a : α) (f : State → α → State) : s.each [a] f = f s a := rfl

/-- A unit that has arrived is gone and counted. -/
theorem settlePort_drops {u : State} {r : TileRef} {c till : Nat} {d : Bytes} (hr : Held u r) (hb : (u.tile r).inbox = [(c, d)]) (h : c < till) :
    (u.settlePort r till).tile r = { u.tile r with inbox := [] } ∧ (u.settlePort r till).reg (tileBase r + 0x2C) = min (u.reg (tileBase r + 0x2C) + 1) 0xFFFFFFFF := by
  have hn : ¬ till ≤ c := by omega
  have hs : u.settlePort r till = (u.modTile r (fun x => { x with inbox := [] })).dropInbound r c := by
    unfold State.settlePort
    simp only [hb, List.isEmpty_cons, Bool.false_eq_true, if_false, List.filter_cons, h, hn, decide_true, decide_false, if_true, List.filter_nil, each_singleton]
  have hd : ∀ s : State, (s.dropInbound r c).looms = s.looms ∧ (s.dropInbound r c).reg (tileBase r + 0x2C) = min (s.reg (tileBase r + 0x2C) + 1) 0xFFFFFFFF := by
    intro s
    have hcount : (s.count (tileBase r + 0x2C)).looms = s.looms := looms_of_wells (State.count_wells _ _)
    unfold State.dropInbound
    dsimp only
    split
    · exact ⟨hcount, by rw [State.reg_count, if_pos rfl]⟩
    · refine ⟨(looms_raise _ _ _ _ _).trans ((looms_of_wells (State.modRound_wells _ _ _)).trans hcount), ?_⟩
      rw [State.reg_raise _ _ _ _ _ _ (by unfold tileBase wellBase logBase; omega), State.modRound_reg, State.reg_count, if_pos rfl]
  obtain ⟨hl, hreg⟩ := hd (u.modTile r (fun x => { x with inbox := [] }))
  rw [State.modTile_reg] at hreg
  rw [hs]
  exact ⟨by rw [tile_of_looms hl, tile_modTile_held hr], hreg⟩

/-! ## RECV (R202) -/

/-- What RECV does in the state of its issue. -/
def State.recvRun (t : TileRef) (i : Issue) (s : State) : State :=
  let s1 := (s.settlePort t i.at_).modTile t (fun x => { x with armed := some (i.w.dst, i.w.count, unsgn 14 i.w.strideD), stuckSince := some (i.at_, i.idx) })
  let l := (s1.tile t).inbox
  if l.isEmpty then s1 else (s1.modTile t (fun x => { x with inbox := [] })).each l (fun u e => u.inbound t i.part e.1 e.2)

theorem recv_of_issues {s u : State} {t : TileRef} {i : Issue} (h : Issues s t 0x44 i u) : exec (.recv t) s = .next (u.recvRun t i) :=
  execStep_of_issues h State.recvRun

/-- RECV on a port that nothing is on its way to arms it. -/
theorem recvRun_arms {u : State} {t : TileRef} {i : Issue} (hh : Held u t) (hb : (u.tile t).inbox = []) :
    u.recvRun t i = u.modTile t (fun x => { x with armed := some (i.w.dst, i.w.count, unsgn 14 i.w.strideD), stuckSince := some (i.at_, i.idx) }) := by
  have hs : u.settlePort t i.at_ = u := by simp [State.settlePort, hb]
  unfold State.recvRun
  rw [hs]
  dsimp only
  rw [tile_modTile_held hh, hb]
  rfl

/-- A unit on its way when RECV arms its port is written to the first row. -/
theorem recvRun_lands {u : State} {t : TileRef} {i : Issue} {c : Nat} {d : Bytes} (hh : Held u t) (hb : (u.tile t).inbox = [(c, d)]) (hc : i.at_ ≤ c) :
    ((u.recvRun t i).tile t).store = ((u.tile t).putRows i.w.dst d).store ∧ ((u.recvRun t i).tile t).inbox = [] := by
  let f : Tile → Tile := fun x => { x with armed := some (i.w.dst, i.w.count, unsgn 14 i.w.strideD), stuckSince := some (i.at_, i.idx) }
  let g : Tile → Tile := fun x => { x with inbox := [] }
  have h1 := (tileScope_modTile u t f []).held t hh
  have h2 := (tileScope_modTile _ t g []).held t h1
  have ht : ((u.modTile t f).modTile t g).tile t = g (f (u.tile t)) := by rw [tile_modTile_held h1, tile_modTile_held hh]
  have hrun : u.recvRun t i = ((u.modTile t f).modTile t g).landInbound t i.part c d i.w.dst i.w.count (unsgn 14 i.w.strideD) := by
    have hbox : ((u.modTile t f).tile t).inbox = [(c, d)] := by
      rw [tile_modTile_held hh]
      exact hb
    rw [← inbound_eq_landInbound (s := (u.modTile t f).modTile t g) (by rw [ht])]
    unfold State.recvRun
    rw [settlePort_waits hb hc]
    show (if ((u.modTile t f).tile t).inbox.isEmpty then _ else State.each ((u.modTile t f).modTile t g) ((u.modTile t f).tile t).inbox _) = _
    rw [hbox]
    rfl
  obtain ⟨-, htile⟩ := landInbound_tile ((u.modTile t f).modTile t g) t i.part c d i.w.dst i.w.count (unsgn 14 i.w.strideD)
  obtain ⟨fl, bs, ss, hrt⟩ := htile h2
  rw [hrun, hrt, ht]
  exact ⟨rfl, rfl⟩

end Sys2Proof.Machine

namespace Sys2Proof.Machine

open Sys2Proof

theorem sameGate_modTile (s : State) (t : TileRef) (f : Tile → Tile) : SameGate s (s.modTile t f) := by
  have h := (tileScope_modTile s t f []).untiled
  refine sameGate_of_access rfl rfl (fun w => ?_) (fun w => ?_)
  · show ((s.modTile t f).well w).untiled.inService = (s.well w).untiled.inService
    rw [h]
  · show ((s.modTile t f).well w).untiled.lpxKey = (s.well w).untiled.lpxKey
    rw [h]

/-! ## TURN (R240) -/

/-- A state on a step's way through memory: it answers checks as the issue `u` and holds the memories of `m`. -/
structure Underway (u m s : State) : Prop where
  gate : SameGate u s
  banks : SameBanks m s

theorem Underway.start (u : State) : Underway u u u := ⟨SameGate.refl u, SameBanks.refl u⟩

/-- A bucket that may be read and is good lands in its row. -/
theorem Underway.lands {u m s : State} {t : TileRef} {addr : Nat} (h : Underway u m s) (hh : Held s t) (hk : (u.check (u.tileMaster t) addr 64 1).1 = none)
    (hg : (m.readBuckets 0 1 addr).2.1 = false) (i : Issue) (row : Nat) :
    ∃ v, s.guarded t i addr 64 1 (fun y => (true, (y.readBuckets 0 1 addr).2.2.landBucket t row (y.readBuckets 0 1 addr).1 (y.readBuckets 0 1 addr).2.1)) = (true, v) ∧
      Underway u (m.readBuckets 0 1 addr).2.2 v ∧ Held v t ∧ v.tile t = (s.tile t).putRows row (m.readBuckets 0 1 addr).1 := by
  have hc : s.check (s.tileMaster t) addr 64 1 = (none, s.votesFor addr) := check_passes (by rw [h.gate.tileMaster, h.gate.check]; exact hk)
  obtain ⟨hb, hf, hs⟩ := (h.banks.trans (sameBanks_votesFor s addr)).readBuckets 0 1 addr
  have hm := (memScope_votesFor s addr).trans (memScope_readBuckets (s.votesFor addr) 0 1 addr)
  have hheld := held_of_memScope hm hh
  refine ⟨_, guarded_passes hc i _, ⟨?_, ?_⟩, (tileScope_landBucket _ t _ _ _ []).held t hheld, ?_⟩
  · exact h.gate.trans (hm.gate.trans (sameGate_modTile _ t _))
  · exact hs.trans (sameBanks_modTile _ t _)
  · rw [hf, hg, landBucket_good hheld, hb, tile_of_looms hm.looms]

/-- The first bucket of a region, column by column. -/
theorem turnBucket_zero (s : State) (w ext : Nat) : s.turnBucket w ext 0 = s.reg (cisBase w + 0x200 + 0x10 * bits ext 23 21) + ext % 2 ^ 21 := by
  simp [State.turnBucket]

/-- The second bucket lies a row further. -/
theorem turnBucket_one {s : State} {w ext : Nat} (h : 2 ≤ s.reg (cisBase w + 0x208 + 0x10 * bits ext 23 21)) :
    s.turnBucket w ext 1 = s.reg (cisBase w + 0x200 + 0x10 * bits ext 23 21) + s.reg (cisBase w + 0x204 + 0x10 * bits ext 23 21) + ext % 2 ^ 21 := by
  unfold State.turnBucket
  dsimp only
  rw [Nat.max_eq_left (by omega), Nat.mod_eq_of_lt (by omega), Nat.div_eq_of_lt (by omega)]
  omega

/-- What a unit of TURN does, where the issue `s` names its buckets. -/
def State.turnUnit (s : State) (t : TileRef) (i : Issue) (j _c : Nat) (u : State) : Bool × State :=
  let one := fun (u : State) (m row : Nat) =>
    let a := cisAddr t.well (s.turnBucket t.well i.w.ext m * 64)
    u.guarded t i a 64 1 (fun v => let r := v.readBuckets 0 1 a; (true, r.2.2.landBucket t row r.1 r.2.1))
  let row := rowOf i.w.dst i.w.strideD j
  let r := one u (2 * j) row
  if r.1 then one r.2 (2 * j + 1) ((row + 1) % 16384) else r

theorem turn_of_issues {s u : State} {t : TileRef} {i : Issue} (h : Issues s t 0x46 i u) :
    exec (.turn t) s = .next (u.runTransfer t i i.w.count (fun j => (rowOf i.w.dst i.w.strideD j, 2, true)) (u.turnUnit t i)) := by
  show execTurn t s = _
  unfold execTurn State.turnUnit
  exact execStep_of_issues h _

/-- A TURN of one unit lands two good buckets of a column. -/
theorem turn_lands {u : State} {t : TileRef} {i : Issue} {c : Nat} (rows : Nat → Nat × Nat × Bool) (hh : Held u t)
    (hc : slotCycles ((u.tile t).patterns.getD i.w.pattern []) i.at_ 1 = [c]) (hrow : rowOf i.w.dst i.w.strideD 0 < 16383) {a b : Nat}
    (ha : cisAddr t.well (u.turnBucket t.well i.w.ext 0 * 64) = a) (hb : cisAddr t.well (u.turnBucket t.well i.w.ext 1 * 64) = b)
    (hka : (u.check (u.tileMaster t) a 64 1).1 = none) (hkb : (u.check (u.tileMaster t) b 64 1).1 = none)
    (hga : (u.readBuckets 0 1 a).2.1 = false) (hgb : ((u.readBuckets 0 1 a).2.2.readBuckets 0 1 b).2.1 = false) :
    ((u.runTransfer t i 1 rows (u.turnUnit t i)).tile t).store =
      (((u.tile t).putRows (rowOf i.w.dst i.w.strideD 0) (u.readBuckets 0 1 a).1).putRows (rowOf i.w.dst i.w.strideD 0 + 1)
        ((u.readBuckets 0 1 a).2.2.readBuckets 0 1 b).1).store := by
  obtain ⟨v1, hv1, hs1, hh1, ht1⟩ := (Underway.start u).lands hh hka hga i (rowOf i.w.dst i.w.strideD 0)
  obtain ⟨v2, hv2, -, hh2, ht2⟩ := hs1.lands hh1 hkb hgb i (rowOf i.w.dst i.w.strideD 0 + 1)
  have hm : Moved v2 _ t := runTransfer_one_moves rows hc (f := u.turnUnit t i) (by
    unfold State.turnUnit
    simp only [Nat.mul_zero, Nat.zero_add, ha]
    simp only [hv1, if_true, hb, Nat.mod_eq_of_lt (show rowOf i.w.dst i.w.strideD 0 + 1 < 16384 by omega)]
    exact hv2)
  obtain ⟨fl, bs, n, htile⟩ := hm.tile hh2
  rw [htile, ht2, ht1]

end Sys2Proof.Machine

namespace Sys2Proof.Machine

open Sys2Proof

/-! ## Traps (R220) -/

/-- What a trap leaves of a tile. -/
def Tile.trapped (x : Tile) : Tile := { x with state := .trapped, waiting := none, aesKey := [], serving := none }

theorem looms_trap (s : State) (t : TileRef) (p cause status idx : Nat) : (s.trap t p cause status idx).looms = (s.modTile t Tile.trapped).looms := by
  refine (looms_of_wells (State.modPart_wells _ _ _)).trans ((looms_raise _ _ _ _ _).trans ?_)
  exact looms_of_wells ((State.setReg64_wells _ _ _).trans (State.setRecord_wells _ _ _))

theorem held_trap {s : State} {t : TileRef} (h : Held s t) (p cause status idx : Nat) : Held (s.trap t p cause status idx) t :=
  held_of_looms (looms_trap s t p cause status idx) ((tileScope_modTile s t _ []).held t h)

theorem tile_trap {s : State} {t : TileRef} (h : Held s t) (p cause status idx : Nat) : (s.trap t p cause status idx).tile t = (s.tile t).trapped := by
  rw [tile_of_looms (looms_trap s t p cause status idx), tile_modTile_held h]

/-- A check keeps the tiles, refused or not. -/
theorem looms_check (s : State) (m : Master) (addr len need : Nat) : (s.check m addr len need).2.looms = s.looms := looms_of_wells (check_wells _ _ _ _ _)

/-! ## What the units of a step keep -/

/-- What every unit of a step keeps, the step keeps. -/
theorem runUnits_keeps {P : State → Prop} {f : Nat → Nat → State → Bool × State} (hf : ∀ j c v, P v → P (f j c v).2) (cs : List Nat) {s : State} (h : P s) (j : Nat) :
    P (s.runUnits f cs j).2 := by
  induction cs generalizing s j with
  | nil => exact h
  | cons c cs ih =>
    unfold State.runUnits
    dsimp only
    split
    · exact ih (hf j c s h) (j + 1)
    · exact hf j c s h

/-- A step keeps what its units keep, where that does not depend on the step being stuck, on units being busy or on accesses still to come. -/
theorem runTransfer_keeps {P : State → Prop} {s : State} {t : TileRef} {i : Issue} {units : Nat} {rows : Nat → Nat × Nat × Bool}
    {f : Nat → Nat → State → Bool × State} (h : P s) (hf : ∀ j c v, P v → P (f j c v).2) (hm : ∀ v w, P v → Moved v w t → P w)
    (hs : P (s.modTile t (fun x => { x with stuckSince := some (i.at_, i.idx) }))) : P (s.runTransfer t i units rows f) := by
  by_cases hc : slotCycles ((s.tile t).patterns.getD i.w.pattern []) i.at_ units = []
  · rw [runTransfer_stuck rows f hc]
    exact hs
  · have hr := runUnits_keeps hf (slotCycles ((s.tile t).patterns.getD i.w.pattern []) i.at_ units) h 0
    generalize he : s.runUnits f (slotCycles ((s.tile t).patterns.getD i.w.pattern []) i.at_ units) 0 = r at hr
    obtain ⟨ok, v⟩ := r
    cases ok with
    | false =>
      rw [runTransfer_stops rows he]
      exact hr
    | true => exact hm v _ hr (runTransfer_moves rows hc he)

/-! ## STEPFETCH (R204) -/

/-- A tile is there, with its fetch times as at the issue. -/
def FetchTimes (u : State) (t : TileRef) (v : State) : Prop := Held v t ∧ (v.tile t).halves = (u.tile t).halves

theorem fetchTimes_modTile {u v : State} {t : TileRef} (h : FetchTimes u t v) {f : Tile → Tile} (hf : ∀ x, (f x).halves = x.halves) : FetchTimes u t (v.modTile t f) :=
  ⟨(tileScope_modTile v t f []).held t h.1, by rw [tile_modTile_held h.1, hf, h.2]⟩

theorem fetchTimes_of_looms {u v w : State} {t : TileRef} (h : FetchTimes u t v) (hl : w.looms = v.looms) : FetchTimes u t w :=
  ⟨held_of_looms hl h.1, by rw [tile_of_looms hl, h.2]⟩

/-- What a unit of STEPFETCH does. -/
def State.fetchUnit (t : TileRef) (i : Issue) (j _c : Nat) (u : State) : Bool × State :=
  let a := cisAddr t.well ((i.w.ext % 2 ^ 21 + 2 * j) * 64)
  u.guarded t i a 128 1 (fun v =>
    let r := v.readBuckets 0 2 a
    let word := 4096 * (i.w.aux % 2) + j * 16
    (true, r.2.2.modTile t (fun x =>
      let keep := x.stepBad.filter (fun b => decide (b < word) || decide (word + 16 ≤ b))
      { x with
        steps := memWrite x.steps (word * 8) r.1,
        stepBad := if r.2.1 then (List.range 16).foldl (fun l k => insertNat (word + k) l) keep else keep })))

theorem fetchUnit_keeps {u v : State} {t : TileRef} {i : Issue} {j c : Nat} (h : FetchTimes u t v) : FetchTimes u t (State.fetchUnit t i j c v).2 := by
  unfold State.fetchUnit State.guarded
  dsimp only
  have hl := looms_check v (v.tileMaster t) (cisAddr t.well ((i.w.ext % 2 ^ 21 + 2 * j) * 64)) 128 1
  split
  · rename_i st w hk
    rw [hk] at hl
    have hw := fetchTimes_of_looms h hl
    refine ⟨held_trap hw.1 _ _ _ _, ?_⟩
    show ((w.trap t _ _ _ _).tile t).halves = _
    rw [tile_trap hw.1]
    exact hw.2
  · rename_i w hk
    rw [hk] at hl
    exact fetchTimes_modTile (fetchTimes_of_looms (fetchTimes_of_looms h hl) (memScope_readBuckets w 0 2 _).looms) (fun _ => rfl)

/-- The state of a STEPFETCH whose units have moved, or that stands still. -/
def State.fetched (u : State) (t : TileRef) (i : Issue) : State := u.runTransfer t i 256 (fun _ => (0, 0, false)) (State.fetchUnit t i)

theorem fetchTimes_fetched {u : State} {t : TileRef} (h : Held u t) (i : Issue) : FetchTimes u t (u.fetched t i) :=
  runTransfer_keeps ⟨h, rfl⟩ (fun _ _ _ hv => fetchUnit_keeps hv)
    (fun v w hv hm => ⟨hm.scope.held t hv.1, by
      obtain ⟨fl, bs, n, ht⟩ := hm.tile hv.1
      rw [ht]
      exact hv.2⟩)
    (fetchTimes_modTile ⟨h, rfl⟩ (fun _ => rfl))

theorem stepfetch_of_issues {s u : State} {t : TileRef} {i : Issue} (h : Issues s t 0x47 i u) :
    exec (.stepfetch t) s = .next ((u.fetched t i).modTile t (fun x => { x with halves := updAt x.halves (i.w.aux % 2) (fun _ =>
      match (slotCycles ((u.tile t).patterns.getD i.w.pattern []) i.at_ 256).getLast? with
      | some c => c + 24
      | none => i.at_ + 2 ^ 64) })) := by
  show execStepfetch t s = _
  unfold execStepfetch State.fetched State.fetchUnit
  rw [execStep_of_issues h]
  dsimp only
  cases (slotCycles ((u.tile t).patterns.getD i.w.pattern []) i.at_ 256).getLast? <;> rfl

/-- A half of the step memory is busy until the time that STEPFETCH notes. -/
theorem halves_fetched {u : State} {t : TileRef} (h : Held u t) (i : Issue) {k : Nat} (hk : k < (u.tile t).halves.length) (n : Nat) :
    (((u.fetched t i).modTile t (fun x => { x with halves := updAt x.halves k (fun _ => n) })).tile t).halves.getD k 0 = n := by
  obtain ⟨hh, hv⟩ := fetchTimes_fetched h i
  rw [tile_modTile_held hh]
  show (updAt ((u.fetched t i).tile t).halves k (fun _ => n)).getD k 0 = n
  rw [updAt_getD, if_pos ⟨rfl, by rw [hv]; exact hk⟩]

/-- A STEPFETCH without a slot keeps the steps. -/
theorem steps_fetched {u : State} {t : TileRef} (h : Held u t) {i : Issue} (hc : slotCycles ((u.tile t).patterns.getD i.w.pattern []) i.at_ 256 = []) (k n : Nat) :
    (((u.fetched t i).modTile t (fun x => { x with halves := updAt x.halves k (fun _ => n) })).tile t).steps = (u.tile t).steps := by
  rw [tile_modTile_held (fetchTimes_fetched h i).1, State.fetched, runTransfer_stuck _ _ hc, tile_modTile_held h]

/-! ## RNG_READ (R199, R436) -/

theorem rngRead_of_issues {s u : State} {t : TileRef} {i : Issue} (h : Issues s t 0x48 i u) :
    exec (.rngRead t) s = .next ((u.modTile t (fun x => { x with rngLeft := i.w.count })).modDrbg i.part (fun d =>
      { d with requests := d.requests ++ [.tile (u.unitOf t) t.well t.tile i.w.dst i.w.count] })) := by
  show execRngRead t s = _
  unfold execRngRead
  rw [execStep_of_issues h]

end Sys2Proof.Machine

namespace Sys2Proof.Machine

open Sys2Proof

/-! ## KEYSTREAM of kinds 1 to 3 (R142, R143) -/

theorem streamFirst_of_kind {s : State} {i : Issue} (h : i.w.op2 < 4) (b : Bytes) : s.streamFirst i b = { segmentOf b with kind := i.w.op2 } := by
  simp only [State.streamFirst, h, if_true]

theorem keyId_of_kind {g : Segment} (h : g.kind < 4) (a : Bytes) : g.keyId a = rd a 0x18 8 := by simp only [Segment.keyId, h, true_or, if_true]

/-- What is left of the findings of a pass when its stream begins. -/
def Tile.passStarted (x : Tile) (g : Segment) : Tile := { x with keyFail := if g.segment = 0 then 0 else x.keyFail, passFail := if g.segment = 0 then false else x.passFail }

theorem tile_passStart {s : State} {t : TileRef} (h : Held s t) {g : Segment} (hk : g.kind < 4) : (s.passStart t g).tile t = (s.tile t).passStarted g := by
  unfold State.passStart Tile.passStarted
  by_cases h0 : g.segment = 0
  · rw [if_pos ⟨h0, by simp; omega⟩, tile_modTile_held h, if_pos h0, if_pos h0]
  · rw [if_neg (fun hc => h0 hc.1), if_neg h0, if_neg h0]

/-- The end of a stream of one segment: what it carries is taken when the segment passes, else the failure is counted; a bad bucket is noted. -/
def State.streamEnd (s : State) (t : TileRef) (i : Issue) (g : Segment) (why : Nat) (bytes : Bytes) (bad : Bool) : State :=
  let s1 := if why = 0 then s.takeSegments t i g [(g, bytes, bad)] else s.keyMismatch t i.part why g
  if bad then s1.modTile t (fun y => { y with passFail := true }) else s1

/-- A stream whose one segment may not be read. -/
theorem readSegments_refused {s : State} {t : TileRef} {size addr : Nat} {st : Status} (h : (s.check (s.tileMaster t) addr size 1).1 = some st) (g : Segment) :
    s.readSegments t size [g] addr [] = (.error st, (s.check (s.tileMaster t) addr size 1).2) := by
  simp only [State.readSegments, h]

/-- A stream whose one segment is read. -/
theorem readSegments_reads {s : State} {t : TileRef} {size addr : Nat} (h : (s.check (s.tileMaster t) addr size 1).1 = none) (g : Segment) :
    let d := (s.check (s.tileMaster t) addr size 1).2.devRead 0 addr size
    s.readSegments t size [g] addr [] = (.ok [(g, d.1, d.2.1)], d.2.2) := by
  simp only [State.readSegments, h, List.nil_append]

/-- A KEYSTREAM of one segment of the tile's cistern checks its access, and then ends its stream. -/
theorem keystream_of_issues {s u : State} {t : TileRef} {i : Issue} (h : Issues s t 0x45 i u) (hcalm : (u.tile t).calm) (hg : i.w.ext / 2 ^ 29 = 0) (hn : i.w.count = 1)
    (hslot : slotCycles ((u.tile t).patterns.getD i.w.pattern []) i.at_ 1 ≠ []) (hk : i.w.op2 < 4) {g : Segment}
    (hseg : g = { segmentOf ((u.tile t).rowsAt i.w.srcB 64) with kind := i.w.op2 }) {at_ : Nat} (hat : at_ = cisAddr t.well (i.w.ext % 2 ^ 21 * 64)) :
    let k := (u.passStart t g).check ((u.passStart t g).tileMaster t) at_ (64 + g.payload) 1
    let d := k.2.devRead 0 at_ (64 + g.payload)
    let why := segmentReason (d.1.take 64) g (rd ((u.tile t).rowsAt i.w.srcA 64) 0x18 8)
    (∀ st, k.1 = some st → exec (.keystream t) s = .next (k.2.accessTrap t i st)) ∧
      (k.1 = none → ∃ rows, exec (.keystream t) s =
        .next ((d.2.2.streamEnd t i g why d.1 d.2.1).runTransfer t i (ceilDiv (64 + g.payload) 128) rows (fun _ _ u => (true, u)))) := by
  obtain ⟨-, hbad, hfl⟩ := hcalm
  have hop : i.w.opcode ≠ 0x46 := by rw [(opcode_of_issues h).1]; decide
  have hkind : g.kind < 4 := by rw [hseg]; exact hk
  have hne : (slotCycles ((u.tile t).patterns.getD i.w.pattern []) i.at_ 1).isEmpty = false := by simpa using hslot
  intro k d why
  show (∀ st, _ → execKeystream t s = _) ∧ (_ → ∃ rows, execKeystream t s = _)
  unfold execKeystream
  rw [execStep_of_issues h]
  simp only [rowsRead_of_no_flight hfl, badAt_of_no_errors hbad, streamFirst_of_kind hk, Nat.mul_one, ← hseg, hkind, if_true, List.any_cons, List.any_nil,
    Bool.or_self, Bool.false_eq_true, if_false, hne, hn, segmentsFrom, unitTarget_near hop hg, Option.getD_some, ← hat, true_or, true_and, keyId_of_kind hkind]
  refine ⟨fun st hst => ?_, fun hnone => ?_⟩
  · rw [readSegments_refused hst]
  · have hr : (u.passStart t g).readSegments t (64 + g.payload) [g] at_ [] = (.ok [(g, d.1, d.2.1)], d.2.2) := readSegments_reads hnone g
    have hwhy : segmentReason (d.1.take 64) g (rd ((u.tile t).rowsAt i.w.srcA 64) 0x18 8) = why := rfl
    rw [hr]
    simp only [List.find?_cons, List.find?_nil, List.any_cons, List.any_nil, Bool.or_false, hwhy]
    clear_value why d
    unfold State.streamEnd
    by_cases hw : why = 0
    · rw [hw]
      exact ⟨_, rfl⟩
    · simp only [if_neg hw, show (why != 0) = true from by simpa using hw]
      exact ⟨_, by rw [hwhy]⟩

end Sys2Proof.Machine

namespace Sys2Proof.Machine

open Sys2Proof

/-! ## The end of a stream (R142, R143) -/

/-- One segment of kinds 1 to 3 goes to dst. -/
theorem takeSegments_one (s : State) (t : TileRef) (i : Issue) {g : Segment} (hk : g.kind < 4) (bytes : Bytes) (bad : Bool) :
    s.takeSegments t i g [(g, bytes, bad)] = s.modTile t (fun x => if bad then x.putBad i.w.dst (bytes.drop 64) else x.putRows i.w.dst (bytes.drop 64)) := by
  have hz : ∀ n, i.w.dst + 0 * n = i.w.dst := fun n => by omega
  simp only [State.takeSegments, hk, if_true, State.landSegments, List.length_singleton, List.range_one, List.zip_cons_cons, List.zip_nil_left, each_singleton, hz]

/-- A segment that fails is counted, and its reason kept. -/
theorem keyMismatch_of_kind {s : State} {t : TileRef} (h : Held s t) {p : Nat} {g : Segment} (hk : g.kind < 4) (why : Nat) (hp : p < 24) :
    Held (s.keyMismatch t p why g) t ∧ (s.keyMismatch t p why g).tile t = { s.tile t with keyFail := why } ∧
      (s.keyMismatch t p why g).reg (ctxBase p + 0x34) = min (s.reg (ctxBase p + 0x34) + 1) 0xFFFFFFFF := by
  have hl : (s.keyMismatch t p why g).looms = (s.modTile t (fun x => { x with keyFail := why })).looms := by
    unfold State.keyMismatch
    rw [if_pos hk]
    exact (looms_raise _ _ _ _ _).trans (looms_of_wells (State.count_wells _ _))
  refine ⟨held_of_looms hl ((tileScope_modTile s t _ []).held t h), by rw [tile_of_looms hl, tile_modTile_held h], ?_⟩
  unfold State.keyMismatch
  rw [if_pos hk, State.reg_raise _ _ _ _ _ _ (by unfold ctxBase logBase; omega), State.reg_count, if_pos rfl, State.modTile_reg]

/-- What the end of a stream leaves of its tile. -/
structure Streamed (s v : State) (t : TileRef) (i : Issue) (why : Nat) (bytes : Bytes) (bad : Bool) : Prop where
  held : Held v t
  patterns : (v.tile t).patterns = (s.tile t).patterns
  passFail : (v.tile t).passFail = ((s.tile t).passFail || bad)
  taken : why = 0 → bad = false → (v.tile t).store = ((s.tile t).putRows i.w.dst (bytes.drop 64)).store
  passed : why = 0 → (v.tile t).keyFail = (s.tile t).keyFail
  failed : why ≠ 0 → (v.tile t).store = (s.tile t).store ∧ (v.tile t).keyFail = why ∧
    v.reg (ctxBase i.part + 0x34) = min (s.reg (ctxBase i.part + 0x34) + 1) 0xFFFFFFFF

/-- A bad bucket is noted. -/
theorem streamed_noted {s v : State} {t : TileRef} {i : Issue} {why : Nat} {bytes : Bytes} {bad : Bool} (h : Held v t)
    (hpat : (v.tile t).patterns = (s.tile t).patterns) (hpf : (v.tile t).passFail = (s.tile t).passFail)
    (htaken : why = 0 → bad = false → (v.tile t).store = ((s.tile t).putRows i.w.dst (bytes.drop 64)).store)
    (hpassed : why = 0 → (v.tile t).keyFail = (s.tile t).keyFail)
    (hfailed : why ≠ 0 → (v.tile t).store = (s.tile t).store ∧ (v.tile t).keyFail = why ∧
      v.reg (ctxBase i.part + 0x34) = min (s.reg (ctxBase i.part + 0x34) + 1) 0xFFFFFFFF) :
    Streamed s (if bad then v.modTile t (fun y => { y with passFail := true }) else v) t i why bytes bad := by
  cases bad with
  | false => exact ⟨h, hpat, by rw [Bool.or_false]; exact hpf, htaken, hpassed, hfailed⟩
  | true =>
    have ht : (v.modTile t (fun y => { y with passFail := true })).tile t = { v.tile t with passFail := true } := tile_modTile_held h _
    rw [if_pos rfl]
    refine ⟨(tileScope_modTile v t _ []).held t h, by rw [ht]; exact hpat, by rw [ht, Bool.or_true], fun _ hb => absurd hb (by decide), fun hw => ?_, fun hw => ?_⟩
    · rw [ht]
      exact hpassed hw
    · rw [ht, State.modTile_reg]
      exact hfailed hw

theorem streamed_streamEnd {s : State} {t : TileRef} (h : Held s t) {i : Issue} {g : Segment} (hk : g.kind < 4) (why : Nat) (bytes : Bytes) (bad : Bool) (hp : i.part < 24) :
    Streamed s (s.streamEnd t i g why bytes bad) t i why bytes bad := by
  unfold State.streamEnd
  dsimp only
  by_cases hw : why = 0
  · rw [if_pos hw, takeSegments_one s t i hk]
    have ht : (s.modTile t (fun x => if bad then x.putBad i.w.dst (bytes.drop 64) else x.putRows i.w.dst (bytes.drop 64))).tile t =
        if bad then (s.tile t).putBad i.w.dst (bytes.drop 64) else (s.tile t).putRows i.w.dst (bytes.drop 64) := tile_modTile_held h _
    refine streamed_noted ((tileScope_modTile s t _ []).held t h) ?_ ?_ (fun _ hb => ?_) (fun _ => ?_) (fun hc => absurd hw hc) <;> rw [ht]
    · cases bad <;> rfl
    · cases bad <;> rfl
    · rw [hb]
      rfl
    · cases bad <;> rfl
  · rw [if_neg hw]
    obtain ⟨hheld, ht, hreg⟩ := keyMismatch_of_kind h hk why hp
    exact streamed_noted hheld (by rw [ht]) (by rw [ht]) (fun hc => absurd hc hw) (fun hc => absurd hc hw) (fun _ => ⟨by rw [ht], by rw [ht], hreg⟩)

/-! ## Steps whose units move nothing more -/

theorem runUnits_idle (s : State) (cs : List Nat) (j : Nat) : s.runUnits (fun _ _ u => (true, u)) cs j = (true, s) := by
  induction cs generalizing j with
  | nil => rfl
  | cons c cs ih =>
    unfold State.runUnits
    rw [if_pos rfl, ih]

/-- A step whose units move nothing more only keeps its tile busy. -/
theorem runTransfer_idle {s : State} {t : TileRef} {i : Issue} {units : Nat} (rows : Nat → Nat × Nat × Bool) (hu : 1 ≤ units)
    (hc : slotCycles ((s.tile t).patterns.getD i.w.pattern []) i.at_ 1 ≠ []) : Moved s (s.runTransfer t i units rows (fun _ _ u => (true, u))) t :=
  runTransfer_moves rows (fun h => hc ((slotCycles_eq_nil hu).mp h)) (runUnits_idle s _ 0)

/-! ## The step -/

/-- The state after the check of a stream, and what is read in it. -/
theorem memScope_passStart_check (u : State) (t : TileRef) (g : Segment) (m : Master) {addr len : Nat} (h : ((u.passStart t g).check m addr len 1).1 = none) :
    MemScope (u.passStart t g) ((u.passStart t g).check m addr len 1).2 ∧ SameBanks u ((u.passStart t g).check m addr len 1).2 := by
  have hb : SameBanks u (u.passStart t g) := by
    unfold State.passStart
    split
    · exact sameBanks_modTile _ _ _
    · exact SameBanks.refl u
  rw [check_passes h]
  exact ⟨memScope_votesFor _ _, hb.trans (sameBanks_votesFor _ _)⟩

theorem sameGate_passStart (u : State) (t : TileRef) (g : Segment) : SameGate u (u.passStart t g) := by
  unfold State.passStart
  split
  · exact sameGate_modTile _ _ _
  · exact SameGate.refl u

theorem reg_passStart (u : State) (t : TileRef) (g : Segment) (x : Nat) : (u.passStart t g).reg x = u.reg x := by
  unfold State.passStart
  split
  · exact State.modTile_reg _ _ _ _
  · rfl

theorem held_passStart {u : State} {t : TileRef} (h : Held u t) (g : Segment) : Held (u.passStart t g) t := by
  unfold State.passStart
  split
  · exact (tileScope_modTile _ t _ []).held t h
  · exact h

section
variable {s u v : State} {t : TileRef} {i : Issue} (h : Issues s t 0x45 i u) (hv : exec (.keystream t) s = .next v) (hh : Held u t) (hcalm : (u.tile t).calm)
  (hg : i.w.ext / 2 ^ 29 = 0) (hn : i.w.count = 1) (hslot : slotCycles ((u.tile t).patterns.getD i.w.pattern []) i.at_ 1 ≠ []) (hk : i.w.op2 < 4) {g : Segment}
  (hseg : g = { segmentOf ((u.tile t).rowsAt i.w.srcB 64) with kind := i.w.op2 }) {at_ : Nat} (hat : at_ = cisAddr t.well (i.w.ext % 2 ^ 21 * 64))
include h hv hh hcalm hg hn hslot hk hseg hat

/-- A KEYSTREAM whose segment may not be read traps. -/
theorem keystream_refused {st : Status} (hc : (u.check (u.tileMaster t) at_ (64 + g.payload) 1).1 = some st) :
    (v.tile t).state = .trapped ∧ (v.tile t).store = (u.tile t).store := by
  have hkind : g.kind < 4 := by rw [hseg]; exact hk
  have hgate := sameGate_passStart u t g
  have hrun := (keystream_of_issues h hcalm hg hn hslot hk hseg hat).1 st (by rw [hgate.check, hgate.tileMaster]; exact hc)
  have hl := looms_check (u.passStart t g) ((u.passStart t g).tileMaster t) at_ (64 + g.payload) 1
  have hheld := held_of_looms hl (held_passStart hh g)
  rw [hrun] at hv
  injection hv with hv
  rw [← hv, State.accessTrap, tile_trap hheld, tile_of_looms hl, tile_passStart hh hkind]
  exact ⟨rfl, rfl⟩

/-- A KEYSTREAM whose segment may be read takes it when it passes its checks, and else counts its failure. -/
theorem keystream_ends (hc : (u.check (u.tileMaster t) at_ (64 + g.payload) 1).1 = none) :
    let d := u.devRead 0 at_ (64 + g.payload)
    let why := segmentReason (d.1.take 64) g (rd ((u.tile t).rowsAt i.w.srcA 64) 0x18 8)
    (why = 0 → d.2.1 = false → (v.tile t).store = ((u.tile t).putRows i.w.dst (d.1.drop 64)).store) ∧
      (why ≠ 0 → (v.tile t).store = (u.tile t).store ∧ (v.tile t).keyFail = why ∧
        v.reg (ctxBase i.part + 0x34) = min (u.reg (ctxBase i.part + 0x34) + 1) 0xFFFFFFFF) ∧
      (why = 0 → (v.tile t).keyFail = (if g.segment = 0 then 0 else (u.tile t).keyFail)) ∧
      (v.tile t).passFail = ((if g.segment = 0 then false else (u.tile t).passFail) || d.2.1) := by
  have hkind : g.kind < 4 := by rw [hseg]; exact hk
  have hpart := (opcode_of_issues h).2
  have hgate := sameGate_passStart u t g
  have hnone : ((u.passStart t g).check ((u.passStart t g).tileMaster t) at_ (64 + g.payload) 1).1 = none := by rw [hgate.check, hgate.tileMaster]; exact hc
  obtain ⟨rows, hrun⟩ := (keystream_of_issues h hcalm hg hn hslot hk hseg hat).2 hnone
  obtain ⟨hsc, hbanks⟩ := memScope_passStart_check u t g _ hnone
  have hheld := held_of_memScope hsc (held_passStart hh g)
  have htile := (tile_of_looms hsc.looms t).trans (tile_passStart hh hkind)
  have hreg : ∀ x, ¬ MemRecord x → x ≠ logBase + 4 → _ := fun x hx hl => (hsc.regs x hx hl).trans (reg_passStart u t g x)
  generalize ((u.passStart t g).check ((u.passStart t g).tileMaster t) at_ (64 + g.payload) 1).2 = w at hrun hsc hbanks hheld htile hreg
  obtain ⟨hbytes, hbad, -⟩ := hbanks.devRead 0 at_ (64 + g.payload)
  have hd := memScope_devRead w 0 at_ (64 + g.payload)
  rw [hbytes, hbad] at hrun
  generalize (w.devRead 0 at_ (64 + g.payload)).2.2 = e at hrun hd
  intro d why
  have he := held_of_memScope hd hheld
  have hte := (tile_of_looms hd.looms t).trans htile
  obtain ⟨h1, h2, h3, h4, h5, h6⟩ := streamed_streamEnd he hkind why d.1 d.2.1 hpart
  have hm := runTransfer_idle (t := t) (i := i) (units := ceilDiv (64 + g.payload) 128) rows (by unfold ceilDiv; omega) (by rw [h2, hte]; exact hslot)
  obtain ⟨fl, bs, n, hvt⟩ := hm.tile h1
  rw [hrun] at hv
  injection hv with hv
  have hvt' : v.tile t = _ := (congrArg (fun y : State => y.tile t) hv).symm.trans hvt
  have hvr := hm.scope.regs (ctxBase i.part + 0x34) (by
    unfold issueRegs ctxBase tileBase wellBase logBase
    simp only [List.mem_cons, List.not_mem_nil, or_false]
    omega)
  have her := (hd.regs (ctxBase i.part + 0x34) (by unfold MemRecord ctxBase; omega) (by unfold ctxBase logBase; omega)).trans
    (hreg _ (by unfold MemRecord ctxBase; omega) (by unfold ctxBase logBase; omega))
  rw [hte] at h3 h4 h5 h6
  rw [her] at h6
  rw [hvt', ← hv, hvr]
  exact ⟨h4, h6, h5, h3⟩

end

end Sys2Proof.Machine

namespace Sys2Proof.Machine

open Sys2Proof

/-! ## The steps in the state of their issue -/

theorem load_of_issues {s u : State} {t : TileRef} {i : Issue} (h : Issues s t 0x40 i u) : ∃ rows,
    exec (.load t) s = .next (u.runTransfer t i i.w.count rows (fun j c y => y.loadUnit t i j c)) := by
  show ∃ rows, execLoad t s = _
  unfold execLoad
  rw [execStep_of_issues h]
  exact ⟨_, rfl⟩

theorem store_of_issues {s u : State} {t : TileRef} {i : Issue} (h : Issues s t 0x41 i u) : ∃ rows,
    exec (.store t) s = .next (u.runTransfer t i i.w.count rows (fun j c y => y.unitData t i j c (fun d z => z.sendUnit t i j c d))) := by
  show ∃ rows, execStore t s = _
  unfold execStore
  rw [execStep_of_issues h]
  exact ⟨_, rfl⟩

theorem pump_of_issues {s u : State} {t : TileRef} {i : Issue} (h : Issues s t 0x42 i u) : ∃ rows,
    exec (.pump t) s = .next (u.runTransfer t i i.w.count rows (fun j c y => y.unitData t i j c (fun d z => z.pumpUnit t i j d))) := by
  show ∃ rows, execPump t s = _
  unfold execPump
  rw [execStep_of_issues h]
  exact ⟨_, rfl⟩

theorem send_of_issues {s u : State} {t : TileRef} {i : Issue} (h : Issues s t 0x43 i u) : ∃ rows,
    exec (.tileSend t) s = .next (u.runTransfer t i i.w.count rows (fun j c y => y.unitData t i j c (fun d z => z.sendUnit t i j c d))) := by
  show ∃ rows, execTileSend t s = _
  unfold execTileSend
  rw [execStep_of_issues h]
  exact ⟨_, rfl⟩

theorem keystream_answers {s u : State} {t : TileRef} {i : Issue} (h : Issues s t 0x45 i u) : ∃ v, exec (.keystream t) s = .next v := by
  show ∃ v, execKeystream t s = .next v
  unfold execKeystream
  rw [execStep_of_issues h]
  exact ⟨_, rfl⟩

/-- The steps that move units between a tile and a memory or a pump run their units at their slots. -/
theorem runTransfer_of_issues {s u : State} {t : TileRef} {i : Issue} {op : Nat} {r : Instr}
    (hr : (op, r) ∈ [(0x40, Instr.load t), (0x41, .store t), (0x42, .pump t), (0x43, .tileSend t), (0x46, .turn t)]) (h : Issues s t op i u) :
    ∃ rows f, exec r s = .next (u.runTransfer t i i.w.count rows f) := by
  simp only [List.mem_cons, Prod.mk.injEq, List.not_mem_nil, or_false] at hr
  obtain ⟨rfl, rfl⟩ | ⟨rfl, rfl⟩ | ⟨rfl, rfl⟩ | ⟨rfl, rfl⟩ | ⟨rfl, rfl⟩ := hr
  · obtain ⟨rows, hv⟩ := load_of_issues h
    exact ⟨rows, _, hv⟩
  · obtain ⟨rows, hv⟩ := store_of_issues h
    exact ⟨rows, _, hv⟩
  · obtain ⟨rows, hv⟩ := pump_of_issues h
    exact ⟨rows, _, hv⟩
  · obtain ⟨rows, hv⟩ := send_of_issues h
    exact ⟨rows, _, hv⟩
  · exact ⟨_, _, turn_of_issues h⟩

/-- A step without a slot stands still, and notes since when. -/
theorem stuck_tile {u : State} {t : TileRef} {i : Issue} {units : Nat} (hh : Held u t) (rows : Nat → Nat × Nat × Bool) (f : Nat → Nat → State → Bool × State)
    (hc : slotCycles ((u.tile t).patterns.getD i.w.pattern []) i.at_ units = []) :
    (u.runTransfer t i units rows f).tile t = { u.tile t with stuckSince := some (i.at_, i.idx) } ∧ OnlyWell u (u.runTransfer t i units rows f) t.well := by
  rw [runTransfer_stuck rows f hc]
  exact ⟨tile_modTile_held hh _, (tileScope_modTile u t _ []).wells⟩

/-- A LOAD of one unit from the tile's cistern, whose access is refused, traps. -/
theorem load_traps {u w : State} {t : TileRef} {i : Issue} {c : Nat} {st : Status} (rows : Nat → Nat × Nat × Bool) (hop : i.w.opcode ≠ 0x46) (hg : i.w.ext / 2 ^ 29 = 0)
    (hc : slotCycles ((u.tile t).patterns.getD i.w.pattern []) i.at_ 1 = [c])
    (hk : u.check (u.tileMaster t) (cisAddr t.well (i.w.ext % 2 ^ 21 * 64)) 128 1 = (some st, w)) :
    u.runTransfer t i 1 rows (fun j c y => y.loadUnit t i j c) = w.accessTrap t i st :=
  runTransfer_one_stops rows hc (f := fun j c y => y.loadUnit t i j c) (by
    show u.loadUnit t i 0 c = _
    rw [loadUnit_near hop hg, guarded_refused hk])

/-- Settles O56: each step is one access check and the units of its slots, and every unit changes its own tile and place alone. -/
theorem transferStepsMoveUnits : Obligations.TransferStepsMoveUnits := by
  unfold Obligations.TransferStepsMoveUnits
  intro t i u s hs x b slot near row data land
  refine ⟨fun op r hr h => ?_, fun h => ?_, fun h => ?_, fun h => ?_, fun h => ?_, fun r c till d hr hb => ?_, fun h => ?_, fun h => ?_, fun h => ?_, fun h hp => ?_, fun h => ?_⟩
  · obtain ⟨rows, f, hv⟩ := runTransfer_of_issues hr h
    refine ⟨_, hv, fun hn hc => ?_⟩
    rw [hn]
    exact stuck_tile (held_of_issues h hs) rows f hc
  · obtain ⟨rows, hv⟩ := load_of_issues h
    have hop : i.w.opcode ≠ 0x46 := by rw [(opcode_of_issues h).1]; decide
    refine ⟨_, hv, fun ⟨hg, hn⟩ hslot => ?_⟩
    obtain ⟨c, hc⟩ := slotCycles_one hslot
    rw [hn]
    exact ⟨fun st w hk => load_traps rows hop hg hc hk, fun w hk => load_lands rows (held_of_issues h hs) hop hg hc hk⟩
  · obtain ⟨rows, hv⟩ := store_of_issues h
    have hop : i.w.opcode ≠ 0x46 := by rw [(opcode_of_issues h).1]; decide
    refine ⟨_, hv, fun ⟨hg, hn⟩ hslot hfit hrow hcalm hmute hok hw w hk => ?_⟩
    obtain ⟨c, hc⟩ := slotCycles_one hslot
    rw [hn]
    obtain ⟨hseen, hstore, hwell⟩ := store_writes rows (held_of_issues h hs) hop hg hc hfit hcalm hmute hok hk
    exact ⟨fun a h1 h2 => by rw [hseen, if_pos ⟨h1, h2⟩], fun a ha => by rw [hseen, if_neg (by omega)], hstore, hwell⟩
  · obtain ⟨rows, hv⟩ := pump_of_issues h
    refine ⟨_, hv, fun hn hslot hcalm hservice hkind hr => ?_⟩
    obtain ⟨c, hc⟩ := slotCycles_one hslot
    rw [hn]
    exact pump_hands rows (held_of_issues h hs) hc hcalm hservice hkind hr
  · obtain ⟨rows, hv⟩ := send_of_issues h
    refine ⟨_, hv, fun hn hslot hcalm hmute hg hp ht => ?_⟩
    intro r hne hr
    obtain ⟨c, hc⟩ := slotCycles_one hslot
    rw [hn]
    have hm := send_arrives rows hc hcalm hmute hg hp ht
    refine ⟨fun d left stride ha => inbound_armed hm hne hr (held_of_issues h hs) ha, fun ha c' hc' => ?_⟩
    obtain rfl : c = c' := List.singleton_injective (hc.symm.trans hc')
    exact inbound_unarmed hm hne hr ha
  · exact ⟨settlePort_drops hr hb, settlePort_waits hb⟩
  · refine ⟨_, recv_of_issues h, recvRun_arms (held_of_issues h hs), fun c d hb hc _ => recvRun_lands (held_of_issues h hs) hb hc⟩
  · refine ⟨_, turn_of_issues h, fun hn hslot hrow => ?_⟩
    intro k base nc nr hnr a c p q w w' hka hkc hga hgc
    obtain ⟨cy, hcy⟩ := slotCycles_one hslot
    rw [hn]
    exact turn_lands _ (held_of_issues h hs) hcy hrow (by rw [turnBucket_zero]) (by rw [turnBucket_one hnr]) (congrArg Prod.fst hka) (congrArg Prod.fst hkc) hga hgc
  · refine ⟨_, stepfetch_of_issues h, fun hk => ⟨fun c hc => ?_, fun hc => ⟨?_, steps_fetched (held_of_issues h hs) hc _ _⟩⟩⟩
    · rw [halves_fetched (held_of_issues h hs) i hk, hc]
    · rw [halves_fetched (held_of_issues h hs) i hk, hc]
      rfl
  · refine ⟨_, rngRead_of_issues h, ?_, ?_, fun c hc => ?_, fun w hw => ?_⟩
    · rw [State.modDrbg_tile, tile_modTile_held (held_of_issues h hs)]
    · rw [State.drbg_modDrbg, if_pos ⟨rfl, hp⟩]
      rfl
    · rw [State.drbg_modDrbg, if_neg (fun hx => hc hx.1)]
      rfl
    · rw [State.modDrbg_well]
      exact (tileScope_modTile u t _ []).wells w hw
  · obtain ⟨v, hv⟩ := keystream_answers h
    refine ⟨v, hv, fun hcalm ⟨hg, hn⟩ hslot hk => ?_⟩
    exact ⟨fun st w hc => keystream_refused h hv (held_of_issues h hs) hcalm hg hn hslot hk rfl rfl (congrArg Prod.fst hc),
      fun w hc => keystream_ends h hv (held_of_issues h hs) hcalm hg hn hslot hk rfl rfl (congrArg Prod.fst hc)⟩

end Sys2Proof.Machine

namespace Sys2Proof.Machine

open Sys2Proof

/-! ## What the round of a partition leaves alone -/

/-- The other partitions, the floor plan, access control, Lantus, power and the host link. -/
def State.beyond (s : State) (p : Nat) : List Partition × FloorPlan × Access × Lantus × Power × HostIf :=
  (updAt s.parts p (fun _ => {}), s.plan, s.access, s.lantus, s.power, s.host)

theorem updAt_updAt_of_absorbs {α : Type} (l : List α) (i : Nat) {f g : α → α} (h : ∀ x, g (f x) = g x) : updAt (updAt l i f) i g = updAt l i g := by
  induction l generalizing i with
  | nil => rfl
  | cons x xs ih =>
    cases i with
    | zero => exact congrArg (· :: xs) (h x)
    | succ i => exact congrArg (x :: ·) (ih i)

/-- What keeps everything beyond a partition touches that partition alone. -/
theorem partScope_of_beyond {s t : State} {p : Nat} (h : t.beyond p = s.beyond p) : PartScope s t p where
  others q hq := by
    have hl := congrArg (fun g => g.1.getD q {}) h
    simp only [State.beyond, updAt_getD, hq, false_and, if_false] at hl
    exact hl
  length := by
    have hl := congrArg (fun g => g.1.length) h
    simpa only [State.beyond, updAt_length] using hl
  plan := congrArg (fun g => g.2.1) h
  access := congrArg (fun g => g.2.2.1) h
  lantus := congrArg (fun g => g.2.2.2.1) h
  power := congrArg (fun g => g.2.2.2.2.1) h

theorem host_of_beyond {s t : State} {p : Nat} (h : t.beyond p = s.beyond p) : t.host = s.host := congrArg (fun g => g.2.2.2.2.2) h

theorem wellsOf_of_beyond {s t : State} {p : Nat} (h : t.beyond p = s.beyond p) (q : Nat) : t.wellsOf q = s.wellsOf q :=
  wellsOf_of_access (partScope_of_beyond h).access q

theorem length_of_beyond {s t : State} {p : Nat} (h : t.beyond p = s.beyond p) (hp : p < s.parts.length) : p < t.parts.length :=
  (partScope_of_beyond h).length.symm ▸ hp

@[simp] theorem each_beyond {α : Type} (s : State) (p : Nat) (l : List α) (f : State → α → State) (h : ∀ t a, (f t a).beyond p = t.beyond p) :
    (s.each l f).beyond p = s.beyond p := each_kept (fun t => t.beyond p) s l f (fun a _ t => h t a)

@[simp] theorem beyond_ite (c : Prop) [Decidable c] (a b : State) (p : Nat) : (if c then a else b).beyond p = if c then a.beyond p else b.beyond p := by
  split <;> rfl

@[simp] theorem modPart_beyond (s : State) (p : Nat) (f : Partition → Partition) : (s.modPart p f).beyond p = s.beyond p := by
  have h : updAt (updAt s.parts p f) p (fun _ => {}) = updAt s.parts p (fun _ => {}) := updAt_updAt_of_absorbs _ _ (fun _ => rfl)
  exact congrArg (·, s.plan, s.access, s.lantus, s.power, s.host) h

@[simp] theorem modRound_beyond (s : State) (p : Nat) (f : Round → Round) : (s.modRound p f).beyond p = s.beyond p := modPart_beyond _ _ _
@[simp] theorem modWell_beyond (s : State) (p w : Nat) (f : Well → Well) : (s.modWell w f).beyond p = s.beyond p := rfl
@[simp] theorem modTile_beyond (s : State) (p : Nat) (t : TileRef) (f : Tile → Tile) : (s.modTile t f).beyond p = s.beyond p := rfl
@[simp] theorem modQp_beyond (s : State) (p n : Nat) (f : Qp → Qp) : (s.modQp n f).beyond p = s.beyond p := rfl
@[simp] theorem startCmd_beyond (s : State) (p : Nat) (c : CmdRef) : (s.startCmd c).beyond p = s.beyond p := rfl
@[simp] theorem setReg_beyond (s : State) (p x v : Nat) : (s.setReg x v).beyond p = s.beyond p := rfl
@[simp] theorem setReg64_beyond (s : State) (p x v : Nat) : (s.setReg64 x v).beyond p = s.beyond p := rfl
@[simp] theorem setBits_beyond (s : State) (p x hi lo v : Nat) : (s.setBits x hi lo v).beyond p = s.beyond p := rfl
@[simp] theorem countBy_beyond (s : State) (p x n : Nat) : (s.countBy x n).beyond p = s.beyond p := rfl

@[simp] theorem raise_beyond (s : State) (p code part src : Nat) (l : List (Nat × Nat)) : (s.raise code part src l).beyond p = s.beyond p := by
  rw [State.raise_eq]
  rfl

@[simp] theorem msix_beyond (s : State) (p f v : Nat) : (s.msix f v).beyond p = s.beyond p := by
  rw [State.msix_eq]
  rfl

@[simp] theorem hostWrite_beyond (s : State) (p f a : Nat) (b : Bytes) : (s.hostWrite f a b).beyond p = s.beyond p := by
  rw [State.hostWrite_eq]
  rfl

@[simp] theorem complete_beyond (s : State) (p : Nat) (c : Cmd) (st : Status) (result detail : Nat) : (s.complete c st result detail).beyond p = s.beyond p := by
  rw [State.complete_eq]
  rfl

@[simp] theorem roundInt_beyond (s : State) (p q b : Nat) : (s.roundInt q b).beyond p = s.beyond p := by simp [State.roundInt]

/-! ## Queue entries given to waiting windlasses (R209) -/

/-- A partition but for its queue and the messages that have not been taken from it. -/
def Partition.hold (x : Partition) : Partition := { x with queue := [], accepted := [], acceptedTaken := false }

/-- A partition of the state but for its queue. -/
def State.standing (s : State) (p : Nat) : Partition := (s.part p).hold

theorem hold_messageTaken (x : Partition) : x.messageTaken.hold = x.hold := by
  unfold Partition.messageTaken
  split <;> rfl

/-- Taking an entry changes the queue of the partition and one tile. -/
theorem takeEntry_eq (s : State) (p : Nat) (r : TileRef) (e : QEntry) (dst : Nat) :
    ∃ g h, (∀ x : Partition, (g x).hold = x.hold) ∧ s.takeEntry p r e dst = (s.modPart p g).modTile r h := by
  refine ⟨_, _, fun x => ?_, rfl⟩
  simp only [apply_ite Partition.hold, hold_messageTaken, ite_self]
  rfl

/-- What a change of a partition's queue and a change of one of its tiles keep, serving the waiting windlasses keeps. -/
theorem serveWaits_invariant {P : State → Prop} {s : State} {p : Nat} (hs : P s)
    (hpart : ∀ t (g : Partition → Partition), (∀ x, (g x).hold = x.hold) → P t → P (t.modPart p g))
    (htile : ∀ r ∈ s.tilesOf p, ∀ t f, P t → P (t.modTile r f)) : P (s.serveWaits p) := by
  refine each_invariant hs (fun r hr t ht => ?_)
  split
  · split
    · exact htile r hr t _ ht
    · exact ht
  · split
    · split
      · rename_i e _
        obtain ⟨g, h, hg, heq⟩ := takeEntry_eq t p r e ‹Nat›
        rw [heq]
        exact htile r hr _ _ (htile r hr _ _ (hpart t g hg ht))
      · exact ht
    · exact ht
  · exact ht

end Sys2Proof.Machine

namespace Sys2Proof.Machine

open Sys2Proof

@[simp] theorem serveWaits_beyond (s : State) (p : Nat) : (s.serveWaits p).beyond p = s.beyond p :=
  serveWaits_invariant (P := fun t => t.beyond p = s.beyond p) rfl (fun t g _ h => (modPart_beyond t p g).trans h) (fun _ _ _ _ h => h)

@[simp] theorem serveWaits_qps (s : State) (p : Nat) : (s.serveWaits p).qps = s.qps :=
  serveWaits_invariant (P := fun t => t.qps = s.qps) rfl (fun _ _ _ h => h) (fun _ _ _ _ h => h)

@[simp] theorem serveWaits_cmds (s : State) (p : Nat) : (s.serveWaits p).cmds = s.cmds :=
  serveWaits_invariant (P := fun t => t.cmds = s.cmds) rfl (fun _ _ _ h => h) (fun _ _ _ _ h => h)

@[simp] theorem serveWaits_reg (s : State) (p x : Nat) : (s.serveWaits p).reg x = s.reg x :=
  serveWaits_invariant (P := fun t => t.reg x = s.reg x) rfl (fun _ _ _ h => h) (fun _ _ _ _ h => h)

theorem standing_modPart {s : State} {p : Nat} {g : Partition → Partition} (hg : ∀ x, (g x).hold = x.hold) : (s.modPart p g).standing p = s.standing p := by
  rw [State.standing, State.part_modPart]
  split
  · exact hg _
  · rfl

theorem standing_modRound {s : State} {p : Nat} (f : Round → Round) (hp : p < s.parts.length) :
    (s.modRound p f).standing p = { s.standing p with round := f (s.round p) } := by
  rw [State.standing, State.modRound, part_modPart_self _ hp]
  rfl

@[simp] theorem serveWaits_standing (s : State) (p : Nat) : (s.serveWaits p).standing p = s.standing p :=
  serveWaits_invariant (P := fun t => t.standing p = s.standing p) rfl (fun _ _ hg h => (standing_modPart hg).trans h) (fun _ _ _ _ h => h)

theorem well_of_mem_tilesOf {s : State} {p : Nat} {r : TileRef} (h : r ∈ s.tilesOf p) : r.well ∈ s.wellsOf p := by
  simp only [State.tilesOf, List.mem_flatMap, List.mem_map] at h
  obtain ⟨w, hw, t, -, rfl⟩ := h
  exact hw

theorem wellScope_modTile (s : State) {r : TileRef} {ws : List Nat} (h : r.well ∈ ws) (f : Tile → Tile) : WellScope s (s.modTile r f) ws :=
  wellScope_modWell s h (fun _ => ⟨rfl, rfl, rfl⟩)

theorem serveWaits_wells (s : State) (p : Nat) : WellScope s (s.serveWaits p) (s.wellsOf p) :=
  serveWaits_invariant (P := fun t => WellScope s t (s.wellsOf p)) (wellScope_of_wells rfl _)
    (fun t g _ h => h.trans (wellScope_of_wells (State.modPart_wells t p g) _))
    (fun _ hr t f h => h.trans (wellScope_modTile t (well_of_mem_tilesOf hr) f))

/-! ## Entering a state (R84, R85, R209) -/

@[simp] theorem raise_standing (s : State) (p code part src : Nat) (l : List (Nat × Nat)) : (s.raise code part src l).standing p = s.standing p :=
  congrArg Partition.hold (State.raise_part _ _ _ _ _ _)

theorem State.roundInt_eq (s : State) (p b : Nat) :
    s.roundInt p b = { s.setBits (rndBase p + 0x48) b b 1 with fns := (s.roundInt p b).fns, out := (s.roundInt p b).out } := by
  unfold State.roundInt
  dsimp only
  split
  · rw [State.msix_eq]
  · rfl

@[simp] theorem roundInt_part (s : State) (p b q : Nat) : (s.roundInt p b).part q = s.part q := by
  rw [State.roundInt_eq]
  rfl

@[simp] theorem roundInt_round (s : State) (p b q : Nat) : (s.roundInt p b).round q = s.round q := congrArg Partition.round (roundInt_part s p b q)

@[simp] theorem roundInt_standing (s : State) (p b : Nat) : (s.roundInt p b).standing p = s.standing p := congrArg Partition.hold (roundInt_part s p b p)

@[simp] theorem roundInt_qps (s : State) (p b : Nat) : (s.roundInt p b).qps = s.qps := by
  rw [State.roundInt_eq]
  rfl

@[simp] theorem roundInt_cmds (s : State) (p b : Nat) : (s.roundInt p b).cmds = s.cmds := by
  rw [State.roundInt_eq]
  rfl

@[simp] theorem roundInt_wells (s : State) (p b : Nat) : (s.roundInt p b).wells = s.wells := by
  rw [State.roundInt_eq]
  rfl

theorem reg_roundInt (s : State) (p b : Nat) {x : Nat} (h : x ≠ rndBase p + 0x48) : (s.roundInt p b).reg x = s.reg x := by
  rw [State.roundInt_eq]
  exact State.reg_setBits_ne s _ _ _ _ _ h

/-- The registers that a change of the round's state sets: the interrupt status and the log's drop counter. -/
def stateRegs (p : Nat) : List Nat := [rndBase p + 0x48, logBase + 4]

theorem OnlyRegs.trans {s t u : State} {l : List Nat} (h : OnlyRegs s t l) (k : OnlyRegs t u l) : OnlyRegs s u l :=
  fun x hx => (k x hx).trans (h x hx)

theorem onlyRegs_raise (s : State) {l : List Nat} (hl : logBase + 4 ∈ l) (code part src : Nat) (m : List (Nat × Nat)) :
    OnlyRegs s (s.raise code part src m) l :=
  fun _ hx => State.reg_raise _ _ _ _ _ _ (fun h => hx (h ▸ hl))

theorem onlyRegs_roundInt (s : State) (p b : Nat) : OnlyRegs s (s.roundInt p b) (stateRegs p) :=
  fun _ hx => reg_roundInt _ _ _ (fun h => hx (h ▸ List.mem_cons_self))

/-- A round enters a state: its state and its record of states entered change, the windlasses that wait are served, and nothing else of the partition. -/
structure Enters (s t : State) (p : Nat) (st : RoundState) : Prop where
  beyond : t.beyond p = s.beyond p
  qps : t.qps = s.qps
  cmds : t.cmds = s.cmds
  wells : WellScope s t (s.wellsOf p)
  regs : OnlyRegs s t (stateRegs p)
  standing : ∃ l, t.standing p = { s.standing p with round := { s.round p with state := st, entered := l } }

/-- The state of a round that is shown: its registers, its interrupt and its event. -/
theorem showState_shows (s : State) {p : Nat} (st : RoundState) (hp : p < s.parts.length) :
    (s.showState p st).beyond p = s.beyond p ∧ (s.showState p st).qps = s.qps ∧ (s.showState p st).cmds = s.cmds ∧ (s.showState p st).wells = s.wells ∧
      OnlyRegs s (s.showState p st) (stateRegs p) ∧ (s.showState p st).standing p = { s.standing p with round := { s.round p with state := st } } := by
  have hold : ∀ c : Prop, ∀ [Decidable c], ∃ v : State, v = (if c then s.modPart p (fun x => { x with accepted := [], acceptedTaken := false }) else s) ∧
      v.beyond p = s.beyond p ∧ v.qps = s.qps ∧ v.cmds = s.cmds ∧ v.wells = s.wells ∧ v.regs = s.regs ∧ v.standing p = s.standing p ∧ v.round p = s.round p := by
    intro c _
    refine ⟨_, rfl, ?_⟩
    split
    · refine ⟨modPart_beyond _ _ _, rfl, rfl, rfl, rfl, standing_modPart (fun _ => rfl), ?_⟩
      rw [State.round, State.part_modPart]
      split <;> rfl
    · exact ⟨rfl, rfl, rfl, rfl, rfl, rfl, rfl⟩
  unfold State.showState
  dsimp only
  obtain ⟨v, hv, hb, hq, hc, hw, hr, hs, hround⟩ := hold ((s.round p).state = .settle ∨ (s.round p).state = .combine)
  rw [← hv]
  refine ⟨by simp [hb], by simp [hq], by simp [hc], by simp [hw], ?_, ?_⟩
  · have h0 : OnlyRegs s (v.modRound p (fun r => { r with state := st })) (stateRegs p) := fun x _ => by simp only [State.reg, State.regW, State.modRound_regs, hr]
    exact (h0.trans (onlyRegs_roundInt _ _ _)).trans (onlyRegs_raise _ (by simp [stateRegs]) _ _ _ _)
  · rw [raise_standing, roundInt_standing, standing_modRound _ (length_of_beyond hb hp), hs, hround]

theorem releaseState_enters {s t : State} {p : Nat} {st : RoundState} (hp : p < s.parts.length) (hb : t.beyond p = s.beyond p) (hq : t.qps = s.qps)
    (hc : t.cmds = s.cmds) (hw : t.wells = s.wells) (hr : OnlyRegs s t (stateRegs p))
    (hs : t.standing p = { s.standing p with round := { s.round p with state := st } }) : Enters s (t.releaseState p) p st where
  beyond := by simp [State.releaseState, hb]
  qps := by simp [State.releaseState, hq]
  cmds := by simp [State.releaseState, hc]
  wells := by
    have h := serveWaits_wells (t.modRound p (fun r => { r with entered := insertNat r.state.code r.entered })) p
    rw [State.modRound_wellsOf, wellsOf_of_beyond hb] at h
    exact (wellScope_of_wells (t := t.modRound p _) hw _).trans h
  regs := hr.trans (fun x _ => by simp [State.releaseState])
  standing := by
    have hround : t.round p = { s.round p with state := st } := congrArg Partition.round hs
    refine ⟨insertNat st.code (s.round p).entered, ?_⟩
    rw [State.releaseState, serveWaits_standing, standing_modRound _ (length_of_beyond hb hp), hs, hround]

theorem enterState_enters (s : State) {p : Nat} (st : RoundState) (hp : p < s.parts.length) : Enters s (s.enterState p st) p st := by
  obtain ⟨hb, hq, hc, hw, hr, hs⟩ := showState_shows s st hp
  exact releaseState_enters hp hb hq hc hw hr hs

theorem Enters.round {s t : State} {p : Nat} {st : RoundState} (h : Enters s t p st) : ∃ l, t.round p = { s.round p with state := st, entered := l } := by
  obtain ⟨l, hl⟩ := h.standing
  exact ⟨l, congrArg Partition.round hl⟩

/-! ## The end of INTAKE (R49) -/

theorem checkClosing_cases (s : State) (p : Nat) : s.checkClosing p = s ∨ s.checkClosing p = s.modRound p (fun x => { x with cutDue := true }) := by
  unfold State.checkClosing
  dsimp only
  split
  · exact .inr rfl
  · exact .inl rfl

/-- A closing cut that is called is noted in the round alone. -/
structure NotesCut (s t : State) (p : Nat) : Prop where
  beyond : t.beyond p = s.beyond p
  frame : t = { s with parts := t.parts }
  slots : (t.part p).slotsFree = (s.part p).slotsFree
  round : ∃ d, t.round p = { s.round p with cutDue := d }

theorem checkClosing_notesCut (s : State) {p : Nat} (hp : p < s.parts.length) : NotesCut s (s.checkClosing p) p := by
  obtain h | h := checkClosing_cases s p
  · rw [h]
    exact ⟨rfl, rfl, rfl, _, rfl⟩
  · rw [h]
    refine ⟨modRound_beyond _ _ _, rfl, ?_, true, ?_⟩
    · rw [State.modRound, part_modPart_self _ hp]
    · rw [State.round_modRound, if_pos ⟨rfl, hp⟩]

/-- INTAKE has closed: of the round only its state, its record of states and the cuts it calls have changed. -/
structure Closes (s t : State) (p : Nat) : Prop where
  beyond : t.beyond p = s.beyond p
  qps : t.qps = s.qps
  regs : OnlyRegs s t (stateRegs p)
  round : ∃ l d, t.round p = { s.round p with state := .closing, entered := l, cutDue := d, closeDue := false }

theorem closeIntake_closes {s : State} {p : Nat} (trigger : Nat) (hp : p < s.parts.length) (hst : (s.round p).state = .intake)
    (hab : (s.round p).abortPending = false) : Closes s (s.closeIntake p trigger) p := by
  obtain ⟨m, heq⟩ : ∃ m, s.closeIntake p trigger =
      (((s.modRound p (fun x => { x with closeDue := false, cutDue := false })).enterState p .closing).raise 0x0103 p 0 m).checkClosing p :=
    ⟨_, if_pos ⟨hst, by simp [hab]⟩⟩
  have he := enterState_enters (s.modRound p (fun x => { x with closeDue := false, cutDue := false })) .closing (length_of_beyond (modRound_beyond s p _) hp)
  obtain ⟨l, hl⟩ := he.round
  have hb := he.beyond.trans (modRound_beyond s p _)
  rw [heq]
  generalize (s.modRound p (fun x => { x with closeDue := false, cutDue := false })).enterState p .closing = v at he hl hb ⊢
  have hr := (show OnlyRegs s v (stateRegs p) from he.regs).trans (onlyRegs_raise v (by simp [stateRegs]) 0x0103 p 0 m)
  have hn := checkClosing_notesCut (v.raise 0x0103 p 0 m) (length_of_beyond ((raise_beyond _ _ _ _ _ _).trans hb) hp)
  obtain ⟨d, hd⟩ := hn.round
  refine ⟨hn.beyond.trans (by simp [hb]), ?_, hr.trans (fun x _ => ?_), l, d, ?_⟩
  · rw [hn.frame]
    simpa using he.qps
  · rw [hn.frame]
    rfl
  · rw [hd, State.raise_round, hl, State.round_modRound, if_pos ⟨rfl, hp⟩]

end Sys2Proof.Machine

namespace Sys2Proof.Machine

open Sys2Proof

/-! ## ROUND_CLOSE_INTAKE and INTAKE_CLOSE_TIME (R49, R518) -/

/-- A command of a partition that may start on a formed partition runs. -/
theorem partCmd_runs {s : State} {c : CmdRef} {op : Nat} {k : Cmd} (hr : s.ready c op = some k) (hf : s.formed k.part = true) (f : Cmd → Result) :
    s.partCmd c op f = f k := by
  simp [State.partCmd, hr, hf]

theorem closeIntake_waits {s : State} {p : Nat} (trigger : Nat) (h : (s.round p).abortPending = true) : s.closeIntake p trigger = s := by
  simp [State.closeIntake, h]

theorem roundCloseIntake_intake {s : State} {c : CmdRef} {k : Cmd} (hr : s.ready c 0x02 = some k) (hf : s.formed k.part = true)
    (hst : (s.round k.part).state = .intake) : exec (.roundCloseIntake c) s = .next ((s.closeIntake k.part 0).complete k .ok 0 0) :=
  (partCmd_runs hr hf _).trans (if_pos hst)

theorem roundCloseIntake_elsewhere {s : State} {c : CmdRef} {k : Cmd} (hr : s.ready c 0x02 = some k) (hf : s.formed k.part = true)
    (hst : (s.round k.part).state ≠ .intake) : exec (.roundCloseIntake c) s = .next (s.complete k .state 0 0) :=
  (partCmd_runs hr hf _).trans (if_neg hst)

theorem complete_round (s : State) (c : Cmd) (st : Status) (result detail p : Nat) : (s.complete c st result detail).round p = s.round p := by
  rw [State.complete_eq]
  rfl

/-- Settles O7: both triggers end in `State.closeIntake`, which leaves a round that waits for its ROUND_ABORT as it is. -/
theorem intakeCloses : Obligations.IntakeCloses := by
  unfold Obligations.IntakeCloses
  refine ⟨fun c k s hr hf hp hst hab => ?_, fun c k s hr hf hst => roundCloseIntake_elsewhere hr hf hst, fun c k s hr hf hst hab => ?_, fun p s hab => ?_,
    fun p s ha hp hst ht hab => ?_, fun p s h => ?_⟩
  · have hc := closeIntake_closes 0 hp hst hab
    have hs := partScope_of_beyond hc.beyond
    obtain ⟨l, d, hround⟩ := hc.round
    refine ⟨_, roundCloseIntake_intake hr hf hst, ?_, ?_, ?_, ?_, hs.others, hc.qps, hs.lantus, hs.power⟩ <;> rw [hround]
  · refine ⟨_, roundCloseIntake_intake hr hf hst, ?_⟩
    rw [closeIntake_waits 0 hab, complete_round, hst]
  · show execIntakeCloseTime p s = _
    unfold execIntakeCloseTime
    rw [closeIntake_waits 1 hab, ite_self]
  · have hc := closeIntake_closes 1 hp hst hab
    have hs := partScope_of_beyond hc.beyond
    obtain ⟨l, d, hround⟩ := hc.round
    refine ⟨_, if_pos ⟨ha, hst, ht⟩, ?_, ?_, ?_, ?_, hs.others, hc.qps, hs.lantus, hs.power⟩ <;> rw [hround]
  · refine if_neg (fun hc => ?_)
    obtain ⟨-, hst, ht⟩ := hc
    exact h.elim (fun hne => hne hst) (fun hlt => absurd ht (not_le.mpr hlt))

/-! ## The descriptor tests (R46) -/

theorem descStatus_format_iff (s : State) (p : Nat) (b : Bytes) : s.descStatus p b = .format ↔ s.descFormatBad p b = true := by
  unfold State.descStatus
  split
  · simp [*]
  · (repeat' split) <;> simp [*]

theorem descStatus_of_formatOk {s : State} {p : Nat} {b : Bytes} (h : s.descFormatBad p b = false) :
    s.descStatus p b = if s.descLengthBad p (descriptorOf b) then .lengthExceeds else if s.descStateBad p (descriptorOf b) then .state else .ok := by
  simp [State.descStatus, h]

theorem descStatus_lengthExceeds_iff (s : State) (p : Nat) (b : Bytes) :
    s.descStatus p b = .lengthExceeds ↔ s.descFormatBad p b = false ∧ s.descLengthBad p (descriptorOf b) = true := by
  cases hf : s.descFormatBad p b
  · rw [descStatus_of_formatOk hf]
    split
    · simp [*]
    · split <;> simp [*]
  · simp [(descStatus_format_iff s p b).mpr hf]

/-- After the FORMAT and range tests the third test alone decides. -/
theorem descStatus_last_iff (s : State) (p : Nat) (b : Bytes) (bad : Bool) :
    s.descStatus p b = (if bad then .state else .ok) ↔
      s.descFormatBad p b = false ∧ s.descLengthBad p (descriptorOf b) = false ∧ s.descStateBad p (descriptorOf b) = bad := by
  cases hf : s.descFormatBad p b
  · rw [descStatus_of_formatOk hf]
    cases hl : s.descLengthBad p (descriptorOf b)
    · cases hs : s.descStateBad p (descriptorOf b) <;> cases bad <;> simp
    · cases bad <;> simp
  · rw [(descStatus_format_iff s p b).mpr hf]
    cases bad <;> simp

theorem descStateBad_iff (s : State) (p : Nat) (d : Descriptor) :
    s.descStateBad p d = true ↔ (s.round p).state.busy = true ∨ d.roundId ≤ (s.round p).lastRoundId ∨ d.intakeClose ≤ s.devtime := by
  simp [State.descStateBad, or_assoc]

theorem descFormatBad_of_mode {s : State} {p : Nat} {b : Bytes} (h : (descriptorOf b).mode = .none) : s.descFormatBad p b = true := by
  simp [State.descFormatBad, h]

theorem descFormatBad_of_width {s : State} {p : Nat} {b : Bytes} (hm : (descriptorOf b).mode = .m) (hw : legalWidth (descriptorOf b).ringWidth = false) :
    s.descFormatBad p b = true := by
  simp [State.descFormatBad, hm, hw]

theorem descLengthBad_of_cohort {s : State} {p : Nat} {d : Descriptor} (h : d.cohort = 0 ∨ d.cohort < d.threshold) : s.descLengthBad p d = true := by
  rcases h with h | h
  · simp [State.descLengthBad, inRange, h]
  · simp [State.descLengthBad, inRange, Nat.not_le.mpr h]

/-- Settles O6: the status of a descriptor is the first test that fails, and each fault named is one of the tests of R46. -/
theorem descriptorTestOrder : Obligations.DescriptorTestOrder := by
  unfold Obligations.DescriptorTestOrder
  intro s p b
  have hformat : s.descFormatBad p b = true → s.descStatus p b = .format := (descStatus_format_iff s p b).mpr
  refine ⟨descStatus_format_iff s p b, descStatus_lengthExceeds_iff s p b, ?_, ?_, fun h => hformat ?_, fun h => hformat ?_, fun h => hformat ?_, fun hm hw => hformat ?_,
    fun hf hl => (descStatus_lengthExceeds_iff s p b).mpr ⟨hf, descLengthBad_of_cohort hl⟩⟩
  · rw [← descStateBad_iff]
    exact descStatus_last_iff s p b true
  · have h := descStatus_last_iff s p b false
    rw [if_neg Bool.false_ne_true] at h
    rw [h, Bool.eq_false_iff (b := s.descStateBad _ _), Ne, descStateBad_iff]
    simp [not_or]
  · simp [State.descFormatBad, descriptorOf, h]
  · refine descFormatBad_of_mode ?_
    simp [descriptorOf, h.1, h.2]
  · simp [State.descFormatBad, h]
  · refine descFormatBad_of_width (by simp [descriptorOf, hm]) ?_
    simp [legalWidth, descriptorOf, hw]

/-! ## The state after power-on reset (R503, R511) -/

theorem getD_replicate_self {α : Type} (n i : Nat) (d : α) : (List.replicate n d).getD i d = d := by
  rw [List.getD_eq_getElem?_getD, List.getElem?_getD_replicate_default_eq]

theorem reset_part (p : Nat) : State.reset.part p = {} := getD_replicate_self _ _ _
theorem reset_well (w : Nat) : State.reset.well w = {} := getD_replicate_self _ _ _

theorem reset_queue (fn q : Nat) : State.reset.queue fn q = {} := by
  have hfn : State.reset.fn fn = {} := getD_replicate_self _ _ _
  rw [State.queue, hfn]
  exact getD_replicate_self _ _ _

/-- A well without contents has the form that `Well.cisOk` asks for. -/
theorem cisOk_empty : ({} : Well).cisOk := ⟨Mem.wf_nil, List.Pairwise.nil, nofun⟩

/-- Slots 0 and 1 are written in manufacture, no other (R391). -/
theorem reset_slots : ∀ k < 64, attrState (State.reset.slot k).attrWord ≠ 0 ↔ k < 2 := by decide

/-- Settles O58: every part of the reset state is its type's default but for the access tables and key slots 0 and 1. -/
theorem resetStateValues : Obligations.ResetStateValues := by
  unfold Obligations.ResetStateValues
  refine ⟨rfl, rfl, rfl, rfl, rfl, fun p => ?_, rfl, fun fn q => ?_, fun n => ?_, fun b => ?_, rfl, rfl, reset_slots, rfl, rfl, fun x => rfl, fun w => ?_, ?_⟩
  · rw [reset_part]
    exact ⟨rfl, rfl, rfl⟩
  · rw [reset_queue]
  · exact congrArg Source.state (getD_replicate_self 25 n {})
  · exact congrArg Drbg.state (getD_replicate_self 25 b {})
  · rw [reset_well]
    exact cisOk_empty
  · unfold State.withinLimits
    decide

end Sys2Proof.Machine

namespace Sys2Proof.Machine

open Sys2Proof

/-! ## Records for the queue pairs of a partition (R324, R347, R517) -/

/-- The registers that records of a partition count in: its event ring, its lost records and the log's drop counter. -/
def ringRegs (p : Nat) : List Nat := [stlpBase p + 0x14, stlpBase p + 0x1C, stlpBase p + 0x34, stlpBase p + 0x38, logBase + 4]

/-- What records of a partition leave alone but for the uploads that an ended queue pair abandons: everything beyond the partition, commands, wells,
its round and free slots, and every register outside its ring. -/
def State.ledger (s : State) (p : Nat) :
    (List Partition × FloorPlan × Access × Lantus × Power × HostIf) × List Cmd × List Well × Round × List Nat × (Nat → Nat) :=
  (s.beyond p, s.cmds, s.wells, s.round p, (s.part p).slotsFree, fun x => if x ∈ ringRegs p then 0 else s.reg x)

theorem ledger_of_regs {s t : State} {p : Nat} (ht : t = { s with regs := t.regs, fresh := t.fresh, log := t.log }) (hr : OnlyRegs s t (ringRegs p)) :
    t.ledger p = s.ledger p := by
  have hregs : (fun x => if x ∈ ringRegs p then 0 else t.reg x) = fun x => if x ∈ ringRegs p then 0 else s.reg x := by
    funext x
    split
    · rfl
    · rename_i hx
      exact hr x hx
  rw [State.ledger, hregs, ht]
  rfl

@[simp] theorem each_ledger {α : Type} (s : State) (p : Nat) (l : List α) (f : State → α → State) (h : ∀ t a, (f t a).ledger p = t.ledger p) :
    (s.each l f).ledger p = s.ledger p := each_kept (fun t => t.ledger p) s l f (fun a _ t => h t a)

@[simp] theorem modQp_ledger (s : State) (p n : Nat) (f : Qp → Qp) : (s.modQp n f).ledger p = s.ledger p := rfl
@[simp] theorem modPort_ledger (s : State) (p n : Nat) (f : Port → Port) : (s.modPort n f).ledger p = s.ledger p := rfl
@[simp] theorem emit_ledger (s : State) (p : Nat) (o : Output) : (s.emit o).ledger p = s.ledger p := rfl

@[simp] theorem msix_ledger (s : State) (p f v : Nat) : (s.msix f v).ledger p = s.ledger p := by
  rw [State.msix_eq]
  rfl

@[simp] theorem hostWrite_ledger (s : State) (p f a : Nat) (b : Bytes) : (s.hostWrite f a b).ledger p = s.ledger p := by
  rw [State.hostWrite_eq]
  rfl

@[simp] theorem raise_ledger (s : State) (p code part src : Nat) (l : List (Nat × Nat)) : (s.raise code part src l).ledger p = s.ledger p :=
  ledger_of_regs (State.raise_eq _ _ _ _ _) (onlyRegs_raise s (by simp [ringRegs]) _ _ _ _)

theorem setReg_ledger (s : State) {p x : Nat} (v : Nat) (h : x ∈ ringRegs p) : (s.setReg x v).ledger p = s.ledger p :=
  ledger_of_regs rfl (fun _ hy => State.reg_setReg_ne _ _ _ _ (fun hyx => hy (hyx ▸ h)))

theorem setBits_ledger (s : State) {p x : Nat} (hi lo v : Nat) (h : x ∈ ringRegs p) : (s.setBits x hi lo v).ledger p = s.ledger p :=
  ledger_of_regs rfl (fun _ hy => State.reg_setBits_ne _ _ _ _ _ _ (fun hyx => hy (hyx ▸ h)))

theorem countBy_ledger (s : State) {p x : Nat} (n : Nat) (h : x ∈ ringRegs p) : (s.countBy x n).ledger p = s.ledger p :=
  ledger_of_regs rfl (fun y hy => by
    rw [State.reg_countBy, if_neg]
    rintro rfl
    exact hy h)

theorem modPart_ledger (s : State) (p : Nat) {f : Partition → Partition} (hr : ∀ x, (f x).round = x.round) (hf : ∀ x, (f x).slotsFree = x.slotsFree) :
    (s.modPart p f).ledger p = s.ledger p := by
  have h : ((s.modPart p f).part p).round = (s.part p).round ∧ ((s.modPart p f).part p).slotsFree = (s.part p).slotsFree := by
    rw [State.part_modPart]
    split
    · exact ⟨hr _, hf _⟩
    · exact ⟨rfl, rfl⟩
  simp only [State.ledger, State.round, modPart_beyond, h]
  rfl

@[simp] theorem ringWrite_ledger (s : State) (p : Nat) (rec : Bytes) : (s.ringWrite p rec).ledger p = s.ledger p := by
  unfold State.ringWrite
  rw [msix_ledger, setReg_ledger _ _ (by simp [ringRegs]), hostWrite_ledger]

@[simp] theorem eventRecord_ledger (s : State) (p kind : Nat) (st : Status) (object a b : Nat) : (s.eventRecord p kind st object a b).ledger p = s.ledger p := by
  unfold State.eventRecord
  split
  · rfl
  · split
    · have h1 : (s.count (stlpBase p + 0x38)).ledger p = s.ledger p := countBy_ledger _ _ (by simp [ringRegs])
      have h2 := (setBits_ledger (s.count (stlpBase p + 0x38)) (x := stlpBase p + 0x1C) 0 0 1 (by simp [ringRegs])).trans h1
      refine (raise_ledger _ _ _ _ _ _).trans ((modPart_ledger _ _ ?_ ?_).trans h2) <;> exact fun _ => rfl
    · exact ringWrite_ledger _ _ _

@[simp] theorem firstIn_ledger (s : State) (p kind obj period : Nat) : (s.firstIn p kind obj period).2.ledger p = s.ledger p := by
  unfold State.firstIn
  split
  · rfl
  · exact modPart_ledger _ _ (fun _ => rfl) (fun _ => rfl)

@[simp] theorem recordLost_ledger (s : State) (p n k : Nat) : (s.recordLost p n k).ledger p = s.ledger p := by
  have hc : (s.countBy (stlpBase p + 0x34) k).ledger p = s.ledger p := countBy_ledger _ _ (by simp [ringRegs])
  unfold State.recordLost
  dsimp only
  (repeat' split) <;> simp [hc]

theorem recordLost_qps (s : State) (p n k : Nat) : (s.recordLost p n k).qps = s.qps := by
  have hf : ∀ (t : State) (obj period : Nat), (t.firstIn p 0x080A obj period).2.qps = t.qps := by
    intro t obj period
    unfold State.firstIn
    split <;> rfl
  unfold State.recordLost
  dsimp only
  (repeat' split) <;> simp [hf]

@[simp] theorem sendFrame_ledger (s : State) (p port prio : Nat) (frame : Bytes) : (s.sendFrame port prio frame).ledger p = s.ledger p := by
  unfold State.sendFrame
  (repeat' split) <;> simp

@[simp] theorem sendPacket_ledger (s : State) (p n op : Nat) (first last ackReq : Bool) (path cls attempt psn : Nat) (ext payload : Bytes) :
    (s.sendPacket n op first last ackReq path cls attempt psn ext payload).ledger p = s.ledger p := by
  simp only [State.sendPacket]
  split <;> simp

@[simp] theorem controlOut_ledger (s : State) (p n op path : Nat) (ext payload : Bytes) : (s.controlOut n op path ext payload).ledger p = s.ledger p := by
  unfold State.controlOut
  split
  · rfl
  · simp [State.nextPsn]

/-- Records of a partition have been queued or lost: what `State.ledger` names is as before, but that uploads may have been abandoned and their slots freed. -/
structure Records (s t : State) (p : Nat) : Prop where
  beyond : t.beyond p = s.beyond p
  cmds : t.cmds = s.cmds
  wells : t.wells = s.wells
  regs : OnlyRegs s t (ringRegs p)
  round : ∃ l, (∀ v ∈ l, v ∈ (s.round p).uploads) ∧ t.round p = { s.round p with uploads := l }
  slots : ∀ n ∈ (s.part p).slotsFree, n ∈ (t.part p).slotsFree

theorem Records.trans {s t u : State} {p : Nat} (h : Records s t p) (k : Records t u p) : Records s u p where
  beyond := k.beyond.trans h.beyond
  cmds := k.cmds.trans h.cmds
  wells := k.wells.trans h.wells
  regs := h.regs.trans k.regs
  round := by
    obtain ⟨l, hl, hr⟩ := h.round
    obtain ⟨m, hm, hq⟩ := k.round
    rw [hr] at hm hq
    exact ⟨m, fun v hv => hl v (hm v hv), hq⟩
  slots n hn := k.slots n (h.slots n hn)

theorem records_of_ledger {s t : State} {p : Nat} (h : t.ledger p = s.ledger p) : Records s t p := by
  simp only [State.ledger, Prod.mk.injEq] at h
  obtain ⟨hb, hc, hw, hr, hf, hregs⟩ := h
  refine ⟨hb, hc, hw, fun x hx => ?_, ⟨(s.round p).uploads, fun _ hv => hv, hr⟩, fun n hn => hf ▸ hn⟩
  have hx' := congrFun hregs x
  rwa [if_neg hx, if_neg hx] at hx'

theorem records_each {α : Type} (s : State) (p : Nat) (l : List α) {f : State → α → State} (h : ∀ t a, Records t (f t a) p) : Records s (s.each l f) p :=
  each_invariant (P := fun t => Records s t p) (records_of_ledger rfl) (fun a _ t ht => ht.trans (h t a))

/-- A partition whose round has lost an upload. -/
def Partition.without (u : Upload) (x : Partition) : Partition :=
  { x with round := { x.round with uploads := x.round.uploads.filter (fun v => v.client ≠ u.client) }, slotsFree := insertNat u.slot x.slotsFree }

theorem without_records (s : State) (p : Nat) (u : Upload) : Records s (s.modPart p (Partition.without u)) p := by
  refine ⟨modPart_beyond _ _ _, rfl, rfl, fun _ _ => rfl, ?_, ?_⟩
  · simp only [State.round, State.part_modPart]
    split
    · exact ⟨_, fun v hv => List.mem_of_mem_filter hv, rfl⟩
    · exact ⟨_, fun v hv => hv, rfl⟩
  · rw [State.part_modPart]
    split
    · exact fun n hn => (mem_insertNat_iff _ _ _).mpr (.inr hn)
    · exact fun n hn => hn

theorem abandonUpload_records (s : State) (p : Nat) (u : Upload) : Records s (s.abandonUpload p u) p := by
  refine (without_records s p u).trans (records_of_ledger ((raise_ledger _ _ _ _ _ _).trans ?_))
  split
  · exact modQp_ledger _ _ _ _
  · rfl

theorem qpError_records (s : State) {p n : Nat} (st : Status) (kind : Nat) (h : (s.qp n).part = p) : Records s (s.qpError n st kind) p := by
  subst h
  unfold State.qpError
  dsimp only
  split
  · exact records_of_ledger rfl
  · refine Records.trans (Records.trans (records_of_ledger ?_) (records_each _ _ _ (fun t u => abandonUpload_records t _ u)))
      (records_of_ledger (raise_ledger _ _ _ _ _ _))
    simp

theorem queueRecord_records (s : State) (p n : Nat) (rec : Bytes) : Records s (s.queueRecord p n rec) p := by
  unfold State.queueRecord
  dsimp only
  split
  · exact records_of_ledger (recordLost_ledger _ _ _ _)
  · rename_i h
    split
    · refine (records_of_ledger (recordLost_ledger _ _ _ _)).trans (qpError_records _ _ _ ?_)
      rw [State.qp, recordLost_qps]
      exact not_not.mp (not_or.mp h).2
    · exact records_of_ledger rfl

theorem recordFor_records (s : State) (p n : Nat) (live : Bool) (rec : Bytes) : Records s (s.recordFor p n live rec) p := by
  unfold State.recordFor
  split
  · exact queueRecord_records _ _ _ _
  · exact records_of_ledger (recordLost_ledger _ _ _ _)

end Sys2Proof.Machine

namespace Sys2Proof.Machine

open Sys2Proof

/-! ## A round that fails (R49, R70, R82) -/

@[simp] theorem stopWindlasses_beyond (s : State) (p : Nat) : (s.stopWindlasses p).beyond p = s.beyond p :=
  (modPart_beyond _ _ _).trans (each_beyond _ _ _ _ (fun _ _ => rfl))

@[simp] theorem wipeRanges_beyond (s : State) (p : Nat) : (s.wipeRanges p).beyond p = s.beyond p :=
  (modPart_beyond _ _ _).trans (each_beyond _ _ _ _ (fun _ _ => rfl))

@[simp] theorem dropUploads_beyond (s : State) (p : Nat) : (s.dropUploads p).beyond p = s.beyond p :=
  (modPart_beyond _ _ _).trans (each_beyond _ _ _ _ (fun _ _ => rfl))

@[simp] theorem completeAborts_beyond (s : State) (p : Nat) : (s.completeAborts p).beyond p = s.beyond p := by simp [State.completeAborts]

@[simp] theorem enterState_beyond (s : State) (p : Nat) (st : RoundState) : (s.enterState p st).beyond p = s.beyond p := by
  simp [State.enterState, State.releaseState, State.showState]

/-- The round of a partition has ended FAILED with a status, its uploads dropped. -/
structure Fails (s t : State) (p : Nat) (st : Status) : Prop where
  beyond : t.beyond p = s.beyond p
  state : (t.round p).state = .failed
  status : (t.round p).status = st
  uploads : (t.round p).uploads = []

theorem Fails.of_beyond {s u t : State} {p : Nat} {st : Status} (h : Fails u t p st) (hb : u.beyond p = s.beyond p) : Fails s t p st :=
  ⟨h.beyond.trans hb, h.state, h.status, h.uploads⟩

theorem uploads_dropUploads {s : State} {p : Nat} (hp : p < s.parts.length) : ((s.dropUploads p).round p).uploads = [] := by
  unfold State.dropUploads
  dsimp only
  rw [State.round, part_modPart_self _ (length_of_beyond (each_beyond s p _ _ (fun t u => modQp_beyond t p _ _)) hp)]

/-- Records that are sent to queue pairs leave a round without uploads as it is. -/
theorem round_of_records {s t : State} {p : Nat} (h : Records s t p) (hu : (s.round p).uploads = []) : t.round p = s.round p := by
  obtain ⟨l, hl, hr⟩ := h.round
  have hnil : l = [] := List.eq_nil_iff_forall_not_mem.mpr (fun v hv => by simpa [hu] using hl v hv)
  rw [hr, hnil, ← hu]

/-- A round whose windlasses, ranges, uploads and shares have been put away, with its status (R83, R116). -/
def State.putAway (s : State) (p : Nat) (st : Status) : State :=
  (((s.stopWindlasses p).wipeRanges p).dropUploads p).modRound p (fun x => { x.dropShares with status := st })

@[simp] theorem putAway_beyond (s : State) (p : Nat) (st : Status) : (s.putAway p st).beyond p = s.beyond p := by simp [State.putAway]

theorem round_putAway {s : State} {p : Nat} (st : Status) (hp : p < s.parts.length) :
    ((s.putAway p st).round p).status = st ∧ ((s.putAway p st).round p).uploads = [] := by
  have hu := uploads_dropUploads (length_of_beyond (t := (s.stopWindlasses p).wipeRanges p) (by simp) hp)
  rw [State.putAway, State.round_modRound, if_pos ⟨rfl, length_of_beyond (by simp) hp⟩]
  generalize (((s.stopWindlasses p).wipeRanges p).dropUploads p).round p = r at hu ⊢
  exact ⟨rfl, hu⟩

theorem round_completeAborts (s : State) (p : Nat) : (s.completeAborts p).round p = s.round p :=
  each_kept (fun t => t.round p) s _ _ (fun c _ t => complete_round t c _ _ _ p)

theorem failNow_fails {s : State} {p : Nat} (st : Status) (hp : p < s.parts.length) : Fails s (s.failNow p st) p st := by
  obtain ⟨hstatus, hu⟩ := round_putAway st hp
  have he := enterState_enters (s.putAway p st) .failed (length_of_beyond (putAway_beyond s p st) hp)
  obtain ⟨l, hl⟩ := he.round
  obtain ⟨m, qs, rec, heq⟩ : ∃ m, ∃ qs : List Nat, ∃ rec, s.failNow p st =
      ((((((s.putAway p st).enterState p .failed).roundInt p 4).raise 0x010A p 0 m).each qs (fun t n => t.queueRecord p n rec)).completeAborts p) :=
    ⟨_, _, _, rfl⟩
  have hrec := records_each ((((s.putAway p st).enterState p .failed).roundInt p 4).raise 0x010A p 0 m) p qs (fun t n => queueRecord_records t p n rec)
  generalize (s.putAway p st).round p = r at hstatus hu hl
  have hround := round_of_records hrec (by rw [State.raise_round, roundInt_round, hl]; exact hu)
  rw [State.raise_round, roundInt_round, hl] at hround
  rw [heq]
  refine ⟨?_, ?_, ?_, ?_⟩
  · rw [completeAborts_beyond, hrec.beyond, raise_beyond, roundInt_beyond, enterState_beyond, putAway_beyond]
  · rw [round_completeAborts, hround]
  · rw [round_completeAborts, hround]
    exact hstatus
  · rw [round_completeAborts, hround]
    exact hu

theorem failRound_fails {s : State} {p : Nat} (st : Status) (hp : p < s.parts.length) (h : (s.round p).state.failable = true) :
    Fails s (s.failRound p st) p st := by
  have heq : s.failRound p st = s.failNow p st := if_pos h
  rw [heq]
  exact failNow_fails st hp

/-! ## Stops that are called (R219) -/

/-- A windlass whose stop has been called. -/
def Tile.called (x : Tile) : Tile := if x.active then { x with stopping := true } else x

theorem active_called (x : Tile) : x.called.active = x.active := by
  unfold Tile.called
  split <;> rfl

theorem called_of_active {x : Tile} (h : x.active = true) : x.called = { x with stopping := true } := if_pos h

theorem called_of_rest {x : Tile} (h : x.active = false) : x.called = x := if_neg (by simp [h])

end Sys2Proof.Machine

namespace Sys2Proof.Machine

open Sys2Proof

/-- Is a physical tile among those the state lists? -/
def State.has (s : State) (r : TileRef) : Prop := r.well < s.wells.length ∧ r.tile < (s.well r.well).tiles.length

theorem has_modTile (s : State) (a r : TileRef) (f : Tile → Tile) : (s.modTile a f).has r ↔ s.has r := by
  have hl : (s.modTile a f).wells.length = s.wells.length := updAt_length _ _ _
  have ht : ((s.modTile a f).well r.well).tiles.length = (s.well r.well).tiles.length := by
    rw [State.modTile, State.well_modWell]
    split
    · rename_i h
      rw [h.1]
      exact updAt_length _ _ _
    · rfl
  rw [State.has, State.has, hl, ht]

/-- A change of several tiles by a function that changes a tile once. -/
theorem tile_each_modTile {f : Tile → Tile} (hf : ∀ x, f (f x) = f x) {r : TileRef} (l : List TileRef) {s : State} (h : s.has r) :
    (s.each l (fun t a => t.modTile a f)).tile r = if r ∈ l then f (s.tile r) else s.tile r := by
  induction l generalizing s with
  | nil => rfl
  | cons a l ih =>
    have hcons : s.each (a :: l) (fun t a => t.modTile a f) = (s.modTile a f).each l (fun t a => t.modTile a f) := rfl
    rw [hcons, ih ((has_modTile s a r f).mpr h), State.tile_modTile]
    by_cases hra : r = a
    · subst hra
      have hh : r = r ∧ r.well < s.wells.length ∧ r.tile < (s.well r.well).tiles.length := ⟨rfl, h⟩
      rw [if_pos hh, hf, ite_self, if_pos List.mem_cons_self]
    · simp [hra]

theorem tilesOf_of_wellScope {s t : State} {ws : List Nat} (ha : t.access = s.access) (h : WellScope s t ws) (p : Nat) : t.tilesOf p = s.tilesOf p := by
  simp only [State.tilesOf, wellsOf_of_access ha, fun w => (h.kept w).2.1]

/-! ## ROUND_ABORT (R49, R219, R518) -/

theorem called_called (x : Tile) : x.called.called = x.called := by
  cases h : x.active
  · rw [called_of_rest h, called_of_rest h]
  · rw [called_of_active (x := x.called) (by rw [active_called, h]), called_of_active h]

/-- The windlasses of a partition whose stop has been called. -/
def State.stopsCalled (s : State) (p : Nat) : State := s.each (s.tilesOf p) (fun t r => t.modTile r Tile.called)

theorem callStop_eq (s : State) (p : Nat) : s.callStop p = (s.stopsCalled p).modPart p (fun x => { x with queue := [], due := [] }) := rfl

theorem stopsCalled_frame (s : State) (p : Nat) : s.stopsCalled p = { s with wells := (s.stopsCalled p).wells } :=
  each_invariant (P := fun t => t = { s with wells := t.wells }) rfl (fun r _ _ ht => congrArg (fun v : State => v.modTile r Tile.called) ht)

theorem stopsCalled_tilesOf (s : State) (p : Nat) : (s.stopsCalled p).tilesOf p = s.tilesOf p := by
  refine tilesOf_of_wellScope (ws := s.wellsOf p) (by rw [stopsCalled_frame]) ?_ p
  exact wellScope_each _ _ (fun r hr t => wellScope_modTile t (well_of_mem_tilesOf hr) _)

theorem stopsCalled_atRest (s : State) (p : Nat) : (s.stopsCalled p).atRest p = s.atRest p := by
  have h : ∀ r, ((s.stopsCalled p).tile r).active = (s.tile r).active := fun r =>
    each_kept (fun t => (t.tile r).active) s _ _ (fun a _ t => by
      rw [State.tile_modTile]
      split
      · rename_i h
        rw [active_called, h.1]
      · rfl)
  simp only [State.atRest, stopsCalled_tilesOf, h]

theorem part_callStop {s : State} {p : Nat} (hp : p < s.parts.length) : (s.callStop p).part p = { s.part p with queue := [], due := [] } := by
  have hparts : (s.stopsCalled p).parts = s.parts := by rw [stopsCalled_frame]
  rw [callStop_eq, part_modPart_self _ (hparts.symm ▸ hp), State.part, hparts, State.part]

@[simp] theorem callStop_beyond (s : State) (p : Nat) : (s.callStop p).beyond p = s.beyond p := by
  rw [callStop_eq, modPart_beyond, stopsCalled_frame]
  rfl

/-- The state in which a ROUND_ABORT waits: its command has started, the round is marked and the stops are called. -/
def State.abortCalled (s : State) (c : CmdRef) (p : Nat) : State :=
  ((s.startCmd c).modRound p (fun r => { r with abortPending := true, startAt := none })).callStop p

theorem abortCalled_beyond (s : State) (c : CmdRef) (p : Nat) : (s.abortCalled c p).beyond p = s.beyond p := by simp [State.abortCalled]

theorem part_abortCalled {s : State} (c : CmdRef) {p : Nat} (hp : p < s.parts.length) :
    (s.abortCalled c p).part p = { s.part p with queue := [], due := [], round := { s.round p with abortPending := true, startAt := none } } := by
  have hround : ((s.startCmd c).modRound p (fun r => { r with abortPending := true, startAt := none })).part p =
      { s.part p with round := { s.round p with abortPending := true, startAt := none } } := part_modPart_self (s := s.startCmd c) _ hp
  rw [State.abortCalled, part_callStop (length_of_beyond (modRound_beyond (s.startCmd c) p _) hp), hround]

theorem round_abortCalled {s : State} (c : CmdRef) {p : Nat} (hp : p < s.parts.length) :
    (s.abortCalled c p).round p = { s.round p with abortPending := true, startAt := none } := congrArg Partition.round (part_abortCalled c hp)

theorem abortCalled_atRest (s : State) (c : CmdRef) (p : Nat) : (s.abortCalled c p).atRest p = s.atRest p := stopsCalled_atRest _ p

theorem abortCalled_frame (s : State) (c : CmdRef) (p : Nat) :
    s.abortCalled c p = { s.startCmd c with parts := (s.abortCalled c p).parts, wells := (s.abortCalled c p).wells } := by
  unfold State.abortCalled
  rw [callStop_eq, stopsCalled_frame]
  rfl

theorem tile_abortCalled {s : State} (c : CmdRef) {p : Nat} {r : TileRef} (hr : r ∈ s.tilesOf p) (h : s.has r) :
    (s.abortCalled c p).tile r = (s.tile r).called :=
  (tile_each_modTile called_called (s.tilesOf p) (s := (s.startCmd c).modRound p (fun x => { x with abortPending := true, startAt := none })) h).trans (if_pos hr)

theorem roundAbort_called {s : State} {c : CmdRef} {k : Cmd} (hr : s.ready c 0x03 = some k) (hf : s.formed k.part = true)
    (hb : (s.round k.part).state.busy = true) (ha : (s.round k.part).abortPending = false) :
    exec (.roundAbort c) s = .next ((s.abortCalled c k.part).finishAbort k.part) :=
  ((partCmd_runs hr hf _).trans (if_neg (by simp [ha]))).trans (if_pos hb)

theorem started_of_startCmd {s : State} {c : CmdRef} {d : Cmd} (hd : d ∈ (s.startCmd c).cmds) (h : d.is c = true) : d.started = true := by
  obtain ⟨e, -, rfl⟩ := List.mem_map.mp hd
  by_cases he : e.is c = true
  · rw [if_pos he]
  · rw [if_neg he] at h
    exact absurd h he

/-- Settles O8: an abort marks the round and calls the stops; the stop that brings the last windlass to rest, or none to wait for, fails the round. -/
theorem roundAborts : Obligations.RoundAborts := by
  unfold Obligations.RoundAborts
  refine ⟨fun c k s hr hf hp hb ha ht hrest => ?_, fun c k s hr hf hp hb ha ⟨r, hrt, hact, hw, hl⟩ => ?_, fun c k s hr hf hb ha => ?_, fun c k s hr hf hb => ?_,
    fun p s hal hp hst hwin => ?_, fun p s h => ?_⟩
  · have hpart := part_abortCalled c hp
    have hround := round_abortCalled c hp
    have hfin : (s.abortCalled c k.part).finishAbort k.part = (s.abortCalled c k.part).failNow k.part .aborted := by
      have hat : s.atRest k.part = true := List.all_eq_true.mpr (fun r hrt => by rw [hrest r hrt]; rfl)
      rw [State.finishAbort, if_pos ⟨by rw [hround], by rw [hround]; exact hb, (abortCalled_atRest s c _).trans hat⟩, if_neg]
      rw [hpart]
      simp [ht]
    have hfail := (failNow_fails .aborted (length_of_beyond (abortCalled_beyond s c k.part) hp)).of_beyond (abortCalled_beyond s c k.part)
    exact ⟨_, (roundAbort_called hr hf hb ha).trans (congrArg _ hfin), hfail.state, hfail.status, hfail.uploads, (partScope_of_beyond hfail.beyond).others⟩
  · have hpart := part_abortCalled c hp
    have hround := round_abortCalled c hp
    have hfin : (s.abortCalled c k.part).finishAbort k.part = s.abortCalled c k.part := by
      refine if_neg (fun h => ?_)
      have hat := (abortCalled_atRest s c k.part).symm.trans h.2.2
      simpa [hact] using List.all_eq_true.mp hat r hrt
    have hframe := abortCalled_frame s c k.part
    refine ⟨_, (roundAbort_called hr hf hb ha).trans (congrArg _ hfin), by rw [hround], by rw [hround], by rw [hpart], fun d hd => ?_, fun q hq hqw hql hqa => ?_,
      (partScope_of_beyond (abortCalled_beyond s c k.part)).others, by rw [hframe]; rfl, by rw [hframe]; rfl, by rw [hframe]; rfl⟩
    · rw [hframe] at hd
      exact started_of_startCmd hd
    · rw [tile_abortCalled c hq ⟨hqw, hql⟩, called_of_active hqa]
  · exact (partCmd_runs hr hf _).trans (if_pos ⟨hb, ha⟩)
  · exact ((partCmd_runs hr hf _).trans (if_neg (by simp [hb]))).trans (if_neg (by simp [hb]))
  · have hfailable : (s.round p).state.failable = true := by
      rcases hst with h | h <;> rw [h] <;> rfl
    refine ⟨_, if_pos ⟨hal, hst, hwin⟩, ?_⟩
    have hfail := (failRound_fails (s := s.raise 0x010E p 0 [(64, (s.round p).desc.roundId), (8, (s.round p).state.code)]) .state
      (by rw [State.raise_parts]; exact hp) (by rw [State.raise_round]; exact hfailable)).of_beyond (raise_beyond _ _ _ _ _ _)
    exact ⟨hfail.state, hfail.status, (partScope_of_beyond hfail.beyond).others⟩
  · refine if_neg (fun hc => ?_)
    obtain ⟨-, hst, hwin⟩ := hc
    rcases h with h | ⟨h1, h2⟩
    · exact absurd hwin (not_le.mpr h)
    · exact hst.elim h1 h2

end Sys2Proof.Machine

namespace Sys2Proof.Machine

open Sys2Proof

/-! ## Promises and accumulation (R57, R62, R63, R67) -/

/-- Rounding up gives the least number of parts that reach the whole. -/
theorem ceilDiv_least (a : Nat) {b : Nat} (hb : 0 < b) : a ≤ ceilDiv a b * b ∧ ∀ m, a ≤ m * b → ceilDiv a b ≤ m := by
  unfold ceilDiv
  refine ⟨?_, fun m hm => ?_⟩
  · have h := Nat.lt_div_mul_add hb (a := a + b - 1)
    omega
  · refine Nat.le_of_lt_succ ((Nat.div_lt_iff_lt_mul hb).mpr ?_)
    rw [Nat.succ_mul]
    omega

/-- A record of a partition has been sent and a closing cut noted: uploads may have been abandoned, and nothing else of the round changes. -/
structure Reports (s t : State) (p : Nat) : Prop where
  beyond : t.beyond p = s.beyond p
  cmds : t.cmds = s.cmds
  wells : t.wells = s.wells
  regs : OnlyRegs s t (ringRegs p)
  round : ∃ l d, (∀ v ∈ l, v ∈ (s.round p).uploads) ∧ t.round p = { s.round p with uploads := l, cutDue := d }
  slots : ∀ n ∈ (s.part p).slotsFree, n ∈ (t.part p).slotsFree

theorem recordFor_reports (s : State) {p : Nat} (n : Nat) (live : Bool) (rec : Bytes) (hp : p < s.parts.length) :
    Reports s ((s.recordFor p n live rec).checkClosing p) p := by
  have hr := recordFor_records s p n live rec
  have hn := checkClosing_notesCut (s.recordFor p n live rec) (length_of_beyond hr.beyond hp)
  generalize s.recordFor p n live rec = v at hr hn ⊢
  generalize v.checkClosing p = w at hn ⊢
  obtain ⟨l, hl, hrv⟩ := hr.round
  obtain ⟨d, hrw⟩ := hn.round
  rw [hrv] at hrw
  refine ⟨hn.beyond.trans hr.beyond, ?_, ?_, fun x hx => ?_, ⟨l, d, hl, hrw⟩, fun m hm => hn.slots ▸ hr.slots m hm⟩
  · rw [hn.frame]
    exact hr.cmds
  · rw [hn.frame]
    exact hr.wells
  · rw [hn.frame]
    exact hr.regs x hx

/-- A state whose round has counted an upload among the accumulated ones, before its record leaves. -/
def State.countAccumulated (s : State) (p client : Nat) (u : Upload) : State :=
  (s.modPart p (fun x => { x with
      slotsFree := insertNat u.slot x.slotsFree,
      round := { x.round with
        uploads := x.round.uploads.filter (fun v => v.client ≠ client),
        accums := x.round.accums ++ [⟨client, u.qpn, u.lastWrite, (s.round p).epoch, false, u.seedCommit, u.live⟩] } })).setReg
    (rndBase p + 0x24) (s.reg (rndBase p + 0x24) + 1)

theorem part_countAccumulated {s : State} {p : Nat} (client : Nat) (u : Upload) (hp : p < s.parts.length) :
    (s.countAccumulated p client u).part p = { s.part p with
      slotsFree := insertNat u.slot (s.part p).slotsFree,
      round := { s.round p with
        uploads := (s.round p).uploads.filter (fun v => v.client ≠ client),
        accums := (s.round p).accums ++ [⟨client, u.qpn, u.lastWrite, (s.round p).epoch, false, u.seedCommit, u.live⟩] } } :=
  part_modPart_self _ hp

theorem round_countAccumulated {s : State} {p : Nat} (client : Nat) (u : Upload) (hp : p < s.parts.length) :
    (s.countAccumulated p client u).round p = { s.round p with
      uploads := (s.round p).uploads.filter (fun v => v.client ≠ client),
      accums := (s.round p).accums ++ [⟨client, u.qpn, u.lastWrite, (s.round p).epoch, false, u.seedCommit, u.live⟩] } :=
  congrArg Partition.round (part_countAccumulated client u hp)

theorem accumulatedReg_not_ringRegs (p : Nat) : rndBase p + 0x24 ∉ ringRegs p := by
  simp only [ringRegs, List.mem_cons, List.not_mem_nil, or_false, rndBase, stlpBase, logBase]
  omega

theorem uploadAccumulated_runs {p client : Nat} {u : Upload} {s : State} (hal : s.alive = true)
    (hu : (s.round p).uploads.find? (fun v => v.client == client) = some u) (hacc : s.accumulated p u = true)
    (hfirst : ∀ v ∈ (s.round p).uploads, s.accumulated p v = true → u.lastWrite ≤ v.lastWrite) :
    exec (.uploadAccumulated p client) s = .next (((s.countAccumulated p client u).recordFor p u.qpn u.live
      (ackRecord 0x03 .ok p 0 (s.round p).epoch client (s.round p).desc.roundId u.lastWrite u.seq)).checkClosing p) := by
  have hnone : ¬ (s.round p).uploads.any (fun v => s.accumulated p v && decide (v.lastWrite < u.lastWrite)) := by
    simp only [List.any_eq_true, Bool.and_eq_true, decide_eq_true_eq, not_exists, not_and, not_lt]
    exact fun v hv => hfirst v hv
  show execUploadAccumulated p client s = _
  rw [execUploadAccumulated, hu]
  exact if_neg (by simp [hal, hacc, hnone])

theorem promiseDeadline_runs {p client n : Nat} {u : Upload} {s : State}
    (hu : (s.round p).uploads.find? (fun v => v.client == client) = some u) (hn : u.lastCommit = some n) :
    exec (.promiseDeadline p client) s = if !s.alive ∨ s.devtime ≤ n + s.promiseSpan p u.bytes then .next s
      else .next (((s.roundInt p 7).raise 0x0108 p 0 [(24, client), (32, u.seq), (48, n + s.promiseSpan p u.bytes)]).failRound p
        ((s.round p).faultStatus.getD .state)) := by
  show execPromiseDeadline p client s = _
  rw [execPromiseDeadline, hu]
  dsimp only
  rw [hn]

theorem countAccumulated_beyond (s : State) (p client : Nat) (u : Upload) : (s.countAccumulated p client u).beyond p = s.beyond p :=
  (setReg_beyond _ _ _ _).trans (modPart_beyond _ _ _)

theorem reg_countAccumulated (s : State) (p client : Nat) (u : Upload) :
    (s.countAccumulated p client u).reg (rndBase p + 0x24) = (s.reg (rndBase p + 0x24) + 1) % 2 ^ 32 :=
  State.reg_setReg_self _ _ _

theorem slot_countAccumulated {s : State} {p : Nat} (client : Nat) (u : Upload) (hp : p < s.parts.length) :
    u.slot ∈ ((s.countAccumulated p client u).part p).slotsFree := by
  rw [part_countAccumulated client u hp]
  exact (mem_insertNat_iff _ _ _).mpr (.inl rfl)

theorem admissionReopen_runs {p n : Nat} {s : State} (hal : s.alive = true) (hclosed : (s.part p).floorClosed = true)
    (hrec : (s.part p).recoverSince = some n) (htime : n + 400000 ≤ s.devtime) :
    exec (.admissionReopen p) s = .next (((s.modPart p (fun y => { y with floorClosed := false, recoverSince := none })).roundInt p 6).raise 0x0105 p 0
      [(16, s.permille p)]) := by
  have hsince : (s.part p).recoverSince.any (fun t => decide (t + 400000 ≤ s.devtime)) = true := by
    rw [hrec, Option.any_some, decide_eq_true_eq]
    exact htime
  exact if_pos ⟨hal, hclosed, hsince⟩

/-- Settles O9: the span is a rounded-up quotient, an accumulated upload changes lists and counts once, a late one fails the round, and recovery reopens admission. -/
theorem uploadsEnd : Obligations.UploadsEnd := by
  unfold Obligations.UploadsEnd
  refine ⟨fun s p b hR => ?_, fun p client u s hal hp hu hacc hfirst => ?_, fun p client u n s hal hp hu hn hlate hfail => ?_,
    fun p client u n s hu hn hin => (promiseDeadline_runs hu hn).trans (if_pos (.inr hin)), fun p n s hal hp hclosed hrec htime => ?_⟩
  · have hpos : 0 < 7 * s.reg (rndBase p + 0x10) := by omega
    obtain ⟨hle, hmin⟩ := ceilDiv_least (4000 * b) hpos
    refine ⟨_, rfl, mul_comm 4000 b ▸ hle, fun m hm => hmin m (mul_comm 4000 b ▸ hm), fun h1 h2 => ?_⟩
    rw [State.promiseSpan, h1, h2]
    decide
  · have h := (recordFor_reports (s.countAccumulated p client u) u.qpn u.live (ackRecord 0x03 .ok p 0 (s.round p).epoch client (s.round p).desc.roundId u.lastWrite u.seq)
      (length_of_beyond (countAccumulated_beyond s p client u) hp))
    have hslot := slot_countAccumulated client u hp
    have hreg := reg_countAccumulated s p client u
    have hbeyond := h.beyond.trans (countAccumulated_beyond s p client u)
    have hscope := partScope_of_beyond hbeyond
    refine ⟨_, uploadAccumulated_runs hal hu hacc hfirst, ?_⟩
    obtain ⟨l, d, hl, hround⟩ := h.round
    rw [round_countAccumulated client u hp] at hl hround
    refine ⟨fun x hx => ?_, by rw [hround], (h.regs _ (accumulatedReg_not_ringRegs p)).trans hreg, h.slots _ hslot, hscope.others, h.wells, hscope.lantus,
      hscope.power, host_of_beyond hbeyond, h.cmds⟩
    rw [hround] at hx
    have hm : x ∈ (s.round p).uploads.filter (fun v => v.client ≠ client) := hl x hx
    simpa using List.of_mem_filter hm
  · have hbeyond : ((s.roundInt p 7).raise 0x0108 p 0 [(24, client), (32, u.seq), (48, n + s.promiseSpan p u.bytes)]).beyond p = s.beyond p := by simp
    have hf := (failRound_fails (s := (s.roundInt p 7).raise 0x0108 p 0 [(24, client), (32, u.seq), (48, n + s.promiseSpan p u.bytes)])
      ((s.round p).faultStatus.getD .state) (length_of_beyond hbeyond hp) (by rw [State.raise_round, roundInt_round]; exact hfail)).of_beyond hbeyond
    exact ⟨_, (promiseDeadline_runs hu hn).trans (if_neg (by simp [hal, hlate])), hf.state, hf.status, (partScope_of_beyond hf.beyond).others⟩
  · have hb : ∀ m, (((s.modPart p (fun y => { y with floorClosed := false, recoverSince := none })).roundInt p 6).raise 0x0105 p 0 m).beyond p = s.beyond p := by
      intro m
      rw [raise_beyond, roundInt_beyond, modPart_beyond]
    refine ⟨_, admissionReopen_runs hal hclosed hrec htime, ?_, (partScope_of_beyond (hb _)).others, ?_, by simp, by simp,
      (partScope_of_beyond (hb _)).power⟩
    · rw [State.raise_part, roundInt_part, part_modPart_self _ hp]
    · have hm : OnlyRegs s (s.modPart p (fun y => { y with floorClosed := false, recoverSince := none })) (stateRegs p) := fun _ _ => rfl
      exact (hm.trans (onlyRegs_roundInt _ p 6)).trans (onlyRegs_raise _ (by simp [stateRegs]) _ _ _ _)

end Sys2Proof.Machine

namespace Sys2Proof.Machine

open Sys2Proof

/-! ## What an access to the memories and the repair of voted words leave alone (R39, R237, R261) -/

/-- A partition without the copies of its image's digest, which a vote may repair. -/
def Partition.unvoted (x : Partition) : Partition := { x with image := { x.image with digestCopies := [] } }

/-- What neither an access to the memories nor the repair of a partition's voted words changes. -/
def State.unvoted (s : State) (p : Nat) : List Partition × List (Nat × Qp) × List Cmd × Lantus × Power × Nat :=
  (updAt s.parts p Partition.unvoted, s.qps, s.cmds, { s.lantus with keys := [] }, s.power, s.devtime)

theorem part_unvoted {s t : State} {p : Nat} (h : t.unvoted p = s.unvoted p) (q : Nat) :
    (if q = p then (t.part q).unvoted else t.part q) = if q = p then (s.part q).unvoted else s.part q := by
  have hparts : updAt t.parts p Partition.unvoted = updAt s.parts p Partition.unvoted := congrArg Prod.fst h
  have hlen := congrArg List.length hparts
  have hget := congrArg (fun l => List.getD l q ({} : Partition)) hparts
  rw [updAt_length, updAt_length] at hlen
  rw [updAt_getD, updAt_getD, hlen] at hget
  by_cases hq : q = p
  · subst hq
    by_cases hp : q < s.parts.length
    · simpa only [hp, and_self, if_true, State.part] using hget
    · rw [State.part, State.part, List.getD_eq_default _ _ (not_lt.mp hp), List.getD_eq_default _ _ (hlen ▸ not_lt.mp hp)]
  · simpa only [hq, false_and, if_false, State.part] using hget

theorem unvoted_part {s t : State} {p : Nat} (h : t.unvoted p = s.unvoted p) : (t.part p).unvoted = (s.part p).unvoted := by simpa using part_unvoted h p

theorem round_of_unvoted {s t : State} {p : Nat} (h : t.unvoted p = s.unvoted p) : t.round p = s.round p :=
  show (t.part p).unvoted.round = (s.part p).unvoted.round from congrArg Partition.round (unvoted_part h)

theorem onlyPart_of_unvoted {s t : State} {p : Nat} (h : t.unvoted p = s.unvoted p) : OnlyPart s t p := by
  intro q hq
  simpa [hq] using part_unvoted h q

theorem length_of_unvoted {s t : State} {p : Nat} (h : t.unvoted p = s.unvoted p) : t.parts.length = s.parts.length := by
  simpa [State.unvoted] using congrArg (fun g => g.1.length) h

theorem qps_of_unvoted {s t : State} {p : Nat} (h : t.unvoted p = s.unvoted p) : t.qps = s.qps := congrArg (fun g => g.2.1) h

theorem keyless_of_unvoted {s t : State} {p : Nat} (h : t.unvoted p = s.unvoted p) :
    ({ t.lantus with keys := [] } : Lantus) = { s.lantus with keys := [] } := congrArg (fun g => g.2.2.2.1) h

theorem lantus_of_keyless {x y : Lantus} (h : ({ x with keys := [] } : Lantus) = { y with keys := [] }) : x = { y with keys := x.keys } :=
  congrArg (fun l : Lantus => { l with keys := x.keys }) h

theorem power_of_unvoted {s t : State} {p : Nat} (h : t.unvoted p = s.unvoted p) : t.power = s.power := congrArg (fun g => g.2.2.2.2.1) h

@[simp] theorem modWell_unvoted (s : State) (p w : Nat) (f : Well → Well) : (s.modWell w f).unvoted p = s.unvoted p := rfl
@[simp] theorem draw_unvoted (s : State) (p : Nat) : s.draw.2.unvoted p = s.unvoted p := rfl
@[simp] theorem setReg_unvoted (s : State) (p x v : Nat) : (s.setReg x v).unvoted p = s.unvoted p := rfl
@[simp] theorem setReg64_unvoted (s : State) (p x v : Nat) : (s.setReg64 x v).unvoted p = s.unvoted p := rfl
@[simp] theorem setRecord_unvoted (s : State) (p x v : Nat) : (s.setRecord x v).unvoted p = s.unvoted p := rfl
@[simp] theorem count_unvoted (s : State) (p x : Nat) : (s.count x).unvoted p = s.unvoted p := rfl
@[simp] theorem putBucket_unvoted (s : State) (p : Nat) (lp : Bool) (w b : Nat) (data : Bytes) : (s.putBucket lp w b data).unvoted p = s.unvoted p := rfl

@[simp] theorem raise_unvoted (s : State) (p code part src : Nat) (l : List (Nat × Nat)) : (s.raise code part src l).unvoted p = s.unvoted p := by
  rw [State.raise_eq]
  rfl

@[simp] theorem roundInt_unvoted (s : State) (p q b : Nat) : (s.roundInt q b).unvoted p = s.unvoted p := by
  rw [State.roundInt_eq]
  rfl

@[simp] theorem bankRead_unvoted (s : State) (p : Nat) (lp : Bool) (w b : Nat) : (s.bankRead lp w b).2.unvoted p = s.unvoted p := by
  unfold State.bankRead
  (repeat' split) <;> rfl

@[simp] theorem cisUncorrectable_unvoted (s : State) (p w b kind : Nat) : (s.cisUncorrectable w b kind).unvoted p = s.unvoted p := by
  rw [State.cisUncorrectable, raise_unvoted, setRecord_unvoted, count_unvoted]

@[simp] theorem lpxReadFails_unvoted (s : State) (p w b : Nat) : (s.lpxReadFails w b).unvoted p = s.unvoted p := by
  rw [State.lpxReadFails, modWell_unvoted, State.lpxUncorrectable, raise_unvoted, setReg64_unvoted, count_unvoted]

@[simp] theorem writeBack_unvoted (s : State) (p : Nat) (lp : Bool) (w : Nat) (e : MergeEntry) : (s.writeBack lp w e).unvoted p = s.unvoted p := by
  unfold State.writeBack
  dsimp only
  split
  · rw [modWell_unvoted, putBucket_unvoted, cisUncorrectable_unvoted, count_unvoted, bankRead_unvoted]
  · rw [putBucket_unvoted, count_unvoted, bankRead_unvoted]

@[simp] theorem bucketRead_unvoted (s : State) (p : Nat) (lp : Bool) (w b kind : Nat) : (s.bucketRead lp w b kind).2.2.unvoted p = s.unvoted p := by
  have hs : (s.settleEntry lp w b).unvoted p = s.unvoted p := by
    unfold State.settleEntry
    split
    · exact writeBack_unvoted _ _ _ _ _
    · rfl
  have h := (bankRead_unvoted (s.settleEntry lp w b) p lp w b).trans hs
  unfold State.bucketRead
  dsimp only
  (repeat' split) <;> simp [h, -bankRead_unvoted]

@[simp] theorem readBuckets_unvoted (s : State) (p kind n addr : Nat) : (s.readBuckets kind n addr).2.2.unvoted p = s.unvoted p := by
  induction n generalizing s addr with
  | zero => rfl
  | succ n ih =>
    unfold State.readBuckets
    split <;> simp [ih]

@[simp] theorem partialWrite_unvoted (s : State) (p : Nat) (lp : Bool) (w b off : Nat) (bs : Bytes) : (s.partialWrite lp w b off bs).unvoted p = s.unvoted p := by
  unfold State.partialWrite
  dsimp only
  (repeat' split) <;> simp

@[simp] theorem bucketWrite_unvoted (s : State) (p : Nat) (lp : Bool) (w b off : Nat) (bs : Bytes) : (s.bucketWrite lp w b off bs).unvoted p = s.unvoted p := by
  unfold State.bucketWrite
  (repeat' split) <;> simp

@[simp] theorem devWriteAux_unvoted (s : State) (p n addr : Nat) (bs : Bytes) : (s.devWriteAux n addr bs).unvoted p = s.unvoted p := by
  induction n generalizing s addr bs with
  | zero => rfl
  | succ n ih =>
    rw [State.devWriteAux, ih]
    split <;> simp

@[simp] theorem devWrite_unvoted (s : State) (p addr : Nat) (bs : Bytes) : (s.devWrite addr bs).unvoted p = s.unvoted p := devWriteAux_unvoted _ _ _ _ _

@[simp] theorem tripleEvent_unvoted (s : State) (p part ident : Nat) (fixed : Option Nat) : (s.tripleEvent part ident fixed).unvoted p = s.unvoted p := by
  unfold State.tripleEvent
  split <;> simp

@[simp] theorem repairImage_unvoted (s : State) (p : Nat) : (s.repairImage p).unvoted p = s.unvoted p := by
  have hm : ∀ l, (s.modPart p (fun x => { x with image := { x.image with digestCopies := l } })).unvoted p = s.unvoted p := fun l =>
    congrArg (·, s.qps, s.cmds, ({ s.lantus with keys := [] } : Lantus), s.power, s.devtime) (updAt_updAt_of_absorbs s.parts p (fun _ => rfl))
  unfold State.repairImage
  dsimp only
  split
  · rfl
  · rw [tripleEvent_unvoted, hm]

@[simp] theorem repairPlan_unvoted (s : State) (p : Nat) : s.repairPlan.unvoted p = s.unvoted p := by
  unfold State.repairPlan
  split
  · rfl
  · rw [tripleEvent_unvoted]
    rfl

@[simp] theorem repairSlot_unvoted (s : State) (p n : Nat) : (s.repairSlot n).unvoted p = s.unvoted p := by
  unfold State.repairSlot
  dsimp only
  split
  · rfl
  · rw [tripleEvent_unvoted]
    rfl

theorem repairWords_unvoted (s : State) (p : Nat) : (s.repairWords p).unvoted p = s.unvoted p := by
  unfold State.repairWords
  rw [each_kept (fun t => t.unvoted p) _ _ _ (fun n _ t => repairSlot_unvoted t p n), repairPlan_unvoted]
  split <;> simp

end Sys2Proof.Machine

namespace Sys2Proof.Machine

open Sys2Proof

/-! ## Checkpoints (R68 to R75) -/

theorem leNat_toLE_le (n m : Nat) : leNat (toLE m n) ≤ m := by
  induction n generalizing m with
  | zero => exact Nat.zero_le _
  | succ n ih =>
    have h := ih (m / 256)
    have hd := Nat.div_add_mod m 256
    simp only [toLE, leNat, BitVec.toNat_ofNat]
    omega

/-- The length word in front of a sealed checkpoint lies inside it. -/
theorem rd_lengthWord_le (hd x y : Bytes) : rd (toLE hd.length 4 ++ hd ++ x ++ y) 0 4 + 4 ≤ (toLE hd.length 4 ++ hd ++ x ++ y).length := by
  have hs : slice (toLE hd.length 4 ++ hd ++ x ++ y) 0 4 = toLE hd.length 4 := by
    rw [slice, List.drop_zero, List.append_assoc, List.append_assoc, List.take_left' (length_toLE _ _)]
  have h := leNat_toLE_le 4 hd.length
  rw [rd, hs]
  simp only [List.length_append, length_toLE]
  omega

theorem ckptCopy_unvoted (s : State) (p : Nat) (c : Ckpt) : (s.ckptCopy c).2.unvoted p = s.unvoted p := by
  have h : ∀ (l : List CopyRange) (acc : Bytes × State), acc.2.unvoted p = s.unvoted p →
      (l.foldl (fun (acc : Bytes × State) g =>
        let d := acc.2.devRead 0 (lpxAddr g.well (g.dst * 64)) (g.count * 64)
        (acc.1 ++ d.1, d.2.2)) acc).2.unvoted p = s.unvoted p := by
    intro l
    induction l with
    | nil => exact fun _ h => h
    | cons g l ih => exact fun acc h => ih _ ((readBuckets_unvoted _ _ _ _ _).trans h)
  exact h c.ranges ([], s) rfl

theorem readable_held {r : Round} {n : Nat} {x : Ckpt} (h : r.readable n = some x) :
    x.number = n ∧ (x.phase = .ready ∨ x.phase = .complete) ∧ (r.ckpt = some x ∨ r.prev = some x) := by
  have hp := List.find?_some h
  have hm := List.mem_of_find?_eq_some h
  simp only [Bool.and_eq_true, Bool.or_eq_true, beq_iff_eq] at hp
  simp only [List.mem_append, Option.mem_toList] at hm
  exact ⟨hp.1, hp.2, hm⟩

theorem readable_ckpt {r : Round} {x : Ckpt} (hc : r.ckpt = some x) (hx : x.phase = .ready ∨ x.phase = .complete) : r.readable x.number = some x := by
  rw [Round.readable, hc]
  exact List.find?_cons_of_pos (by simpa using hx)

/-- The uploads that a completed checkpoint secures, marked. -/
theorem newlySecured_map (r : Round) (c : Ckpt) :
    r.accums.map (fun a => if (r.newlySecured c).contains a then { a with secured := true } else a) =
      r.accums.map (fun a => if a.epoch = r.epoch ∧ a.time < c.cutTime ∧ a.secured = false then { a with secured := true } else a) := by
  refine List.map_congr_left (fun a ha => ?_)
  refine if_congr ?_ rfl rfl
  simp [Round.newlySecured, ha, and_assoc]

/-- A round that holds a checkpoint as complete, with the uploads it secures marked. -/
def Round.completed (c : Ckpt) (news : List Accum) (r : Round) : Round :=
  { r with ckpt := some { c with phase := .complete }, accums := r.accums.map (fun a => if news.contains a then { a with secured := true } else a) }

/-- A checkpoint has been completed: the round holds it so, and the registers show it. -/
structure CkptDone (s t : State) (p : Nat) (c : Ckpt) : Prop where
  beyond : t.beyond p = s.beyond p
  wells : t.wells = s.wells
  round : ∃ l, t.round p = { (s.round p).completed c ((s.round p).newlySecured c) with uploads := l }
  number : t.reg (rndBase p + 0x38) = c.number % 2 ^ 32
  timeLow : t.reg (rndBase p + 0x40) = c.cutTime % 2 ^ 32
  timeHigh : t.reg (rndBase p + 0x44) = c.cutTime / 2 ^ 32 % 2 ^ 32

/-- The registers that show a completed checkpoint. -/
def State.showCkpt (s : State) (p : Nat) (c : Ckpt) : State := (s.setReg (rndBase p + 0x38) c.number).setReg64 (rndBase p + 0x40) c.cutTime

theorem showCkpt_beyond (s : State) (p : Nat) (c : Ckpt) : (s.showCkpt p c).beyond p = s.beyond p :=
  (setReg64_beyond _ _ _ _).trans (setReg_beyond _ _ _ _)

theorem showCkpt_round (s : State) (p : Nat) (c : Ckpt) : (s.showCkpt p c).round p = s.round p := by simp [State.showCkpt]

theorem showCkpt_regs (s : State) (p : Nat) (c : Ckpt) : (s.showCkpt p c).reg (rndBase p + 0x38) = c.number % 2 ^ 32 ∧
    (s.showCkpt p c).reg (rndBase p + 0x40) = c.cutTime % 2 ^ 32 ∧ (s.showCkpt p c).reg (rndBase p + 0x44) = c.cutTime / 2 ^ 32 % 2 ^ 32 := by
  simp [State.showCkpt, State.setReg64, State.reg_setReg]

theorem ckptRegs_not_noted {p x : Nat} (hx : x = rndBase p + 0x38 ∨ x = rndBase p + 0x40 ∨ x = rndBase p + 0x44) :
    x ∉ ringRegs p ∧ x ∉ stateRegs p := by
  simp only [ringRegs, stateRegs, List.mem_cons, List.not_mem_nil, or_false, rndBase, stlpBase, logBase] at hx ⊢
  omega

theorem completeCkpt_done (s : State) {p : Nat} (c : Ckpt) (hp : p < s.parts.length) : CkptDone s (s.completeCkpt p c) p c := by
  obtain ⟨l, rec, heq⟩ : ∃ (l : List Nat) (rec : Bytes), s.completeCkpt p c =
      ((((s.modRound p (Round.completed c ((s.round p).newlySecured c))).showCkpt p c).roundInt p 2).raise 0x0106 p 0 [(32, c.number), (48, c.cutTime)]).each l
        (fun t n => t.queueRecord p n rec) := ⟨_, _, rfl⟩
  have hround : ((s.modRound p (Round.completed c ((s.round p).newlySecured c))).showCkpt p c).round p = (s.round p).completed c ((s.round p).newlySecured c) :=
    (showCkpt_round _ _ _).trans <| (State.round_modRound _ _ _ _).trans (if_pos ⟨rfl, hp⟩)
  have hbeyond : ((s.modRound p (Round.completed c ((s.round p).newlySecured c))).showCkpt p c).beyond p = s.beyond p := (showCkpt_beyond _ _ _).trans (modRound_beyond _ _ _)
  have hwells : ((s.modRound p (Round.completed c ((s.round p).newlySecured c))).showCkpt p c).wells = s.wells := rfl
  obtain ⟨hn, hlo, hhi⟩ := showCkpt_regs (s.modRound p (Round.completed c ((s.round p).newlySecured c))) p c
  rw [heq]
  generalize (s.modRound p (Round.completed c ((s.round p).newlySecured c))).showCkpt p c = u at hround hbeyond hwells hn hlo hhi ⊢
  have hrec := records_each ((u.roundInt p 2).raise 0x0106 p 0 [(32, c.number), (48, c.cutTime)]) p l (fun t n => queueRecord_records t p n rec)
  have hregs := (onlyRegs_roundInt u p 2).trans (onlyRegs_raise (u.roundInt p 2) (l := stateRegs p) (by simp [stateRegs]) 0x0106 p 0 [(32, c.number), (48, c.cutTime)])
  have hkeep : ∀ x, x = rndBase p + 0x38 ∨ x = rndBase p + 0x40 ∨ x = rndBase p + 0x44 →
      (((u.roundInt p 2).raise 0x0106 p 0 [(32, c.number), (48, c.cutTime)]).each l (fun t n => t.queueRecord p n rec)).reg x = u.reg x := fun x hx =>
    (hrec.regs x (ckptRegs_not_noted hx).1).trans (hregs x (ckptRegs_not_noted hx).2)
  refine ⟨?_, ?_, ?_, (hkeep _ (.inl rfl)).trans hn, (hkeep _ (.inr (.inl rfl))).trans hlo, (hkeep _ (.inr (.inr rfl))).trans hhi⟩
  · rw [hrec.beyond, raise_beyond, roundInt_beyond, hbeyond]
  · rw [hrec.wells, State.raise_wells, roundInt_wells, hwells]
  · obtain ⟨m, -, hm⟩ := hrec.round
    rw [State.raise_round, roundInt_round, hround] at hm
    exact ⟨m, hm⟩

/-- The checkpoint that a cut takes. -/
def State.newCkpt (s : State) (p : Nat) : Ckpt :=
  let r := s.round p
  { number := r.cutNumber + 1, cutTime := s.devtime, closing := r.state == .closing, phase := .copying,
    clients := r.accums.map (fun a => (a.client, a.seedCommit)), ranges := [], notified := [], seqLast := r.seqLast,
    admitted := s.reg (rndBase p + 0x20), accumulated := s.reg (rndBase p + 0x24), sealed := [] }

/-- A round whose cut has been taken. -/
def Round.cut (c : Ckpt) (r : Round) : Round :=
  { r with ckpt := some c, prev := r.ckpt, cutNumber := c.number, cutDue := false, admissionsSinceCut := 0, lastCut := c.cutTime }

theorem checkpointCut_runs {p : Nat} {s : State} (hal : s.alive = true) (hab : (s.round p).abortPending = false) (hcut : (s.round p).mayCut s.devtime = true) :
    exec (.checkpointCut p) s =
      .next ((s.modRound p (Round.cut (s.newCkpt p))).callEntry p ⟨3, 0, 0, s.devtime, 0, 0, (s.newCkpt p).number, []⟩) :=
  if_neg (by simp [hal, hab, hcut])

theorem part_cut {s : State} {p : Nat} (c : Ckpt) (e : QEntry) (hp : p < s.parts.length) :
    ((s.modRound p (Round.cut c)).callEntry p e).part p = { s.part p with round := (s.round p).cut c, due := (s.part p).due ++ [e] } := by
  rw [State.callEntry, part_modPart_self _ (length_of_beyond (modRound_beyond s p _) hp), State.modRound, part_modPart_self _ hp]
  rfl

/-- A round whose checkpoint lies sealed. -/
def Round.sealed (c : Ckpt) (out : Bytes) (r : Round) : Round := { r with ckpt := some { c with phase := .ready, sealed := out } }

/-- The text and the tag of a partition's checkpoint under its sealing key (R419). -/
def State.sealText (s : State) (p : Nat) (c : Ckpt) : Bytes × Bytes :=
  gcmSeal (s.ckptKey (s.part p).image.ckptSlot (s.round p).desc.roundId) (sealIv c.number (s.round p).epoch p) (s.ckptHeader p c)
    ((s.ckptCopy c).1 ++ c.clients.flatMap (fun a => toLE a.1 4 ++ toLE a.2 8))

/-- The bytes of a sealed checkpoint. -/
def State.sealBytes (s : State) (p : Nat) (c : Ckpt) : Bytes :=
  toLE (s.ckptHeader p c).length 4 ++ s.ckptHeader p c ++ (s.sealText p c).1 ++ (s.sealText p c).2

theorem checkpointSealed_runs {p : Nat} {c : Ckpt} {s : State} (hsv : s.serves = true) (hc : (s.round p).ckpt = some c) (hph : c.phase = .sealing)
    (hus : s.usable (s.part p).image.ckptSlot = true) (hbit : bit (s.slot (s.part p).image.ckptSlot).attrWord 2 = true) :
    exec (.checkpointSealed p) s =
      .next ((((s.ckptCopy c).2.modRound p (Round.sealed c (s.sealBytes p c))).roundInt p 1).repairWords p) := by
  show execCheckpointSealed p s = _
  rw [execCheckpointSealed, hc]
  dsimp only
  rw [if_neg (by simp [hsv, hph]), if_neg (by simp [hus, hbit])]
  rfl

/-- Settles O10: a cut is one change of the round, a seal keeps its length word, and a completed checkpoint is what the registers show. -/
theorem checkpointsCutAndSeal : Obligations.CheckpointsCutAndSeal := by
  unfold Obligations.CheckpointsCutAndSeal
  refine ⟨fun p s hal hp hst hint => ?_, fun p s hal hp hab hcut => ?_, fun p c s hsv hp hc hph hus hbit => ?_, fun p c s hsv hp hc hph hus hfail => ?_,
    fun c k s hr hf hdma => ?_, fun r n x h => readable_held h, fun r x hc hx => readable_ckpt hc hx, fun c k x s hr hf hp hx hn hph hst => ?_,
    fun c k s hr hf h => ?_⟩
  · refine ⟨_, if_pos ⟨hal, hst, hint⟩, ?_, (partScope_of_beyond (modRound_beyond s p _)).others, rfl⟩
    rw [State.round_modRound, if_pos ⟨rfl, hp⟩]
  · have hpart := part_cut (s.newCkpt p) ⟨3, 0, 0, s.devtime, 0, 0, (s.newCkpt p).number, []⟩ hp
    have hround : (((s.modRound p (Round.cut (s.newCkpt p))).callEntry p ⟨3, 0, 0, s.devtime, 0, 0, (s.newCkpt p).number, []⟩).round p) =
        (s.round p).cut (s.newCkpt p) := congrArg Partition.round hpart
    refine ⟨_, s.newCkpt p, checkpointCut_runs hal hab hcut, by rw [hround]; rfl, rfl, rfl, rfl, ?_, rfl, by rw [hround]; rfl, by rw [hround]; rfl,
      by rw [hround]; rfl, by rw [hpart], ?_, rfl⟩
    · exact beq_eq_decide _ _
    · exact (partScope_of_beyond ((modPart_beyond _ _ _).trans (modRound_beyond s p _))).others
  · have hcopy := ckptCopy_unvoted s p c
    have hseal : ((((s.ckptCopy c).2.modRound p (Round.sealed c (s.sealBytes p c))).roundInt p 1).repairWords p).unvoted p =
        ((s.ckptCopy c).2.modRound p (Round.sealed c (s.sealBytes p c))).unvoted p := by rw [repairWords_unvoted, roundInt_unvoted]
    have hround : ((((s.ckptCopy c).2.modRound p (Round.sealed c (s.sealBytes p c))).roundInt p 1).repairWords p).round p =
        (s.round p).sealed c (s.sealBytes p c) := by
      rw [round_of_unvoted hseal, State.round_modRound, if_pos ⟨rfl, by rw [length_of_unvoted hcopy]; exact hp⟩, round_of_unvoted hcopy]
    refine ⟨_, _, checkpointSealed_runs hsv hc hph hus hbit, by rw [hround]; rfl, rd_lengthWord_le _ _ _, by rw [hround]; rfl,
      (qps_of_unvoted hseal).trans (qps_of_unvoted (t := (s.ckptCopy c).2) hcopy),
      lantus_of_keyless ((keyless_of_unvoted hseal).trans (keyless_of_unvoted (t := (s.ckptCopy c).2) hcopy)), (power_of_unvoted hseal).trans (power_of_unvoted (t := (s.ckptCopy c).2) hcopy)⟩
  · have hb : ((s.modRound p (fun x => { x with ckpt := none })).raise 0x0A0E p 0 [(8, p), (16, (s.part p).image.ckptSlot)]).beyond p = s.beyond p := by
      rw [raise_beyond, modRound_beyond]
    have hfail' : (((s.modRound p (fun x => { x with ckpt := none })).raise 0x0A0E p 0 [(8, p), (16, (s.part p).image.ckptSlot)]).round p).state.failable = true := by
      rw [State.raise_round, State.round_modRound, if_pos ⟨rfl, hp⟩]
      exact hfail
    have hf := failRound_fails .refusedAccess (length_of_beyond hb hp) hfail'
    refine ⟨_, ?_, hf.state, hf.status⟩
    show execCheckpointSealed p s = _
    rw [execCheckpointSealed, hc]
    dsimp only
    have hwait : ¬ ((!s.serves) = true ∨ c.phase ≠ .sealing) := by simp [hsv, hph]
    have hkey : (!s.usable (s.part p).image.ckptSlot) = true ∨ (!bit (s.slot (s.part p).image.ckptSlot).attrWord 2) = true := .inl (by rw [hus]; rfl)
    exact (if_neg hwait).trans (if_pos hkey)
  · have hshare : ¬ (!s.hasDma k.part) = true := by rw [hdma]; exact Bool.false_ne_true
    refine ((partCmd_runs hr hf _).trans (if_neg hshare)).trans ?_
    cases (s.round k.part).readable k.p0 with
    | none => rfl
    | some x => exact (apply_ite Host.Outcome.next _ _ _).symm
  · have hrun : exec (.checkpointStored c) s = .next ((s.completeCkpt k.part x).complete k .ok 0 0) := by
      refine (partCmd_runs hr hf _).trans ?_
      dsimp only
      rw [hx]
      refine (if_pos ⟨hn, hph⟩).trans ?_
      rw [if_neg (by simp [hst])]
    have hd := completeCkpt_done s x hp
    obtain ⟨l, hl⟩ := hd.round
    have hscope := partScope_of_beyond hd.beyond
    refine ⟨_, hrun, by rw [hl]; rfl, by rw [hl]; rfl, hd.number, hd.timeLow, hd.timeHigh, ?_, hscope.others, hd.wells, hscope.lantus, hscope.power⟩
    rw [hl]
    exact newlySecured_map _ _
  · refine (partCmd_runs hr hf _).trans ?_
    dsimp only
    cases hc : (s.round k.part).ckpt with
    | none => rfl
    | some x => exact if_neg (fun hx => (h x hc).elim (absurd hx.1) (absurd hx.2))

end Sys2Proof.Machine

namespace Sys2Proof.Machine

open Sys2Proof

/-! ## The opening of a round (R46, R49, R85, R96, R212, R248) -/

/-- The wells and tiles of a partition as a round's start finds them: halts over, floating-point flags clear. -/
def State.readied (s : State) (p : Nat) : State :=
  (s.each (s.wellsOf p) (fun t w => t.modWell w Well.endHalts)).each (s.tilesOf p) (fun t r => t.setReg (tileBase r + 0x34) 0)

theorem readied_frame (s : State) (p : Nat) : s.readied p = { s with wells := (s.readied p).wells, regs := (s.readied p).regs } :=
  each_invariant (P := fun t => t = { s with wells := t.wells, regs := t.regs })
    (each_invariant (P := fun t => t = { s with wells := t.wells, regs := t.regs }) rfl (fun w _ _ ht => congrArg (fun v : State => v.modWell w Well.endHalts) ht))
    (fun r _ _ ht => congrArg (fun v : State => v.setReg (tileBase r + 0x34) 0) ht)

theorem readied_wells (s : State) (p : Nat) : WellScope s (s.readied p) (s.wellsOf p) :=
  (wellScope_each (f := fun t w => t.modWell w Well.endHalts) s _ (fun _ hw t => wellScope_modWell t hw (fun _ => ⟨rfl, rfl, rfl⟩))).trans
    (wellScope_each (f := fun t r => t.setReg (tileBase r + 0x34) 0) _ _ (fun r _ t => wellScope_of_wells (s := t) (t := t.setReg (tileBase r + 0x34) 0) rfl _))

/-- A write of zero leaves a register that is zero at zero. -/
theorem reg_setReg_zero {s : State} {x : Nat} (y : Nat) (h : s.reg x = 0) : (s.setReg y 0).reg x = 0 := by
  rw [State.reg_setReg]
  split
  · rfl
  · exact h

theorem readied_zero {s : State} {x : Nat} (p : Nat) (h : s.reg x = 0) : (s.readied p).reg x = 0 :=
  each_invariant (P := fun t => t.reg x = 0) (each_invariant (P := fun t => t.reg x = 0) h (fun _ _ _ ht => ht)) (fun _ _ _ ht => reg_setReg_zero _ ht)

/-- A partition without queue entries whose ranges are armed. -/
def Partition.rearmed (x : Partition) : Partition := { x with armed := true, queue := [], due := [], arrivals := [], releaseAt := none }

/-- A round whose windlasses start 64 ticks after a tick. -/
def Round.timed (now kind : Nat) (r : Round) : Round := { r with startAt := some (now + 64), startKind := kind, doneUnits := [], entered := [] }

/-- The partition of a round that starts. -/
def Partition.started (now kind : Nat) (x : Partition) : Partition := { x.rearmed with round := x.round.timed now kind }

/-- The intake memories without the note of an overrun. -/
def State.unlogged (s : State) : State := { s with intakes := s.intakes.map (fun (i : Intake) => { i with overrunLogged := false }) }

/-- The start of a round, once its wells and tiles are ready. -/
def State.primed (s : State) (p now kind : Nat) : State := (s.unlogged.modPart p Partition.rearmed).modRound p (Round.timed now kind)

theorem primed_beyond (s : State) (p now kind : Nat) : (s.primed p now kind).beyond p = s.beyond p :=
  (modRound_beyond _ _ _).trans (modPart_beyond _ _ _)

theorem part_modRound_self {s : State} {p : Nat} (f : Round → Round) (hp : p < s.parts.length) :
    (s.modRound p f).part p = { s.part p with round := f (s.round p) } := part_modPart_self _ hp

theorem part_primed {s : State} {p : Nat} (now kind : Nat) (hp : p < s.parts.length) : (s.primed p now kind).part p = (s.part p).started now kind := by
  have h1 : (s.unlogged.modPart p Partition.rearmed).part p = (s.part p).rearmed := part_modPart_self _ hp
  rw [State.primed, part_modRound_self _ (length_of_beyond (modPart_beyond s.unlogged p _) hp), State.round, h1]
  rfl

theorem startRound_eq {s : State} {p : Nat} (kind : Nat) (hsub : ∀ w ∈ s.wellsOf p, (s.well w).inService = true → s.substGood w = true) :
    s.startRound p kind = (s.readied p).primed p s.devtime kind := by
  have hchecked : s.each (s.wellsOf p) State.checkSubst = s := each_id (fun w hw => checkSubst_good (hsub w hw))
  unfold State.startRound
  rw [hchecked]
  rfl

/-- A round of a partition starts: its windlasses go 64 ticks later, and of the rest its wells, its tiles' flags and its queue are made ready. -/
structure Starts (s t : State) (p kind : Nat) : Prop where
  beyond : t.beyond p = s.beyond p
  qps : t.qps = s.qps
  cmds : t.cmds = s.cmds
  wells : WellScope s t (s.wellsOf p)
  zero : ∀ x, s.reg x = 0 → t.reg x = 0
  part : t.part p = (s.part p).started s.devtime kind

theorem startRound_starts {s : State} {p : Nat} (kind : Nat) (hp : p < s.parts.length)
    (hsub : ∀ w ∈ s.wellsOf p, (s.well w).inService = true → s.substGood w = true) : Starts s (s.startRound p kind) p kind := by
  have hframe := readied_frame s p
  have hw := readied_wells s p
  have hzero : ∀ x, s.reg x = 0 → (s.readied p).reg x = 0 := fun x => readied_zero p
  have hparts : (s.readied p).parts = s.parts := by rw [hframe]
  have hbeyond : (s.readied p).beyond p = s.beyond p := by
    rw [hframe]
    rfl
  have hqps : (s.readied p).qps = s.qps := by rw [hframe]
  have hcmds : (s.readied p).cmds = s.cmds := by rw [hframe]
  rw [startRound_eq kind hsub]
  generalize s.readied p = t at hw hzero hparts hbeyond hqps hcmds
  have hprimed : (t.primed p s.devtime kind).wells = t.wells := rfl
  refine ⟨(primed_beyond _ _ _ _).trans hbeyond, hqps, hcmds, hw.trans (wellScope_of_wells hprimed _), hzero, ?_⟩
  rw [part_primed _ _ (hparts ▸ hp), State.part, hparts, State.part]

/-- The registers of tallies and progress that a round's opening clears. -/
def openTallies (p : Nat) : List Nat :=
  [rndBase p + 0x20, rndBase p + 0x24, rndBase p + 0x28, mskBase p + 0x10, mskBase p + 0x14, mskBase p + 0x18, mskBase p + 0x30,
    mskBase p + 0x34, ctxBase p + 0x50, ctxBase p + 0x60]

/-- The registers cleared by a round's opening. -/
def State.clearTallies (s : State) (p : Nat) : State := s.each (openTallies p) (fun t a => t.setReg a 0)

theorem openRegs_eq (s : State) (p : Nat) (d : Descriptor) (x : SchedSet) :
    s.openRegs p d x = if d.mode = .m then
      ((((s.clearTallies p).setReg (ctxBase p + 0x64) x.outputs).setBits (mskBase p) 7 0 d.ringWidth).setReg (mskBase p + 0x38)
        (slabOf d.coordinates d.ringWidth (s.wellsOf p).length))
    else (s.clearTallies p).setReg (ctxBase p + 0x64) x.outputs := rfl

theorem openRegs_regsOnly (s : State) (p : Nat) (d : Descriptor) (x : SchedSet) : RegsOnly s (s.openRegs p d x) := by
  have h : RegsOnly s ((s.clearTallies p).setReg (ctxBase p + 0x64) x.outputs) := (regsOnly_each _ _ (fun t a => regsOnly_setReg t a 0)).trans (regsOnly_setReg _ _ _)
  rw [openRegs_eq]
  split
  · exact (h.trans (regsOnly_setBits _ _ _ _ _)).trans (regsOnly_setReg _ _ _)
  · exact h

theorem clearTallies_zero (s : State) {p x : Nat} (hx : x ∈ openTallies p) : (s.clearTallies p).reg x = 0 :=
  each_establishes (P := fun t => t.reg x = 0) hx (fun _ => by simp) (fun _ _ _ h => reg_setReg_zero _ h)

theorem openRegs_zero (s : State) {p x : Nat} (d : Descriptor) (y : SchedSet) (hx : x ∈ openTallies p) : (s.openRegs p d y).reg x = 0 := by
  have h0 := clearTallies_zero s hx
  obtain ⟨houtputs, hwidth, hslab⟩ : x ≠ ctxBase p + 0x64 ∧ x ≠ mskBase p ∧ x ≠ mskBase p + 0x38 := by
    simp only [openTallies, List.mem_cons, List.not_mem_nil, or_false, rndBase, mskBase, ctxBase] at hx ⊢
    omega
  rw [openRegs_eq]
  split
  · rw [State.reg_setReg_ne _ _ _ _ hslab, State.reg_setBits_ne _ _ _ _ _ _ hwidth, State.reg_setReg_ne _ _ _ _ houtputs, h0]
  · rw [State.reg_setReg_ne _ _ _ _ houtputs, h0]

theorem setBits_substView (s : State) {x : Nat} (hi lo v : Nat) (h : ∀ w, substBase w + 0x18 ≠ x) : (s.setBits x hi lo v).substView = s.substView := by
  rw [State.setBits, setReg_substView _ _ h]
  rfl

theorem openRegs_substView (s : State) {p : Nat} (d : Descriptor) (y : SchedSet) (hp : p < 24) : (s.openRegs p d y).substView = s.substView := by
  have hne : ∀ w, ∀ x ∈ (ctxBase p + 0x64) :: mskBase p :: (mskBase p + 0x38) :: openTallies p, substBase w + 0x18 ≠ x := by
    intro w x hx
    simp only [openTallies, List.mem_cons, List.not_mem_nil, or_false, rndBase, mskBase, ctxBase] at hx
    simp only [substBase, wellBase]
    omega
  have hclear : (s.clearTallies p).substView = s.substView :=
    each_kept State.substView s _ _ (fun x hx t => setReg_substView t 0 (fun w => hne w x (by simp [hx])))
  have houtputs : ((s.clearTallies p).setReg (ctxBase p + 0x64) y.outputs).substView = s.substView :=
    (setReg_substView _ _ (fun w => hne w _ (by simp))).trans hclear
  rw [openRegs_eq]
  split
  · rw [setReg_substView _ _ (fun w => hne w _ (by simp)), setBits_substView _ _ _ _ (fun w => hne w _ (by simp)), houtputs]
  · exact houtputs

end Sys2Proof.Machine

namespace Sys2Proof.Machine

open Sys2Proof

/-! ## ROUND_OPEN (R46, R49) -/

/-- A partition that takes a round and a schedule set's admission slots. -/
def Partition.opened (r : Round) (slots : Nat) (x : Partition) : Partition := { x with round := r, slotsTotal := slots, slotsFree := List.range slots }

/-- The round that a descriptor opens at a tick. -/
def Descriptor.newRound (d : Descriptor) (now : Nat) : Round := { desc := d, lastRoundId := d.roundId, lastCut := now, cutNumber := 0 }

theorem openRound_eq (s : State) (p : Nat) (d : Descriptor) (x : SchedSet) :
    s.openRound p d x = ((((s.openRegs p d x).modPart p (Partition.opened (d.newRound s.devtime) x.slots)).startRound p 0).raise 0x0101 p 0
      [(64, d.roundId)]).enterState p .intake := rfl

theorem wellsOf_of_regsOnly {s t : State} (h : RegsOnly s t) (p : Nat) : t.wellsOf p = s.wellsOf p := by
  rw [h]
  rfl

/-- From a state `s` whose registers have become those of `u`, a round of a partition has started. -/
structure Launches (s u t : State) (p : Nat) (r : Round) (slots kind : Nat) : Prop where
  beyond : t.beyond p = s.beyond p
  qps : t.qps = s.qps
  cmds : t.cmds = s.cmds
  wells : WellScope s t (s.wellsOf p)
  zero : ∀ a, u.reg a = 0 → t.reg a = 0
  part : t.part p = ((s.part p).opened r slots).started s.devtime kind

theorem startRound_launches {s u : State} {p : Nat} (r : Round) (slots kind : Nat) (hu : RegsOnly s u) (hv : u.substView = s.substView) (hp : p < s.parts.length)
    (hsub : ∀ w ∈ s.wellsOf p, (s.well w).inService = true → s.substGood w = true) :
    Launches s u ((u.modPart p (Partition.opened r slots)).startRound p kind) p r slots kind := by
  have hparts : u.parts = s.parts := by rw [hu]
  have hbeyond : u.beyond p = s.beyond p := by
    rw [hu]
    rfl
  have hcmds : u.cmds = s.cmds := by rw [hu]
  have hnow : u.devtime = s.devtime := by rw [hu]
  have hown := wellsOf_of_regsOnly hu p
  have hm : (u.modPart p (Partition.opened r slots)).substView = u.substView := rfl
  have h := startRound_starts (s := u.modPart p (Partition.opened r slots)) kind (length_of_beyond ((modPart_beyond _ _ _).trans hbeyond) hp)
    (fun w hw => substGood_of_view (hm.trans hv) (hsub w (hown ▸ hw)))
  have hwells : WellScope s (u.modPart p (Partition.opened r slots)) (s.wellsOf p) := wellScope_of_wells (t := u.modPart p (Partition.opened r slots)) hu.wells _
  refine ⟨h.beyond.trans ((modPart_beyond _ _ _).trans hbeyond), h.qps.trans hu.qps, h.cmds.trans hcmds, hwells.trans (hown ▸ h.wells), h.zero, ?_⟩
  have hpart : (u.modPart p (Partition.opened r slots)).part p = (s.part p).opened r slots := by
    rw [part_modPart_self _ (hparts ▸ hp), State.part, hparts, State.part]
  have hmnow : (u.modPart p (Partition.opened r slots)).devtime = s.devtime := hnow
  rw [h.part, hpart, hmnow]

theorem openTallies_not_stateRegs {p a : Nat} (ha : a ∈ openTallies p) : a ∉ stateRegs p := by
  simp only [openTallies, stateRegs, List.mem_cons, List.not_mem_nil, or_false, rndBase, mskBase, ctxBase, logBase] at ha ⊢
  omega

theorem opcode_of_ready {s : State} {c : CmdRef} {op : Nat} {k : Cmd} (h : s.ready c op = some k) : k.opcode = op := by
  unfold State.ready at h
  split at h
  · cases h
  · split at h
    · cases h
    · dsimp only at h
      split at h
      · rename_i hc
        cases h
        exact hc.1
      · cases h

theorem withData_runs {s : State} {k : Cmd} (hd : k.readFailed = false) (hl : readLength k ≤ k.data.length) (f : Bytes → Result) : s.withData k f = f k.data :=
  (if_neg (by simp [hd])).trans (if_neg (not_lt.mpr hl))

theorem formed_lt {s : State} {p : Nat} (h : s.formed p = true) : p < 24 := by
  simp only [State.formed, Bool.and_eq_true, decide_eq_true_eq] at h
  obtain ⟨⟨-, hp⟩, -⟩ := h
  exact hp

theorem roundOpen_data {c : CmdRef} {k : Cmd} {s : State} (hr : s.ready c 0x01 = some k) (hl : 64 ≤ k.data.length) : readLength k ≤ k.data.length := by
  rw [readLength, opcode_of_ready hr]
  exact hl

theorem roundOpen_accepted {c : CmdRef} {k : Cmd} {x : SchedSet} {s : State} (hr : s.ready c 0x01 = some k) (hf : s.formed k.part = true)
    (hd : k.readFailed = false) (hl : 64 ≤ k.data.length) (hst : s.descStatus k.part k.data = .ok) (hx : s.setOf k.part (descriptorOf k.data) = some x) :
    exec (.roundOpen c) s = .next ((s.openRound k.part (descriptorOf k.data) x).complete k .ok 0 0) := by
  refine (partCmd_runs hr hf _).trans ((withData_runs hd (roundOpen_data hr hl) _).trans ?_)
  rw [hst, hx]

theorem roundOpen_refused {c : CmdRef} {k : Cmd} {s : State} (hr : s.ready c 0x01 = some k) (hf : s.formed k.part = true)
    (hd : k.readFailed = false) (hl : 64 ≤ k.data.length) (hst : s.descStatus k.part k.data ≠ .ok) :
    exec (.roundOpen c) s = .next (s.complete k (s.descStatus k.part k.data) 0 0) := by
  refine (partCmd_runs hr hf _).trans ((withData_runs hd (roundOpen_data hr hl) _).trans ?_)
  split
  · rename_i h _
    exact absurd h hst
  · rfl

/-- A round of a partition has been opened in INTAKE on cleared tallies. -/
structure Opens (s t : State) (p : Nat) (d : Descriptor) (slots : Nat) : Prop where
  beyond : t.beyond p = s.beyond p
  qps : t.qps = s.qps
  cmds : t.cmds = s.cmds
  wells : WellScope s t (s.wellsOf p)
  zero : ∀ a ∈ openTallies p, t.reg a = 0
  round : ∃ l, t.round p = { (d.newRound s.devtime).timed s.devtime 0 with state := .intake, entered := l }
  slotsFree : (t.part p).slotsFree = List.range slots
  slotsTotal : (t.part p).slotsTotal = slots
  armed : (t.part p).armed = true

/-- A started round that enters INTAKE, after its event, is open. -/
theorem opens_of_launches {s u v : State} {p : Nat} {d : Descriptor} {slots : Nat} (msg : List (Nat × Nat)) (hp : p < s.parts.length)
    (h : Launches s u v p (d.newRound s.devtime) slots 0) (hzero : ∀ a ∈ openTallies p, u.reg a = 0) :
    Opens s ((v.raise 0x0101 p 0 msg).enterState p .intake) p d slots := by
  have hwells : WellScope s (v.raise 0x0101 p 0 msg) (s.wellsOf p) := h.wells.trans (wellScope_of_wells (State.raise_wells _ _ _ _ _) _)
  have hqps : (v.raise 0x0101 p 0 msg).qps = s.qps := (State.raise_qps _ _ _ _ _).trans h.qps
  have hcmds : (v.raise 0x0101 p 0 msg).cmds = s.cmds := (State.raise_cmds _ _ _ _ _).trans h.cmds
  have hbeyond := (raise_beyond v p 0x0101 p 0 msg).trans h.beyond
  have hpart := (State.raise_part v 0x0101 p 0 msg p).trans h.part
  have hraised : OnlyRegs v (v.raise 0x0101 p 0 msg) (stateRegs p) := onlyRegs_raise v (by simp [stateRegs]) _ _ _ _
  have hkept : ∀ a ∈ openTallies p, (v.raise 0x0101 p 0 msg).reg a = 0 := fun a ha =>
    (hraised a (openTallies_not_stateRegs ha)).trans (h.zero a (hzero a ha))
  generalize v.raise 0x0101 p 0 msg = w at hwells hqps hcmds hbeyond hpart hkept ⊢
  have he := enterState_enters w .intake (length_of_beyond hbeyond hp)
  generalize w.enterState p .intake = t at he ⊢
  obtain ⟨l, hl⟩ := he.standing
  have hstand : w.standing p = ((s.standing p).opened (d.newRound s.devtime) slots).started s.devtime 0 := congrArg Partition.hold hpart
  have hround : w.round p = (d.newRound s.devtime).timed s.devtime 0 := congrArg Partition.round hpart
  refine ⟨he.beyond.trans hbeyond, he.qps.trans hqps, he.cmds.trans hcmds, hwells.trans (wellsOf_of_beyond hbeyond p ▸ he.wells),
    fun a ha => (he.regs a (openTallies_not_stateRegs ha)).trans (hkept a ha), ⟨l, ?_⟩, ?_, ?_, ?_⟩
  · rw [← hround]
    exact congrArg Partition.round hl
  · exact (congrArg Partition.slotsFree hl).trans (congrArg Partition.slotsFree hstand)
  · exact (congrArg Partition.slotsTotal hl).trans (congrArg Partition.slotsTotal hstand)
  · exact (congrArg Partition.armed hl).trans (congrArg Partition.armed hstand)

theorem openRound_opens {s : State} {p : Nat} (d : Descriptor) (x : SchedSet) (hp24 : p < 24) (hp : p < s.parts.length)
    (hsub : ∀ w ∈ s.wellsOf p, (s.well w).inService = true → s.substGood w = true) : Opens s (s.openRound p d x) p d x.slots := by
  rw [openRound_eq]
  exact opens_of_launches _ hp (startRound_launches _ _ 0 (openRegs_regsOnly s p d x) (openRegs_substView s d x hp24) hp hsub) (fun _ ha => openRegs_zero s d x ha)

/-- Settles O5: an opening clears its registers, takes the descriptor's round and starts it; a refused descriptor only completes. -/
theorem roundOpens : Obligations.RoundOpens := by
  unfold Obligations.RoundOpens
  refine ⟨fun c k x s hr hf hd hl hp hst hset hsub => ?_, fun c k s hr hf hd hl hst => roundOpen_refused hr hf hd hl hst⟩
  have ho := openRound_opens (descriptorOf k.data) x (formed_lt hf) hp hsub
  refine ⟨_, roundOpen_accepted hr hf hd hl hst hset, ?_⟩
  generalize s.openRound k.part (descriptorOf k.data) x = t at ho ⊢
  obtain ⟨l, hround⟩ := ho.round
  have hscope := partScope_of_beyond ho.beyond
  have hzero : ∀ {a}, a ∈ openTallies k.part → t.reg a = 0 := fun ha => ho.zero _ ha
  generalize t.round k.part = r at hround ⊢
  subst hround
  exact ⟨rfl, rfl, rfl, rfl, rfl, rfl, rfl, rfl, rfl, rfl, ho.slotsFree, ho.slotsTotal, ho.armed, hzero (by simp [openTallies]), hzero (by simp [openTallies]),
    hzero (by simp [openTallies]), hzero (by simp [openTallies]), hzero (by simp [openTallies]), hscope.others, ho.wells.others, ho.qps, hscope.lantus,
    hscope.power, hscope.plan, hscope.access, host_of_beyond ho.beyond, ho.cmds⟩

end Sys2Proof.Machine

namespace Sys2Proof.Machine

open Sys2Proof

/-! ## ROUND_RESUME (R71, R76, R77) -/

/-- The registers of a round that resumes: the tallies of its checkpoint's header and the checkpoint itself. -/
def State.resumeRegs (s : State) (p : Nat) (d : Descriptor) (x : SchedSet) (hd : Bytes) : State :=
  (((((s.openRegs p d x).setReg (rndBase p + 0x20) (rd hd 124 4)).setReg (rndBase p + 0x24) (rd hd 128 4)).setReg (rndBase p + 0x28) (rd hd 132 4)).setReg
    (rndBase p + 0x38) (rd hd 104 4)).setReg64 (rndBase p + 0x40) (rd hd 112 8)

/-- The ranges that a checkpoint's header lists: rank, first bucket and count. -/
def headerRanges (hd : Bytes) : List (Nat × Nat × Nat) :=
  (List.range (rd hd 136 4)).map (fun i => (rd hd (164 + 12 * i) 4, rd hd (168 + 12 * i) 4, rd hd (172 + 12 * i) 4))

/-- The accumulated uploads that a checkpoint lists behind its ranges, secured by it. -/
def headerAccums (hd body : Bytes) : List Accum :=
  (List.range (rd hd 140 4)).map (fun i =>
    Accum.mk (rd body (((headerRanges hd).map (fun e => e.2.2 * 64)).foldl (· + ·) 0 + 12 * i) 4) 0 0 (rd hd 108 1) true
      (rd body (((headerRanges hd).map (fun e => e.2.2 * 64)).foldl (· + ·) 0 + 12 * i + 4) 8) false)

/-- The round that an INTAKE checkpoint resumes at a tick. -/
def Descriptor.resumedRound (d : Descriptor) (now intakeClose : Nat) (hd body : Bytes) : Round :=
  { desc := { d with intakeClose := intakeClose }, lastRoundId := d.roundId, lastCut := now, epoch := rd hd 108 1 + 1,
    cutNumber := rd hd 104 4, seqLast := rd hd 120 4, accums := headerAccums hd body, survivors := [] }

theorem mem_headerAccums {hd body : Bytes} {a : Accum} (h : a ∈ headerAccums hd body) : a.secured = true ∧ a.epoch = rd hd 108 1 := by
  obtain ⟨i, -, rfl⟩ := List.mem_map.mp h
  exact ⟨rfl, rfl⟩

theorem length_headerAccums (hd body : Bytes) : (headerAccums hd body).length = rd hd 140 4 := by simp [headerAccums]

theorem resumeRound_intake (s : State) (p intakeClose : Nat) (d : Descriptor) (x : SchedSet) {hd : Bytes} (body : Bytes) (h : rd hd 110 1 ≠ 1) :
    s.resumeRound p intakeClose d x hd body =
      (((((s.resumeRegs p d x hd).modPart p (Partition.opened (d.resumedRound s.devtime intakeClose hd body) x.slots)).startRound p 1).restoreRanges p
        (headerRanges hd) body).raise 0x010B p 0 [(64, d.roundId), (8, rd hd 108 1 + 1), (32, rd hd 104 4)]).enterState p .intake := by
  have hc : (rd hd 110 1 == 1) = false := beq_eq_false_iff_ne.mpr h
  unfold State.resumeRound
  simp only [hc, Bool.false_eq_true, if_false]
  rfl

theorem resumeRegs_regsOnly (s : State) (p : Nat) (d : Descriptor) (x : SchedSet) (hd : Bytes) : RegsOnly s (s.resumeRegs p d x hd) :=
  (((((openRegs_regsOnly s p d x).trans (regsOnly_setReg _ _ _)).trans (regsOnly_setReg _ _ _)).trans (regsOnly_setReg _ _ _)).trans
    (regsOnly_setReg _ _ _)).trans (regsOnly_setReg64 _ _ _)

theorem resumeRegs_substView (s : State) {p : Nat} (d : Descriptor) (x : SchedSet) (hd : Bytes) (hp : p < 24) :
    (s.resumeRegs p d x hd).substView = s.substView := by
  have hne : ∀ o, o < 0x48 → ∀ w, substBase w + 0x18 ≠ rndBase p + o := by
    intro o ho w
    simp only [substBase, wellBase, rndBase]
    omega
  unfold State.resumeRegs
  rw [State.setReg64, setReg_substView _ _ (hne 0x44 (by omega)), setReg_substView _ _ (hne 0x40 (by omega)), setReg_substView _ _ (hne 0x38 (by omega)),
    setReg_substView _ _ (hne 0x28 (by omega)), setReg_substView _ _ (hne 0x24 (by omega)), setReg_substView _ _ (hne 0x20 (by omega)),
    openRegs_substView s d x hp]

theorem restoreRanges_unvoted (s : State) (p : Nat) (l : List (Nat × Nat × Nat)) (bs : Bytes) : (s.restoreRanges p l bs).unvoted p = s.unvoted p := by
  induction l generalizing s bs with
  | nil => rfl
  | cons e l ih => exact (ih _ _).trans (devWrite_unvoted _ _ _ _)

/-- A round of a partition resumes in INTAKE. -/
structure Resumes (s t : State) (p : Nat) (r : Round) (slots : Nat) : Prop where
  others : OnlyPart s t p
  qps : t.qps = s.qps
  keyless : ({ t.lantus with keys := [] } : Lantus) = { s.lantus with keys := [] }
  power : t.power = s.power
  round : ∃ l, t.round p = { r.timed s.devtime 1 with state := .intake, entered := l }
  slotsFree : (t.part p).slotsFree = List.range slots

/-- A started round whose memories and words have been restored and which enters INTAKE has resumed. -/
theorem resumes_of_launches {s u v w : State} {p : Nat} {r : Round} {slots : Nat} (hp : p < s.parts.length) (h : Launches s u v p r slots 1)
    (hw : w.unvoted p = v.unvoted p) : Resumes s ((w.enterState p .intake).repairWords p) p r slots := by
  have hscope := partScope_of_beyond h.beyond
  have he := enterState_enters w .intake (by rw [length_of_unvoted hw]; exact length_of_beyond h.beyond hp)
  have hwords := repairWords_unvoted (w.enterState p .intake) p
  have hpart : (w.part p).unvoted = (((s.part p).opened r slots).started s.devtime 1).unvoted := (unvoted_part hw).trans (congrArg Partition.unvoted h.part)
  have hround : w.round p = r.timed s.devtime 1 := by
    rw [round_of_unvoted hw]
    exact congrArg Partition.round h.part
  generalize (w.enterState p .intake).repairWords p = t at hwords ⊢
  generalize w.enterState p .intake = x at he hwords
  have hentered := partScope_of_beyond he.beyond
  obtain ⟨l, hl⟩ := he.standing
  refine ⟨fun q hq => ?_, ?_, ?_, ?_, ⟨l, ?_⟩, ?_⟩
  · exact (onlyPart_of_unvoted hwords q hq).trans ((hentered.others q hq).trans ((onlyPart_of_unvoted hw q hq).trans (hscope.others q hq)))
  · exact (qps_of_unvoted hwords).trans (he.qps.trans ((qps_of_unvoted hw).trans h.qps))
  · have hk := keyless_of_unvoted hwords
    rw [hentered.lantus] at hk
    have hk2 := keyless_of_unvoted hw
    rw [hscope.lantus] at hk2
    exact hk.trans hk2
  · exact (power_of_unvoted hwords).trans (hentered.power.trans ((power_of_unvoted hw).trans hscope.power))
  · rw [round_of_unvoted hwords, ← hround]
    exact congrArg Partition.round hl
  · exact (congrArg Partition.slotsFree (unvoted_part hwords)).trans ((congrArg Partition.slotsFree hl).trans (congrArg Partition.slotsFree hpart))

theorem resumeRound_resumes {s : State} {p intakeClose : Nat} (d : Descriptor) (x : SchedSet) {hd : Bytes} (body : Bytes) (h : rd hd 110 1 ≠ 1)
    (hp24 : p < 24) (hp : p < s.parts.length) (hsub : ∀ w ∈ s.wellsOf p, (s.well w).inService = true → s.substGood w = true) :
    Resumes s ((s.resumeRound p intakeClose d x hd body).repairWords p) p (d.resumedRound s.devtime intakeClose hd body) x.slots := by
  rw [resumeRound_intake s p intakeClose d x body h]
  refine resumes_of_launches hp (startRound_launches _ _ 1 (resumeRegs_regsOnly s p d x hd) (resumeRegs_substView s d x hd hp24) hp hsub) ?_
  rw [raise_unvoted, restoreRanges_unvoted]

theorem roundResume_first {c : CmdRef} {k : Cmd} {s : State} (hr : s.ready c 0x04 = some k) (hf : s.formed k.part = true)
    (h : s.resumeFirst k.part ≠ .ok) : exec (.roundResume c) s = .next (s.refuseResume k 0 (s.resumeFirst k.part)) := by
  refine (partCmd_runs hr hf _).trans ?_
  dsimp only
  split
  · rename_i h2
    exact absurd h2 h
  · rfl

theorem roundResume_opens {c : CmdRef} {k : Cmd} {body : Bytes} {s : State} (hr : s.ready c 0x04 = some k) (hf : s.formed k.part = true)
    (h1 : s.resumeFirst k.part = .ok) (hd : k.readFailed = false) (hl : readLength k ≤ k.data.length)
    (hopen : gcmOpen (s.ckptKey (s.part k.part).image.ckptSlot (rd (sealedParts k.data).header 0 8)) (sealIv (rd (sealedParts k.data).header 104 4)
      (rd (sealedParts k.data).header 108 1) (rd (sealedParts k.data).header 109 1)) (sealedParts k.data).header (sealedParts k.data).body
      (sealedParts k.data).tag = some body) :
    exec (.roundResume c) s =
      if slice (sealedParts k.data).header 72 32 ≠ fit (s.part k.part).image.digest 32 ∨ rd (sealedParts k.data).header 108 1 = 15 ∨
          (rd (sealedParts k.data).header 110 1 = 0 ∧ k.p1 ≤ s.devtime) then .next (s.refuseResume k (rd (sealedParts k.data).header 0 8) .state)
      else (s.setOf k.part (descriptorOf (slice (sealedParts k.data).header 8 64))).elim (.next (s.refuseResume k (rd (sealedParts k.data).header 0 8) .state))
        (fun y => .next (((s.resumeRound k.part k.p1 (descriptorOf (slice (sealedParts k.data).header 8 64)) y (sealedParts k.data).header body).repairWords
          k.part).complete k .ok 0 0)) := by
  refine (partCmd_runs hr hf _).trans ?_
  dsimp only
  rw [h1]
  refine (withData_runs hd hl _).trans ?_
  rw [hopen]
  refine if_congr Iff.rfl rfl ?_
  cases s.setOf k.part (descriptorOf (slice (sealedParts k.data).header 8 64)) <;> rfl

/-- Settles O11: a resumption starts its checkpoint's round one epoch later; what fails a test is refused. -/
theorem roundResumes : Obligations.RoundResumes := by
  unfold Obligations.RoundResumes
  refine ⟨fun c k body y s hr hf hp h1 hd hl => ?_, fun c k s hr hf h1 hd hl => ?_, fun c k body s hr hf h1 hd hl => ?_,
    fun c k s hr hf h => roundResume_first hr hf h, fun p s hdma hst => ?_⟩
  · intro x p d hopen hdig hep hphase hnow hy hsub
    have hres := resumeRound_resumes (intakeClose := k.p1) d y body hphase (formed_lt hf) hp hsub
    have hgo : ¬ (slice x.header 72 32 ≠ fit (s.part p).image.digest 32 ∨ rd x.header 108 1 = 15 ∨ (rd x.header 110 1 = 0 ∧ k.p1 ≤ s.devtime)) := by
      simp [hdig, hep, hnow]
    have hrun : exec (.roundResume c) s = .next (((s.resumeRound p k.p1 d y x.header body).repairWords p).complete k .ok 0 0) := by
      refine (roundResume_opens hr hf h1 hd hl hopen).trans ((if_neg hgo).trans ?_)
      rw [hy, Option.elim_some]
    refine ⟨_, hrun, ?_⟩
    generalize (s.resumeRound p k.p1 d y x.header body).repairWords p = t at hres ⊢
    obtain ⟨l, hround⟩ := hres.round
    generalize t.round p = r at hround ⊢
    subst hround
    exact ⟨rfl, rfl, rfl, rfl, rfl, length_headerAccums _ _, fun _ ha => mem_headerAccums ha, rfl, hres.slotsFree, hres.others, hres.qps,
      lantus_of_keyless hres.keyless, hres.power⟩
  · intro x hopen
    refine (partCmd_runs hr hf _).trans ?_
    dsimp only
    rw [h1]
    refine (withData_runs hd hl _).trans ?_
    rw [hopen]
  · intro x hopen hbad
    exact (roundResume_opens hr hf h1 hd hl hopen).trans (if_pos hbad)
  · simp [State.resumeFirst, hdma, hst]

end Sys2Proof.Machine

namespace Sys2Proof.Machine

open Sys2Proof

/-! ## A port that is taken down (R338, R346, R489) -/

/-- Is a port down by administration, and is it up? -/
def Port.standing (x : Port) : Bool × Bool := (x.admin, x.up)

/-- What the traffic of a port's fall leaves alone: whether each port is down by administration and up, the wells, and Lantus. -/
def State.moored (s : State) : List (Bool × Bool) × List Well × Lantus := (s.ports.map Port.standing, s.wells, s.lantus)

@[simp] theorem each_moored {α : Type} (s : State) (l : List α) (f : State → α → State) (h : ∀ t a, (f t a).moored = t.moored) :
    (s.each l f).moored = s.moored := each_kept State.moored s l f (fun a _ t => h t a)

theorem modPort_moored (s : State) (n : Nat) {f : Port → Port} (h : ∀ x, (f x).admin = x.admin ∧ (f x).up = x.up) : (s.modPort n f).moored = s.moored :=
  congrArg (·, s.wells, s.lantus) (map_updAt_self _ s.ports n (fun x => Prod.ext (h x).1 (h x).2))

@[simp] theorem modQp_moored (s : State) (n : Nat) (f : Qp → Qp) : (s.modQp n f).moored = s.moored := rfl
@[simp] theorem modPart_moored (s : State) (p : Nat) (f : Partition → Partition) : (s.modPart p f).moored = s.moored := rfl
@[simp] theorem modSent_moored (s : State) (n cls psn : Nat) (f : SentPkt → SentPkt) : (s.modSent n cls psn f).moored = s.moored := rfl
@[simp] theorem modIntake_moored (s : State) (port i : Nat) (f : Intake → Intake) : (s.modIntake port i f).moored = s.moored := rfl
@[simp] theorem setReg_moored (s : State) (x v : Nat) : (s.setReg x v).moored = s.moored := rfl
@[simp] theorem setBits_moored (s : State) (x hi lo v : Nat) : (s.setBits x hi lo v).moored = s.moored := rfl
@[simp] theorem countBy_moored (s : State) (x n : Nat) : (s.countBy x n).moored = s.moored := rfl
@[simp] theorem count_moored (s : State) (x : Nat) : (s.count x).moored = s.moored := rfl
@[simp] theorem emit_moored (s : State) (o : Output) : (s.emit o).moored = s.moored := rfl

@[simp] theorem raise_moored (s : State) (code part src : Nat) (l : List (Nat × Nat)) : (s.raise code part src l).moored = s.moored := by
  rw [State.raise_eq]
  rfl

@[simp] theorem ringWrite_moored (s : State) (p : Nat) (rec : Bytes) : (s.ringWrite p rec).moored = s.moored := by
  rw [State.ringWrite, State.msix_eq, State.hostWrite_eq]
  rfl

@[simp] theorem eventRecord_moored (s : State) (p kind : Nat) (st : Status) (object a b : Nat) : (s.eventRecord p kind st object a b).moored = s.moored := by
  unfold State.eventRecord
  (repeat' split) <;> simp

@[simp] theorem firstIn_moored (s : State) (p kind obj period : Nat) : (s.firstIn p kind obj period).2.moored = s.moored := by
  unfold State.firstIn
  split <;> rfl

@[simp] theorem recordLost_moored (s : State) (p n k : Nat) : (s.recordLost p n k).moored = s.moored := by
  unfold State.recordLost
  dsimp only
  (repeat' split) <;> simp

@[simp] theorem sendFrame_moored (s : State) (port prio : Nat) (frame : Bytes) : (s.sendFrame port prio frame).moored = s.moored := by
  unfold State.sendFrame
  (repeat' split)
  · rfl
  · exact modPort_moored _ _ (fun _ => ⟨rfl, rfl⟩)
  · rfl

@[simp] theorem sendPacket_moored (s : State) (n op : Nat) (first last ackReq : Bool) (path cls attempt psn : Nat) (ext payload : Bytes) :
    (s.sendPacket n op first last ackReq path cls attempt psn ext payload).moored = s.moored := by
  simp only [State.sendPacket]
  split <;> simp

@[simp] theorem controlOut_moored (s : State) (n op path : Nat) (ext payload : Bytes) : (s.controlOut n op path ext payload).moored = s.moored := by
  unfold State.controlOut
  split <;> simp [State.nextPsn]

@[simp] theorem abandonUpload_moored (s : State) (p : Nat) (u : Upload) : (s.abandonUpload p u).moored = s.moored := by
  simp only [State.abandonUpload, raise_moored]
  split <;> simp

@[simp] theorem qpError_moored (s : State) (n : Nat) (st : Status) (kind : Nat) : (s.qpError n st kind).moored = s.moored := by
  simp only [State.qpError]
  split <;> simp

@[simp] theorem resend_moored (s : State) (n : Nat) (k : SentPkt) : (s.resend n k).moored = s.moored := by simp [State.resend, State.resendOn]

@[simp] theorem declareLost_moored (s : State) (n : Nat) (k : SentPkt) : (s.declareLost n k).moored = s.moored := by
  unfold State.declareLost
  dsimp only
  (repeat' split) <;> simp

@[simp] theorem pathDown_moored (s : State) (n j : Nat) : (s.pathDown n j).moored = s.moored := by
  simp only [State.pathDown]
  split <;> simp

@[simp] theorem qpPortDown_moored (s : State) (port n : Nat) : (s.qpPortDown port n).moored = s.moored := by
  simp only [State.qpPortDown]
  split <;> simp

/-- A change of one element, seen through a map that turns it into another change there. -/
theorem map_updAt_at {α β : Type} (g : α → β) (l : List α) (i : Nat) (d : α) {f : α → α} {h : β → β} (hx : g (f (l.getD i d)) = h (g (l.getD i d))) :
    (updAt l i f).map g = updAt (l.map g) i h := by
  induction l generalizing i with
  | nil => cases i <;> rfl
  | cons a l ih =>
    cases i with
    | zero => exact congrArg (· :: l.map g) hx
    | succ i => exact congrArg (g a :: ·) (ih i hx)

/-- Two changes of one element that agree there. -/
theorem updAt_updAt_at {α : Type} (l : List α) (i : Nat) (d : α) {f g h : α → α} (hx : g (f (l.getD i d)) = h (l.getD i d)) :
    updAt (updAt l i f) i g = updAt l i h := by
  induction l generalizing i with
  | nil => cases i <;> rfl
  | cons a l ih =>
    cases i with
    | zero => exact congrArg (· :: l) hx
    | succ i => exact congrArg (a :: ·) (ih i hx)

/-- A port that has fallen. -/
def fallen (b : Bool × Bool) : Bool × Bool := (b.1, false)

/-- The standing of a port once its administration bit has been written. -/
def ruled (down : Bool) (b : Bool × Bool) : Bool × Bool := if b.1 = down then b else (down, b.2 && !down)

theorem moored_fixed {s : State} {n : Nat} {h : Bool × Bool → Bool × Bool} (hx : h (s.port n).standing = (s.port n).standing) :
    s.moored = (updAt s.moored.1 n h, s.moored.2) := by
  have hfix : updAt (s.ports.map Port.standing) n h = s.ports.map Port.standing :=
    updAt_fixed (d := Port.standing {}) _ _ (by rw [List.getD_map]; exact hx)
  exact congrArg (·, s.wells, s.lantus) hfix.symm

theorem modPort_moored_at {s : State} {n : Nat} {f : Port → Port} {h : Bool × Bool → Bool × Bool} (hx : (f (s.port n)).standing = h (s.port n).standing) :
    (s.modPort n f).moored = (updAt s.moored.1 n h, s.moored.2) :=
  congrArg (·, s.wells, s.lantus) (map_updAt_at Port.standing s.ports n {} hx)

theorem dropPort_moored (s : State) (n : Nat) : (s.dropPort n).moored = (updAt s.moored.1 n fallen, s.moored.2) := by
  simp only [State.dropPort]
  split
  · rename_i h
    exact moored_fixed (by simp_all [fallen, Port.standing])
  · rw [each_moored _ _ _ (fun _ _ => qpPortDown_moored _ _ _), each_moored _ _ _ (fun _ _ => eventRecord_moored _ _ _ _ _ _ _),
      each_moored _ _ _ (fun _ _ => modIntake_moored _ _ _ _)]
    exact modPort_moored_at rfl

theorem adminPort_moored (s : State) (n : Nat) (down : Bool) : (s.adminPort n down).moored = (updAt s.moored.1 n (ruled down), s.moored.2) := by
  unfold State.adminPort
  split
  · rename_i h
    exact moored_fixed (if_pos h)
  · rename_i h
    split
    · rename_i hd
      have hport : (s.moored.1.getD n (Port.standing {})).1 = (s.port n).admin := congrArg Prod.fst (List.getD_map (n := n) (f := Port.standing) s.ports {})
      have hruled : ((fun b : Bool × Bool => (true, b.2)) (fallen (s.moored.1.getD n (Port.standing {})))) = ruled down (s.moored.1.getD n (Port.standing {})) := by
        rw [ruled, hport, if_neg h, hd]
        simp [fallen]
      have hadmin : ((s.dropPort n).modPort n (fun x => { x with admin := true, training := false })).moored =
          (updAt (s.dropPort n).moored.1 n (fun b => (true, b.2)), (s.dropPort n).moored.2) := modPort_moored_at rfl
      rw [raise_moored, hadmin, dropPort_moored, updAt_updAt_at _ _ (Port.standing {}) hruled]
    · rw [raise_moored]
      exact modPort_moored_at (by simp_all [ruled, Port.standing])

theorem standing_eq (s : State) (n : Nat) : (s.port n).standing = s.moored.1.getD n (Port.standing {}) :=
  (List.getD_map (n := n) (f := Port.standing) s.ports {}).symm

theorem typedWrite_moored (s : State) (x v : Nat) : (s.typedWrite x v).moored = s.moored := by
  unfold State.typedWrite
  split <;> rfl

theorem writePorts_moored (s : State) (x v : Nat) :
    (s.writePorts x v).moored = (updAt (updAt s.moored.1 0 (ruled (bit v 0))) 1 (ruled (bit v 1)), s.moored.2) := by
  rw [State.writePorts, adminPort_moored, adminPort_moored, typedWrite_moored]

theorem writePorts_standing {s : State} (x v : Nat) {n : Nat} (hn : n < 2) (hl : 2 ≤ s.ports.length) :
    ((s.writePorts x v).port n).standing = ruled (bit v n) (s.port n).standing := by
  have hlen : s.moored.1.length = s.ports.length := List.length_map _
  rw [standing_eq, writePorts_moored, updAt_getD, updAt_length, updAt_getD, updAt_getD, hlen, standing_eq s n]
  obtain rfl | rfl : n = 0 ∨ n = 1 := by omega
  · simp [show 0 < s.ports.length by omega]
  · simp [show 1 < s.ports.length by omega]

theorem ruled_admin (down : Bool) (b : Bool × Bool) : (ruled down b).1 = down := by
  unfold ruled
  split
  · assumption
  · rfl

end Sys2Proof.Machine

namespace Sys2Proof.Machine

open Sys2Proof

/-! ## Register writes that take an action (R86, R225, R237, R259, R269) -/

/-- An access that meets a register has changed no partition, well or port. -/
theorem atReg_kept (s : State) (a : RegAccess) (x : Nat) :
    (s.atReg a x).parts = s.parts ∧ (s.atReg a x).wells = s.wells ∧ (s.atReg a x).ports = s.ports := by
  have hv := (bankScope_votesFor (s.arrive a.who) 0 x).frame
  have hparts : (s.arrive a.who).parts = s.parts := by rw [State.arrive_eq]
  have hwells : (s.arrive a.who).wells = s.wells := by rw [State.arrive_eq]
  have hports : (s.arrive a.who).ports = s.ports := by rw [State.arrive_eq]
  exact ⟨(congrArg State.parts hv).trans hparts, (votesFor_wells _ _).trans hwells, (congrArg State.ports hv).trans hports⟩

/-- A write that reaches a single register, as the row of the table that it is, takes the register's action. -/
theorem writeAs_acts {s : State} {a : RegAccess} {x : Nat} {r : RegRow} {row : WriteRow} (h : Writes s a x r) (hh : r.half = .single)
    (hrow : s.rowOfWrite a = row) : s.writeAs row a = (s.atReg a x).actOn a x := by
  obtain ⟨harr, hl, he⟩ := h
  obtain ⟨-, -, -, -, hr, -⟩ := id harr
  rw [writeAs_arrives harr hrow, putReg_acts hr (.inl hh) hl he]

theorem spot_of_writes {s : State} {a : RegAccess} {x : Nat} {r : RegRow} (h : Writes s a x r) : s.spotOf a = .register x := by
  obtain ⟨⟨-, -, -, hspot, -, -⟩, -, -⟩ := h
  exact hspot

theorem row_of_writes {s : State} {a : RegAccess} {x : Nat} {r : RegRow} (h : Writes s a x r) : regRow x = some r := by
  obtain ⟨⟨-, -, -, -, hr, -⟩, -, -⟩ := h
  exact hr

/-! ### RND_CTRL (R86) -/

/-- The bit that a one-bit field is set to is the one it reads. -/
theorem regBits_setBits_low (s : State) (x : Nat) {v : Nat} (hv : v < 2) : (s.setBits x 0 0 v).regBits x 0 0 = v := by
  obtain rfl | rfl : v = 0 ∨ v = 1 := by omega
  · rw [State.regBits, State.reg_setBits, if_pos rfl, bits]
    simp only [Nat.shiftRight_zero, Nat.zero_shiftLeft, Nat.zero_and, Nat.or_zero]
    rw [Nat.mod_mod_of_dvd _ (by decide), Nat.and_mod_two_pow]
    exact Nat.and_zero _
  · exact regBits_setBits_one s x (by omega)

/-! ### FLUSH (R237) -/

/-- A well whose merge entries of a list have been written back. -/
def Well.flushed (x : Well) (l : List MergeEntry) : Well := l.foldl Well.settled x

theorem merge_settled (x : Well) (e : MergeEntry) : (x.settled e).merge = x.merge.filter (fun d => d.bucket ≠ e.bucket) := by
  unfold Well.settled
  dsimp only
  split <;> rfl

theorem mem_merge_flushed {x : Well} {l : List MergeEntry} {d : MergeEntry} (h : d ∈ (x.flushed l).merge) : d ∈ x.merge ∧ d ∉ l := by
  induction l generalizing x with
  | nil => exact ⟨h, List.not_mem_nil⟩
  | cons e l ih =>
    obtain ⟨hm, hl⟩ := ih (x := x.settled e) h
    rw [merge_settled, List.mem_filter] at hm
    refine ⟨hm.1, fun hd => ?_⟩
    rcases List.mem_cons.mp hd with rfl | hd
    · simp at hm
    · exact hl hd

theorem merge_flushed (x : Well) : (x.flushed x.merge).merge = [] :=
  List.eq_nil_iff_forall_not_mem.mpr (fun _ hd => (mem_merge_flushed hd).2 (mem_merge_flushed hd).1)

/-- Entries of different buckets that a well holds may be written back in turn: every byte reads as before. -/
theorem seen_flushed {x : Well} {l : List MergeEntry} (hok : x.cisOk) (hl : ∀ e ∈ l, x.entry e.bucket = some e)
    (hd : l.Pairwise (fun a b => a.bucket ≠ b.bucket)) (b : Nat) : (x.flushed l).seen b = x.seen b := by
  induction l generalizing x with
  | nil => rfl
  | cons e l ih =>
    obtain ⟨hne, hd⟩ := List.pairwise_cons.mp hd
    have hkept : ∀ d ∈ l, (x.settled e).entry d.bucket = some d := fun d hm => by
      rw [entry_settled, if_neg (hne d hm).symm]
      exact hl d (List.mem_cons_of_mem e hm)
    exact (ih (cisOk_settled hok e) hkept hd).trans (seen_settled hok (hl e List.mem_cons_self) b)

/-- In a merge buffer with one entry a bucket, an entry is the one of its bucket. -/
theorem entry_of_mem {x : Well} (hd : x.merge.Pairwise (fun a b => a.bucket ≠ b.bucket)) {e : MergeEntry} (he : e ∈ x.merge) : x.entry e.bucket = some e := by
  rw [Well.entry]
  generalize x.merge = l at hd he
  induction l with
  | nil => cases he
  | cons d l ih =>
    obtain ⟨hne, hd⟩ := List.pairwise_cons.mp hd
    rcases List.mem_cons.mp he with rfl | he
    · exact List.find?_cons_of_pos (by simp)
    · rw [List.find?_cons_of_neg (by simpa using hne e he)]
      exact ih hd he

theorem flushMerge_settles (s : State) {w : Nat} (l : List MergeEntry) (hw : w < s.wells.length) :
    BankScope s (s.each l (fun t e => t.writeBack false w e)) w ∧ (s.each l (fun t e => t.writeBack false w e)).well w = (s.well w).flushed l := by
  induction l generalizing s with
  | nil => exact ⟨BankScope.refl s w, rfl⟩
  | cons e l ih =>
    obtain ⟨hs, hwell⟩ := writeBack_settles s e hw
    obtain ⟨hs2, hwell2⟩ := ih (s.writeBack false w e) (hs.length.symm ▸ hw)
    exact ⟨hs.trans hs2, hwell2.trans (by rw [hwell]; rfl)⟩

/-- A flush of a well's cistern: the merge buffer is empty and, on a cistern of canonical form, every byte reads as before. -/
theorem flushMerge_flushes (s : State) (w : Nat) :
    BankScope s (s.flushMerge false w) w ∧ ((s.flushMerge false w).well w).merge = [] ∧
      ((s.well w).cisOk → ∀ b, ((s.flushMerge false w).well w).seen b = (s.well w).seen b) := by
  by_cases hw : w < s.wells.length
  · obtain ⟨hs, hwell⟩ := flushMerge_settles s (s.well w).merge hw
    have heq : s.flushMerge false w = s.each (s.well w).merge (fun t e => t.writeBack false w e) := rfl
    rw [heq, hwell]
    refine ⟨hs, merge_flushed _, fun hok b => ?_⟩
    obtain ⟨-, hdistinct, -⟩ := id hok
    exact seen_flushed hok (fun e he => entry_of_mem hdistinct he) hdistinct b
  · have hnil : s.well w = {} := List.getD_eq_default _ _ (not_lt.mp hw)
    have heq : s.flushMerge false w = s := by
      show s.each (s.well w).merge (fun t e => t.writeBack false w e) = s
      rw [hnil]
      rfl
    rw [heq]
    exact ⟨BankScope.refl s w, by rw [hnil], fun _ _ => rfl⟩

end Sys2Proof.Machine

namespace Sys2Proof.Machine

open Sys2Proof

theorem msix_sent {s : State} {f v : Nat} (hon : s.msixOn f = true) (hup : s.host.up = true) (hbad : s.streamBad f = false)
    (hm : ((look v (s.fn f).msix).getD {}).masked = false) : (s.msix f v).out = s.out ++ [.msix f v] := by
  simp [State.msix, hon, hup, hbad, hm, State.emit]

/-- The state in which an interrupt enable has been written. -/
def State.enabled (s : State) (r : RegRow) (x v : Nat) : State := s.setReg x (r.written (s.reg x) v ||| s.survives r x)

theorem writeIntEnable_eq {s : State} {x : Nat} {r : RegRow} (hr : regRow x = some r) (v st f vec : Nat) :
    s.writeIntEnable x v st f vec =
      if (s.enabled r x v).reg x &&& (0xFFFFFFFF ^^^ s.reg x) &&& s.reg st ≠ 0 then (s.enabled r x v).msix f vec else s.enabled r x v := by
  have htyped : s.typedWrite x v = s.enabled r x v := by simp only [State.typedWrite, hr, State.enabled]
  rw [State.writeIntEnable, htyped]

theorem writeIntEnable_regs {s : State} {x : Nat} {r : RegRow} (hr : regRow x = some r) (v st f vec : Nat) :
    (s.writeIntEnable x v st f vec).regs = (s.enabled r x v).regs := by
  rw [writeIntEnable_eq hr]
  split
  · rw [State.msix_eq]
  · rfl

/-- A written interrupt enable sets its word, and sends the vector when a bit that is newly enabled stands in the status. -/
theorem writeIntEnable_enables {s : State} {x : Nat} {r : RegRow} (hr : regRow x = some r) (v st f vec : Nat) :
    let t := s.writeIntEnable x v st f vec
    t.regW x = BitVec.ofNat 32 (r.written (s.reg x) v ||| s.survives r x) ∧ OnlyRegs s t [x] ∧
      (t.reg x &&& (0xFFFFFFFF ^^^ s.reg x) &&& s.reg st = 0 → t.out = s.out ∧ t.fns = s.fns) ∧
      (t.reg x &&& (0xFFFFFFFF ^^^ s.reg x) &&& s.reg st ≠ 0 → s.msixOn f = true → s.host.up = true → s.streamBad f = false →
        ((look vec (s.fn f).msix).getD {}).masked = false → t.out = s.out ++ [.msix f vec]) := by
  intro t
  have hword : ∀ y, t.regW y = (s.enabled r x v).regW y := fun y => by rw [State.regW, writeIntEnable_regs hr, State.regW]
  have hself : t.reg x = (s.enabled r x v).reg x := congrArg BitVec.toNat (hword x)
  have heq := writeIntEnable_eq (s := s) hr v st f vec
  rw [← hself] at heq
  refine ⟨(hword x).trans (State.regW_setReg_self _ _ _), fun y hy => ?_, fun hz => ?_, fun hnz hon hup hbad hm => ?_⟩
  · exact (congrArg BitVec.toNat (hword y)).trans (State.reg_setReg_ne _ _ _ _ (fun hyx => hy (by simp [hyx])))
  · rw [show t = s.enabled r x v from heq.trans (if_neg (not_not.mpr hz))]
    exact ⟨rfl, rfl⟩
  · rw [show t = (s.enabled r x v).msix f vec from heq.trans (if_pos hnz)]
    exact msix_sent (s := s.enabled r x v) hon hup hbad hm

/-- CLOSE_INTAKE in INTAKE: the hold bit is written and the round closes. -/
theorem writeRndCtrl_closes {u : State} {a : RegAccess} {p : Nat} (hp : p < u.parts.length) (hb : bit a.value.toNat 1 = true) (hst : (u.round p).state = .intake)
    (hab : (u.round p).abortPending = false) : Closes (u.setBits (rndBase p + 0x18) 0 0 (a.value.toNat % 2)) (u.writeRndCtrl a p) p := by
  have heq : u.writeRndCtrl a p = (u.setBits (rndBase p + 0x18) 0 0 (a.value.toNat % 2)).closeIntake p 0 := by
    rw [State.writeRndCtrl, if_pos hb, if_pos hst]
  rw [heq]
  exact closeIntake_closes 0 hp hst hab

theorem holdReg_not_stateRegs (p : Nat) : rndBase p + 0x18 ∉ stateRegs p := by
  simp only [stateRegs, List.mem_cons, List.not_mem_nil, or_false, rndBase, logBase]
  omega

theorem onlyWell_modWell (s : State) (w : Nat) (f : Well → Well) : OnlyWell s (s.modWell w f) w := fun v hv => by
  rw [State.well_modWell, if_neg (fun h => hv h.1)]

theorem well_modWell_self {s : State} {w : Nat} (f : Well → Well) (hw : w < s.wells.length) : (s.modWell w f).well w = f (s.well w) := by
  rw [State.well_modWell, if_pos ⟨rfl, hw⟩]

/-- SCRUB_CTRL.start while no pass runs, its range checked. -/
theorem writeScrub_starts {u : State} {a : RegAccess} {w : Nat} (hrun : (u.well w).scrub ≠ .running) (hb0 : bit a.value.toNat 0 = true)
    (hb1 : bit a.value.toNat 1 = false) :
    u.writeScrub a w = (u.clearRegs (scrubBase w + 0x18) (scrubBase w + 0x38)).modWell w (fun x => (u.scrubRange w).elim { x with scrub := .refused }
      (fun g => { x with scrub := .running, scrubLpx := g.1, scrubNext := g.2.1, scrubLast := g.2.2 })) := by
  have hno : ¬ bit a.value.toNat 1 = true := by simp [hb1]
  rw [State.writeScrub, if_pos hb0, if_neg hno, State.scrubBegin, if_neg hrun]
  dsimp only
  cases u.scrubRange w <;> rfl

/-! ### The rows of the writes -/

section
variable {s : State} {a : RegAccess} {x : Nat} {r : RegRow} (h : Writes s a x r) (hh : r.half = .single)
include h hh

theorem closeIntake_runs {p : Nat} (hk : kindOf x = .rndCtrl p) (hb : bit a.value.toNat 1 = true) :
    exec (.closeIntake a) s = .next ((s.atReg a x).writeRndCtrl a p) := by
  have hrow : s.rowOfWrite a = .closeIntake := by simp [State.rowOfWrite, spot_of_writes h, hk, hb]
  have hact : (s.atReg a x).actOn a x = (s.atReg a x).writeRndCtrl a p := by simp only [State.actOn, hk]
  exact congrArg Host.Outcome.next ((writeAs_acts h hh hrow).trans hact)

theorem admissionHold_runs {p : Nat} (hk : kindOf x = .rndCtrl p) (hb : bit a.value.toNat 1 = false) :
    exec (.admissionHold a) s = .next ((s.atReg a x).setBits (rndBase p + 0x18) 0 0 (a.value.toNat % 2)) := by
  have hrow : s.rowOfWrite a = .hold := by simp [State.rowOfWrite, spot_of_writes h, hk, hb]
  have hact : (s.atReg a x).actOn a x = (s.atReg a x).setBits (rndBase p + 0x18) 0 0 (a.value.toNat % 2) := by
    simp only [State.actOn, hk]
    rw [State.writeRndCtrl, if_neg (by simp [hb])]
  exact congrArg Host.Outcome.next ((writeAs_acts h hh hrow).trans hact)

theorem intEnableWrite_runs {st f vec : Nat} (hk : kindOf x = .intEnable st f vec) :
    exec (.intEnableWrite a) s = .next ((s.atReg a x).writeIntEnable x a.value.toNat st f vec) := by
  have hrow : s.rowOfWrite a = .intEnable := by simp [State.rowOfWrite, spot_of_writes h, hk]
  have hact : (s.atReg a x).actOn a x = (s.atReg a x).writeIntEnable x a.value.toNat st f vec := by simp only [State.actOn, hk]
  exact congrArg Host.Outcome.next ((writeAs_acts h hh hrow).trans hact)

theorem selfTest_runs {c : TileRef} (hk : kindOf x = .tileCtrl c) (hb : bit a.value.toNat 0 = true) (hlog : (s.atReg a x).logicalOf c = 0x1F)
    (ht : ((s.atReg a x).tile c).state ≠ .test) (hf : ((s.atReg a x).tile c).state ≠ .failed) :
    exec (.selfTest a) s = .next ((s.atReg a x).modTile c (fun y => { y with state := .test, selfTest := some ((s.atReg a x).devtime, none) })) := by
  have hrow : s.rowOfWrite a = .selfTest := by simp [State.rowOfWrite, spot_of_writes h, hk, hb]
  have hstart : (s.atReg a x).startSelfTest c none =
      ((s.atReg a x).modTile c (fun y => { y with state := .test, selfTest := some ((s.atReg a x).devtime, none) }), true) := if_pos ⟨hlog, ht, hf⟩
  have hact : (s.atReg a x).actOn a x =
      (s.atReg a x).modTile c (fun y => { y with state := .test, selfTest := some ((s.atReg a x).devtime, none) }) := by
    simp only [State.actOn, hk]
    exact (if_pos hb).trans (by rw [hstart]; rfl)
  exact congrArg Host.Outcome.next ((writeAs_acts h hh hrow).trans hact)

theorem flush_runs {w : Nat} (hk : kindOf x = .mergeCtrl w) (hb : bit a.value.toNat 0 = true) :
    exec (.flush a) s = .next ((s.atReg a x).flushMerge false w) := by
  have hrow : s.rowOfWrite a = .flush := by simp [State.rowOfWrite, spot_of_writes h, hk, hb]
  have hact : (s.atReg a x).actOn a x = (s.atReg a x).flushMerge false w := by
    simp only [State.actOn, hk]
    exact if_pos hb
  exact congrArg Host.Outcome.next ((writeAs_acts h hh hrow).trans hact)

theorem scrubStart_runs {w : Nat} (hk : kindOf x = .scrubCtrl w) (hb : bit a.value.toNat 0 = true) :
    exec (.scrubStart a) s = .next ((s.atReg a x).writeScrub a w) := by
  have hrow : s.rowOfWrite a = .scrubStart := by simp [State.rowOfWrite, spot_of_writes h, hk, hb]
  have hact : (s.atReg a x).actOn a x = (s.atReg a x).writeScrub a w := by simp only [State.actOn, hk]
  exact congrArg Host.Outcome.next ((writeAs_acts h hh hrow).trans hact)

theorem scrubAbort_runs {w : Nat} (hk : kindOf x = .scrubCtrl w) (hb0 : bit a.value.toNat 0 = false) (hb1 : bit a.value.toNat 1 = true) :
    exec (.scrubAbort a) s = .next ((s.atReg a x).scrubStop w) := by
  have hrow : s.rowOfWrite a = .scrubAbort := by simp [State.rowOfWrite, spot_of_writes h, hk, hb0, hb1]
  have hact : (s.atReg a x).actOn a x = (s.atReg a x).scrubStop w := by
    simp only [State.actOn, hk]
    rw [State.writeScrub, if_neg (by simp [hb0]), if_pos hb1]
  exact congrArg Host.Outcome.next ((writeAs_acts h hh hrow).trans hact)

theorem clearAll_runs {w : Nat} (hk : kindOf x = .cetCtrl w) (hb : bit a.value.toNat 0 = true) :
    exec (.clearAll a) s = .next ((s.atReg a x).modWell w (fun y => { y with cet := List.replicate 16 none })) := by
  have hrow : s.rowOfWrite a = .clearAll := by simp [State.rowOfWrite, spot_of_writes h, hk, hb]
  have hact : (s.atReg a x).actOn a x = (s.atReg a x).modWell w (fun y => { y with cet := List.replicate 16 none }) := by
    simp only [State.actOn, hk]
    exact if_pos hb
  exact congrArg Host.Outcome.next ((writeAs_acts h hh hrow).trans hact)

theorem adminDown_runs (hk : kindOf x = .portCtrl) : exec (.adminDown a) s = .next ((s.atReg a x).writePorts x a.value.toNat) := by
  have hrow : s.rowOfWrite a = .adminDown := by simp [State.rowOfWrite, spot_of_writes h, hk]
  have hact : (s.atReg a x).actOn a x = (s.atReg a x).writePorts x a.value.toNat := by simp only [State.actOn, hk]
  exact congrArg Host.Outcome.next ((writeAs_acts h hh hrow).trans hact)

end

/-- Settles O33: each write reaches its register's action, and the action is one change of the state that the register names. -/
theorem registerActionsTaken : Obligations.RegisterActionsTaken := by
  unfold Obligations.RegisterActionsTaken
  intro a x r s h hh u v
  obtain ⟨hparts, hwells, hports⟩ := atReg_kept s a x
  have hreg := row_of_writes h
  have hround : ∀ p, u.round p = s.round p := fun p => by simp only [State.round, State.part, u, hparts]
  have hwell : ∀ w, u.well w = s.well w := fun w => by rw [State.well, hwells, State.well]
  refine ⟨fun p hk hp => ⟨fun hb hst hab => ?_, fun hb hst => ?_, fun hb => ?_⟩, fun st f vec hk => ?_, fun c hk hb hlog ht hf hw hl => ?_, fun w hk hb => ?_,
    fun w hk hw hrun hb0 hb1 => ⟨fun hrange => ?_, fun lp b e hrange => ?_⟩, fun w hk hw hb0 hb1 => ?_, fun w hk hw hb => ?_, fun hk hl => ?_⟩
  · have hc := writeRndCtrl_closes (u := u) (a := a) (hparts ▸ hp) hb (hround p ▸ hst) (hround p ▸ hab)
    obtain ⟨l, d, hclosed⟩ := hc.round
    refine ⟨_, closeIntake_runs h hh hk hb, by rw [hclosed], ?_, (partScope_of_beyond hc.beyond).others, hc.qps⟩
    rw [State.regBits, hc.regs _ (holdReg_not_stateRegs p)]
    exact regBits_setBits_low u _ (Nat.mod_lt _ (by decide))
  · rw [closeIntake_runs h hh hk hb, State.writeRndCtrl, if_pos hb, if_neg (hround p ▸ hst)]
  · refine ⟨_, admissionHold_runs h hh hk hb, regBits_setBits_low u _ (Nat.mod_lt _ (by decide)), fun y hy => ?_, rfl⟩
    exact State.reg_setBits_ne _ _ _ _ _ _ (fun hxy => hy (by simp [hxy]))
  · exact ⟨_, intEnableWrite_runs h hh hk, writeIntEnable_enables hreg v st f vec⟩
  · have hin : c.well < u.wells.length ∧ c.tile < (u.well c.well).tiles.length := by
      rw [hwell, hwells]
      exact ⟨hw, hl⟩
    refine ⟨_, selfTest_runs h hh hk hb hlog ht hf, ?_, fun d hd => ?_, rfl⟩
    · rw [State.tile_modTile, if_pos ⟨rfl, hin⟩]
    · rw [State.tile_modTile, if_neg (fun h => hd h.1)]
  · obtain ⟨hscope, hnil, hseen⟩ := flushMerge_flushes u w
    exact ⟨_, flush_runs h hh hk hb, hnil, hseen, hscope.others, by rw [hscope.frame], by rw [hscope.frame], by rw [hscope.frame]⟩
  · refine ⟨_, scrubStart_runs h hh hk hb0, ?_⟩
    rw [writeScrub_starts hrun hb0 hb1, well_modWell_self _ (hwells ▸ hw), hrange]
    exact ⟨rfl, onlyWell_modWell _ _ _⟩
  · refine ⟨_, scrubStart_runs h hh hk hb0, ?_⟩
    rw [writeScrub_starts hrun hb0 hb1, well_modWell_self _ (hwells ▸ hw), hrange]
    exact ⟨rfl, onlyWell_modWell _ _ _, (State.regW_clearRegs u _ _ _).trans (if_pos (by omega)), (State.regW_clearRegs u _ _ _).trans (if_pos (by omega))⟩
  · refine ⟨_, scrubAbort_runs h hh hk hb0 hb1, ?_⟩
    unfold State.scrubStop
    split
    · exact ⟨by rw [well_modWell_self _ (hwells ▸ hw)], onlyWell_modWell _ _ _, rfl⟩
    · exact ⟨rfl, fun _ _ => rfl, rfl⟩
  · exact ⟨_, clearAll_runs h hh hk hb, well_modWell_self _ (hwells ▸ hw), onlyWell_modWell _ _ _, rfl⟩
  · have hst : ∀ n, n < 2 → ((u.writePorts x v).port n).standing = ruled (bit v n) (u.port n).standing := fun n hn => writePorts_standing x v hn (hports ▸ hl)
    have hmoored := congrArg Prod.snd (writePorts_moored u x v)
    refine ⟨_, adminDown_runs h hh hk, (congrArg Prod.fst (hst 0 (by omega))).trans (ruled_admin _ _),
      (congrArg Prod.fst (hst 1 (by omega))).trans (ruled_admin _ _), fun n hn hadm hbn => ?_, congrArg Prod.fst hmoored, congrArg Prod.snd hmoored⟩
    exact (congrArg Prod.snd (hst n hn)).trans (by simp [ruled, Port.standing, hadm, hbn])

end Sys2Proof.Machine

namespace Sys2Proof.Machine

open Sys2Proof

/-! ## Pieces and words -/

theorem chunksAux_flatten {α : Type} {n : Nat} (hn : 0 < n) {ps : List (List α)} (h : ∀ p ∈ ps, p.length = n) :
    ∀ {fuel : Nat}, ps.flatten.length ≤ fuel → chunksAux n fuel ps.flatten = ps := by
  induction ps with
  | nil => intro fuel _; cases fuel <;> rfl
  | cons p ps ih =>
    intro fuel hf
    have hp := h p List.mem_cons_self
    rw [List.flatten_cons, List.length_append] at hf
    obtain ⟨fuel, rfl⟩ : ∃ k, fuel = k + 1 := ⟨fuel - 1, by omega⟩
    have hne : (p ++ ps.flatten).isEmpty = false := by cases p with | nil => simp at hp; omega | cons => rfl
    rw [List.flatten_cons, chunksAux, hne, if_neg (by decide), List.take_left' hp, List.drop_left' hp, ih (fun q hq => h q (List.mem_cons_of_mem p hq)) (by omega)]

/-- Pieces of one length that are joined are cut again where they were joined. -/
theorem chunks_flatten {α : Type} {n : Nat} (hn : 0 < n) {ps : List (List α)} (h : ∀ p ∈ ps, p.length = n) : chunks n ps.flatten = ps :=
  chunksAux_flatten hn h (Nat.le_refl _)

/-- A string of one piece. -/
theorem chunks_one {α : Type} {n : Nat} (hn : 0 < n) {l : List α} (h : l.length = n) : chunks n l = [l] := by
  have := chunks_flatten hn (ps := [l]) (by simpa using h)
  rwa [List.flatten_singleton] at this

/-- A first piece, and the pieces of the rest. -/
theorem chunks_append {α : Type} {n k : Nat} (hn : 0 < n) {a b : List α} (ha : a.length = n) (hb : b.length = n * k) : chunks n (a ++ b) = a :: chunks n b := by
  have hps := mem_chunks_length n hn b ⟨k, hb⟩
  have hjoin : ∀ (fuel : Nat) (l : List α), l.length ≤ fuel → (chunksAux n fuel l).flatten = l := by
    intro fuel
    induction fuel with
    | zero =>
      intro l hl
      rw [List.eq_nil_of_length_eq_zero (l := l) (by omega)]
      rfl
    | succ fuel ih =>
      intro l hl
      rw [chunksAux]
      split
      · rename_i he
        rw [List.isEmpty_iff.mp he]
        rfl
      · rename_i he
        have : l.length ≠ 0 := fun h0 => he (by rw [List.eq_nil_of_length_eq_zero h0]; rfl)
        rw [List.flatten_cons, ih _ (by rw [List.length_drop]; omega), List.take_append_drop]
  have hb' : (chunks n b).flatten = b := hjoin _ b (Nat.le_refl _)
  have := chunks_flatten hn (ps := a :: chunks n b) (fun p hp => (List.mem_cons.mp hp).elim (fun h => h ▸ ha) (hps p))
  rwa [List.flatten_cons, hb'] at this

theorem length_elemBytes (w : Nat) (l : List Nat) : (elemBytes w l).length = w / 8 * l.length := by
  simp [elemBytes, List.length_flatten, Function.comp_def, Nat.mul_comm]

theorem length_elems {w k : Nat} {bs : Bytes} (hw : 0 < w / 8) (h : bs.length = w / 8 * k) : (elems w bs).length = k := by
  rw [elems, List.length_map, length_chunks _ k hw bs h]

/-- Words written as bytes read back, cut to their width. -/
theorem elems_elemBytes {w : Nat} (h8 : 8 ∣ w) (hw : 0 < w) (l : List Nat) : elems w (elemBytes w l) = l.map (· % 2 ^ w) := by
  obtain ⟨k, rfl⟩ := h8
  have hk : 8 * k / 8 = k := by omega
  have hpow : (256 : Nat) ^ k = 2 ^ (8 * k) := by rw [Nat.pow_mul]
  rw [elems, elemBytes, hk, chunks_flatten (by omega) (by simp), List.map_map]
  refine List.map_congr_left (fun x _ => ?_)
  exact leNat_toLE _ _ (hpow ▸ Nat.mod_lt _ (by positivity))

theorem take_elemBytes (w : Nat) (l : List Nat) (k : Nat) : (elemBytes w l).take (w / 8 * k) = elemBytes w (l.take k) := by
  induction l generalizing k with
  | nil => simp [elemBytes]
  | cons x l ih =>
    cases k with
    | zero => simp [elemBytes]
    | succ k =>
      have hcons : ∀ m, elemBytes w (x :: m) = toLE (x % 2 ^ w) (w / 8) ++ elemBytes w m := fun _ => rfl
      rw [List.take_succ_cons, hcons, hcons, Nat.mul_succ, List.take_append, length_toLE, Nat.add_sub_cancel, ih, List.take_of_length_le (by simp)]

theorem leNat_append (a b : Bytes) : leNat (a ++ b) = leNat a + 256 ^ a.length * leNat b := by
  induction a with
  | nil => simp [leNat]
  | cons x a ih =>
    simp only [List.cons_append, leNat, ih, List.length_cons, Nat.pow_succ]
    ring

/-- The pieces of a string read as words of its number. -/
theorem wordsOf_leNat {n k : Nat} (hn : 0 < n) {bs : Bytes} (h : bs.length = n * k) : wordsOf (8 * n) k (leNat bs) = (chunks n bs).map leNat := by
  induction k generalizing bs with
  | zero => rw [List.eq_nil_of_length_eq_zero (l := bs) (by omega)]; rfl
  | succ k ih =>
    rw [Nat.mul_succ] at h
    have ht : (bs.take n).length = n := by rw [List.length_take]; omega
    have hd : (bs.drop n).length = n * k := by rw [List.length_drop]; omega
    have hlt := leNat_lt (bs.take n)
    have hsplit := leNat_append (bs.take n) (bs.drop n)
    have hpow : (256 : Nat) ^ n = 2 ^ (8 * n) := by rw [Nat.pow_mul]
    rw [ht, hpow] at hlt hsplit
    rw [List.take_append_drop] at hsplit
    have hmod : leNat bs % 2 ^ (8 * n) = leNat (bs.take n) := by rw [hsplit, Nat.add_mul_mod_self_left, Nat.mod_eq_of_lt hlt]
    have hdiv : leNat bs / 2 ^ (8 * n) = leNat (bs.drop n) := by rw [hsplit, Nat.add_mul_div_left _ _ (by positivity), Nat.div_eq_of_lt hlt, Nat.zero_add]
    rw [wordsOf, hmod, hdiv, ih hd]
    conv_rhs => rw [← List.take_append_drop n bs, chunks_append hn ht hd, List.map_cons]

theorem length_wordsOf (w k n : Nat) : (wordsOf w k n).length = k := by
  induction k generalizing n with
  | zero => rfl
  | succ k ih => rw [wordsOf, List.length_cons, ih]

/-! ## Rows of a tile store -/

@[simp] theorem length_rowsAt (x : Tile) (row n : Nat) : (x.rowsAt row n).length = n := by simp [Tile.rowsAt, memRead]

theorem length_vec {bits : Nat} (hb : bits = 16 ∨ bits = 32 ∨ bits = 64) (x : Tile) (row : Nat) : (x.vec row bits).length = 128 := by
  rw [Tile.vec]
  rcases hb with rfl | rfl | rfl <;> exact length_elems (by decide) (by simp)

/-- Rows as they were just written. -/
theorem rowsAt_putRows {x : Tile} (hwf : x.store.wf) (row : Nat) {bs : Bytes} {n : Nat} (h : n ≤ bs.length) : (x.putRows row bs).rowsAt row n = bs.take n := by
  rw [Tile.rowsAt, Tile.putRows, memRead_eq_map (memWrite_wf _ _ _ hwf)]
  refine List.ext_getElem (by simp [h]) (fun k h1 h2 => ?_)
  simp only [List.length_map, List.length_range] at h1
  rw [List.getElem_map, List.getElem_range, memByte_memWrite, if_pos (by omega), List.getElem_take, Nat.add_sub_cancel_left, List.getD_eq_getElem _ _ (by omega)]

/-- Fewer bytes from the same row. -/
theorem take_rowsAt {x : Tile} (hwf : x.store.wf) (row : Nat) {m n : Nat} (h : m ≤ n) : (x.rowsAt row n).take m = x.rowsAt row m := by
  rw [Tile.rowsAt, Tile.rowsAt, memRead_eq_map hwf, memRead_eq_map hwf, ← List.map_take, List.take_range, Nat.min_eq_left h]

/-- A vector as it was just written, cut to the width of its words. -/
theorem vec_putRows {x : Tile} (hwf : x.store.wf) {bits : Nat} (hb : bits = 16 ∨ bits = 32 ∨ bits = 64) (row : Nat) {l : List Nat} (hl : l.length = 128) :
    (x.putRows row (elemBytes bits l)).vec row bits = l.map (· % 2 ^ bits) := by
  have hlen : (elemBytes bits l).length = 16 * bits := by
    rw [length_elemBytes, hl]
    rcases hb with rfl | rfl | rfl <;> rfl
  rw [Tile.vec, rowsAt_putRows hwf row (by omega), List.take_of_length_le (by omega)]
  rcases hb with rfl | rfl | rfl <;> exact elems_elemBytes (by decide) (by decide) l

/-- What is written from a row leaves every byte outside it alone. -/
theorem onlyRows_of_putRows {s v : State} {t : TileRef} {row n : Nat} {bs : Bytes} (h : (v.tile t).store = ((s.tile t).putRows row bs).store) (hn : bs.length ≤ n) :
    OnlyRows s v t row n := by
  intro a ha
  rw [h, Tile.putRows, memByte_memWrite, if_neg (by omega)]

theorem rowOf_first {base : Nat} (h : base < 16384) (stride : Int) : rowOf base stride 0 = base := by
  simp only [rowOf, unsgn]
  omega

end Sys2Proof.Machine

namespace Sys2Proof.Machine

open Sys2Proof

/-! ## What a step on one tile leaves alone -/

/-- One tile alone may differ, and the registers of a list; partitions and Lantus are as before. -/
structure Kept (s v : State) (t : TileRef) (regs : List Nat) : Prop extends TileScope s v t regs where
  parts : v.parts = s.parts
  lantus : v.lantus = s.lantus

theorem TileScope.mono {s v : State} {t : TileRef} {l m : List Nat} (h : TileScope s v t l) (hlm : l ⊆ m) : TileScope s v t m :=
  ⟨h.others, h.held, h.wells, h.untiled, fun x hx => h.regs x (fun hl => hx (hlm hl))⟩

theorem Kept.mono {s v : State} {t : TileRef} {l m : List Nat} (h : Kept s v t l) (hlm : l ⊆ m) : Kept s v t m := ⟨h.toTileScope.mono hlm, h.parts, h.lantus⟩

theorem Kept.refl (s : State) (t : TileRef) (l : List Nat) : Kept s s t l := ⟨TileScope.refl s t l, rfl, rfl⟩

theorem Kept.trans {s d e : State} {t : TileRef} {l : List Nat} (h : Kept s d t l) (k : Kept d e t l) : Kept s e t l :=
  ⟨h.toTileScope.trans k.toTileScope, k.parts.trans h.parts, k.lantus.trans h.lantus⟩

theorem Kept.round {s v : State} {t : TileRef} {l : List Nat} (h : Kept s v t l) (p : Nat) : v.round p = s.round p := by
  rw [State.round, State.part, h.parts, State.round, State.part]

theorem Kept.reg {s v : State} {t : TileRef} {l : List Nat} (h : Kept s v t l) {x : Nat} (hx : x ∉ l) : v.reg x = s.reg x := h.regs x hx

theorem kept_modTile (s : State) (t : TileRef) (f : Tile → Tile) (l : List Nat) : Kept s (s.modTile t f) t l := ⟨tileScope_modTile s t f l, rfl, rfl⟩

/-- A change of registers alone. -/
theorem kept_of_wells {s v : State} {l : List Nat} (hw : v.wells = s.wells) (hp : v.parts = s.parts) (hl : v.lantus = s.lantus) (t : TileRef) (hr : OnlyRegs s v l) :
    Kept s v t l := ⟨tileScope_of_wells hw t hr, hp, hl⟩

theorem kept_draw (s : State) (t : TileRef) (l : List Nat) : Kept s s.draw.2 t l := kept_of_wells (State.draw_wells s) (State.draw_parts s) (State.draw_lantus s) t (fun _ _ => rfl)

theorem kept_countBy (s : State) (t : TileRef) {x : Nat} (n : Nat) {l : List Nat} (hx : x ∈ l) : Kept s (s.countBy x n) t l :=
  ⟨tileScope_countBy s t n hx, State.countBy_parts _ _ _, State.countBy_lantus _ _ _⟩

theorem kept_raise (s : State) (t : TileRef) {l : List Nat} (hl : logBase + 4 ∈ l) (code part src : Nat) (p : List (Nat × Nat)) :
    Kept s (s.raise code part src p) t l := ⟨tileScope_raise s t hl _ _ _ _, State.raise_parts _ _ _ _ _, State.raise_lantus _ _ _ _ _⟩

/-- Counting nothing changes no register. -/
theorem kept_countBy_zero (s : State) (t : TileRef) (x : Nat) (l : List Nat) : Kept s (s.countBy x 0) t l :=
  kept_of_wells (State.countBy_wells _ _ _) (State.countBy_parts _ _ _) (State.countBy_lantus _ _ _) t (fun y _ => by
    have := s.reg_lt y
    rw [State.reg_countBy]
    split
    · rename_i h
      subst h
      omega
    · rfl)

/-! ## The tile of a step that issues (R205, R206) -/

/-- What no issue of a step changes: the tile but for its last and next step and when that is due. -/
def Tile.unpaced (x : Tile) : Tile := { x with last := 0, next := 0, due := 0 }

theorem tile_noteLate (s : State) (t : TileRef) (p k late : Nat) : (s.noteLate t p k late).tile t = s.tile t := by
  unfold State.noteLate
  dsimp only
  split
  · rfl
  · split
    · exact tile_of_looms (looms_of_wells (State.count_wells _ _)) t
    · refine (tile_of_looms (looms_raise _ _ _ _ _) t).trans ?_
      rw [State.modRound_tile]
      exact tile_of_looms (looms_of_wells (State.count_wells _ _)) t

theorem unpaced_issued {s : State} {t : TileRef} (h : Held s t) (k at_ gap stretch : Nat) : ((s.issued t k at_ gap stretch).tile t).unpaced = (s.tile t).unpaced := by
  have hl : (s.setReg64 (tileBase t + 0x18) (s.reg64 (tileBase t + 0x18) + 1)).looms = s.looms := looms_of_wells (State.setReg64_wells _ _ _)
  rw [State.issued, tile_modTile_held (held_of_looms hl h), tile_of_looms hl]
  rfl

theorem unpaced_late_issued {s : State} {t : TileRef} (h : Held s t) (p k late at_ gap stretch : Nat) :
    (((s.noteLate t p k late).issued t k at_ gap stretch).tile t).unpaced = (s.tile t).unpaced := by
  rw [unpaced_issued ((tileScope_noteLate s t p k late).held t h), tile_noteLate]

theorem unpaced_skipNops {s : State} {t : TileRef} (h : Held s t) (p fuel : Nat) : ((s.skipNops t p fuel).tile t).unpaced = (s.tile t).unpaced := by
  induction fuel generalizing s with
  | zero => rfl
  | succ fuel ih =>
    unfold State.skipNops
    dsimp only
    split
    · rw [ih ((tileScope_issued _ t _ _ _ _).held t ((tileScope_noteLate s t _ _ _).held t h)), unpaced_late_issued h]
    · rfl

/-- The tile at the issue of a step is running, and the step's rows are rows of a tile store. -/
theorem running_of_issues {s u : State} {t : TileRef} {op : Nat} {i : Issue} (h : Issues s t op i u) (hh : Held s t) : (u.tile t).state = .running := by
  have hk := held_skipNops s t (s.owner t.well) 2048 hh
  have hsk := unpaced_skipNops hh (s.owner t.well) 2048
  unfold Issues at h
  generalize s.skipNops t (s.owner t.well) 2048 = v at h hk hsk
  obtain ⟨⟨-, -, hrun, -⟩, -, -, -, -, -, -, rfl⟩ := h
  exact (congrArg Tile.state ((unpaced_late_issued hk _ _ _ _ _ _).trans hsk)).trans hrun

theorem rows_of_issues {s u : State} {t : TileRef} {op : Nat} {i : Issue} (h : Issues s t op i u) : i.w.dst < 16384 ∧ i.w.srcA < 16384 ∧ i.w.srcB < 16384 := by
  unfold Issues at h
  generalize s.skipNops t (s.owner t.well) 2048 = v at h
  obtain ⟨-, -, -, -, -, -, hi, -⟩ := h
  rw [hi]
  exact ⟨Nat.mod_lt _ (by decide), Nat.mod_lt _ (by decide), Nat.mod_lt _ (by decide)⟩

/-! ## Accesses that meet no other unit's (R193) -/

/-- A touch among no others keeps its place. -/
theorem placeTouches_alone (plan : List Touch) (own : List Touch) : placeTouches plan 0 0 [] own = (0, 0, own ++ plan) := by
  induction plan generalizing own with
  | nil => simp [placeTouches]
  | cons q plan ih => simp [placeTouches, placeTouch, ih]

/-- Accesses still to come of a tile are those of one unit. -/
def Tile.onlyUnit (x : Tile) (n : Nat) : Prop := ∀ f ∈ x.flight, f.unit = n

/-- What is left when accesses of a step have been entered: the tile but for accesses still to come and busy units. -/
structure Entered (b v : State) (t : TileRef) (unit : Nat) : Prop where
  kept : Kept b v t []
  tile : ∃ fl bs, v.tile t = { b.tile t with flight := fl, busy := bs } ∧ ∀ f ∈ fl, f.unit = unit

theorem Entered.trans {b c v : State} {t : TileRef} {m n : Nat} (h : Entered b c t m) (k : Entered c v t n) : Entered b v t n := by
  obtain ⟨fl, bs, ht, -⟩ := h.tile
  obtain ⟨fl', bs', ht', hu⟩ := k.tile
  exact ⟨h.kept.trans k.kept, fl', bs', by rw [ht', ht], hu⟩

theorem Entered.store {b v : State} {t : TileRef} {n : Nat} (h : Entered b v t n) : (v.tile t).store = (b.tile t).store := by
  obtain ⟨fl, bs, ht, -⟩ := h.tile
  rw [ht]

theorem Entered.accs {b v : State} {t : TileRef} {n : Nat} (h : Entered b v t n) : (v.tile t).accs = (b.tile t).accs := by
  obtain ⟨fl, bs, ht, -⟩ := h.tile
  rw [ht]

theorem Entered.state {b v : State} {t : TileRef} {n : Nat} (h : Entered b v t n) : (v.tile t).state = (b.tile t).state := by
  obtain ⟨fl, bs, ht, -⟩ := h.tile
  rw [ht]

theorem Entered.onlyUnit {b v : State} {t : TileRef} {n : Nat} (h : Entered b v t n) : (v.tile t).onlyUnit n := by
  obtain ⟨fl, bs, ht, hu⟩ := h.tile
  rw [ht]
  exact hu

theorem Entered.refl {b : State} {t : TileRef} {n : Nat} (h : (b.tile t).onlyUnit n) : Entered b b t n := ⟨Kept.refl _ _ _, _, _, rfl, h⟩

/-- Busy units are no more than that. -/
theorem entered_occupy {b : State} {t : TileRef} {n : Nat} (hh : Held b t) (h : (b.tile t).onlyUnit n) (us : List Nat) (till : Nat) :
    Entered b (b.modTile t (fun x => x.occupy us till)) t n :=
  ⟨kept_modTile _ _ _ _, _, _, tile_modTile_held hh _, h⟩

/-- Accesses of one unit, where those still to come are of that unit too, meet nothing: no delay, no conflict, nothing lost. -/
theorem touch_alone {s : State} {t : TileRef} {n : Nat} {all : List Touch} (hh : Held s t) (hfl : (s.tile t).onlyUnit n) (hall : ∀ q ∈ all, q.unit = n)
    (hsome : (s.tile t).flight = [] ∨ ∃ q ∈ all, q.rows ≠ 0) (i : Issue) : (s.touch t i all).1 = 0 ∧ Entered s (s.touch t i all).2 t n := by
  unfold State.touch
  extract_lets x plan live mine others r lost moved s1 s2
  have hothers : others = [] := by
    refine List.filter_eq_nil_iff.mpr (fun f hf => ?_)
    have hf' : f ∈ (s.tile t).flight := List.mem_of_mem_filter hf
    rcases hsome with h0 | ⟨q, hq, hrows⟩
    · rw [h0] at hf'
      simp at hf'
    · have hmeets : plan.any (fun q => q.unit == f.unit) = true :=
        List.any_eq_true.mpr ⟨q, List.mem_filter.mpr ⟨hq, by simpa using hrows⟩, by simp [hall q hq, hfl f hf']⟩
      simp [hmeets]
  have hr : r = (0, 0, plan) := by
    show placeTouches plan 0 0 others [] = _
    rw [hothers, placeTouches_alone, List.nil_append]
  have hlost : lost = [] := by
    refine List.flatMap_eq_nil_iff.mpr (fun q _ => ?_)
    rw [hothers]
    rfl
  let f : Tile → Tile := fun y => { y with
    flight := mine ++ plan, busy := (y.busy.zip (List.range 5)).map (fun (e : Nat × Nat) => if e.1 ≤ i.at_ then e.1 else e.1 + movedBy e.2 moved) }
  have hs1 : s1 = (s.modTile t f).countBy (tileBase t + 0x24) 0 := by
    show (s.modTile t _).countBy _ r.2.1 = _
    rw [hlost, hr]
    rfl
  have hs2 : s2 = s1 := if_pos (Or.inl (by rw [hr]))
  refine ⟨by rw [hr], ?_⟩
  rw [hs2, hs1]
  refine ⟨(kept_modTile s t f []).trans (kept_countBy_zero _ t _ _), mine ++ plan, _, (tile_of_looms (looms_of_wells (State.countBy_wells _ _ _)) t).trans (tile_modTile_held hh f), ?_⟩
  intro g hg
  rcases List.mem_append.mp hg with hg | hg
  · exact hfl g (List.mem_of_mem_filter (List.mem_of_mem_filter hg))
  · exact hall g (List.mem_of_mem_filter hg)

theorem onlyUnit_of_no_flight {x : Tile} (h : x.flight = []) (n : Nat) : x.onlyUnit n := fun f hf => by rw [h] at hf; simp at hf

/-- Where no access is still to come, those of a step of one unit meet nothing. -/
theorem touch_of_no_flight {s : State} {t : TileRef} {n : Nat} {all : List Touch} (hh : Held s t) (hfl : (s.tile t).flight = []) (hall : ∀ q ∈ all, q.unit = n) (i : Issue) :
    (s.touch t i all).1 = 0 ∧ Entered s (s.touch t i all).2 t n := touch_alone hh (onlyUnit_of_no_flight hfl n) hall (Or.inl hfl) i

/-- A step's accesses are entered, and its units kept busy. -/
theorem touch_occupy {s : State} {t : TileRef} {n : Nat} {all : List Touch} (hh : Held s t) (hfl : (s.tile t).flight = []) (hall : ∀ q ∈ all, q.unit = n) (i : Issue)
    (us : List Nat) (till : Nat) : Entered s ((s.touch t i all).2.modTile t (fun x => x.occupy us till)) t n := by
  obtain ⟨-, h⟩ := touch_of_no_flight hh hfl hall i
  exact h.trans (entered_occupy (h.kept.held t hh) h.onlyUnit us till)

end Sys2Proof.Machine

namespace Sys2Proof.Machine

open Sys2Proof

/-! ## Operands, free words and flags of a lane step (R186, R187, R191) -/

/-- An operand in the tile store without a write still to come. -/
theorem operand_of_no_flight {s : State} {t : TileRef} (h : (s.tile t).flight = []) (c row bits n : Nat) :
    s.operand t 0 c row bits n = (elems bits ((s.tile t).rowsAt row (64 * (n * bits / 512))), s) := by
  simp only [State.operand, if_true, rowsRead_of_no_flight h]

/-- Words that are all defined stay as they are. -/
theorem fillFree_of_defined (s : State) (bits : Nat) {l : List (Option Nat)} (h : ∀ y ∈ l, y ≠ none) : s.fillFree bits l = (l.map (fun y => y.getD 0), s) := by
  rw [State.fillFree, if_pos]
  exact List.all_eq_true.mpr (fun y hy => Option.isSome_iff_ne_none.mpr (h y hy))

@[simp] theorem length_fillFree (s : State) (bits : Nat) (l : List (Option Nat)) : (s.fillFree bits l).1.length = l.length := by
  unfold State.fillFree
  split <;> simp [freeWords]

theorem kept_fillFree (s : State) (t : TileRef) (bits : Nat) (l : List (Option Nat)) (regs : List Nat) :
    Kept s (s.fillFree bits l).2 t regs ∧ (s.fillFree bits l).2.looms = s.looms := by
  unfold State.fillFree
  split
  · exact ⟨Kept.refl _ _ _, rfl⟩
  · exact ⟨kept_draw _ _ _, rfl⟩

theorem kept_setFlags (s : State) (t : TileRef) (f : Nat) : Kept s (s.setFlags t f) t [tileBase t + 0x34] ∧ (s.setFlags t f).looms = s.looms := by
  have hset : ∀ (d : State) (m v : Nat), Kept d ((d.noteSet (tileBase t + 0x34) m).setReg (tileBase t + 0x34) v) t [tileBase t + 0x34] ∧
      ((d.noteSet (tileBase t + 0x34) m).setReg (tileBase t + 0x34) v).looms = d.looms := fun d m v =>
    ⟨kept_of_wells (s := d) (v := (d.noteSet (tileBase t + 0x34) m).setReg (tileBase t + 0x34) v) rfl rfl rfl t
      (fun y hy => State.reg_setReg_ne _ _ _ _ (List.ne_of_not_mem_cons hy)), rfl⟩
  unfold State.setFlags
  dsimp only
  split
  · exact ⟨(kept_draw s t _).trans (hset _ _ _).1, (hset _ _ _).2⟩
  · exact hset s _ _

/-- The sticky flags after results whose flags are all determined. -/
theorem reg_setFlags {s : State} {t : TileRef} {f : Nat} (h : f < 16) : (s.setFlags t f).reg (tileBase t + 0x34) = s.reg (tileBase t + 0x34) ||| f := by
  have hbit : ∀ n, 4 ≤ n → bit f n = false := fun n hn =>
    Nat.testBit_eq_false_of_lt (Nat.lt_of_lt_of_le h (Nat.pow_le_pow_right (n := 2) (by decide) hn))
  have hm : (f % 16) ||| (2 * b2n false) ||| (8 * b2n false) = f := by simp [b2n, Nat.mod_eq_of_lt h]
  have hlt : s.reg (tileBase t + 0x34) ||| f < 2 ^ 32 := Nat.or_lt_two_pow (s.reg_lt _) (by omega)
  simp only [State.setFlags, hbit 4 (by decide), hbit 5 (by decide), Bool.false_and, Bool.or_false, Bool.false_eq_true, if_false]
  rw [hm, State.reg_setReg_self, Nat.mod_eq_of_lt hlt]

theorem foldl_or_lt {l : List FRes} {a : Nat} (ha : a < 16) (h : ∀ r ∈ l, r.flags < 16) : l.foldl (fun a r => a ||| r.flags) a < 16 := by
  induction l generalizing a with
  | nil => exact ha
  | cons r l ih => exact ih (Nat.or_lt_two_pow (n := 4) ha (h r List.mem_cons_self)) (fun q hq => h q (List.mem_cons_of_mem r hq))

/-! ## The accumulators at the start of a step (R213) -/

/-- The accumulators that a step finds: cleared where it asks for it. -/
def Tile.accsFor (x : Tile) (w : StepWord) : List Nat := if w.accClear = true then List.replicate 128 0 else x.accs

theorem kept_accClear (s : State) (t : TileRef) (w : StepWord) (regs : List Nat) : Kept s (s.accClear t w) t regs := by
  unfold State.accClear
  split
  · exact kept_modTile _ _ _ _
  · exact Kept.refl _ _ _

theorem tile_accClear {s : State} {t : TileRef} (h : Held s t) (w : StepWord) : (s.accClear t w).tile t = { s.tile t with accs := (s.tile t).accsFor w } := by
  unfold State.accClear Tile.accsFor
  split
  · rw [tile_modTile_held h]
  · rfl

/-! ## One vector of a lane step (R186) -/

/-- What one vector of a lane step does: its operands are read, and its result is written or kept. -/
def State.lane (s : State) (t : TileRef) (i : Issue) (o : LaneOp) (f : Nat → List Nat → List Nat → List Nat → State → Option (List Nat) × State) : State :=
  let w := i.w
  let ra := s.operand t w.aSpace i.at_ (rowOf w.srcA w.strideA 0) o.bitsA o.words
  let rb := if o.useB then ra.2.operand t w.bSpace i.at_ (rowOf w.srcB w.strideB 0) o.bitsB o.words else ([], ra.2)
  let rd := if o.useD then rb.2.operand t w.dstSpace i.at_ (rowOf w.dst w.strideD 0) o.bitsD o.words else ([], rb.2)
  let r := f 0 ra.1 rb.1 rd.1 rd.2
  match r.1 with
  | some l => r.2.result t w.dstSpace (rowOf w.dst w.strideD 0) o.bitsD l
  | none => r.2

theorem badSources_of_no_errors {x : Tile} (h : x.storeBad = []) (o : LaneOp) (w : StepWord) : x.badSources o w = false := by
  simp [Tile.badSources, badAt_of_no_errors h]

theorem touches_of_lanes {o : LaneOp} {w : StepWord} {c k : Nat} {q : Touch} (h : q ∈ o.touches w c k) : q.unit = 0 := by
  have hrd : ∀ {b : Bool} {p : Touch}, q ∈ (if b then [p] else []) → q = p := by
    intro b p hq
    cases b <;> simp at hq
    exact hq
  simp only [LaneOp.touches, List.mem_append] at h
  rcases h with (h | h) | h <;> rw [hrd h]

section
variable {s : State} {t : TileRef} {i : Issue} {o : LaneOp} {f : Nat → List Nat → List Nat → List Nat → State → Option (List Nat) × State}

/-- A lane step of one vector without a double-bit error in its sources: the vector, then its accesses. -/
theorem runLanes_one (hbad : (s.tile t).storeBad = []) (hn : i.w.count = 1) : ∃ plan till, (∀ q ∈ plan, q.unit = 0) ∧
    s.runLanes t i o f = (((s.accClear t i.w).lane t i o f).touch t i plan).2.modTile t (fun x => x.occupy (unitsOf i.w) till) := by
  unfold State.runLanes State.lane
  simp only [badSources_of_no_errors hbad, Bool.false_eq_true, if_false, hn, List.range_one, List.foldl_cons, List.foldl_nil, List.flatMap_cons, List.flatMap_nil,
    List.append_nil, Nat.zero_mul, Nat.add_zero]
  generalize f 0 _ _ _ _ = r
  obtain ⟨l | l, d⟩ := r
  · exact ⟨_, _, fun q hq => touches_of_lanes (by simpa using hq), rfl⟩
  · refine ⟨_, _, fun q hq => ?_, rfl⟩
    rcases List.mem_append.mp hq with hq | hq
    · exact touches_of_lanes hq
    · dsimp only [List.nil_append] at hq
      split at hq
      · rw [List.mem_singleton.mp hq]
      · simp at hq

/-- A lane step of one vector leaves what the vector leaves, but for accesses and busy units. -/
theorem runLanes_entered {b : State} (hbad : (s.tile t).storeBad = []) (hn : i.w.count = 1) (hb : (s.accClear t i.w).lane t i o f = b) (hh : Held b t)
    (hfl : (b.tile t).flight = []) : Entered b (s.runLanes t i o f) t 0 := by
  obtain ⟨plan, till, hplan, hrun⟩ := runLanes_one (s := s) (t := t) (i := i) (o := o) (f := f) hbad hn
  rw [hrun, hb]
  exact touch_occupy hh hfl hplan i _ _

/-- The words of an operand in the tile store. -/
def LaneOp.operand (o : LaneOp) (x : Tile) (row bits : Nat) : List Nat := elems bits (x.rowsAt row (64 * (o.words * bits / 512)))

/-- A vector from and to the tile store. -/
theorem lane_of_plain {rows : Nat} (hfl : (s.tile t).flight = []) (hp : i.w.plain rows) (hrows : 0 < rows) : s.lane t i o f =
    let x := s.tile t
    let r := f 0 (o.operand x i.w.srcA o.bitsA) (if o.useB then o.operand x i.w.srcB o.bitsB else []) (if o.useD then o.operand x i.w.dst o.bitsD else []) s
    match r.1 with
    | some l => r.2.modTile t (fun y => y.putRows i.w.dst (elemBytes o.bitsD l))
    | none => r.2 := by
  obtain ⟨-, ha, hb, hd, hra, hrb, hrd⟩ := hp
  unfold State.lane LaneOp.operand
  simp only [ha, hb, hd, operand_of_no_flight hfl, rowOf_first (show i.w.srcA < 16384 by omega), rowOf_first (show i.w.srcB < 16384 by omega),
    rowOf_first (show i.w.dst < 16384 by omega)]
  cases o.useB <;> cases o.useD <;> simp only [if_true, Bool.false_eq_true, if_false, operand_of_no_flight hfl] <;> rfl

end

/-! ## A vector that is written -/

/-- A vector of 128 words is written to a row, after a change of registers from which `m` results. -/
structure Written (u m v : State) (t : TileRef) (row bits : Nat) (l : List Nat) (regs : List Nat) : Prop where
  kept : Kept u v t regs
  store : (v.tile t).store = ((u.tile t).putRows row (elemBytes bits l)).store
  rows : OnlyRows u v t row (16 * bits)
  vec : (v.tile t).vec row bits = l.map (· % 2 ^ bits)
  reg : ∀ x, v.reg x = m.reg x

theorem written_of_entered {u m v : State} {t : TileRef} {row bits : Nat} {l regs : List Nat} (hh : Held u t) (hwf : (u.tile t).store.wf) (hk : Kept u m t regs)
    (hst : (m.tile t).store = (u.tile t).store) (hb : bits = 16 ∨ bits = 32 ∨ bits = 64) (hl : l.length = 128) {n : Nat}
    (he : Entered (m.modTile t (fun y => y.putRows row (elemBytes bits l))) v t n) : Written u m v t row bits l regs := by
  have ht : (m.modTile t (fun y => y.putRows row (elemBytes bits l))).tile t = (m.tile t).putRows row (elemBytes bits l) := tile_modTile_held (hk.held t hh) _
  have hstore : (v.tile t).store = ((u.tile t).putRows row (elemBytes bits l)).store := by
    rw [he.store, ht, Tile.putRows, Tile.putRows, hst]
  refine ⟨hk.trans ((kept_modTile m t _ regs).trans (he.kept.mono (List.nil_subset _))), hstore, onlyRows_of_putRows hstore ?_, ?_, fun x => he.kept.reg (by simp)⟩
  · rw [length_elemBytes, hl]
    rcases hb with rfl | rfl | rfl <;> decide
  · rw [← vec_putRows hwf hb row hl, Tile.vec, Tile.vec, Tile.rowsAt, Tile.rowsAt, hstore]

/-- A lane step of one plain vector whose words the operation answers writes them. -/
theorem runLanes_writes {u m : State} {t : TileRef} {i : Issue} {o : LaneOp} {f : Nat → List Nat → List Nat → List Nat → State → Option (List Nat) × State} {rows : Nat}
    {l regs : List Nat} (hh : Held u t) (hc : (u.tile t).calm) (hp : i.w.plain rows) (hrows : 0 < rows)
    (hf : f 0 (o.operand (u.tile t) i.w.srcA o.bitsA) (if o.useB then o.operand (u.tile t) i.w.srcB o.bitsB else [])
      (if o.useD then o.operand (u.tile t) i.w.dst o.bitsD else []) (u.accClear t i.w) = (some l, m))
    (hm : Kept (u.accClear t i.w) m t regs ∧ m.looms = (u.accClear t i.w).looms) (hb : o.bitsD = 16 ∨ o.bitsD = 32 ∨ o.bitsD = 64) (hl : l.length = 128) :
    Written u m (u.runLanes t i o f) t i.w.dst o.bitsD l regs := by
  obtain ⟨hwf, hbad, hfl⟩ := hc
  obtain ⟨hm, hlm⟩ := hm
  have hclear := kept_accClear u t i.w regs
  have htc := tile_accClear hh i.w
  have htm : m.tile t = { u.tile t with accs := (u.tile t).accsFor i.w } := by rw [tile_of_looms hlm, htc]
  have hheld := hm.held t (hclear.held t hh)
  have hlane : (u.accClear t i.w).lane t i o f = m.modTile t (fun y => y.putRows i.w.dst (elemBytes o.bitsD l)) := by
    rw [lane_of_plain (by rw [htc]; exact hfl) hp hrows, htc]
    dsimp only [LaneOp.operand, Tile.rowsAt] at hf ⊢
    rw [hf]
  refine written_of_entered hh hwf (hclear.trans hm) (by rw [htm]) hb hl (runLanes_entered hbad hp.1 hlane ((kept_modTile m t _ []).held t hheld) ?_)
  rw [tile_modTile_held hheld, htm]
  exact hfl

/-- A lane step of one plain vector whose operation only changes the state. -/
theorem runLanes_keeps {u m : State} {t : TileRef} {i : Issue} {o : LaneOp} {f : Nat → List Nat → List Nat → List Nat → State → Option (List Nat) × State} {rows : Nat}
    (hh : Held u t) (hc : (u.tile t).calm) (hp : i.w.plain rows) (hrows : 0 < rows)
    (hf : f 0 (o.operand (u.tile t) i.w.srcA o.bitsA) (if o.useB then o.operand (u.tile t) i.w.srcB o.bitsB else [])
      (if o.useD then o.operand (u.tile t) i.w.dst o.bitsD else []) (u.accClear t i.w) = (none, m))
    (hm : Held m t) (hfm : (m.tile t).flight = (u.tile t).flight) : Entered m (u.runLanes t i o f) t 0 := by
  obtain ⟨-, hbad, hfl⟩ := hc
  have htc := tile_accClear hh i.w
  refine runLanes_entered hbad hp.1 ?_ hm (hfm.trans hfl)
  rw [lane_of_plain (by rw [htc]; exact hfl) hp hrows, htc]
  dsimp only [LaneOp.operand, Tile.rowsAt] at hf ⊢
  rw [hf]

/-! ## Accumulators that are written (R213) -/

/-- The accumulators written where a step asks for it. -/
theorem accWrite_entered {s : State} {t : TileRef} {i : Issue} (hh : Held s t) (hu : (s.tile t).onlyUnit 0) (hsp : i.w.dstSpace = 0) (hw : i.w.accWrite = true) (bits : Nat)
    (g : Nat → Option Nat) (lat : Nat) {rows : Nat} (hrows : rows ≠ 0) :
    let r := s.fillFree bits ((s.tile t).accs.map g)
    Entered (r.2.modTile t (fun y => y.putRows i.w.dst (elemBytes bits r.1))) ((s.accWrite t i.w bits g).accTouch t i lat rows) t 0 := by
  intro r
  obtain ⟨hk, hl⟩ := kept_fillFree s t bits ((s.tile t).accs.map g) []
  have heq : s.accWrite t i.w bits g = r.2.modTile t (fun y => y.putRows i.w.dst (elemBytes bits r.1)) := by
    simp only [State.accWrite, hw, if_true, State.result, hsp]
    rfl
  have hheld : Held r.2 t := hk.held t hh
  have ht : (r.2.modTile t (fun y => y.putRows i.w.dst (elemBytes bits r.1))).tile t = (s.tile t).putRows i.w.dst (elemBytes bits r.1) := by
    rw [tile_modTile_held hheld, tile_of_looms hl]
  rw [heq, State.accTouch, if_pos ⟨hw, hsp⟩]
  exact (touch_alone ((kept_modTile r.2 t _ []).held t hheld) (by rw [ht]; exact hu) (by simp) (Or.inr ⟨_, List.mem_singleton.mpr rfl, hrows⟩) _).2

theorem accWrite_of_not {s : State} {t : TileRef} {i : Issue} (hw : i.w.accWrite = false) (bits : Nat) (g : Nat → Option Nat) (lat rows : Nat) :
    (s.accWrite t i.w bits g).accTouch t i lat rows = s := by
  simp [State.accWrite, State.accTouch, hw]

end Sys2Proof.Machine

namespace Sys2Proof.Machine

open Sys2Proof

/-! ## Steps that write the words of a rule (R187, R190) -/

/-- What a step on one tile leaves alone. -/
theorem Kept.frame {u v : State} {t : TileRef} {l : List Nat} (h : Kept u v t l) :
    (∀ r, r ≠ t → v.tile r = u.tile r) ∧ OnlyWell u v t.well ∧ v.parts = u.parts ∧ v.lantus = u.lantus := ⟨h.others, h.wells, h.parts, h.lantus⟩

/-- One vector of FMA. -/
def fmaVector (t : TileRef) (w : StepWord) (_ : Nat) (a b d : List Nat) (u : State) : Option (List Nat) × State :=
  if w.mode = 2 then
    let rs := List.zipWith (fun (p : Nat × Nat) c => fma32 p.1 p.2 c) (a.zip b) d
    (some (rs.map FRes.val), u.setFlags t (orFlags rs))
  else ((some (u.fillFree 32 (a.map (fun _ => none))).1), (u.fillFree 32 (a.map (fun _ => none))).2)

theorem fma_of_issues {s u : State} {t : TileRef} {i : Issue} (h : Issues s t 0x1C i u) :
    exec (.fma t) s = .next (u.runLanes t i { useD := true, lat := 8 } (fmaVector t i.w)) := by
  show execFma t s = _
  unfold execFma
  rw [execStep_of_issues h]
  rfl

/-- FMA writes the rounded words, and sets their flags. -/
theorem fma_writes {u : State} {t : TileRef} {i : Issue} (hh : Held u t) (hc : (u.tile t).calm) (hp : i.w.plain 8) (hm : i.w.mode = 2) :
    let x := u.tile t
    let rs := List.zipWith (fun (p : Nat × Nat) c => fma32 p.1 p.2 c) ((x.vec i.w.srcA 32).zip (x.vec i.w.srcB 32)) (x.vec i.w.dst 32)
    Written u ((u.accClear t i.w).setFlags t (orFlags rs)) (u.runLanes t i { useD := true, lat := 8 } (fmaVector t i.w)) t i.w.dst 32 (rs.map FRes.val)
      [tileBase t + 0x34] := by
  intro x rs
  refine runLanes_writes hh hc hp (by decide) ?_ (kept_setFlags _ t _) (by decide) (by simp [rs, length_vec])
  rw [fmaVector, if_pos hm]
  rfl

/-- One vector of CVT. -/
def cvtVector (t : TileRef) (w : StepWord) (o : LaneOp) (width rows : Nat) (_ : Nat) (a _b _d : List Nat) (u : State) : Option (List Nat) × State :=
  let fn := w.aux % 16
  let xs := if fn = 0 then ((a.flatMap (wordsOf 512 rows)).flatMap (wordsOf width (wordsPerBucket width))).take 128 else a
  let rs := xs.map (cvtWord fn width (bits w.aux 13 8))
  ((some (u.fillFree o.bitsD (rs.map (fun x => x.map FRes.val))).1),
    (u.fillFree o.bitsD (rs.map (fun x => x.map FRes.val))).2.setFlags t (orFlags (rs.filterMap (fun x => x))))

/-- The width of the packed words of CVT. -/
def cvtWidth (w : StepWord) : Nat := if w.aux % 16 = 0 ∨ w.aux % 16 = 3 then 8 * bits w.aux 7 4 else 32

/-- The rows of packed words that CVT reads. -/
def cvtRows (w : StepWord) : Nat := if w.aux % 16 = 0 then ceilDiv 128 (wordsPerBucket (cvtWidth w)) else 8

/-- The vectors of CVT. -/
def cvtOp (w : StepWord) : LaneOp :=
  { words := if w.aux % 16 = 0 then 1 else 128, useB := false, bitsA := if w.aux % 16 = 0 then 512 * cvtRows w else if w.aux % 16 = 2 then 16 else 32,
    bitsD := if w.aux % 16 = 1 then 16 else if w.aux % 16 = 3 then 64 else 32 }

theorem cvt_of_issues {s u : State} {t : TileRef} {i : Issue} (h : Issues s t 0x1E i u) :
    exec (.cvt t) s = .next (u.runLanes t i (cvtOp i.w) (cvtVector t i.w (cvtOp i.w) (cvtWidth i.w) (cvtRows i.w))) := by
  show execCvt t s = _
  unfold execCvt
  rw [execStep_of_issues h]
  rfl

/-- The words that CVT converts. -/
def cvtWords (x : Tile) (w : StepWord) : List Nat :=
  if w.aux % 16 = 0 then ((chunks 64 (x.rowsAt w.srcA (64 * cvtRows w))).flatMap (fun b => wordsOf (cvtWidth w) (wordsPerBucket (cvtWidth w)) (leNat b))).take 128
  else x.vec w.srcA (if w.aux % 16 = 2 then 16 else 32)

theorem cvtRows_of_packed {w : StepWord} (h0 : w.aux % 16 = 0) : cvtRows w = (128 + wordsPerBucket (cvtWidth w) - 1) / wordsPerBucket (cvtWidth w) := if_pos h0

theorem length_flatMap_of_length {α β : Type} {f : α → List β} {n : Nat} (l : List α) (h : ∀ y ∈ l, (f y).length = n) : (l.flatMap f).length = n * l.length := by
  induction l with
  | nil => rfl
  | cons y l ih =>
    rw [List.flatMap_cons, List.length_append, h y List.mem_cons_self, ih (fun z hz => h z (List.mem_cons_of_mem y hz)), List.length_cons, Nat.mul_succ, Nat.add_comm]

theorem length_cvtWords (x : Tile) {w : StepWord} (hl : w.aux % 16 = 0 → legalWidth (cvtWidth w) = true) : (cvtWords x w).length = 128 := by
  unfold cvtWords
  split
  · rename_i h0
    have hrows : 128 ≤ wordsPerBucket (cvtWidth w) * cvtRows w := by
      have hw : cvtWidth w = 32 ∨ cvtWidth w = 40 ∨ cvtWidth w = 48 ∨ cvtWidth w = 64 := by simpa [legalWidth, or_assoc] using hl h0
      rw [cvtRows_of_packed h0]
      rcases hw with hw | hw | hw | hw <;> rw [hw] <;> decide
    rw [List.length_take, length_flatMap_of_length _ (fun b _ => length_wordsOf _ _ _), length_chunks 64 (cvtRows w) (by decide) _ (by simp)]
    omega
  · exact length_vec (by split <;> simp) x _

/-- The words of the buckets that CVT unpacks. -/
theorem unpack_buckets (x : Tile) (row n width k : Nat) (hn : 0 < n) :
    ((elems (512 * n) (x.rowsAt row (64 * (1 * (512 * n) / 512)))).flatMap (wordsOf 512 n)).flatMap (wordsOf width k) =
      (chunks 64 (x.rowsAt row (64 * n))).flatMap (fun b => wordsOf width k (leNat b)) := by
  have hlen : 64 * (1 * (512 * n) / 512) = 64 * n := by omega
  have h8 : 512 * n / 8 = 64 * n := by omega
  rw [hlen, elems, h8, chunks_one (by omega) (length_rowsAt x row (64 * n)), List.map_singleton, List.flatMap_singleton,
    wordsOf_leNat (n := 64) (by decide) (length_rowsAt x row (64 * n)), List.flatMap_map]

/-- A conversion is defined for each function of R190. -/
theorem cvtWord_defined {fn : Nat} (h : fn ≤ 4) (w f y : Nat) : ∃ r, cvtWord fn w f y = some r := by
  interval_cases fn <;> exact ⟨_, rfl⟩

/-- CVT writes its converted words. -/
theorem cvt_writes {u : State} {t : TileRef} {i : Issue} (hh : Held u t) (hc : (u.tile t).calm) (hp : i.w.plain 16) (hfn : i.w.aux % 16 ≤ 4)
    (hl : i.w.aux % 16 = 0 → legalWidth (cvtWidth i.w) = true) :
    let l := (cvtWords (u.tile t) i.w).map (fun y => (cvtWord (i.w.aux % 16) (cvtWidth i.w) (bits i.w.aux 13 8) y).elim 0 FRes.val)
    ∃ m, Written u m (u.runLanes t i (cvtOp i.w) (cvtVector t i.w (cvtOp i.w) (cvtWidth i.w) (cvtRows i.w))) t i.w.dst (cvtOp i.w).bitsD l [tileBase t + 0x34] := by
  intro l
  have hxs : (if i.w.aux % 16 = 0 then (((cvtOp i.w).operand (u.tile t) i.w.srcA (cvtOp i.w).bitsA).flatMap (wordsOf 512 (cvtRows i.w))).flatMap
      (wordsOf (cvtWidth i.w) (wordsPerBucket (cvtWidth i.w))) |>.take 128 else (cvtOp i.w).operand (u.tile t) i.w.srcA (cvtOp i.w).bitsA) = cvtWords (u.tile t) i.w := by
    unfold cvtWords LaneOp.operand cvtOp
    by_cases h0 : i.w.aux % 16 = 0
    · have hpos : 0 < cvtRows i.w := by
        have hw : cvtWidth i.w = 32 ∨ cvtWidth i.w = 40 ∨ cvtWidth i.w = 48 ∨ cvtWidth i.w = 64 := by simpa [legalWidth, or_assoc] using hl h0
        rw [cvtRows_of_packed h0]
        rcases hw with hw | hw | hw | hw <;> rw [hw] <;> decide
      simp only [h0, if_true, unpack_buckets _ _ _ _ _ hpos]
    · simp only [h0, if_false]
      split <;> rfl
  have hfill : ∀ s : State, s.fillFree (cvtOp i.w).bitsD (((cvtWords (u.tile t) i.w).map (cvtWord (i.w.aux % 16) (cvtWidth i.w) (bits i.w.aux 13 8))).map
      (fun x => x.map FRes.val)) = (l, s) := by
    intro s
    rw [fillFree_of_defined, List.map_map, List.map_map]
    · refine Prod.ext (List.map_congr_left (fun y _ => ?_)) rfl
      obtain ⟨r, hr⟩ := cvtWord_defined hfn (cvtWidth i.w) (bits i.w.aux 13 8) y
      simp [hr]
    · intro z hz
      simp only [List.map_map, List.mem_map, Function.comp_apply] at hz
      obtain ⟨y, -, rfl⟩ := hz
      obtain ⟨r, hr⟩ := cvtWord_defined hfn (cvtWidth i.w) (bits i.w.aux 13 8) y
      simp [hr]
  refine ⟨_, runLanes_writes hh hc hp (by decide) (m := (u.accClear t i.w).setFlags t (orFlags
    (((cvtWords (u.tile t) i.w).map (cvtWord (i.w.aux % 16) (cvtWidth i.w) (bits i.w.aux 13 8))).filterMap (fun x => x)))) ?_ (kept_setFlags _ t _) ?_ ?_⟩
  · unfold cvtVector
    dsimp only
    rw [hxs, hfill]
  · unfold cvtOp
    dsimp only
    (repeat' split) <;> simp
  · rw [List.length_map, length_cvtWords _ hl]

/-- One vector of FEST. -/
def festVector (t : TileRef) (w : StepWord) (_ : Nat) (a _b _d : List Nat) (u : State) : Option (List Nat) × State :=
  (some ((a.map (festWord (w.aux % 2))).map FRes.val), u.setFlags t (orFlags (a.map (festWord (w.aux % 2)))))

theorem fest_of_issues {s u : State} {t : TileRef} {i : Issue} (h : Issues s t 0x1F i u) :
    exec (.fest t) s = .next (u.runLanes t i { useB := false, lat := 8 } (festVector t i.w)) := by
  show execFest t s = _
  unfold execFest
  rw [execStep_of_issues h]
  rfl

/-- FEST writes its estimates. -/
theorem fest_writes {u : State} {t : TileRef} {i : Issue} (hh : Held u t) (hc : (u.tile t).calm) (hp : i.w.plain 8) :
    ∃ m, Written u m (u.runLanes t i { useB := false, lat := 8 } (festVector t i.w)) t i.w.dst 32
      ((((u.tile t).vec i.w.srcA 32).map (festWord (i.w.aux % 2))).map FRes.val) [tileBase t + 0x34] :=
  ⟨_, runLanes_writes hh hc hp (by decide) rfl (kept_setFlags _ t _) (by decide) (by simp [length_vec])⟩

/-- An estimate is the fixed result of a special operand, a good one, or what the rule rounds to (R190). -/
theorem festWord_cases (fn y : Nat) : (∀ r, festSpecial fn y = some r → festWord fn y = r) ∧
    (festSpecial fn y = none → y % 2 ^ 31 ≠ 0 → festGood fn y (festWord fn y).val = true ∨ (festWord fn y).val = festRound fn y) := by
  refine ⟨fun r h => by simp [festWord, h], fun h hy => ?_⟩
  have hval : (festWord fn y).val = if y % 2 ^ 31 = 0 ∨ festGood fn y (Config.estimate fn y % 2 ^ 32) = true then Config.estimate fn y % 2 ^ 32 else festRound fn y := by
    rw [festWord, h]
    rfl
  by_cases hg : festGood fn y (Config.estimate fn y % 2 ^ 32) = true
  · exact Or.inl (by rw [hval, if_pos (Or.inr hg), hg])
  · exact Or.inr (by rw [hval, if_neg (not_or.mpr ⟨hy, hg⟩)])

end Sys2Proof.Machine

namespace Sys2Proof.Machine

open Sys2Proof

/-! ## Steps that add into the accumulators (R132, R187, R189) -/

/-- A step has set the accumulators of its tile, which runs as before. -/
structure Accumulated (u v : State) (t : TileRef) (l regs : List Nat) : Prop where
  kept : Kept u v t regs
  store : (v.tile t).store = (u.tile t).store
  accs : (v.tile t).accs = l
  state : (v.tile t).state = (u.tile t).state
  unit : (v.tile t).onlyUnit 0

/-- A lane step of one plain vector whose operation sets the accumulators. -/
theorem runLanes_accumulates {u m : State} {t : TileRef} {i : Issue} {o : LaneOp} {f : Nat → List Nat → List Nat → List Nat → State → Option (List Nat) × State}
    {rows : Nat} {g : List Nat → List Nat} {regs : List Nat} (hh : Held u t) (hc : (u.tile t).calm) (hp : i.w.plain rows) (hrows : 0 < rows)
    (hf : f 0 (o.operand (u.tile t) i.w.srcA o.bitsA) (if o.useB then o.operand (u.tile t) i.w.srcB o.bitsB else [])
      (if o.useD then o.operand (u.tile t) i.w.dst o.bitsD else []) (u.accClear t i.w) = (none, m.modTile t (fun x => { x with accs := g x.accs })))
    (hm : Kept (u.accClear t i.w) m t regs ∧ m.looms = (u.accClear t i.w).looms) : Accumulated u (u.runLanes t i o f) t (g ((u.tile t).accsFor i.w)) regs := by
  obtain ⟨hm, hlm⟩ := hm
  have hclear := kept_accClear u t i.w regs
  have hheld := hm.held t (hclear.held t hh)
  have ht : (m.modTile t (fun x => { x with accs := g x.accs })).tile t = { u.tile t with accs := g ((u.tile t).accsFor i.w) } := by
    rw [tile_modTile_held hheld, tile_of_looms hlm, tile_accClear hh]
  have he := runLanes_keeps hh hc hp hrows hf ((kept_modTile m t _ []).held t hheld) (by rw [ht])
  exact ⟨hclear.trans (hm.trans ((kept_modTile m t _ regs).trans (he.kept.mono (List.nil_subset _)))), by rw [he.store, ht], by rw [he.accs, ht], by rw [he.state, ht], he.onlyUnit⟩

/-- The accumulators of a step have been written where it asks for it, word by word as `g` reduces them. -/
structure AccsWritten (u v : State) (t : TileRef) (w : StepWord) (g : Nat → Option Nat) (l regs : List Nat) : Prop where
  kept : Kept u v t regs
  accs : (v.tile t).accs = l
  store : w.accWrite = false → (v.tile t).store = (u.tile t).store
  rows : w.accWrite = true → OnlyRows u v t w.dst (l.length * 4)
  vec : w.accWrite = true → l.length = 128 → (∀ a ∈ l, g a ≠ none) → (v.tile t).vec w.dst 32 = l.map (fun a => (g a).getD 0 % 2 ^ 32)

theorem Accumulated.written {u v : State} {t : TileRef} {i : Issue} {l regs : List Nat} (h : Accumulated u v t l regs) (hh : Held u t) (hwf : (u.tile t).store.wf)
    (hsp : i.w.dstSpace = 0) (g : Nat → Option Nat) (lat : Nat) : AccsWritten u ((v.accWrite t i.w 32 g).accTouch t i lat 8) t i.w g l regs := by
  by_cases hw : i.w.accWrite = true
  · have hv := h.kept.held t hh
    obtain ⟨hk, hl⟩ := kept_fillFree v t 32 ((v.tile t).accs.map g) regs
    have he := accWrite_entered hv h.unit hsp hw 32 g lat (rows := 8) (by decide)
    have hkept := h.kept.trans (hk.trans ((kept_modTile _ t _ regs).trans (he.kept.mono (List.nil_subset _))))
    have ht := tile_modTile_held (hk.held t hv) (fun y => y.putRows i.w.dst (elemBytes 32 (v.fillFree 32 ((v.tile t).accs.map g)).1))
    rw [tile_of_looms hl] at ht
    have hstore : (((v.accWrite t i.w 32 g).accTouch t i lat 8).tile t).store =
        ((u.tile t).putRows i.w.dst (elemBytes 32 (v.fillFree 32 ((v.tile t).accs.map g)).1)).store := by
      rw [he.store, ht, Tile.putRows, Tile.putRows, h.store]
    rw [h.accs] at hstore he ht
    refine ⟨hkept, by rw [he.accs, ht]; exact h.accs, fun hf => absurd (hw.symm.trans hf) (by decide), fun _ => onlyRows_of_putRows hstore (by simp [length_elemBytes]; omega),
      fun _ hn hg => ?_⟩
    have hfill := fillFree_of_defined v 32 (l := l.map g) (by simpa using hg)
    rw [hfill] at hstore
    have hvec := vec_putRows hwf (bits := 32) (by decide) i.w.dst (l := (l.map g).map (fun y => y.getD 0)) (by simp [hn])
    rw [Tile.vec, Tile.rowsAt] at hvec ⊢
    rw [hstore, hvec, List.map_map, List.map_map]
    rfl
  · rw [accWrite_of_not (by simpa using hw)]
    exact ⟨h.kept, h.accs, fun _ => h.store, fun ht => absurd ht hw, fun ht => absurd ht hw⟩

theorem redc_lt {q acc : Nat} (h : acc < 2 ^ 32 * q) : redc q acc < q := by
  have hm : acc % 2 ^ 32 * qinvNeg q % 2 ^ 32 ≤ 2 ^ 32 - 1 := by have := Nat.mod_lt (acc % 2 ^ 32 * qinvNeg q) (show 0 < 2 ^ 32 by decide); omega
  have hmq : (acc % 2 ^ 32 * qinvNeg q % 2 ^ 32) * q ≤ (2 ^ 32 - 1) * q := Nat.mul_le_mul_right q hm
  have ht : (acc + acc % 2 ^ 32 * qinvNeg q % 2 ^ 32 * q) / 2 ^ 32 < 2 * q := by
    rw [Nat.div_lt_iff_lt_mul (by decide)]
    omega
  unfold redc
  dsimp only
  split <;> omega

/-- One vector of MMAC. -/
def mmacVector (t : TileRef) (_ : Nat) (a b _d : List Nat) (u : State) : Option (List Nat) × State :=
  (none, u.modTile t (fun x => { x with accs := List.zipWith (fun (c p : Nat) => (c + p) % 2 ^ 256) x.accs (List.zipWith (fun (m n : Nat) => m * n) a b) }))

/-- The end of a step that may write its accumulators. -/
def State.accEnd (s : State) (t : TileRef) (i : Issue) (lat : Nat) (g : Nat → Option Nat) : State :=
  if (s.tile t).state = .running then (s.accWrite t i.w 32 g).accTouch t i lat 8 else s

theorem mmac_of_issues {s u : State} {t : TileRef} {i : Issue} (h : Issues s t 0x11 i u) :
    exec (.mmac t) s = .next ((u.runLanes t i { lat := 12 } (mmacVector t)).accEnd t i 12 (redcOpt (u.primeOf i.part i.w.prime))) := by
  show execMmac t s = _
  unfold execMmac
  rw [execStep_of_issues h]
  rfl

/-- MMAC adds its products. -/
theorem mmac_accumulates {u : State} {t : TileRef} {i : Issue} (hh : Held u t) (hc : (u.tile t).calm) (hp : i.w.plain 8) :
    let x := u.tile t
    Accumulated u (u.runLanes t i { lat := 12 } (mmacVector t)) t (List.zipWith (fun (c p : Nat) => (c + p) % 2 ^ 256) (x.accsFor i.w)
      (List.zipWith (fun (m n : Nat) => m * n) (x.vec i.w.srcA 32) (x.vec i.w.srcB 32))) [] :=
  runLanes_accumulates hh hc hp (by decide) (g := fun l => List.zipWith (fun (c p : Nat) => (c + p) % 2 ^ 256) l _)
    (m := u.accClear t i.w) rfl ⟨Kept.refl _ _ _, rfl⟩

/-- One vector of DOT. -/
def dotVector (t : TileRef) (w : StepWord) (n : Nat) (_ : Nat) (a b _d : List Nat) (u : State) : Option (List Nat) × State :=
  let lanes := List.zipWith (fun (c : Nat) ab => dotLane w.mode (c % 2 ^ 32) ab) (u.tile t).accs (chunks (32 / n) (a.zip b))
  let r := u.fillFree 32 (lanes.map (fun l => l.map FRes.val))
  (none, (r.2.setFlags t (orFlags (lanes.filterMap (fun l => l)))).modTile t (fun x =>
    { x with accs := List.zipWith (fun (c v : Nat) => 2 ^ 32 * (c / 2 ^ 32) + v) x.accs r.1 }))

/-- Bits of the elements of DOT. -/
def dotBits (w : StepWord) : Nat := if w.mode = 3 then 16 else 8

/-- The vectors of DOT. -/
def dotOp (w : StepWord) : LaneOp := { bitsA := dotBits w, bitsB := dotBits w, words := 4096 / dotBits w, lat := 8 }

theorem dot_of_issues {s u : State} {t : TileRef} {i : Issue} (h : Issues s t 0x1D i u) :
    exec (.dot t) s = .next ((u.runLanes t i (dotOp i.w) (dotVector t i.w (dotBits i.w))).accEnd t i 8 (fun c => some (c % 2 ^ 32))) := by
  show execDot t s = _
  unfold execDot
  rw [execStep_of_issues h]
  rfl

theorem dotLane_defined {mode : Nat} (h3 : 3 ≤ mode) (h7 : mode ≤ 7) (acc : Nat) (ab : List (Nat × Nat)) : ∃ r, dotLane mode acc ab = some r := by
  interval_cases mode <;> exact ⟨_, rfl⟩

theorem dotBits_cases (w : StepWord) : dotBits w = 16 ∨ dotBits w = 8 := by unfold dotBits; split <;> simp

/-- The pairs of elements that the lanes of DOT take up. -/
def dotPairs (x : Tile) (w : StepWord) : List (List (Nat × Nat)) :=
  chunks (32 / dotBits w) ((elems (dotBits w) (x.rowsAt w.srcA 512)).zip (elems (dotBits w) (x.rowsAt w.srcB 512)))

theorem length_dotPairs (x : Tile) (w : StepWord) : (dotPairs x w).length = 128 := by
  have hl : ∀ row, (elems (dotBits w) (x.rowsAt row 512)).length = 32 / dotBits w * 128 := by
    intro row
    rcases dotBits_cases w with h | h <;> rw [h] <;> exact length_elems (by decide) (by simp)
  refine length_chunks _ _ ?_ _ (by simp [hl])
  rcases dotBits_cases w with h | h <;> rw [h] <;> decide

/-- The lanes of DOT. -/
def dotLanes (x : Tile) (w : StepWord) : List (Option FRes) := List.zipWith (fun a ab => dotLane w.mode (a % 2 ^ 32) ab) (x.accsFor w) (dotPairs x w)

/-- The accumulators after DOT. -/
def dotAccs (x : Tile) (w : StepWord) : List Nat := List.zipWith (fun a l => 2 ^ 32 * (a / 2 ^ 32) + (l.elim 0 FRes.val)) (x.accsFor w) (dotLanes x w)

/-- DOT adds its products into the low words. -/
theorem dot_accumulates {u : State} {t : TileRef} {i : Issue} (hh : Held u t) (hc : (u.tile t).calm) (hp : i.w.plain 8) (h3 : 3 ≤ i.w.mode) (h7 : i.w.mode ≤ 7) :
    Accumulated u (u.runLanes t i (dotOp i.w) (dotVector t i.w (dotBits i.w))) t (dotAccs (u.tile t) i.w) [tileBase t + 0x34] := by
  have hop : ∀ row, (dotOp i.w).operand (u.tile t) row (dotBits i.w) = elems (dotBits i.w) ((u.tile t).rowsAt row 512) := by
    intro row
    unfold LaneOp.operand dotOp
    rcases dotBits_cases i.w with h | h <;> simp only [h]
  have hdef : ∀ l ∈ dotLanes (u.tile t) i.w, ∃ r, l = some r := by
    intro l hl
    obtain ⟨k, hk, rfl⟩ := List.getElem_of_mem hl
    simp only [dotLanes, List.getElem_zipWith]
    exact dotLane_defined h3 h7 _ _
  have hfill : ∀ s : State, s.fillFree 32 ((dotLanes (u.tile t) i.w).map (fun l => l.map FRes.val)) = ((dotLanes (u.tile t) i.w).map (fun l => l.elim 0 FRes.val), s) := by
    intro s
    rw [fillFree_of_defined, List.map_map]
    · refine Prod.ext (List.map_congr_left (fun l hl => ?_)) rfl
      obtain ⟨r, rfl⟩ := hdef l hl
      rfl
    · intro y hy
      obtain ⟨l, hl, rfl⟩ := List.mem_map.mp hy
      obtain ⟨r, rfl⟩ := hdef l hl
      simp
  have hlanes : List.zipWith (fun (c : Nat) ab => dotLane i.w.mode (c % 2 ^ 32) ab) ((u.accClear t i.w).tile t).accs
      (chunks (32 / dotBits i.w) ((elems (dotBits i.w) ((u.tile t).rowsAt i.w.srcA 512)).zip (elems (dotBits i.w) ((u.tile t).rowsAt i.w.srcB 512)))) =
      dotLanes (u.tile t) i.w := by rw [tile_accClear hh]; rfl
  have hacc : dotAccs (u.tile t) i.w =
      List.zipWith (fun (c v : Nat) => 2 ^ 32 * (c / 2 ^ 32) + v) ((u.tile t).accsFor i.w) ((dotLanes (u.tile t) i.w).map (fun l => l.elim 0 FRes.val)) := by
    rw [dotAccs, List.zipWith_map_right]
  rw [hacc]
  refine runLanes_accumulates hh hc hp (by decide) (g := fun l => List.zipWith (fun (c v : Nat) => 2 ^ 32 * (c / 2 ^ 32) + v) l _)
    (m := (u.accClear t i.w).setFlags t (orFlags ((dotLanes (u.tile t) i.w).filterMap (fun l => l)))) ?_ (kept_setFlags _ t _)
  have hA : (dotOp i.w).operand (u.tile t) i.w.srcA (dotOp i.w).bitsA = _ := hop i.w.srcA
  have hB : (if (dotOp i.w).useB then (dotOp i.w).operand (u.tile t) i.w.srcB (dotOp i.w).bitsB else []) = _ := hop i.w.srcB
  rw [hA, hB]
  unfold dotVector
  dsimp only
  rw [hlanes, hfill]

/-- One vector of CLMUL. -/
def clmulVector (t : TileRef) (w : StepWord) (_ : Nat) (a b _d : List Nat) (u : State) : Option (List Nat) × State :=
  (none, u.modTile t (fun x => { x with
    accs := List.zipWith (fun (c p : Nat) => c ^^^ (p <<< (64 * (b2n (bit w.aux 0) + b2n (bit w.aux 1))))) x.accs (List.zipWith clmul64 a b) }))

theorem clmul_of_issues {s u : State} {t : TileRef} {i : Issue} (h : Issues s t 0x21 i u) :
    exec (.clmul t) s = .next (u.runLanes t i { bitsA := 64, bitsB := 64, bitsD := 64 } (clmulVector t i.w)) := by
  show execClmul t s = _
  unfold execClmul
  rw [execStep_of_issues h]
  rfl

/-- CLMUL adds its products, shifted. -/
theorem clmul_accumulates {u : State} {t : TileRef} {i : Issue} (hh : Held u t) (hc : (u.tile t).calm) (hp : i.w.plain 16) :
    let x := u.tile t
    Accumulated u (u.runLanes t i { bitsA := 64, bitsB := 64, bitsD := 64 } (clmulVector t i.w)) t
      (List.zipWith (fun (c p : Nat) => c ^^^ (p <<< (64 * (b2n (bit i.w.aux 0) + b2n (bit i.w.aux 1))))) (x.accsFor i.w)
        (List.zipWith clmul64 (x.vec i.w.srcA 64) (x.vec i.w.srcB 64))) [] :=
  runLanes_accumulates hh hc hp (by decide) (g := fun l => List.zipWith (fun (c p : Nat) => c ^^^ (p <<< (64 * (b2n (bit i.w.aux 0) + b2n (bit i.w.aux 1))))) l _)
    (m := u.accClear t i.w) rfl ⟨Kept.refl _ _ _, rfl⟩

end Sys2Proof.Machine

namespace Sys2Proof.Machine

open Sys2Proof

/-! ## GFRED (R189) -/

/-- Rows of two memories that hold the same bytes there. -/
theorem rowsAt_congr {x y : Tile} (hx : x.store.wf) (hy : y.store.wf) {row n : Nat} (h : ∀ a, row * 64 ≤ a → a < row * 64 + n → memByte x.store a = memByte y.store a) :
    x.rowsAt row n = y.rowsAt row n := by
  rw [Tile.rowsAt, Tile.rowsAt, memRead_eq_map hx, memRead_eq_map hy]
  refine List.map_congr_left (fun k hk => h _ (by omega) ?_)
  have := List.mem_range.mp hk
  omega

/-- One vector of GFRED: the high halves are written, the low ones answered. -/
def gfredVector (t : TileRef) (w : StepWord) (k : Nat) (_a _b _d : List Nat) (u : State) : Option (List Nat) × State :=
  let rs := (u.tile t).accs.map gfReduce
  (some (rs.map (fun r => r % 2 ^ 64)), u.result t w.dstSpace ((rowOf w.dst w.strideD k + 16) % 16384) 64 (rs.map (fun r => r / 2 ^ 64)))

/-- The issue of GFRED as its lanes run it: its operand is the accumulators. -/
def Issue.ofAccs (i : Issue) : Issue := { i with w := { i.w with aSpace := 1 } }

theorem gfred_of_issues {s u : State} {t : TileRef} {i : Issue} (h : Issues s t 0x22 i u) :
    exec (.gfred t) s = .next (u.runLanes t i.ofAccs { bitsA := 64, bitsD := 64, useB := false, per := 2 } (gfredVector t i.ofAccs.w)) := by
  show execGfred t s = _
  unfold execGfred
  rw [execStep_of_issues h]
  rfl

/-- GFRED writes the low halves at its row, the high ones sixteen rows above. -/
theorem gfred_writes {u : State} {t : TileRef} {i : Issue} (hh : Held u t) (hc : (u.tile t).calm) (hn : i.w.count = 1) (hd : i.w.dstSpace = 0) (hrow : i.w.dst + 32 ≤ 16384)
    (hclear : i.w.accClear = false) (hlen : (u.tile t).accs.length = 128) :
    let x := u.tile t
    let v := u.runLanes t i.ofAccs { bitsA := 64, bitsD := 64, useB := false, per := 2 } (gfredVector t i.ofAccs.w)
    Kept u v t [] ∧ (v.tile t).accs = x.accs ∧ OnlyRows u v t i.w.dst 2048 ∧ (v.tile t).vec i.w.dst 64 = x.accs.map (fun a => gfReduce a % 2 ^ 64) ∧
      (v.tile t).vec (i.w.dst + 16) 64 = x.accs.map (fun a => gfReduce a / 2 ^ 64 % 2 ^ 64) := by
  intro x v
  obtain ⟨hwf, hbad, hfl⟩ := hc
  let lows := elemBytes 64 ((x.accs.map gfReduce).map (fun r => r % 2 ^ 64))
  let highs := elemBytes 64 ((x.accs.map gfReduce).map (fun r => r / 2 ^ 64))
  have hlows : lows.length = 1024 := by simp [lows, length_elemBytes, x, hlen]
  have hhighs : highs.length = 1024 := by simp [highs, length_elemBytes, x, hlen]
  have hlane : (u.accClear t i.ofAccs.w).lane t i.ofAccs { bitsA := 64, bitsD := 64, useB := false, per := 2 } (gfredVector t i.ofAccs.w) =
      (u.modTile t (fun y => y.putRows (i.w.dst + 16) highs)).modTile t (fun y => y.putRows i.w.dst lows) := by
    have h0 : u.accClear t i.ofAccs.w = u := if_neg (by rw [Issue.ofAccs]; simp [hclear])
    have hr : rowOf i.w.dst i.w.strideD 0 = i.w.dst := rowOf_first (by omega) _
    rw [h0]
    simp only [State.lane, gfredVector, Issue.ofAccs, State.operand, State.result, State.rowsWrite, hd, hr, Nat.mod_eq_of_lt (show i.w.dst + 16 < 16384 by omega)]
    rfl
  have hheld := (kept_modTile u t (fun y => y.putRows (i.w.dst + 16) highs) []).held t hh
  have ht : ((u.modTile t (fun y => y.putRows (i.w.dst + 16) highs)).modTile t (fun y => y.putRows i.w.dst lows)).tile t =
      (x.putRows (i.w.dst + 16) highs).putRows i.w.dst lows := by rw [tile_modTile_held hheld, tile_modTile_held hh]
  have he : Entered _ v t 0 := runLanes_entered hbad hn hlane ((kept_modTile _ t _ []).held t hheld) (by rw [ht]; exact hfl)
  have hstore : (v.tile t).store = ((x.putRows (i.w.dst + 16) highs).putRows i.w.dst lows).store := by rw [he.store, ht]
  have hwf1 : (x.putRows (i.w.dst + 16) highs).store.wf := memWrite_wf _ _ _ hwf
  have hwf2 : (v.tile t).store.wf := by rw [hstore]; exact memWrite_wf _ _ _ hwf1
  refine ⟨(kept_modTile u t _ []).trans ((kept_modTile _ t _ []).trans he.kept), by rw [he.accs, ht]; rfl, fun a ha => ?_, ?_, ?_⟩
  · rw [hstore, Tile.putRows, memByte_memWrite, if_neg (by omega), Tile.putRows, memByte_memWrite, if_neg (by omega)]
  · have hvec := vec_putRows hwf1 (bits := 64) (by decide) i.w.dst (l := (x.accs.map gfReduce).map (fun r => r % 2 ^ 64)) (by simp [x, hlen])
    rw [Tile.vec, Tile.rowsAt] at hvec ⊢
    rw [hstore, hvec, List.map_map, List.map_map]
    simp only [Function.comp_def, Nat.mod_mod]
  · have hvec := vec_putRows hwf (bits := 64) (by decide) (i.w.dst + 16) (l := (x.accs.map gfReduce).map (fun r => r / 2 ^ 64)) (by simp [x, hlen])
    rw [Tile.vec, rowsAt_congr hwf2 hwf1 (fun a h1 h2 => ?_)]
    · refine hvec.trans ?_
      simp only [List.map_map, Function.comp_def]
    · rw [hstore, Tile.putRows, memByte_memWrite, if_neg (by omega)]

/-! ## KECCAK (R199) -/

theorem length_keccakRounds (n reg : Nat) {a : List Nat} (h : a.length = 25) : (keccakRounds n reg a).length = 25 := by
  induction n generalizing reg a with
  | zero => exact h
  | succ n ih => exact ih _ (by simp [keccakChi])

theorem length_keccakF {a : List Nat} (h : a.length = 25) : (keccakF a).length = 25 := length_keccakRounds 24 1 h

/-- Words that are given stand first, free ones after them. -/
theorem take_fillFree (s : State) (bits : Nat) (a : List Nat) (b : List (Option Nat)) : (s.fillFree bits (a.map some ++ b)).1.take a.length = a := by
  unfold State.fillFree
  refine List.ext_getElem ?_ (fun k h1 h2 => ?_)
  · split <;> simp [freeWords]
  · split <;> simp [List.getElem_append_left (show k < (a.map some).length by simpa using h2)]

/-- One vector of KECCAK. -/
def keccakVector (_ : Nat) (a _b _d : List Nat) (u : State) : Option (List Nat) × State :=
  let r := u.fillFree 64 (((chunks 25 (a.take 125)).flatMap keccakF).map some ++ List.replicate 3 none)
  (some r.1, r.2)

theorem keccak_of_issues {s u : State} {t : TileRef} {i : Issue} (h : Issues s t 0x23 i u) :
    exec (.keccak t) s = .next (u.runLanes t i { bitsA := 64, bitsD := 64, useB := false, per := 96, lat := 8 } keccakVector) := by
  show execKeccak t s = _
  unfold execKeccak
  rw [execStep_of_issues h]
  rfl

/-- The lanes of five permuted states. -/
theorem length_keccakStates {l : List Nat} (h : l.length = 128) : ((chunks 25 (l.take 125)).flatMap keccakF).length = 125 := by
  have h125 : (l.take 125).length = 25 * 5 := by simp [h]
  rw [length_flatMap_of_length _ (fun c hc => length_keccakF (mem_chunks_length 25 (by decide) _ ⟨5, h125⟩ c hc)), length_chunks 25 5 (by decide) _ h125]

/-- KECCAK writes its five permuted states. -/
theorem keccak_writes {u : State} {t : TileRef} {i : Issue} (hh : Held u t) (hc : (u.tile t).calm) (hp : i.w.plain 16) :
    let x := u.tile t
    let v := u.runLanes t i { bitsA := 64, bitsD := 64, useB := false, per := 96, lat := 8 } keccakVector
    Kept u v t [] ∧ OnlyRows u v t i.w.dst 1024 ∧
      elems 64 ((v.tile t).rowsAt i.w.dst 1000) = ((chunks 25 ((x.vec i.w.srcA 64).take 125)).flatMap keccakF).map (fun y => y % 2 ^ 64) := by
  intro x v
  have hl := length_keccakStates (length_vec (Or.inr (Or.inr rfl)) x i.w.srcA)
  have hw : Written u _ v t i.w.dst 64 _ [] := runLanes_writes hh hc hp (by decide) (f := keccakVector) rfl (kept_fillFree _ t 64 _ []) (by decide) (by
    rw [length_fillFree, List.length_append, List.length_map]
    exact congrArg (· + 3) hl)
  refine ⟨hw.kept, hw.rows, ?_⟩
  have h1000 := rowsAt_putRows hc.1 i.w.dst (bs := elemBytes 64 ((u.accClear t i.w).fillFree 64
    (((chunks 25 ((x.vec i.w.srcA 64).take 125)).flatMap keccakF).map some ++ List.replicate 3 none)).1) (n := 1000) (by
      rw [length_elemBytes, length_fillFree, List.length_append, List.length_map, hl]
      decide)
  have htake := take_elemBytes 64 ((u.accClear t i.w).fillFree 64 (((chunks 25 ((x.vec i.w.srcA 64).take 125)).flatMap keccakF).map some ++ List.replicate 3 none)).1 125
  have hfirst := take_fillFree (u.accClear t i.w) 64 ((chunks 25 ((x.vec i.w.srcA 64).take 125)).flatMap keccakF) (List.replicate 3 none)
  rw [hl] at hfirst
  rw [hfirst] at htake
  rw [Tile.rowsAt] at h1000 ⊢
  rw [hw.store]
  refine (congrArg (elems 64) (h1000.trans htake)).trans ?_
  exact elems_elemBytes (by decide) (by decide) _

/-! ## SAMPLE (R118, R199) -/

theorem length_sampMany (src : Nat × Nat) (q w n pos : Nat) : (sampMany src q w n pos).1.length = n := by
  induction n generalizing pos with
  | zero => rfl
  | succ n ih =>
    unfold sampMany
    split <;> simp [ih]

/-- The variance parameter that SAMPLE draws with: that of the round's noise or of the ciphertexts. -/
def State.sampleParam (s : State) (i : Issue) : Nat := if i.w.aux % 256 = 0 then s.reg64 (mskBase i.part + 8) else s.reg64 (ctxBase i.part + 0x18)

/-- The width of the words that SAMPLE writes. -/
def State.sampleWidth (s : State) (i : Issue) : Nat :=
  if i.w.aux % 256 = 0 ∧ (s.round i.part).desc.mode = .m then (s.round i.part).desc.ringWidth else 64

/-- The samples of one vector from the bits that lie from the source row on. -/
def State.samples (s : State) (t : TileRef) (i : Issue) : List (Option Nat) :=
  (sampMany (memNat (s.tile t).store (i.w.srcA * 64) (64 * (16384 - i.w.srcA)), 512 * (16384 - i.w.srcA)) (s.sampleParam i) (s.sampleWidth i) 128 0).1

/-- SAMPLE of one vector on a calm tile: the samples are written, and the accesses entered. -/
theorem sample_of_issues {s u : State} {t : TileRef} {i : Issue} (h : Issues s t 0x24 i u) : ∃ v, exec (.sample t) s = .next v ∧
    ((u.tile t).calm → i.w.count = 1 → i.w.dstSpace = 0 → i.w.dst < 16384 → ∃ plan till, (∀ q ∈ plan, q.unit = 0) ∧
      let r := (u.draw.2.draw.2.accClear t i.w).fillFree 64 (u.samples t i)
      v = ((r.2.modTile t (fun y => y.putRows i.w.dst (elemBytes 64 r.1))).touch t i plan).2.modTile t (fun x => x.occupy [0] till)) := by
  show ∃ v, execSample t s = .next v ∧ _
  unfold execSample
  rw [execStep_of_issues h]
  refine ⟨_, rfl, fun ⟨_, hbad, hfl⟩ hn hd hrow => ?_⟩
  have hlen : 8 * (64 * (16384 - i.w.srcA)) = 512 * (16384 - i.w.srcA) := by omega
  have hpend : ∀ n, (u.tile t).pendingWrite i.at_ i.w.srcA n = false := fun n => by simp [Tile.pendingWrite, hfl]
  have hchunk := chunks_one (by decide) (length_sampMany (memNat (u.tile t).store (i.w.srcA * 64) (64 * (16384 - i.w.srcA)), 512 * (16384 - i.w.srcA))
    (u.sampleParam i) (u.sampleWidth i) 128 0)
  simp only [badAt_of_no_errors hbad, Bool.false_eq_true, if_false, hpend, sampleRun, hn, hd, Nat.mul_one, hlen, List.range_one, rowOf_first hrow, List.map_singleton,
    State.result, if_true]
  simp only [State.sampleParam, State.sampleWidth] at hchunk
  simp only [hchunk, List.zip_cons_cons, List.zip_nil_left, List.foldl_cons, List.foldl_nil, rowOf_first hrow]
  exact ⟨_, _, by simp, rfl⟩

/-- SAMPLE writes its samples. -/
theorem sample_writes {u : State} {t : TileRef} {i : Issue} (hh : Held u t) (hc : (u.tile t).calm) {plan : List Touch} (hplan : ∀ q ∈ plan, q.unit = 0) (till : Nat) :
    let r := (u.draw.2.draw.2.accClear t i.w).fillFree 64 (u.samples t i)
    Written u r.2 (((r.2.modTile t (fun y => y.putRows i.w.dst (elemBytes 64 r.1))).touch t i plan).2.modTile t (fun x => x.occupy [0] till)) t i.w.dst 64 r.1 [] := by
  intro r
  obtain ⟨hk, hl⟩ := kept_fillFree (u.draw.2.draw.2.accClear t i.w) t 64 (u.samples t i) []
  have hdraw : Kept u u.draw.2.draw.2 t [] := (kept_draw u t []).trans (kept_draw _ t [])
  have hkept : Kept u r.2 t [] := hdraw.trans ((kept_accClear _ t i.w []).trans hk)
  have ht : r.2.tile t = { u.tile t with accs := (u.tile t).accsFor i.w } := (tile_of_looms hl t).trans (tile_accClear (hdraw.held t hh) i.w)
  have hheld := hkept.held t hh
  refine written_of_entered hh hc.1 hkept (by rw [ht]) (by decide) ?_ (touch_occupy ((kept_modTile r.2 t _ []).held t hheld) ?_ hplan i [0] till)
  · rw [length_fillFree]
    exact length_sampMany _ _ _ _ _
  · rw [tile_modTile_held hheld, ht]
    exact hc.2.2

end Sys2Proof.Machine

namespace Sys2Proof.Machine

open Sys2Proof

/-- The end of a step that runs on writes its accumulators. -/
theorem Accumulated.ended {u v : State} {t : TileRef} {i : Issue} {l regs : List Nat} (h : Accumulated u v t l regs) (hh : Held u t) (hrun : (u.tile t).state = .running)
    (hwf : (u.tile t).store.wf) (hsp : i.w.dstSpace = 0) (lat : Nat) (g : Nat → Option Nat) : AccsWritten u (v.accEnd t i lat g) t i.w g l regs := by
  rw [State.accEnd, if_pos (h.state.trans hrun)]
  exact h.written hh hwf hsp g lat

/-- Settles O53: a lane step of one vector is its operation on the words of its rows, then one write of a vector or of the accumulators. -/
theorem vectorStepsResult : Obligations.VectorStepsResult := by
  unfold Obligations.VectorStepsResult
  intro t i u s hs x kept
  refine ⟨fun h => ⟨_, fma_of_issues h, fun hc hp hm => ?_⟩, fun h => ⟨_, mmac_of_issues h, fun hc hp => ?_⟩, fun h => ⟨_, dot_of_issues h, fun hc hp => ?_⟩,
    fun h => ⟨_, cvt_of_issues h, fun hc hp => ?_⟩, fun h => ⟨_, fest_of_issues h, fun hc hp => ?_⟩, festWord_cases _,
    fun h => ⟨_, clmul_of_issues h, fun hc hp => ?_⟩, fun h => ⟨_, gfred_of_issues h, fun hc hn hd hrow hclear hlen => ?_⟩, fun h => ⟨_, keccak_of_issues h, fun hc hp => ?_⟩,
    fun h => ?_⟩
  · intro rs
    have hw := fma_writes (held_of_issues h hs) hc hp hm
    refine ⟨hw.vec.trans (List.map_map ..), hw.rows, hw.kept.frame, fun hflags => ?_⟩
    have hlt : orFlags rs < 16 := foldl_or_lt (by decide) hflags
    exact (hw.reg _).trans ((reg_setFlags hlt).trans (congrArg (· ||| orFlags rs) ((kept_accClear u t i.w []).reg (by simp))))
  · intro c sums q
    have hh := held_of_issues h hs
    have hw := (mmac_accumulates hh hc hp).ended (i := i) hh (running_of_issues h hs) hc.1 hp.2.2.2.1 12 (redcOpt q)
    refine ⟨hw.accs, hw.kept.frame, hw.store, fun ha => ⟨hw.rows ha, fun hb hl hq => ?_⟩⟩
    have hlen : sums.length = 128 := by
      have hc128 : c.length = 128 := by
        show (if i.w.accClear = true then List.replicate 128 0 else x.accs).length = 128
        split <;> simp [hl]
      simp [sums, hc128, length_vec]
    have hred : ∀ a ∈ sums, redcOpt q a = some (redc q a) := fun a hin => if_pos (hb a hin)
    refine (hw.vec ha hlen (fun a hin => by rw [hred a hin]; simp)).trans (List.map_congr_left (fun a hin => ?_))
    rw [hred a hin, Option.getD_some, Nat.mod_eq_of_lt ((redc_lt (hb a hin)).trans hq)]
  · intro n c pairs lanes h3 h7 hl
    have hh := held_of_issues h hs
    have hw := (dot_accumulates hh hc hp h3 h7).ended (i := i) hh (running_of_issues h hs) hc.1 hp.2.2.2.1 8 (fun a => some (a % 2 ^ 32))
    have hlen : (dotAccs x i.w).length = 128 := by
      have hc128 : (x.accsFor i.w).length = 128 := by unfold Tile.accsFor; split <;> simp [hl]
      simp [dotAccs, dotLanes, hc128, length_dotPairs]
    refine ⟨hw.kept.frame, hw.accs, hw.store, fun ha => ⟨?_, ?_⟩⟩
    · rw [hw.accs, hw.vec ha hlen (by simp)]
      exact List.map_congr_left (fun a _ => Nat.mod_mod a _)
    · have := hw.rows ha
      rwa [hlen] at this
  · intro fn w nD words hfn hlegal
    obtain ⟨m, hw⟩ := cvt_writes (held_of_issues h hs) hc hp hfn hlegal
    refine ⟨hw.kept.frame, hw.rows, hw.vec.trans ?_⟩
    rw [List.map_map]
    have hwords : cvtWords x i.w = words := by
      show cvtWords x i.w = if fn = 0 then _ else _
      unfold cvtWords
      split
      · rename_i h0
        rw [cvtRows_of_packed h0]
        rfl
      · rfl
    rw [hwords]
    refine List.map_congr_left (fun y _ => ?_)
    obtain ⟨r, hr⟩ := cvtWord_defined hfn w (bits i.w.aux 13 8) y
    show (cvtWord fn w (bits i.w.aux 13 8) y).elim 0 FRes.val % 2 ^ nD = (cvtWord fn w (bits i.w.aux 13 8) y).elim 0 (fun r => r.val % 2 ^ nD)
    rw [hr]
    rfl
  · obtain ⟨m, hw⟩ := fest_writes (held_of_issues h hs) hc hp
    refine ⟨hw.kept.frame, hw.rows, hw.vec.trans ?_⟩
    rw [List.map_map, List.map_map]
    rfl
  · have ha := clmul_accumulates (held_of_issues h hs) hc hp
    exact ⟨ha.kept.frame, ha.store, ha.accs⟩
  · obtain ⟨hk, ha, hr, hlow, hhigh⟩ := gfred_writes (held_of_issues h hs) hc hn hd hrow hclear hlen
    exact ⟨hk.frame, ha, hr, hlow, hhigh⟩
  · obtain ⟨hk, hr, he⟩ := keccak_writes (held_of_issues h hs) hc hp
    exact ⟨hk.frame, hr, he⟩
  · obtain ⟨v, hv, hrun⟩ := sample_of_issues h
    refine ⟨v, hv, fun hc hn hd hrow => ?_⟩
    obtain ⟨plan, till, hplan, rfl⟩ := hrun hc hn hd (by omega)
    have hw := sample_writes (i := i) (held_of_issues h hs) hc hplan till
    refine ⟨hw.kept.frame, hw.rows, fun hl => hw.vec.trans ?_⟩
    rw [fillFree_of_defined _ 64 (l := u.samples t i) hl, List.map_map]
    rfl

end Sys2Proof.Machine

namespace Sys2Proof.Machine

open Sys2Proof

/-! ## Gadget digits (R164) -/

/-- A signed digit: the residue modulo an even base that lies from minus half the base to below half of it. -/
def signedDigit (b y : Nat) : Int := if b / 2 ≤ y % b then ((y % b : Nat) : Int) - b else ((y % b : Nat) : Int)

/-- What is left of a number after its lowest signed digit. -/
def digitRest (b y : Nat) : Nat := if b / 2 ≤ y % b then y / b + 1 else y / b

theorem decomposeAux_succ (b r y : Nat) (ds : List Int) : decomposeAux b (r + 1) y ds = decomposeAux b r (digitRest b y) (signedDigit b y :: ds) := by
  rw [decomposeAux, digitRest, signedDigit]
  split <;> rfl

theorem signedDigit_add (b y : Nat) : signedDigit b y + b * digitRest b y = y := by
  have h : (b : Int) * (y / b : Nat) + (y % b : Nat) = y := by exact_mod_cast Nat.div_add_mod y b
  unfold signedDigit digitRest
  split
  · push_cast
    push_cast at h
    linarith
  · linarith

theorem signedDigit_range {beta : Nat} (h : 1 ≤ beta) (y : Nat) : -(2 ^ (beta - 1) : Int) ≤ signedDigit (2 ^ beta) y ∧ signedDigit (2 ^ beta) y < 2 ^ (beta - 1) := by
  obtain ⟨k, rfl⟩ : ∃ k, beta = k + 1 := ⟨beta - 1, by omega⟩
  have hb : 2 ^ (k + 1) = 2 * 2 ^ k := by rw [Nat.pow_succ, Nat.mul_comm]
  have hmod := Nat.mod_lt y (show 0 < 2 ^ (k + 1) by positivity)
  have hcast : ((2 : Int) ^ k) = ((2 ^ k : Nat) : Int) := by push_cast; rfl
  rw [Nat.add_sub_cancel, hcast]
  unfold signedDigit
  rw [hb] at hmod ⊢
  split <;> omega

theorem length_decomposeAux (b r y : Nat) (ds : List Int) : (decomposeAux b r y ds).length = r + ds.length := by
  induction r generalizing y ds with
  | zero => simp [decomposeAux]
  | succ r ih =>
    rw [decomposeAux_succ, ih, List.length_cons]
    omega

theorem mem_decomposeAux {b : Nat} {P : Int → Prop} (hP : ∀ y, P (signedDigit b y)) (r y : Nat) {ds : List Int} (hds : ∀ e ∈ ds, P e) :
    ∀ e ∈ decomposeAux b r y ds, P e := by
  induction r generalizing y ds with
  | zero => exact hds
  | succ r ih =>
    rw [decomposeAux_succ]
    exact ih _ (fun e he => (List.mem_cons.mp he).elim (fun h => h ▸ hP y) (hds e))

/-- The number that digits spell, highest first. -/
def spelled (b : Int) (ds : List Int) : Int := ds.foldl (fun a e => a * b + e) 0

theorem spelled_append (b : Int) (l m : List Int) : spelled b (l ++ m) = spelled b l * b ^ m.length + spelled b m := by
  induction m using List.reverseRecOn with
  | nil => simp [spelled]
  | append_singleton m e ih =>
    have hsnoc : ∀ k : List Int, spelled b (k ++ [e]) = spelled b k * b + e := fun k => by simp [spelled]
    rw [← List.append_assoc, hsnoc, hsnoc, ih, List.length_append, List.length_singleton, pow_succ]
    ring

/-- The digits stand before those that are there already. -/
theorem decomposeAux_append (b r y : Nat) (ds : List Int) : decomposeAux b r y ds = decomposeAux b r y [] ++ ds := by
  induction r generalizing y ds with
  | zero => rfl
  | succ r ih => rw [decomposeAux_succ, ih, decomposeAux_succ, ih _ [_], List.append_assoc, List.singleton_append]

/-- The digits of a number spell it but for a multiple of the power of the base. -/
theorem spelled_decomposeAux (b r y : Nat) : ∃ k : Int, spelled b (decomposeAux b r y []) = y + k * (b : Int) ^ r := by
  induction r generalizing y with
  | zero => exact ⟨-y, by simp [decomposeAux, spelled]⟩
  | succ r ih =>
    obtain ⟨k, hk⟩ := ih (digitRest b y)
    refine ⟨k, ?_⟩
    rw [decomposeAux_succ, decomposeAux_append, spelled_append, hk, List.length_singleton, pow_one, pow_succ]
    have := signedDigit_add b y
    have h1 : spelled b [signedDigit b y] = signedDigit b y := by simp [spelled]
    rw [h1]
    linarith

theorem decompose_spells (x m beta d : Nat) (h : 1 ≤ beta) :
    let ds := decompose x m beta d
    ds.length = d ∧ (∀ e ∈ ds, -(2 ^ (beta - 1) : Int) ≤ e ∧ e < 2 ^ (beta - 1)) ∧
      (ds.foldl (fun (a : Int) e => a * 2 ^ beta + e) 0 - ((x * (2 ^ beta) ^ d * 2 + m) / (2 * m) : Nat)) % (2 ^ (beta * d) : Int) = 0 := by
  intro ds
  refine ⟨by simp [ds, decompose, length_decomposeAux], mem_decomposeAux (signedDigit_range h) _ _ (by simp), ?_⟩
  obtain ⟨k, hk⟩ := spelled_decomposeAux (2 ^ beta) d ((x * (2 ^ beta) ^ d * 2 + m) / (2 * m))
  have hds : ds.foldl (fun (a : Int) e => a * 2 ^ beta + e) 0 = spelled ((2 ^ beta : Nat) : Int) ds := by
    rw [spelled]
    push_cast
    rfl
  have hpow : (((2 ^ beta : Nat) : Int)) ^ d = 2 ^ (beta * d) := by
    push_cast
    rw [pow_mul]
  rw [hds, show spelled ((2 ^ beta : Nat) : Int) ds = _ from hk, hpow, add_sub_cancel_left]
  exact Int.mul_emod_left _ _

/-! ## The cause of a poisoned destination (R145) -/

/-- A poisoned input passes its cause on, the first of them its own. -/
theorem settleCause_of_poisoned {k : HdrClass} {l₁ l₂ : List CtHeader} {h : CtHeader} (h1 : ∀ g ∈ l₁, g.poisoned = false) (hp : h.poisoned = true) (arg f : Nat) (bad : Bool) :
    settleCause k (l₁ ++ h :: l₂) arg f bad = some h.cause := by
  have hfind : (l₁ ++ h :: l₂).find? (fun g => g.poisoned) = some h := by
    rw [List.find?_append, List.find?_eq_none.mpr (by simpa using h1), List.find?_cons_of_pos hp]
    rfl
  simp only [settleCause, hfind]

/-- Some input is poisoned: the cause is one of an input. -/
theorem settleCause_isSome_of_poisoned {k : HdrClass} {ins : List CtHeader} (h : ¬ ∀ g ∈ ins, g.poisoned = false) (arg f : Nat) (bad : Bool) :
    ∃ c, settleCause k ins arg f bad = some c := by
  simp only [not_forall, Bool.not_eq_false] at h
  obtain ⟨g, hg, hp⟩ := h
  cases hf : ins.find? (fun g => g.poisoned) with
  | none => exact absurd hp (by simpa using List.find?_eq_none.mp hf g hg)
  | some q => exact ⟨q.cause, by simp only [settleCause, hf]⟩

/-- The inputs do not fit each other or their class (R144): test 3 of R145. -/
def misfit (k : HdrClass) (ins : List CtHeader) (h : CtHeader) : Bool :=
  let a := ins.headD (ctHeader [])
  h.logN != a.logN || h.encoding != a.encoding || !k.fits h.components ||
    ((k == .add || k == .sub) && h.encoding == 1 && !h.unmetered && !a.unmetered && h.scaleLog != a.scaleLog)

/-- The tests of R145 after the first, over inputs of which none is poisoned. -/
theorem settleCause_of_clean {k : HdrClass} {ins : List CtHeader} (h : ∀ g ∈ ins, g.poisoned = false) (arg f : Nat) (bad : Bool) :
    settleCause k ins arg f bad =
      if ins.any (fun h => h.keyId != (ins.headD (ctHeader [])).keyId) then some 3
      else if ins.any (misfit k ins) then some 0x0A
      else if ins.any (fun h => !h.unmetered && decide (h.level < k.need h.encoding arg)) then some 4
      else if f ≠ 0 then some 3 else if bad then some 7 else none := by
  have hfind : ins.find? (fun g => g.poisoned) = none := List.find?_eq_none.mpr (by simpa using h)
  simp only [settleCause, hfind]
  rfl

theorem any_keyId_iff (ins : List CtHeader) (d : CtHeader) :
    ins.any (fun h => h.keyId != (ins.headD d).keyId) = true ↔ ∃ g ∈ ins, g.keyId ≠ (ins.headD d).keyId := by
  simp

/-- The keys of inputs agree with each other where they agree with the first. -/
theorem keys_agree_iff (ins : List CtHeader) (d : CtHeader) :
    ins.any (fun h => h.keyId != (ins.headD d).keyId) = false ↔ ∀ a ∈ ins, ∀ b ∈ ins, a.keyId = b.keyId := by
  rw [Bool.eq_false_iff, ne_eq, any_keyId_iff]
  push Not
  cases ins with
  | nil => simp
  | cons q ins => exact ⟨fun h a ha b hb => (h a ha).trans (h b hb).symm, fun h a ha => h a ha q List.mem_cons_self⟩

/-- Differing keys of clean inputs are the cause. -/
theorem settleCause_of_keys {k : HdrClass} {ins : List CtHeader} (h : ∀ g ∈ ins, g.poisoned = false) {a b : CtHeader} (ha : a ∈ ins) (hb : b ∈ ins)
    (hab : a.keyId ≠ b.keyId) (arg f : Nat) (bad : Bool) : settleCause k ins arg f bad = some 3 := by
  rw [settleCause_of_clean h, if_pos]
  by_contra hno
  exact hab ((keys_agree_iff ins _).mp (Bool.eq_false_iff.mpr hno) a ha b hb)

theorem misfit_eq_false_iff {k : HdrClass} {ins : List CtHeader} {h : CtHeader} (hin : h ∈ ins) :
    misfit k ins h = false ↔ h.logN = (ins.headD h).logN ∧ h.encoding = (ins.headD h).encoding ∧ k.fits h.components = true ∧
      (k = .add ∨ k = .sub → h.encoding = 1 → h.unmetered = false → (ins.headD h).unmetered = false → (ins.headD h).scaleLog = h.scaleLog) := by
  have hd : ins.headD (ctHeader []) = ins.headD h := by
    cases ins with
    | nil => simp at hin
    | cons => rfl
  rw [misfit, hd]
  generalize ins.headD h = a
  by_cases hk : k = .add ∨ k = .sub
  · have hkb : (k == HdrClass.add || k == HdrClass.sub) = true := by rcases hk with rfl | rfl <;> rfl
    simp only [hkb, Bool.true_and, Bool.or_eq_false_iff, bne_eq_false_iff_eq, Bool.not_eq_false', Bool.and_eq_false_iff, beq_eq_false_iff_ne, hk, forall_true_left]
    cases h.unmetered <;> cases a.unmetered <;> simp [and_assoc, imp_iff_not_or, eq_comm (a := a.scaleLog)]
  · have hkb : (k == HdrClass.add || k == HdrClass.sub) = false := by
      rw [not_or] at hk
      simp [hk.1, hk.2]
    simp only [hkb, Bool.false_and, Bool.or_false, Bool.or_eq_false_iff, bne_eq_false_iff_eq, Bool.not_eq_false', hk, false_implies, and_true, and_assoc]

/-- The destination is clean exactly when no condition of R145 holds. -/
theorem settleCause_eq_none_iff (k : HdrClass) (ins : List CtHeader) (arg f : Nat) (bad : Bool) : settleCause k ins arg f bad = none ↔
    (∀ g ∈ ins, g.poisoned = false) ∧ (∀ a ∈ ins, ∀ b ∈ ins, a.keyId = b.keyId ∧ a.logN = b.logN ∧ a.encoding = b.encoding) ∧
      (∀ a ∈ ins, k.fits a.components = true ∧ (a.unmetered = false → k.need a.encoding arg ≤ a.level)) ∧
      (k = .add ∨ k = .sub → ∀ b ∈ ins, b.encoding = 1 → b.unmetered = false → (ins.headD b).unmetered = false → (ins.headD b).scaleLog = b.scaleLog) ∧ f = 0 ∧ bad = false := by
  by_cases hclean : ∀ g ∈ ins, g.poisoned = false
  · have hnone : ∀ {p q r : Bool}, ((if p = true then some 3 else if q = true then some 0x0A else if r = true then some 4 else if f ≠ 0 then some 3 else
        if bad = true then some 7 else none : Option Nat) = none) ↔ p = false ∧ q = false ∧ r = false ∧ f = 0 ∧ bad = false := by
      intro p q r
      by_cases hf : f = 0 <;> cases p <;> cases q <;> cases r <;> cases bad <;> simp [hf]
    have hhead : ∀ b ∈ ins, ins.headD b ∈ ins := by
      intro b hb
      cases ins with
      | nil => simp at hb
      | cons => simp
    rw [settleCause_of_clean hclean, hnone, keys_agree_iff, List.any_eq_false, List.any_eq_false]
    simp only [Bool.not_eq_true, Bool.and_eq_false_iff, Bool.not_eq_false', decide_eq_false_iff_not, Nat.not_lt]
    constructor
    · rintro ⟨hk, hm, hl, hf, hb⟩
      have hm' := fun a ha => (misfit_eq_false_iff ha).mp (hm a ha)
      have hpair : ∀ a ∈ ins, ∀ b ∈ ins, ins.headD a = ins.headD b := by
        intro a ha b _
        cases ins with
        | nil => simp at ha
        | cons => rfl
      refine ⟨hclean, fun a ha b hb' => ⟨hk a ha b hb', ?_, ?_⟩, fun a ha => ⟨(hm' a ha).2.2.1, fun hu => (hl a ha).resolve_left (by simp [hu])⟩,
        fun hadd b hb' => (hm' b hb').2.2.2 hadd, hf, hb⟩
      · rw [(hm' a ha).1, hpair a ha b hb', ← (hm' b hb').1]
      · rw [(hm' a ha).2.1, hpair a ha b hb', ← (hm' b hb').2.1]
    · rintro ⟨-, hall, hfit, hscale, hf, hb⟩
      refine ⟨fun a ha b hb' => (hall a ha b hb').1, fun a ha => (misfit_eq_false_iff ha).mpr ?_, fun a ha => ?_, hf, hb⟩
      · exact ⟨(hall a ha _ (hhead a ha)).2.1, (hall a ha _ (hhead a ha)).2.2, (hfit a ha).1, fun hadd => hscale hadd a ha⟩
      · by_cases hu : a.unmetered = true
        · exact Or.inl hu
        · exact Or.inr ((hfit a ha).2 (by simpa using hu))
  · obtain ⟨c, hc⟩ := settleCause_isSome_of_poisoned (k := k) hclean arg f bad
    rw [hc]
    exact ⟨fun h => by simp at h, fun h => absurd h.1 hclean⟩

end Sys2Proof.Machine

namespace Sys2Proof.Machine

open Sys2Proof

/-! ## Tables that are brought back (R137, R203) -/

theorem SameGate.imageArea {s d : State} (h : SameGate s d) (w : Nat) : d.imageArea w = s.imageArea w := by simp only [State.imageArea, h.owner, h.part, h.rankOf]

/-- The image copy of a table depends on its entry and the image area. -/
theorem tableCopy_congr {s d : State} (t : TileRef) (ht : d.tile t = s.tile t) (hg : SameGate s d) (k : Nat) : d.tableCopy t k = s.tableCopy t k := by
  rw [State.tableCopy, ht, hg.imageArea, State.tableCopy]

theorem tableCopy_of_area {s : State} {t : TileRef} {k a m : Nat} {e : TileTable} (he : (s.tile t).table k = some e) (ha : s.imageArea t.well = some (a, m)) :
    s.tableCopy t k = some (cisAddr t.well ((a + e.area) * 64), e) := by
  rw [State.tableCopy, he, ha]

/-- A tile whose table has been filled and waits for no reload. -/
def Tile.refilled (x : Tile) (k : Nat) (e : TileTable) (bs : Bytes) (bad : Bool) : Tile :=
  { (if bad then x.putBad e.row bs else x.putRows e.row bs) with reload := x.reload.filter (fun j => decide (j ≠ k)) }

theorem loadTable_fills {s : State} {t : TileRef} {k a : Nat} {e : TileTable} (hh : Held s t) (hc : s.tableCopy t k = some (a, e)) :
    (s.loadTable t k).tile t = (s.tile t).refilled k e (s.readBuckets 0 e.rows a).1 (s.readBuckets 0 e.rows a).2.1 := by
  have hr := memScope_readBuckets s 0 e.rows a
  have hrun : s.loadTable t k = (s.readBuckets 0 e.rows a).2.2.modTile t (fun x =>
      let y := if (s.readBuckets 0 e.rows a).2.1 then x.putBad e.row (s.readBuckets 0 e.rows a).1 else x.putRows e.row (s.readBuckets 0 e.rows a).1
      { y with reload := y.reload.filter (fun j => j ≠ k) }) := by
    unfold State.loadTable
    rw [hc]
  rw [hrun, tile_modTile_held (held_of_memScope hr hh), tile_of_looms hr.looms]
  unfold Tile.refilled
  cases (s.readBuckets 0 e.rows a).2.1 <;> rfl

/-- A table that has no copy only leaves the list. -/
theorem reloadTable_of_no_copy {s : State} {t : TileRef} {k : Nat} (hc : s.tableCopy t k = none) :
    s.reloadTable t k = s.modTile t (fun x => { x with reload := x.reload.filter (fun j => j ≠ k) }) := by
  unfold State.reloadTable State.loadTable
  rw [hc]

/-- A reload that the access check refuses leaves what the check leaves. -/
theorem reloadTable_refused {s : State} {t : TileRef} {k a : Nat} {e : TileTable} {st : Status} (hc : s.tableCopy t k = some (a, e))
    (hk : (s.check ⟨masterOfTile t, s.owner t.well⟩ a (64 * e.rows) 1).1 = some st) :
    s.reloadTable t k = (s.check ⟨masterOfTile t, s.owner t.well⟩ a (64 * e.rows) 1).2 := by
  unfold State.reloadTable
  rw [hc]
  dsimp only
  rw [hk]
  rfl

/-- A reload that the access check passes fills the table with the bytes that the copy holds before it. -/
theorem reloadTable_fills {s : State} {t : TileRef} {k a : Nat} {e : TileTable} (hh : Held s t) (hc : s.tableCopy t k = some (a, e))
    (hk : (s.check ⟨masterOfTile t, s.owner t.well⟩ a (64 * e.rows) 1).1 = none) :
    (s.reloadTable t k).tile t = (s.tile t).refilled k e (s.readBuckets 0 e.rows a).1 (s.readBuckets 0 e.rows a).2.1 := by
  have hrun : s.reloadTable t k = (s.votesFor a).loadTable t k := by
    unfold State.reloadTable
    rw [hc]
    dsimp only
    rw [check_passes hk]
    rfl
  have hm := memScope_votesFor s a
  have ht := tile_of_looms hm.looms t
  obtain ⟨hb, hf, -⟩ := (sameBanks_votesFor s a).readBuckets 0 e.rows a
  rw [hrun, loadTable_fills (held_of_memScope hm hh) ((tableCopy_congr t ht hm.gate k).trans hc), ht, hb, hf]

theorem tables_refilled (x : Tile) (k : Nat) (e : TileTable) (bs : Bytes) (bad : Bool) : (x.refilled k e bs bad).tables = x.tables := by
  cases bad <;> rfl

theorem not_mem_reload_refilled (x : Tile) (k : Nat) (e : TileTable) (bs : Bytes) (bad : Bool) : k ∉ (x.refilled k e bs bad).reload := by
  simp [Tile.refilled]

/-- A reload keeps the directory. -/
theorem tables_reloadTable {s : State} {t : TileRef} (hh : Held s t) (k : Nat) : ((s.reloadTable t k).tile t).tables = (s.tile t).tables := by
  cases hc : s.tableCopy t k with
  | none => rw [reloadTable_of_no_copy hc, tile_modTile_held hh]
  | some c =>
    obtain ⟨a, e⟩ := c
    cases hk : (s.check ⟨masterOfTile t, s.owner t.well⟩ a (64 * e.rows) 1).1 with
    | none => rw [reloadTable_fills hh hc hk, tables_refilled]
    | some st => rw [reloadTable_refused hc hk, tile_of_looms (looms_check s _ _ _ _)]

/-- TABLE_RELOAD brings back the first table of the list. -/
theorem tableReload_runs {s : State} {t : TileRef} {k : Nat} {rest : List Nat} (ha : s.alive = true) (hr : (s.tile t).reload = k :: rest) :
    exec (.tableReload t) s = .next (s.reloadTable t k) := by
  show execTableReload t s = _
  simp only [execTableReload, hr, ha, if_true]

theorem tableReload_idle {s : State} {t : TileRef} (hr : (s.tile t).reload = []) : exec (.tableReload t) s = .next s := by
  show execTableReload t s = _
  simp only [execTableReload, hr]

/-- What TABLE_RELOAD does with the first table of the list. -/
theorem reloadTable_cases {s : State} {t : TileRef} (hh : Held s t) (k : Nat) :
    ((s.tile t).table k = none → k ∉ ((s.reloadTable t k).tile t).reload) ∧
    ∀ e a m, (s.tile t).table k = some e → s.imageArea t.well = some (a, m) →
      let r := s.readBuckets 0 e.rows (cisAddr t.well ((a + e.area) * 64))
      let c := s.check ⟨masterOfTile t, s.owner t.well⟩ (cisAddr t.well ((a + e.area) * 64)) (64 * e.rows) 1
      (c.1 = none → k ∉ ((s.reloadTable t k).tile t).reload ∧ (r.2.1 = false → ((s.reloadTable t k).tile t).store = ((s.tile t).putRows e.row r.1).store)) ∧
      (∀ st, c.1 = some st → s.reloadTable t k = c.2) := by
  refine ⟨fun hn => ?_, fun e a m he ha => ?_⟩
  · rw [reloadTable_of_no_copy (by rw [State.tableCopy, hn]), tile_modTile_held hh]
    simp
  · have hc := tableCopy_of_area he ha
    refine ⟨fun hk => ?_, fun st hk => reloadTable_refused hc hk⟩
    rw [reloadTable_fills hh hc hk]
    refine ⟨not_mem_reload_refilled _ _ _ _ _, fun hb => ?_⟩
    rw [hb]
    rfl

/-- TBLCHK of a table in rows without a double-bit error: the transfer unit is kept busy, and a table that fails is reloaded. -/
theorem tblchk_of_issues {s u : State} {t : TileRef} {i : Issue} (h : Issues s t 0x09 i u) : ∃ v, exec (.tblchk t) s = .next v ∧
    ∀ e, (u.tile t).table i.w.aux = some e → (u.tile t).storeBad = [] → ∃ till,
      let u1 := u.modTile t (fun y => y.occupy [4] till)
      v = if (u.tile t).tableFails i.w.aux = true then u1.reloadTable t i.w.aux else u1 := by
  show ∃ v, execTblchk t s = .next v ∧ _
  unfold execTblchk
  rw [execStep_of_issues h]
  refine ⟨_, rfl, fun e he hbad => ⟨i.at_ + ceilDiv e.rows 8, ?_⟩⟩
  simp only [he, badAt_of_no_errors hbad, Bool.false_eq_true, if_false]

/-- TBLCHK keeps a good table, and brings a bad one back from its copy. -/
theorem tblchk_checks {u : State} {t : TileRef} {k : Nat} {e : TileTable} (hh : Held u t) (he : (u.tile t).table k = some e) (till : Nat) :
    let u1 := u.modTile t (fun y => y.occupy [4] till)
    let v := if (u.tile t).tableFails k = true then u1.reloadTable t k else u1
    ((u.tile t).tableFails k = false → (v.tile t).store = (u.tile t).store) ∧
      ((u.tile t).tableFails k = true → ∀ a m, u.imageArea t.well = some (a, m) →
        let r := u.readBuckets 0 e.rows (cisAddr t.well ((a + e.area) * 64))
        (∃ w, u.check ⟨masterOfTile t, u.owner t.well⟩ (cisAddr t.well ((a + e.area) * 64)) (64 * e.rows) 1 = (none, w)) → r.2.1 = false →
          (v.tile t).store = ((u.tile t).putRows e.row r.1).store) := by
  intro u1 v
  have ht : u1.tile t = (u.tile t).occupy [4] till := tile_modTile_held hh _
  have hgate : SameGate u u1 := sameGate_modTile u t _
  refine ⟨fun hf => ?_, fun hf a m ha ⟨w, hk⟩ hb => ?_⟩
  · rw [show v = u1 from if_neg (by simp [hf]), ht]
    rfl
  · have hh1 : Held u1 t := (kept_modTile u t _ []).held t hh
    have hc : u1.tableCopy t k = some (cisAddr t.well ((a + e.area) * 64), e) := tableCopy_of_area (by rw [ht]; exact he) (by rw [hgate.imageArea]; exact ha)
    have hk1 : (u1.check ⟨masterOfTile t, u1.owner t.well⟩ (cisAddr t.well ((a + e.area) * 64)) (64 * e.rows) 1).1 = none := by
      rw [hgate.owner, hgate.check, hk]
    obtain ⟨hbytes, hbad, -⟩ := (sameBanks_modTile u t (fun y => y.occupy [4] till)).readBuckets 0 e.rows (cisAddr t.well ((a + e.area) * 64))
    rw [show v = u1.reloadTable t k from if_pos hf, reloadTable_fills hh1 hc hk1, ht, hbytes, hbad.trans hb]
    rfl

end Sys2Proof.Machine

namespace Sys2Proof.Machine

open Sys2Proof

/-! ## The base converter (R136, R196) -/

theorem reloadPending_of_none {s : State} {t : TileRef} (h : (s.tile t).reload = []) : s.reloadPending t = s := by
  rw [State.reloadPending, h]
  rfl

/-- Rows read one after another where no write is still to come. -/
theorem foldl_rowsRead {α : Type} {s : State} {t : TileRef} (h : (s.tile t).flight = []) (c rows : Nat) (row : Nat → Nat) (g : Nat → Bytes → α) (l : List Nat) (acc : List α) :
    l.foldl (fun (a : List α × State) j => (a.1 ++ [g j (a.2.rowsRead t c (row j) rows).1], (a.2.rowsRead t c (row j) rows).2)) (acc, s) =
      (acc ++ l.map (fun j => g j ((s.tile t).rowsAt (row j) (64 * rows))), s) := by
  induction l generalizing acc with
  | nil => simp
  | cons j l ih => simp only [List.foldl_cons, rowsRead_of_no_flight h, ih, List.map_cons, List.append_assoc, List.singleton_append]

/-- A pass that finds its table wrong marks its tile, and counts and logs the mismatch. -/
theorem tableMismatch_marks {s : State} {t : TileRef} (hh : Held s t) (p k counter event : Nat) :
    (s.tableMismatch t p k counter event).tile t = { s.tile t with dataFail := true, reload := insertNat k (s.tile t).reload } ∧
      Kept s (s.tableMismatch t p k counter event) t [counter, logBase + 4] := by
  have hl : (s.tableMismatch t p k counter event).looms = (s.modTile t (fun x => { x with dataFail := true, reload := insertNat k x.reload })).looms :=
    (looms_raise _ _ _ _ _).trans (looms_of_wells (State.count_wells _ _))
  refine ⟨by rw [tile_of_looms hl, tile_modTile_held hh], ?_⟩
  exact (kept_modTile s t _ _).trans ((kept_countBy _ t 1 (by simp)).trans (kept_raise _ t (by simp) _ _ _ _))

/-- A step marks its tile where its table fails. -/
theorem tableMismatch_if {s : State} {t : TileRef} (hh : Held s t) (bad : Bool) (p k counter event : Nat) :
    let v := if bad = true then s.tableMismatch t p k counter event else s
    (∃ l, v.tile t = { s.tile t with dataFail := (s.tile t).dataFail || bad, reload := l }) ∧ Kept s v t [counter, logBase + 4] := by
  cases bad with
  | false => exact ⟨⟨(s.tile t).reload, by rw [Bool.or_false]; rfl⟩, Kept.refl _ _ _⟩
  | true =>
    obtain ⟨ht, hk⟩ := tableMismatch_marks hh p k counter event
    exact ⟨⟨_, by rw [if_pos rfl, ht, Bool.or_true]⟩, hk⟩

/-- The words of a limb. -/
def Tile.limb (x : Tile) (w : StepWord) (row : Nat) : List Nat := (elems 32 (x.rowsAt row (64 * limbRows w.limbWords))).take w.limbWords

/-- What BCV_SCALE computes of one limb: y, by the constants of its table. -/
def Tile.scaled (x : Tile) (w : StepWord) (q : Nat) (tab : Bytes) : List Nat := bcvY q (rd tab 0 4) (x.limb w w.srcA)

/-- A tile that holds the estimates of a limb. -/
def Tile.withEstimates (x : Tile) (w : StepWord) (y : List Nat) (tab : Bytes) : Tile :=
  { x with estimates := bcvEstimates [(y, rd tab 4 12)] w.limbWords, estimatesOf := (w.dst, 1, w.limbWords), bcvTable := w.aux / 256 }

/-- BCV_SCALE of one limb on a calm tile: the limb is written, its accesses are entered, and the estimates are left. -/
theorem bcvScale_of_issues {s u : State} {t : TileRef} {i : Issue} (h : Issues s t 0x30 i u) : ∃ v, exec (.bcvScale t) s = .next v ∧
    ((u.tile t).calm → (u.tile t).reload = [] → i.w.count = 1 → ∀ e, (u.tile t).table (i.w.aux / 256) = some e → ∃ plan till, (∀ q ∈ plan, q.unit = 2) ∧
      let tab := (u.tile t).tableBytes e
      let y := (u.tile t).scaled i.w (u.primeOf i.part i.w.prime) tab
      let d := ((u.modTile t (fun x => x.putRows i.w.dst (elemBytes 32 y))).touch t i plan).2.modTile t (fun x =>
        (x.occupy [2] till).withEstimates i.w y tab)
      v = if (u.tile t).tableFails (i.w.aux / 256) = true then d.tableMismatch t i.part (i.w.aux / 256) (ctxBase i.part + 0x3C) 0x0304 else d) := by
  show ∃ v, execBcvScale t s = .next v ∧ _
  unfold execBcvScale
  rw [execStep_of_issues h]
  refine ⟨_, rfl, fun ⟨_, hbad, hfl⟩ hr hn e he => ?_⟩
  simp only [reloadPending_of_none hr, badAt_of_no_errors hbad, he, Bool.or_self, Bool.false_eq_true, if_false, hn, List.range_one, List.foldl_cons, List.foldl_nil,
    rowsRead_of_no_flight hfl, bcvSource, Nat.mul_zero, Nat.zero_mul, Nat.zero_add, Nat.add_zero, List.nil_append, List.zip_cons_cons, List.zip_nil_left]
  exact ⟨_, _, by simp, rfl⟩

/-- BCV_SCALE writes y and leaves its estimates. -/
theorem bcvScale_scales {u : State} {t : TileRef} {i : Issue} (hh : Held u t) (hfl : (u.tile t).flight = []) {plan : List Touch} (hplan : ∀ q ∈ plan, q.unit = 2)
    (till : Nat) (tab : Bytes) :
    let x := u.tile t
    let y := x.scaled i.w (u.primeOf i.part i.w.prime) tab
    let d := ((u.modTile t (fun x => x.putRows i.w.dst (elemBytes 32 y))).touch t i plan).2.modTile t (fun x =>
        (x.occupy [2] till).withEstimates i.w y tab)
    Held d t ∧ Kept u d t [] ∧ ∃ fl bs, d.tile t = { (x.putRows i.w.dst (elemBytes 32 y)).withEstimates i.w y tab with flight := fl, busy := bs } := by
  intro x y d
  have hk := kept_modTile u t (fun x => x.putRows i.w.dst (elemBytes 32 y)) []
  have hheld := hk.held t hh
  have ht : (u.modTile t (fun x => x.putRows i.w.dst (elemBytes 32 y))).tile t = x.putRows i.w.dst (elemBytes 32 y) := tile_modTile_held hh _
  obtain ⟨-, he⟩ := touch_of_no_flight hheld (by rw [ht]; exact hfl) hplan i
  obtain ⟨fl, bs, hte, -⟩ := he.tile
  have hhe := he.kept.held t hheld
  have hkd : Kept u d t [] := hk.trans (he.kept.trans (kept_modTile _ t _ []))
  have htd : d.tile t = (({ x.putRows i.w.dst (elemBytes 32 y) with flight := fl, busy := bs } : Tile).occupy [2] till).withEstimates i.w y tab := by
    rw [show d.tile t = _ from tile_modTile_held hhe _, hte, ht]
  exact ⟨hkd.held t hh, hkd, _, _, htd⟩

/-- What BCV_OUT computes of one limb: z, from the y of its source limbs and the estimates. -/
def Tile.converted (x : Tile) (w : StepWord) (p : Nat) (tab : Bytes) : List Nat :=
  let a := bits w.aux 14 8
  bcvZ p ((List.range a).map (fun j => x.limb w (w.srcA + j * limbRows w.limbWords))) (bcvDest tab a 0).1 (bcvDest tab a 0).2 x.estimates

/-- BCV_OUT of one limb on a calm tile that holds estimates of the same coefficients. -/
theorem bcvOut_of_issues {s u : State} {t : TileRef} {i : Issue} (h : Issues s t 0x31 i u) : ∃ v, exec (.bcvOut t) s = .next v ∧
    ((u.tile t).calm → (u.tile t).reload = [] → i.w.count = 1 → ∀ e, (u.tile t).table (u.tile t).bcvTable = some e → (u.tile t).estimates.length = i.w.limbWords →
      (u.tile t).estimatesOf = (i.w.srcA, bits i.w.aux 14 8, i.w.limbWords) → u.primeOf i.part i.w.prime ≠ 0 → ∃ plan till, (∀ q ∈ plan, q.unit = 2) ∧
      let d := ((u.modTile t (fun x => x.putRows i.w.dst (elemBytes 32 ((u.tile t).converted i.w (u.primeOf i.part i.w.prime) ((u.tile t).tableBytes e))))).touch t i
        plan).2.modTile t (fun x => x.occupy [2] till)
      v = if (u.tile t).tableFails (u.tile t).bcvTable = true then d.tableMismatch t i.part (u.tile t).bcvTable (ctxBase i.part + 0x3C) 0x0304 else d) := by
  show ∃ v, execBcvOut t s = .next v ∧ _
  unfold execBcvOut
  rw [execStep_of_issues h]
  refine ⟨_, rfl, fun ⟨_, hbad, hfl⟩ hr hn e he hlen hof hp => ?_⟩
  have hys := foldl_rowsRead hfl i.at_ (limbRows i.w.limbWords) (fun j => i.w.srcA + j * limbRows i.w.limbWords) (fun _ b => (elems 32 b).take i.w.limbWords)
    (List.range (bits i.w.aux 14 8)) []
  simp only [reloadPending_of_none hr, badAt_of_no_errors hbad, he, Bool.or_self, Bool.false_eq_true, if_false, hn, List.range_one, List.foldl_cons, List.foldl_nil,
    hys, Nat.zero_mul, Nat.add_zero, List.nil_append, hlen, hof, beq_self_eq_true, Bool.and_self, Option.isSome_some, true_and, Bool.true_and, ne_eq, hp,
    not_false_eq_true, if_true]
  exact ⟨_, _, by simp, rfl⟩

/-- Rows that are written, and the accesses of their step entered. -/
theorem putRows_entered {u : State} {t : TileRef} (hh : Held u t) (hfl : (u.tile t).flight = []) {n : Nat} {plan : List Touch} (hplan : ∀ q ∈ plan, q.unit = n) (i : Issue)
    (row : Nat) (bs : Bytes) (us : List Nat) (till : Nat) :
    let d := ((u.modTile t (fun x => x.putRows row bs)).touch t i plan).2.modTile t (fun x => x.occupy us till)
    Kept u d t [] ∧ (d.tile t).store = ((u.tile t).putRows row bs).store := by
  intro d
  have hk := kept_modTile u t (fun x => x.putRows row bs) []
  have ht : (u.modTile t (fun x => x.putRows row bs)).tile t = (u.tile t).putRows row bs := tile_modTile_held hh _
  have he := touch_occupy (hk.held t hh) (by rw [ht]; exact hfl) hplan i us till
  exact ⟨hk.trans he.kept, by rw [he.store, ht]⟩

/-! ## The AES unit (R103, R197, R198) -/

/-- AES_KEY takes the key of its row. -/
theorem aesKey_of_issues {s u : State} {t : TileRef} {i : Issue} (h : Issues s t 0x38 i u) : ∃ v, exec (.aesKey t) s = .next v ∧
    ((u.tile t).calm → ∃ plan till, (∀ q ∈ plan, q.unit = 3) ∧
      v = (u.touch t i plan).2.modTile t (fun x => { (x.occupy [3] till) with aesKey := ((u.tile t).rowsAt i.w.srcA 64).take 32 })) := by
  show ∃ v, execAesKey t s = .next v ∧ _
  unfold execAesKey
  rw [execStep_of_issues h]
  refine ⟨_, rfl, fun ⟨_, hbad, hfl⟩ => ?_⟩
  simp only [badAt_of_no_errors hbad, Bool.false_eq_true, if_false, rowsRead_of_no_flight hfl]
  exact ⟨_, _, by simp, rfl⟩

theorem aesKey_loads {u : State} {t : TileRef} {i : Issue} (hh : Held u t) (hc : (u.tile t).calm) {plan : List Touch} (hplan : ∀ q ∈ plan, q.unit = 3) (till : Nat) :
    let v := (u.touch t i plan).2.modTile t (fun x => { (x.occupy [3] till) with aesKey := ((u.tile t).rowsAt i.w.srcA 64).take 32 })
    (v.tile t).aesKey = (u.tile t).rowsAt i.w.srcA 32 ∧ (v.tile t).store = (u.tile t).store ∧ Kept u v t [] := by
  intro v
  obtain ⟨-, he⟩ := touch_of_no_flight hh hc.2.2 hplan i
  have ht := tile_modTile_held (he.kept.held t hh) (fun x => { (x.occupy [3] till) with aesKey := ((u.tile t).rowsAt i.w.srcA 64).take 32 })
  refine ⟨?_, ?_, he.kept.trans (kept_modTile _ t _ [])⟩
  · rw [show v.tile t = _ from ht, ← take_rowsAt hc.1 i.w.srcA (show 32 ≤ 64 by decide)]
  · rw [show v.tile t = _ from ht]
    exact he.store

/-- The keystream of a step, block by block. -/
def Tile.keystream (x : Tile) (w : StepWord) : Bytes :=
  let first := x.rowsAt w.srcB 16
  (List.range w.count).flatMap (fun j => aesBlock (aesRoundKeys x.aesKey)
    (if bit w.aux 0 = true then first.take 12 ++ toBE ((beNat (first.drop 12) + j) % 2 ^ 32) 4 else toLE (rd first 0 8 + j) 8 ++ first.drop 8))

/-- AES_CTR to the tile store writes the keystream. -/
theorem aesCtr_of_issues {s u : State} {t : TileRef} {i : Issue} (h : Issues s t 0x39 i u) : ∃ v, exec (.aesCtr t) s = .next v ∧
    ((u.tile t).calm → i.w.dstSpace = 0 → ∃ plan till, (∀ q ∈ plan, q.unit = 3) ∧
      v = ((u.modTile t (fun x => x.putRows i.w.dst ((u.tile t).keystream i.w))).touch t i plan).2.modTile t (fun x => x.occupy [3] till)) := by
  show ∃ v, execAesCtr t s = .next v ∧ _
  unfold execAesCtr
  rw [execStep_of_issues h]
  refine ⟨_, rfl, fun ⟨hwf, hbad, hfl⟩ hd => ?_⟩
  simp only [badAt_of_no_errors hbad, Bool.false_eq_true, if_false, rowsRead_of_no_flight hfl, hd, if_true, Nat.mul_one, take_rowsAt hwf i.w.srcB (show 16 ≤ 64 by decide),
    show ¬ (0 = 2) by decide]
  refine ⟨_, _, ?_, rfl⟩
  intro q hq
  obtain ⟨k, -, rfl⟩ := List.mem_map.mp hq
  rfl

/-- What GCM_OPEN finds: the plaintext when the tag matches. -/
def Tile.opened (x : Tile) (w : StepWord) : Option Bytes :=
  let aad := x.rowsAt w.srcB 64
  gcmOpen x.aesKey (slice aad 0x18 12) aad (x.rowsAt w.srcA (16 * w.count)) (slice (x.rowsAt w.srcA (16 * w.count + 16)) (16 * w.count) 16)

/-- A tile after GCM_OPEN: the plaintext where there is one, and the status byte. -/
def Tile.openedTo (x : Tile) (w : StepWord) : Tile :=
  match x.opened w with
  | some pt => { x.putRows w.dst pt with store := memWrite (x.putRows w.dst pt).store (w.aux % 16384 * 64) [0x00] }
  | none => { x with store := memWrite x.store (w.aux % 16384 * 64) [0x0A] }

/-- GCM_OPEN writes the plaintext and its status. -/
theorem gcmOpen_of_issues {s u : State} {t : TileRef} {i : Issue} (hs : Held s t) (h : Issues s t 0x3A i u) : ∃ v, exec (.gcmOpen t) s = .next v ∧
    ((u.tile t).calm → ∃ b plan till, Kept u b t [] ∧ b.tile t = (u.tile t).openedTo i.w ∧ (∀ q ∈ plan, q.unit = 3) ∧
      v = (b.touch t i plan).2.modTile t (fun x => x.occupy [3, 0] till)) := by
  show ∃ v, execGcmOpen t s = .next v ∧ _
  unfold execGcmOpen
  rw [execStep_of_issues h]
  refine ⟨_, rfl, fun ⟨hwf, hbad, hfl⟩ => ?_⟩
  have hh := held_of_issues h hs
  have hct : ((u.tile t).rowsAt i.w.srcA (64 * ceilDiv (16 * i.w.count + 16) 64)).take (16 * i.w.count) = (u.tile t).rowsAt i.w.srcA (16 * i.w.count) :=
    take_rowsAt hwf _ (by unfold ceilDiv; omega)
  have htag : slice ((u.tile t).rowsAt i.w.srcA (64 * ceilDiv (16 * i.w.count + 16) 64)) (16 * i.w.count) 16 =
      slice ((u.tile t).rowsAt i.w.srcA (16 * i.w.count + 16)) (16 * i.w.count) 16 := by
    rw [← take_rowsAt hwf i.w.srcA (show 16 * i.w.count + 16 ≤ 64 * ceilDiv (16 * i.w.count + 16) 64 by unfold ceilDiv; omega), slice, slice, List.drop_take, List.take_take,
      Nat.add_sub_cancel_left, Nat.min_self]
  have hopen : gcmOpen (u.tile t).aesKey (slice ((u.tile t).rowsAt i.w.srcB (64 * 1)) 0x18 12) ((u.tile t).rowsAt i.w.srcB (64 * 1))
      (((u.tile t).rowsAt i.w.srcA (64 * ceilDiv (16 * i.w.count + 16) 64)).take (16 * i.w.count))
      (slice ((u.tile t).rowsAt i.w.srcA (64 * ceilDiv (16 * i.w.count + 16) 64)) (16 * i.w.count) 16) = (u.tile t).opened i.w := by
    rw [hct, htag]
    rfl
  simp only [badAt_of_no_errors hbad, Bool.false_eq_true, or_self, if_false, rowsRead_of_no_flight hfl, hopen]
  unfold Tile.openedTo
  cases hpt : (u.tile t).opened i.w with
  | some pt =>
    refine ⟨_, _, _, (kept_modTile u t _ []).trans (kept_modTile _ t _ []), ?_, by simp, rfl⟩
    rw [tile_modTile_held ((kept_modTile u t _ []).held t hh), tile_modTile_held hh]
    rfl
  | none =>
    refine ⟨_, _, _, kept_modTile u t _ [], ?_, by simp, rfl⟩
    rw [tile_modTile_held hh]
    rfl

/-- The tile store after GCM_OPEN. -/
theorem store_openedTo (x : Tile) (w : StepWord) :
    (∀ pt, x.opened w = some pt → (x.openedTo w).store = memWrite (x.putRows w.dst pt).store (w.aux % 16384 * 64) [0x00]) ∧
      (x.opened w = none → memByte (x.openedTo w).store (w.aux % 16384 * 64) = 0x0A ∧ ∀ a, a ≠ w.aux % 16384 * 64 → memByte (x.openedTo w).store a = memByte x.store a) := by
  unfold Tile.openedTo
  refine ⟨fun pt hpt => by rw [hpt], fun hn => ?_⟩
  rw [hn]
  dsimp only
  refine ⟨by rw [memByte_memWrite, if_pos (by simp), Nat.sub_self]; rfl, fun a ha => ?_⟩
  rw [memByte_memWrite, if_neg (by simp; omega)]

theorem flight_openedTo (x : Tile) (w : StepWord) : (x.openedTo w).flight = x.flight := by
  unfold Tile.openedTo
  split <;> rfl

end Sys2Proof.Machine

namespace Sys2Proof.Machine

open Sys2Proof

/-! ## The inputs of HDR (R144, R178) -/

/-- The header rows of a step's ciphertext inputs. -/
def headerRows (w : StepWord) (k : HdrClass) : List Nat :=
  (if w.aSpace = 0 then [w.srcA] else []) ++ (if k.binary = true ∧ w.bSpace = 0 then [w.srcB] else [])

/-- The headers of a step's ciphertext inputs. -/
def Tile.headers (x : Tile) (w : StepWord) (k : HdrClass) : List CtHeader :=
  (if w.aSpace = 0 then [ctHeader (x.rowsAt w.srcA 64)] else []) ++ (if k.binary = true ∧ w.bSpace = 0 then [ctHeader (x.rowsAt w.srcB 64)] else [])

theorem headers_eq_map (x : Tile) (w : StepWord) (k : HdrClass) : x.headers w k = (headerRows w k).map (fun r => ctHeader (x.rowsAt r 64)) := by
  unfold Tile.headers headerRows
  rw [List.map_append]
  split <;> split <;> rfl

/-- The headers of a calm tile are read as they stand. -/
theorem headersIn_of_calm {s : State} {t : TileRef} (hc : (s.tile t).calm) (i : Issue) (k : HdrClass) : s.headersIn t i k = ((s.tile t).headers i.w k, false, s) := by
  obtain ⟨-, hbad, hfl⟩ := hc
  have hfold : ∀ (l : List Nat) (acc : List CtHeader), l.foldl (fun (a : List CtHeader × Bool × State) r =>
      (a.1 ++ [ctHeader (a.2.2.rowsRead t i.at_ r 1).1], a.2.1 || (s.tile t).badAt r 64, (a.2.2.rowsRead t i.at_ r 1).2)) (acc, false, s) =
      (acc ++ l.map (fun r => ctHeader ((s.tile t).rowsAt r 64)), false, s) := by
    intro l
    induction l with
    | nil => simp
    | cons r l ih =>
      intro acc
      rw [List.foldl_cons]
      dsimp only
      rw [rowsRead_of_no_flight hfl, badAt_of_no_errors hbad, Bool.or_self, ih, List.map_cons, List.append_assoc, List.singleton_append]
  have hrows : (if i.w.aSpace = 0 then [i.w.srcA] else []) ++ (if (k.binary && i.w.bSpace == 0) = true then [i.w.srcB] else []) = headerRows i.w k := by
    unfold headerRows
    simp only [Bool.and_eq_true, beq_iff_eq]
  rw [headers_eq_map]
  unfold State.headersIn
  dsimp only
  rw [hrows]
  exact hfold _ []

/-! ## What HDR leaves (R145) -/

theorem length_sealCrc {b : Bytes} (h : 4 ≤ b.length) : (sealCrc b).length = b.length := by simp [sealCrc]; omega

theorem length_ctHeaderBytes (h : CtHeader) : h.bytes.length = 64 := by
  unfold CtHeader.bytes
  rw [length_sealCrc] <;> simp [zeros]

theorem length_lweTagBytes (g : LweTag) : g.bytes.length = 24 := by
  unfold LweTag.bytes
  rw [length_sealCrc] <;> simp [zeros]

/-- One header or tag is settled: it stands at its row, and the findings of the operation are used up. -/
structure Settled (u v : State) (t : TileRef) (row : Nat) (bs : Bytes) (regs : List Nat) : Prop where
  kept : Kept u v t regs
  store : (v.tile t).store = ((u.tile t).putRows row bs).store
  keyFail : (v.tile t).keyFail = (u.tile t).keyFail
  dataFail : (v.tile t).dataFail = false
  mute : (v.tile t).mute = false

theorem settled_settles {u s : State} {t : TileRef} {regs : List Nat} (hh : Held u t) (hfl : (u.tile t).flight = []) (hk : Kept u s t regs) (hl : s.looms = u.looms)
    (i : Issue) (row : Nat) (bs : Bytes) : Settled u (s.settled t i [(row, bs)]) t row bs regs := by
  have hs := hk.held t hh
  let f : Tile → Tile := fun x => { x.putRows row bs with dataFail := false, mute := false, headerEnd := i.at_ + 4 }
  have ht : (s.modTile t f).tile t = f (u.tile t) := by rw [tile_modTile_held hs, tile_of_looms hl]
  have heq : s.settled t i [(row, bs)] = ((s.modTile t f).touch t i [⟨5, i.at_ + 4, 1, row, 1, true⟩]).2 := rfl
  obtain ⟨-, he⟩ := touch_of_no_flight (all := [⟨5, i.at_ + 4, 1, row, 1, true⟩]) (n := 5) ((kept_modTile s t f []).held t hs) (by rw [ht]; exact hfl) (by simp) i
  obtain ⟨fl, b, hte, -⟩ := he.tile
  rw [ht] at hte
  rw [heq]
  exact ⟨hk.trans ((kept_modTile s t f regs).trans (he.kept.mono (List.nil_subset _))), by rw [hte], by rw [hte]; rfl, by rw [hte], by rw [hte]⟩

/-- What a later change of registers and rounds leaves of a settled header. -/
theorem Settled.rows {u v : State} {t : TileRef} {row : Nat} {bs : Bytes} {regs : List Nat} (h : Settled u v t row bs regs) {n : Nat} (hn : bs.length ≤ n) :
    OnlyRows u v t row n := onlyRows_of_putRows h.store hn

theorem onlyRows_of_looms {u v d : State} {t : TileRef} {row n : Nat} (h : OnlyRows u v t row n) (hl : d.looms = v.looms) : OnlyRows u d t row n := by
  intro a ha
  rw [tile_of_looms hl, h a ha]

/-! ## Poison counters (R145, R146, R178) -/

/-- A change of counters, records and notes of a partition: the tiles and the number of partitions stay, every round in its state. -/
structure Noted (s d : State) (regs : List Nat) : Prop where
  looms : d.looms = s.looms
  regs : OnlyRegs s d regs
  length : d.parts.length = s.parts.length
  round : ∀ p, (d.round p).state = (s.round p).state

theorem Noted.refl (s : State) (l : List Nat) : Noted s s l := ⟨rfl, fun _ _ => rfl, rfl, fun _ => rfl⟩

theorem Noted.trans {s d e : State} {l : List Nat} (h : Noted s d l) (k : Noted d e l) : Noted s e l :=
  ⟨k.looms.trans h.looms, fun x hx => (k.regs x hx).trans (h.regs x hx), k.length.trans h.length, fun p => (k.round p).trans (h.round p)⟩

theorem Noted.reg {s d : State} {l : List Nat} (h : Noted s d l) {x : Nat} (hx : x ∉ l) : d.reg x = s.reg x := h.regs x hx

theorem noted_of_wells {s d : State} {l : List Nat} (hw : d.wells = s.wells) (hp : d.parts = s.parts) (hr : OnlyRegs s d l) : Noted s d l :=
  ⟨looms_of_wells hw, hr, by rw [hp], fun p => by rw [State.round, State.part, hp, State.round, State.part]⟩

theorem noted_countBy (s : State) {x : Nat} (n : Nat) {l : List Nat} (hx : x ∈ l) : Noted s (s.countBy x n) l :=
  noted_of_wells (State.countBy_wells _ _ _) (State.countBy_parts _ _ _) (fun y hy => by rw [State.reg_countBy, if_neg (by rintro rfl; exact hy hx)])

theorem noted_setRecord (s : State) {x : Nat} (v : Nat) {l : List Nat} (hx : x ∈ l) : Noted s (s.setRecord x v) l :=
  noted_of_wells (State.setRecord_wells _ _ _) (State.setRecord_parts _ _ _) (fun y hy => by rw [State.reg_setRecord, if_neg (by rintro rfl; exact hy hx)])

theorem noted_raise (s : State) {l : List Nat} (hl : logBase + 4 ∈ l) (code part src : Nat) (m : List (Nat × Nat)) : Noted s (s.raise code part src m) l :=
  noted_of_wells (State.raise_wells _ _ _ _ _) (State.raise_parts _ _ _ _ _) (fun _ hy => State.reg_raise _ _ _ _ _ _ (fun h => hy (h ▸ hl)))

theorem noted_modRound (s : State) (p : Nat) {f : Round → Round} (hf : ∀ r, (f r).state = r.state) (l : List Nat) : Noted s (s.modRound p f) l :=
  ⟨looms_of_wells (State.modRound_wells _ _ _), fun _ _ => State.modRound_reg _ _ _ _, updAt_length _ _ _, fun q => by
    rw [State.round_modRound]
    split
    · rename_i h
      rw [hf, h.1]
    · rfl⟩

/-- The registers in which poisoned ciphertexts are counted and noted. -/
def poisonRegs (p : Nat) : List Nat := [ctxBase p + 0x30, ctxBase p + 0x44, logBase + 4]

theorem notePoison_notes (s : State) (t : TileRef) (p cause : Nat) : Noted s (s.notePoison t p cause) (poisonRegs p) ∧
    (s.notePoison t p cause).reg (ctxBase p + 0x30) = min (s.reg (ctxBase p + 0x30) + 1) 0xFFFFFFFF := by
  have h1 : Noted s ((s.count (ctxBase p + 0x30)).setRecord (ctxBase p + 0x44) (2 ^ 31 + 2 ^ 16 * cause + s.unitOf t)) (poisonRegs p) :=
    (noted_countBy s 1 (by simp [poisonRegs])).trans (noted_setRecord _ _ (by simp [poisonRegs]))
  have hreg : ((s.count (ctxBase p + 0x30)).setRecord (ctxBase p + 0x44) (2 ^ 31 + 2 ^ 16 * cause + s.unitOf t)).reg (ctxBase p + 0x30) =
      min (s.reg (ctxBase p + 0x30) + 1) 0xFFFFFFFF := by
    rw [State.reg_setRecord, if_neg (by omega), State.reg_count, if_pos rfl]
  have hlog : ctxBase p + 0x30 ≠ logBase + 4 := by unfold ctxBase logBase; omega
  unfold State.notePoison
  dsimp only
  split
  · exact ⟨h1, hreg⟩
  · refine ⟨h1.trans ((noted_modRound _ p (f := fun r => { r with firstPoison := true }) (fun _ => rfl) _).trans (noted_raise _ (by simp [poisonRegs]) _ _ _ _)), ?_⟩
    rw [State.reg_raise _ _ _ _ _ _ hlog, State.modRound_reg, hreg]

theorem noteLwePoison_notes (s : State) (t : TileRef) (p cause n : Nat) :
    Noted s (s.noteLwePoison t p cause n) [rfsBase p + 0x18, rfsBase p + 0x24, logBase + 4] := by
  have h1 : Noted s ((s.countBy (rfsBase p + 0x18) n).setRecord (rfsBase p + 0x24) (2 ^ 31 + 2 ^ 16 * cause + s.unitOf t))
      [rfsBase p + 0x18, rfsBase p + 0x24, logBase + 4] := (noted_countBy s n (by simp)).trans (noted_setRecord _ _ (by simp))
  unfold State.noteLwePoison
  dsimp only
  split
  · exact h1
  · exact h1.trans ((noted_modRound _ p (f := fun r => { r with firstLwePoison := true }) (fun _ => rfl) _).trans (noted_raise _ (by simp) _ _ _ _))

/-- LEVEL_SPENT that this operation finds of clean inputs is counted. -/
theorem noteLevel_notes (s : State) (t : TileRef) (p cls : Nat) (ins : List CtHeader) (cause : Nat) :
    Noted s (s.noteLevel t p cls ins cause) [ctxBase p + 0x38, logBase + 4] ∧
      (s.noteLevel t p cls ins cause).reg (ctxBase p + 0x38) =
        if cause = 4 ∧ ∀ g ∈ ins, g.poisoned = false then min (s.reg (ctxBase p + 0x38) + 1) 0xFFFFFFFF else s.reg (ctxBase p + 0x38) := by
  have hcond : (cause = Status.levelSpent.code ∧ (ins.all (fun h => !h.poisoned)) = true) ↔ cause = 4 ∧ ∀ g ∈ ins, g.poisoned = false := by
    simp [Status.code]
  have hlog : ctxBase p + 0x38 ≠ logBase + 4 := by unfold ctxBase logBase; omega
  unfold State.noteLevel
  by_cases hc : cause = 4 ∧ ∀ g ∈ ins, g.poisoned = false
  · rw [if_pos (hcond.mpr hc), if_pos hc]
    have h1 : Noted s (s.count (ctxBase p + 0x38)) [ctxBase p + 0x38, logBase + 4] := noted_countBy s 1 (by simp)
    exact ⟨h1.trans (noted_raise _ (by simp) _ _ _ _), by rw [State.reg_raise _ _ _ _ _ _ hlog, State.reg_count, if_pos rfl]⟩
  · rw [if_neg (fun h => hc (hcond.mp h)), if_neg hc]
    exact ⟨Noted.refl _ _, rfl⟩

/-- A mark on an output block reaches memory alone. -/
theorem memScope_poisonBlock (s : State) (p b cause : Nat) : MemScope s (s.poisonBlock p b cause) := by
  unfold State.poisonBlock
  split
  · dsimp only
    split
    · exact MemScope.refl s
    · exact memScope_devWrite _ _ _
  · exact MemScope.refl s

/-! ## A poisoned destination (R82, R145, R146) -/

/-- What a poisoned destination counts and notes, before a poisoned input fails the round. -/
def State.poisonNoted (s : State) (t : TileRef) (p : Nat) (k : HdrClass) (cls arg : Nat) (ins : List CtHeader) (cause : Nat) : State :=
  let s1 := if (ins.all (fun h => !h.poisoned)) && ins.any (fun h => h.keyId != (ins.headD (ctHeader [])).keyId) then s.count (ctxBase p + 0x34) else s
  let s2 := (s1.noteLevel t p cls ins cause).notePoison t p cause
  if k = .fold then s2.poisonBlock p arg cause else s2

theorem settlePoison_eq (s : State) (t : TileRef) (p : Nat) (k : HdrClass) (cls arg : Nat) (ins : List CtHeader) (cause : Nat) :
    s.settlePoison t p k cls arg ins cause =
      if !(ins.all (fun h => !h.poisoned)) ∧ (s.round p).state = .step then (s.poisonNoted t p k cls arg ins cause).failRound p .poisonedInput
      else s.poisonNoted t p k cls arg ins cause := rfl

theorem all_clean_iff (ins : List CtHeader) : (ins.all (fun h => !h.poisoned)) = true ↔ ∀ g ∈ ins, g.poisoned = false := by simp

/-- What the counters of a partition show once a poisoned destination has been noted. -/
structure PoisonNoted (s d : State) (p : Nat) (ins : List CtHeader) (cause : Nat) : Prop where
  looms : d.looms = s.looms
  length : d.parts.length = s.parts.length
  round : (d.round p).state = (s.round p).state
  poisoned : d.reg (ctxBase p + 0x30) = min (s.reg (ctxBase p + 0x30) + 1) 0xFFFFFFFF
  keys : (∀ g ∈ ins, g.poisoned = false) → (∃ g ∈ ins, g.keyId ≠ (ins.headD (ctHeader [])).keyId) →
    d.reg (ctxBase p + 0x34) = min (s.reg (ctxBase p + 0x34) + 1) 0xFFFFFFFF
  level : d.reg (ctxBase p + 0x38) =
    if cause = 4 ∧ ∀ g ∈ ins, g.poisoned = false then min (s.reg (ctxBase p + 0x38) + 1) 0xFFFFFFFF else s.reg (ctxBase p + 0x38)

theorem poisonNoted_notes (s : State) (t : TileRef) {p : Nat} (hp : p < 24) (k : HdrClass) (cls arg : Nat) (ins : List CtHeader) (cause : Nat) :
    PoisonNoted s (s.poisonNoted t p k cls arg ins cause) p ins cause := by
  unfold State.poisonNoted
  extract_lets s1 s2
  have hlog : ∀ o, o ≤ 0x44 → ctxBase p + o ≠ logBase + 4 := fun o ho => by unfold ctxBase logBase; omega
  have h1 : Noted s s1 [ctxBase p + 0x34] := by
    show Noted s (if _ then _ else _) _
    split
    · exact noted_countBy s 1 (by simp)
    · exact Noted.refl _ _
  obtain ⟨h2, hlevel⟩ := noteLevel_notes s1 t p cls ins cause
  obtain ⟨h3, hpois⟩ := notePoison_notes (s1.noteLevel t p cls ins cause) t p cause
  have h4 : MemScope s2 (if k = .fold then s2.poisonBlock p arg cause else s2) := by
    split
    · exact memScope_poisonBlock _ _ _ _
    · exact MemScope.refl _
  have hmem : ∀ o, o ≤ 0x44 → (if k = .fold then s2.poisonBlock p arg cause else s2).reg (ctxBase p + o) = s2.reg (ctxBase p + o) := fun o ho =>
    h4.regs _ (by unfold MemRecord ctxBase; omega) (hlog o ho)
  refine ⟨h4.looms.trans (h3.looms.trans (h2.looms.trans h1.looms)), ?_, ?_, ?_, fun hc hk => ?_, ?_⟩
  · rw [h4.gate.parts, h3.length, h2.length, h1.length]
  · rw [State.round, h4.gate.part, ← State.round, h3.round, h2.round, h1.round]
  · rw [hmem 0x30 (by decide), hpois, h2.reg (by simp [hlog 0x30 (by decide)]), h1.reg (by simp)]
  · have hcount : s1 = s.count (ctxBase p + 0x34) := if_pos (by rw [(all_clean_iff ins).mpr hc, (any_keyId_iff ins _).mpr hk]; rfl)
    rw [hmem 0x34 (by decide), h3.reg (by simp [poisonRegs, hlog 0x34 (by decide)]), h2.reg (by simp [hlog 0x34 (by decide)]), hcount, State.reg_count, if_pos rfl]
  · rw [hmem 0x38 (by decide), h3.reg (by simp [poisonRegs, hlog 0x38 (by decide)]), hlevel, h1.reg (by simp)]

end Sys2Proof.Machine

namespace Sys2Proof.Machine

open Sys2Proof

/-! ## HDR of a class with a ciphertext destination (R145) -/

/-- The cause that a header finds by R145. -/
def Tile.cause (x : Tile) (w : StepWord) (k : HdrClass) : Option Nat := settleCause k (x.headers w k) (w.aux / 256) (x.found k).1 (x.found k).2

/-- The header that a step writes. -/
def State.headerOut (u : State) (t : TileRef) (i : Issue) (k : HdrClass) : CtHeader :=
  let ins := (u.tile t).headers i.w k
  let cause := (u.tile t).cause i.w k
  { settleOut k ins (i.w.aux / 256) (u.primeOf i.part) u.draw.1 with
    special := 0, unmetered := ins.any (fun g => g.unmetered) || bit i.w.aux 5, poisoned := cause.isSome, cause := cause.getD 0,
    origin := 0xFF000000 + u.unitOf t % 1024, roundId := (u.round i.part).desc.roundId }

/-- The state in which a ciphertext header has been written, and nothing counted yet. -/
def State.headerSettled (u : State) (t : TileRef) (i : Issue) (k : HdrClass) : State := u.draw.2.settled t i [(i.w.dst, (u.headerOut t i k).bytes)]

theorem settleCiphertext_of_clean {u : State} {t : TileRef} (hc : (u.tile t).calm) (i : Issue) {k : HdrClass} (hk : (u.tile t).cause i.w k = none) :
    u.settleCiphertext t i k = u.headerSettled t i k := by
  unfold State.settleCiphertext State.headerSettled State.headerOut
  rw [headersIn_of_calm hc]
  unfold Tile.cause at hk ⊢
  simp only [Bool.or_false, hk]
  rfl

theorem settleCiphertext_of_cause {u : State} {t : TileRef} (hc : (u.tile t).calm) (i : Issue) {k : HdrClass} {c : Nat} (hk : (u.tile t).cause i.w k = some c) :
    u.settleCiphertext t i k = (u.headerSettled t i k).settlePoison t i.part k (i.w.aux % 32) (i.w.aux / 256) ((u.tile t).headers i.w k) c := by
  unfold State.settleCiphertext State.headerSettled State.headerOut
  rw [headersIn_of_calm hc]
  unfold Tile.cause at hk ⊢
  simp only [Bool.or_false, hk]
  rfl

theorem settled_headerSettled {u : State} {t : TileRef} (hh : Held u t) (hc : (u.tile t).calm) (i : Issue) (k : HdrClass) :
    Settled u (u.headerSettled t i k) t i.w.dst (u.headerOut t i k).bytes [] :=
  settled_settles hh hc.2.2 (kept_draw u t []) (looms_of_wells (State.draw_wells u)) i _ _

/-- What a ciphertext class leaves where no poisoned input fails the round. -/
structure CiphertextSettled (u v : State) (t : TileRef) (i : Issue) (k : HdrClass) : Prop where
  keyFail : (v.tile t).keyFail = (u.tile t).keyFail
  dataFail : (v.tile t).dataFail = false
  mute : (v.tile t).mute = false
  store : (v.tile t).store = ((u.tile t).putRows i.w.dst (u.headerOut t i k).bytes).store
  poisoned : v.reg (ctxBase i.part + 0x30) =
    if (u.tile t).cause i.w k = none then u.reg (ctxBase i.part + 0x30) else min (u.reg (ctxBase i.part + 0x30) + 1) 0xFFFFFFFF
  keys : (∀ g ∈ (u.tile t).headers i.w k, g.poisoned = false) →
    (∃ g ∈ (u.tile t).headers i.w k, g.keyId ≠ (((u.tile t).headers i.w k).headD (ctHeader [])).keyId) →
    v.reg (ctxBase i.part + 0x34) = min (u.reg (ctxBase i.part + 0x34) + 1) 0xFFFFFFFF
  level : v.reg (ctxBase i.part + 0x38) =
    if (u.tile t).cause i.w k = some 4 ∧ ∀ g ∈ (u.tile t).headers i.w k, g.poisoned = false then min (u.reg (ctxBase i.part + 0x38) + 1) 0xFFFFFFFF
    else u.reg (ctxBase i.part + 0x38)

/-- Clean inputs of differing keys have a cause. -/
theorem cause_of_keys {x : Tile} {w : StepWord} {k : HdrClass} (hclean : ∀ g ∈ x.headers w k, g.poisoned = false)
    (hd : ∃ g ∈ x.headers w k, g.keyId ≠ ((x.headers w k).headD (ctHeader [])).keyId) : x.cause w k = some 3 := by
  obtain ⟨g, hg, hne⟩ := hd
  have hhead : (x.headers w k).headD (ctHeader []) ∈ x.headers w k := by
    generalize x.headers w k = ins at hg ⊢
    cases ins with
    | nil => simp at hg
    | cons => simp
  exact settleCause_of_keys hclean hg hhead hne _ _ _

theorem settleCiphertext_settles {u : State} {t : TileRef} (hh : Held u t) (hc : (u.tile t).calm) {i : Issue} (hp : i.part < 24) (k : HdrClass)
    (hstep : (u.round i.part).state ≠ .step ∨ ∀ g ∈ (u.tile t).headers i.w k, g.poisoned = false) :
    CiphertextSettled u (u.settleCiphertext t i k) t i k := by
  have hs := settled_headerSettled hh hc i k
  cases hcause : (u.tile t).cause i.w k with
  | none =>
    rw [settleCiphertext_of_clean hc i hcause]
    exact {
      keyFail := hs.keyFail
      dataFail := hs.dataFail
      mute := hs.mute
      store := hs.store
      poisoned := by rw [if_pos hcause, hs.kept.reg (by simp)]
      keys := fun h1 h2 => by
        rw [cause_of_keys h1 h2] at hcause
        simp at hcause
      level := by rw [if_neg (by simp [hcause]), hs.kept.reg (by simp)] }
  | some c =>
    have hrun : u.settleCiphertext t i k =
        (u.headerSettled t i k).poisonNoted t i.part k (i.w.aux % 32) (i.w.aux / 256) ((u.tile t).headers i.w k) c := by
      rw [settleCiphertext_of_cause hc i hcause, settlePoison_eq, if_neg]
      rw [hs.kept.round, Bool.not_eq_true', Bool.eq_false_iff, ne_eq, all_clean_iff]
      tauto
    have hn := poisonNoted_notes (u.headerSettled t i k) t hp k (i.w.aux % 32) (i.w.aux / 256) ((u.tile t).headers i.w k) c
    have ht := tile_of_looms hn.looms t
    have hreg : ∀ r, (u.headerSettled t i k).reg r = u.reg r := fun r => hs.kept.reg (by simp)
    rw [hrun]
    exact {
      keyFail := by rw [ht, hs.keyFail]
      dataFail := by rw [ht, hs.dataFail]
      mute := by rw [ht, hs.mute]
      store := by rw [ht, hs.store]
      poisoned := by rw [if_neg (by simp [hcause]), hn.poisoned, hreg]
      keys := fun h1 h2 => by rw [hn.keys h1 h2, hreg]
      level := by simp only [hn.level, hreg, hcause, Option.some.injEq] }

/-- A poisoned input to STEP fails the round. -/
theorem settleCiphertext_fails {u : State} {t : TileRef} (hh : Held u t) (hc : (u.tile t).calm) {i : Issue} (hp : i.part < 24) (k : HdrClass)
    (hstep : (u.round i.part).state = .step) (hbad : ¬ ∀ g ∈ (u.tile t).headers i.w k, g.poisoned = false) (hlen : i.part < u.parts.length) :
    ((u.settleCiphertext t i k).round i.part).state = .failed ∧ ((u.settleCiphertext t i k).round i.part).status = .poisonedInput := by
  have hs := settled_headerSettled hh hc i k
  obtain ⟨c, hcause⟩ := settleCause_isSome_of_poisoned (k := k) hbad (i.w.aux / 256) ((u.tile t).found k).1 ((u.tile t).found k).2
  have hn := poisonNoted_notes (u.headerSettled t i k) t hp k (i.w.aux % 32) (i.w.aux / 256) ((u.tile t).headers i.w k) c
  have hround : ((u.headerSettled t i k).round i.part).state = .step := by rw [hs.kept.round, hstep]
  have hf := failRound_fails .poisonedInput (by rw [hn.length, hs.kept.parts]; exact hlen) (by rw [hn.round, hround]; rfl)
  rw [settleCiphertext_of_cause hc i hcause, settlePoison_eq, if_pos ⟨by simpa using hbad, hround⟩]
  exact ⟨hf.state, hf.status⟩

/-! ## EXPORT (R148) -/

theorem settleExport_settles {u : State} {t : TileRef} (hh : Held u t) (hc : (u.tile t).calm) {i : Issue} (hp : i.part < 24) :
    let bad := ((u.tile t).headers i.w .export_).any (fun g => g.poisoned)
    let v := u.settleExport t i
    (v.tile t).store = (u.tile t).store ∧ (v.tile t).mute = bad ∧ (v.tile t).exportStatus = (if bad = true then .poisonedInput else .ok) ∧
      v.reg (ctxBase i.part + 0x40) = if bad = true then min (u.reg (ctxBase i.part + 0x40) + 1) 0xFFFFFFFF else u.reg (ctxBase i.part + 0x40) := by
  intro bad v
  have hbad : bad = (((u.tile t).headers i.w .export_).find? (fun g => g.poisoned)).isSome :=
    Bool.eq_iff_iff.mpr (by rw [List.any_eq_true, List.find?_isSome])
  have hlog : ctxBase i.part + 0x40 ≠ logBase + 4 := by unfold ctxBase logBase; omega
  have hv : v = u.settleExport t i := rfl
  unfold State.settleExport at hv
  rw [headersIn_of_calm hc] at hv
  cases hf : ((u.tile t).headers i.w .export_).find? (fun g => g.poisoned) with
  | none =>
    simp only [hf, Bool.false_eq_true, if_false, Option.map_none, Option.isSome_none] at hv
    rw [hbad, hv, hf, tile_modTile_held hh]
    exact ⟨rfl, rfl, rfl, rfl⟩
  | some g =>
    simp only [hf, Bool.false_eq_true, if_false, Option.map_some, Option.isSome_some] at hv
    rw [hbad, hv, hf, tile_of_looms ((looms_raise _ _ _ _ _).trans (looms_of_wells (State.count_wells _ _))), tile_modTile_held hh]
    refine ⟨rfl, rfl, rfl, ?_⟩
    rw [State.reg_raise _ _ _ _ _ _ hlog, State.reg_count, if_pos rfl]
    rfl

end Sys2Proof.Machine

namespace Sys2Proof.Machine

open Sys2Proof

/-! ## The tags of a batch (R167, R178) -/

/-- The tag at a row as HDR takes it: one whose CRC fails is poisoned. -/
def Tile.tag (x : Tile) (row : Nat) : LweTag :=
  if crcEndsOk (x.rowsAt row 24) = true then lweTag (x.rowsAt row 64) else { lweTag (x.rowsAt row 64) with poisoned := true, cause := Status.uncorrectable.code }

/-- The rows of the input tags of a step. -/
def Issue.tagSources (i : Issue) : List Nat := (List.range i.w.count).map (rowOf i.w.srcA i.w.strideA)

/-- The tags of a calm tile are read as they stand; those with a wrong CRC are logged at most. -/
theorem tagsIn_of_calm {u : State} {t : TileRef} (hc : (u.tile t).calm) (i : Issue) :
    (u.tagsIn t i).1 = i.tagSources.map (u.tile t).tag ∧ Kept u (u.tagsIn t i).2 t [logBase + 4] ∧ (u.tagsIn t i).2.looms = u.looms := by
  obtain ⟨hwf, hbad, hfl⟩ := hc
  have hfold := foldl_rowsRead hfl i.at_ 1 (fun r => r) (fun row b =>
    (row, (if ((u.tile t).badAt row 24 || (!(u.tile t).badAt row 24 && !crcEndsOk (b.take 24))) = true then
      { lweTag b with poisoned := true, cause := Status.uncorrectable.code } else lweTag b), !(u.tile t).badAt row 24 && !crcEndsOk (b.take 24))) i.tagSources []
  have htags : (u.tagsIn t i).1 = i.tagSources.map (u.tile t).tag := by
    refine (congrArg (fun r : List (Nat × LweTag × Bool) × State => r.1.map (fun e => e.2.1)) hfold).trans ?_
    simp only [List.nil_append, List.map_map]
    refine List.map_congr_left (fun row _ => ?_)
    simp only [Function.comp_apply, badAt_of_no_errors hbad, Bool.false_or, Bool.not_false, Bool.true_and, Bool.not_eq_true', take_rowsAt hwf row (show 24 ≤ 64 * 1 by decide),
      Tile.tag]
    cases crcEndsOk ((u.tile t).rowsAt row 24) <;> rfl
  refine ⟨htags, ?_⟩
  have hstate : (u.tagsIn t i).2 = u ∨ ∃ l, (u.tagsIn t i).2 = u.raise 0x0405 i.part (masterOfTile t) l := by
    unfold State.tagsIn
    dsimp only
    split
    · exact .inl (congrArg Prod.snd hfold)
    · exact .inr ⟨_, congrArg (fun r => State.raise r.2 0x0405 i.part (masterOfTile t) _) hfold⟩
  rcases hstate with h | ⟨l, h⟩ <;> rw [h]
  · exact ⟨Kept.refl _ _ _, rfl⟩
  · exact ⟨kept_raise _ t (by simp) _ _ _ _, looms_raise _ _ _ _ _⟩

/-- With a count of one there is one source tag and one destination row. -/
theorem tagSources_of_count {i : Issue} (h : i.w.count = 1) (ha : i.w.srcA < 16384) : i.tagSources = [i.w.srcA] := by
  rw [Issue.tagSources, h, List.range_one, List.map_singleton, rowOf_first ha]

theorem tagRows_of_count {i : Issue} (h : i.w.count = 1) (hd : i.w.dst < 16384) : tagRows i = [i.w.dst] := by
  rw [tagRows, h, List.range_one, List.map_singleton, rowOf_first hd]

/-! ## REPACK, EXTRACT and REFRESH (R162, R163, R170, R175) -/

/-- The counters of table refresh are none that poison of a ciphertext or an output touches. -/
theorem rfs_not_poison {p o : Nat} (hp : p < 24) (ho : o < 0x18) : rfsBase p + o ∉ poisonRegs p ∧ rfsBase p + o ∉ [rfsBase p + 0x18, rfsBase p + 0x24, logBase + 4] ∧
    rfsBase p + o ∉ [logBase + 4] := by
  simp only [poisonRegs, List.mem_cons, List.not_mem_nil, or_false, rfsBase, ctxBase, logBase]
  omega

theorem settleRepack_settles {u : State} {t : TileRef} (hh : Held u t) (hc : (u.tile t).calm) {i : Issue} (hp : i.part < 24) :
    OnlyRows u (u.settleRepack t i) t i.w.dst 64 ∧
      (u.settleRepack t i).reg (rfsBase i.part + 0x14) = min (u.reg (rfsBase i.part + 0x14) + 1) 0xFFFFFFFF := by
  obtain ⟨-, hk, hl⟩ := tagsIn_of_calm hc i
  obtain ⟨hpois, -, hlog⟩ := rfs_not_poison hp (show 0x14 < 0x18 by decide)
  unfold State.settleRepack
  extract_lets p r f cause lrp h s1
  have hs := settled_settles hh hc.2.2 hk hl i i.w.dst h.bytes
  have hl1 : s1.looms = (r.2.settled t i [(i.w.dst, h.bytes)]).looms := looms_of_wells (State.count_wells _ _)
  have hrows : OnlyRows u s1 t i.w.dst 64 := onlyRows_of_looms (hs.rows (length_ctHeaderBytes h).le) hl1
  have hreg : s1.reg (rfsBase i.part + 0x14) = min (u.reg (rfsBase i.part + 0x14) + 1) 0xFFFFFFFF := by
    rw [State.reg_count, if_pos rfl, hs.kept.reg hlog]
  cases cause with
  | none => exact ⟨hrows, hreg⟩
  | some c =>
    obtain ⟨hn, -⟩ := notePoison_notes s1 t i.part c
    exact ⟨onlyRows_of_looms hrows hn.looms, (hn.reg hpois).trans hreg⟩

theorem settleExtract_settles {u : State} {t : TileRef} (hh : Held u t) (hc : (u.tile t).calm) {i : Issue} (hd : i.w.dst < 16384) (hn : i.w.count = 1) :
    OnlyRows u (u.settleExtract t i) t i.w.dst 64 := by
  unfold State.settleExtract
  rw [headersIn_of_calm hc, tagRows_of_count hn hd]
  extract_lets p r a f cause tag s1
  have hs := settled_settles hh hc.2.2 (Kept.refl u t []) rfl i i.w.dst tag
  have hrows : OnlyRows u s1 t i.w.dst 64 := hs.rows ((length_lweTagBytes _).trans_le (by decide))
  cases cause with
  | none => exact hrows
  | some c =>
    obtain ⟨hlevel, -⟩ := noteLevel_notes s1 t p (i.w.aux % 32) r.1 c
    exact onlyRows_of_looms hrows ((noteLwePoison_notes _ t p c i.w.count).looms.trans hlevel.looms)

/-- A tag that goes out poisoned is counted. -/
theorem noteTag_notes (s : State) (t : TileRef) (p : Nat) (g : LweTag) :
    Noted s (if g.poisoned = true then s.noteLwePoison t p g.cause 1 else s) [rfsBase p + 0x18, rfsBase p + 0x24, logBase + 4] := by
  split
  · exact noteLwePoison_notes _ _ _ _ _
  · exact Noted.refl _ _

theorem settleRefresh_settles {u : State} {t : TileRef} (hh : Held u t) (hc : (u.tile t).calm) {i : Issue} (hp : i.part < 24) (hd : i.w.dst < 16384)
    (ha : i.w.srcA < 16384) (hn : i.w.count = 1) :
    OnlyRows u (u.settleRefresh t i) t i.w.dst 64 ∧
      (u.settleRefresh t i).reg (rfsBase i.part + 0x10) = min (u.reg (rfsBase i.part + 0x10) + 1) 0xFFFFFFFF ∧
      ((u.settleRefresh t i).tile t).rowsAt i.w.dst 24 =
        (refreshTag (u.regBits (rfsBase i.part) 31 21) ((u.tile t).found .refresh) ((u.tile t).tag i.w.srcA)).bytes := by
  obtain ⟨htags, hk, hl⟩ := tagsIn_of_calm hc i
  obtain ⟨-, hlwe, hlog⟩ := rfs_not_poison hp (show 0x10 < 0x18 by decide)
  rw [tagSources_of_count hn ha, List.map_singleton] at htags
  unfold State.settleRefresh
  dsimp only
  rw [htags, tagRows_of_count hn hd, hn]
  simp only [List.map_cons, List.map_nil, List.zip_cons_cons, List.zip_nil_left]
  rw [each_singleton]
  generalize refreshTag (u.regBits (rfsBase i.part) 31 21) ((u.tile t).found .refresh) ((u.tile t).tag i.w.srcA) = g
  have hs := settled_settles hh hc.2.2 hk hl i i.w.dst g.bytes
  have hnote := noteTag_notes (((u.tagsIn t i).2.settled t i [(i.w.dst, g.bytes)]).countBy (rfsBase i.part + 0x10) 1) t i.part g
  have hlooms := hnote.looms.trans (looms_of_wells (State.countBy_wells _ _ _))
  refine ⟨onlyRows_of_looms (hs.rows ((length_lweTagBytes g).trans_le (by decide))) hlooms, ?_, ?_⟩
  · refine (hnote.reg hlwe).trans ?_
    rw [State.reg_countBy, if_pos rfl, hs.kept.reg hlog]
  · rw [tile_of_looms hlooms, Tile.rowsAt, hs.store, ← Tile.rowsAt, rowsAt_putRows hc.1 _ (length_lweTagBytes g).ge, ← length_lweTagBytes g, List.take_length]

/-! ## HDR by its class (R178) -/

/-- HDR goes by the class of its step. -/
theorem hdr_of_issues {s u : State} {t : TileRef} {i : Issue} (h : Issues s t 0x08 i u) : ∃ v, exec (.hdr t) s = .next v ∧
    ∀ c, c = hdrClass (i.w.aux % 32) →
      (c ∉ [HdrClass.export_, .extract, .refresh, .repack, .undefined] → v = u.settleCiphertext t i c) ∧ (c = .export_ → v = u.settleExport t i) ∧
      (c = .extract → v = u.settleExtract t i) ∧ (c = .refresh → v = u.settleRefresh t i) ∧ (c = .repack → v = u.settleRepack t i) := by
  show ∃ v, execHdr t s = .next v ∧ _
  unfold execHdr
  rw [execStep_of_issues h]
  refine ⟨_, rfl, fun c hc => ?_⟩
  rw [← hc]
  cases c <;> simp

end Sys2Proof.Machine

namespace Sys2Proof.Machine

open Sys2Proof

/-! ## Each engine step on one operation -/

/-- BCV_SCALE: y is written, and the estimates are left. -/
theorem bcvScale_result {s u : State} {t : TileRef} {i : Issue} (hs : Held s t) (h : Issues s t 0x30 i u) : ∃ v, exec (.bcvScale t) s = .next v ∧
    ((u.tile t).calm → (u.tile t).reload = [] → i.w.count = 1 → ∀ e, (u.tile t).table (i.w.aux / 256) = some e →
      let tab := (u.tile t).tableBytes e
      let y := (u.tile t).scaled i.w (u.primeOf i.part i.w.prime) tab
      (v.tile t).store = ((u.tile t).putRows i.w.dst (elemBytes 32 y)).store ∧ (v.tile t).estimates = bcvEstimates [(y, rd tab 4 12)] i.w.limbWords ∧
        (v.tile t).bcvTable = i.w.aux / 256 ∧ (v.tile t).estimatesOf = (i.w.dst, 1, i.w.limbWords) ∧
        (v.tile t).dataFail = ((u.tile t).dataFail || (u.tile t).tableFails (i.w.aux / 256)) ∧ OnlyWell u v t.well ∧ v.parts = u.parts) := by
  obtain ⟨v, hv, hrun⟩ := bcvScale_of_issues h
  refine ⟨v, hv, fun hc hr hn e he => ?_⟩
  obtain ⟨plan, till, hplan, hend⟩ := hrun hc hr hn e he
  obtain ⟨hd, hk, fl, bs, ht⟩ := bcvScale_scales (i := i) (held_of_issues h hs) hc.2.2 hplan till ((u.tile t).tableBytes e)
  obtain ⟨⟨l, hl⟩, hkm⟩ := tableMismatch_if hd ((u.tile t).tableFails (i.w.aux / 256)) i.part (i.w.aux / 256) (ctxBase i.part + 0x3C) 0x0304
  rw [← hend] at hl hkm
  have hkept := (hk.mono (List.nil_subset _)).trans hkm
  rw [ht] at hl
  rw [hl]
  exact ⟨rfl, rfl, rfl, rfl, rfl, hkept.wells, hkept.parts⟩

/-- BCV_OUT: z is written. -/
theorem bcvOut_result {s u : State} {t : TileRef} {i : Issue} (hs : Held s t) (h : Issues s t 0x31 i u) : ∃ v, exec (.bcvOut t) s = .next v ∧
    ((u.tile t).calm → (u.tile t).reload = [] → i.w.count = 1 → ∀ e, (u.tile t).table (u.tile t).bcvTable = some e → (u.tile t).estimates.length = i.w.limbWords →
      (u.tile t).estimatesOf = (i.w.srcA, bits i.w.aux 14 8, i.w.limbWords) → u.primeOf i.part i.w.prime ≠ 0 →
      (v.tile t).store = ((u.tile t).putRows i.w.dst (elemBytes 32 ((u.tile t).converted i.w (u.primeOf i.part i.w.prime) ((u.tile t).tableBytes e)))).store ∧
        OnlyWell u v t.well ∧ v.parts = u.parts) := by
  obtain ⟨v, hv, hrun⟩ := bcvOut_of_issues h
  refine ⟨v, hv, fun hc hr hn e he hlen hof hp => ?_⟩
  obtain ⟨plan, till, hplan, hend⟩ := hrun hc hr hn e he hlen hof hp
  obtain ⟨hk, hstore⟩ := putRows_entered (held_of_issues h hs) hc.2.2 hplan i i.w.dst
    (elemBytes 32 ((u.tile t).converted i.w (u.primeOf i.part i.w.prime) ((u.tile t).tableBytes e))) [2] till
  obtain ⟨⟨l, hl⟩, hkm⟩ := tableMismatch_if (hk.held t (held_of_issues h hs)) ((u.tile t).tableFails (u.tile t).bcvTable) i.part (u.tile t).bcvTable
    (ctxBase i.part + 0x3C) 0x0304
  rw [← hend] at hl hkm
  have hkept := (hk.mono (List.nil_subset _)).trans hkm
  exact ⟨by rw [hl]; exact hstore, hkept.wells, hkept.parts⟩

/-- AES_KEY: the key is loaded. -/
theorem aesKey_result {s u : State} {t : TileRef} {i : Issue} (hs : Held s t) (h : Issues s t 0x38 i u) : ∃ v, exec (.aesKey t) s = .next v ∧
    ((u.tile t).calm → (v.tile t).aesKey = (u.tile t).rowsAt i.w.srcA 32 ∧ (v.tile t).store = (u.tile t).store ∧ OnlyWell u v t.well ∧ v.parts = u.parts) := by
  obtain ⟨v, hv, hrun⟩ := aesKey_of_issues h
  refine ⟨v, hv, fun hc => ?_⟩
  obtain ⟨plan, till, hplan, rfl⟩ := hrun hc
  obtain ⟨hkey, hstore, hk⟩ := aesKey_loads (held_of_issues h hs) hc hplan till
  exact ⟨hkey, hstore, hk.wells, hk.parts⟩

/-- AES_CTR: the keystream is written. -/
theorem aesCtr_result {s u : State} {t : TileRef} {i : Issue} (hs : Held s t) (h : Issues s t 0x39 i u) : ∃ v, exec (.aesCtr t) s = .next v ∧
    ((u.tile t).calm → i.w.dstSpace = 0 → (v.tile t).store = ((u.tile t).putRows i.w.dst ((u.tile t).keystream i.w)).store ∧ OnlyWell u v t.well ∧ v.parts = u.parts) := by
  obtain ⟨v, hv, hrun⟩ := aesCtr_of_issues h
  refine ⟨v, hv, fun hc hd => ?_⟩
  obtain ⟨plan, till, hplan, rfl⟩ := hrun hc hd
  obtain ⟨hk, hstore⟩ := putRows_entered (held_of_issues h hs) hc.2.2 hplan i i.w.dst ((u.tile t).keystream i.w) [3] till
  exact ⟨hstore, hk.wells, hk.parts⟩

/-- GCM_OPEN: the plaintext and OK where the tag matches, and FORMAT alone where it does not. -/
theorem gcmOpen_result {s u : State} {t : TileRef} {i : Issue} (hs : Held s t) (h : Issues s t 0x3A i u) : ∃ v, exec (.gcmOpen t) s = .next v ∧
    ((u.tile t).calm → (∀ pt, (u.tile t).opened i.w = some pt →
        (v.tile t).store = memWrite ((u.tile t).putRows i.w.dst pt).store (i.w.aux % 16384 * 64) [0x00]) ∧
      ((u.tile t).opened i.w = none → memByte (v.tile t).store (i.w.aux % 16384 * 64) = 0x0A ∧
        ∀ a, a ≠ i.w.aux % 16384 * 64 → memByte (v.tile t).store a = memByte (u.tile t).store a) ∧ OnlyWell u v t.well ∧ v.parts = u.parts) := by
  obtain ⟨v, hv, hrun⟩ := gcmOpen_of_issues hs h
  refine ⟨v, hv, fun hc => ?_⟩
  obtain ⟨b, plan, till, hk, hb, hplan, rfl⟩ := hrun hc
  have he := touch_occupy (hk.held t (held_of_issues h hs)) (by rw [hb, flight_openedTo, hc.2.2]) hplan i [3, 0] till
  have hkept := hk.trans he.kept
  obtain ⟨hok, hformat⟩ := store_openedTo (u.tile t) i.w
  rw [he.store, hb]
  exact ⟨hok, hformat, hkept.wells, hkept.parts⟩

/-- TBLCHK: a good table stays, a bad one comes back from its copy. -/
theorem tblchk_result {s u : State} {t : TileRef} {i : Issue} (hs : Held s t) (h : Issues s t 0x09 i u) : ∃ v, exec (.tblchk t) s = .next v ∧
    ∀ e, (u.tile t).table i.w.aux = some e → (u.tile t).storeBad = [] →
      ((u.tile t).tableFails i.w.aux = false → (v.tile t).store = (u.tile t).store) ∧
      ((u.tile t).tableFails i.w.aux = true → ∀ a m, u.imageArea t.well = some (a, m) →
        let r := u.readBuckets 0 e.rows (cisAddr t.well ((a + e.area) * 64))
        (∃ w, u.check ⟨masterOfTile t, u.owner t.well⟩ (cisAddr t.well ((a + e.area) * 64)) (64 * e.rows) 1 = (none, w)) → r.2.1 = false →
          (v.tile t).store = ((u.tile t).putRows e.row r.1).store) := by
  obtain ⟨v, hv, hrun⟩ := tblchk_of_issues h
  refine ⟨v, hv, fun e he hbad => ?_⟩
  obtain ⟨till, rfl⟩ := hrun e he hbad
  exact tblchk_checks (held_of_issues h hs) he till

/-- TABLE_RELOAD: the first table of the list comes back. -/
theorem tableReload_result {s : State} {t : TileRef} {k : Nat} {rest : List Nat} (hh : Held s t) (ha : s.alive = true) (hr : (s.tile t).reload = k :: rest) :
    ∃ v, exec (.tableReload t) s = .next v ∧ (v.tile t).tables = (s.tile t).tables ∧ ((s.tile t).table k = none → k ∉ (v.tile t).reload) ∧
      ∀ e a m, (s.tile t).table k = some e → s.imageArea t.well = some (a, m) →
        let r := s.readBuckets 0 e.rows (cisAddr t.well ((a + e.area) * 64))
        let c := s.check ⟨masterOfTile t, s.owner t.well⟩ (cisAddr t.well ((a + e.area) * 64)) (64 * e.rows) 1
        (c.1 = none → k ∉ (v.tile t).reload ∧ (r.2.1 = false → (v.tile t).store = ((s.tile t).putRows e.row r.1).store)) ∧ (∀ st, c.1 = some st → v = c.2) :=
  ⟨_, tableReload_runs ha hr, tables_reloadTable hh k, reloadTable_cases hh k⟩

/-- The first of differing inputs may stand for the default of an empty list. -/
theorem differ_iff (ins : List CtHeader) (d : CtHeader) : (∃ g ∈ ins, g.keyId ≠ (ins.headD g).keyId) ↔ ∃ g ∈ ins, g.keyId ≠ (ins.headD d).keyId := by
  cases ins <;> simp

/-- Settles O55: each step is brought to the one equation of its run, and that run to what it writes and counts. -/
theorem engineStepsResult : Obligations.EngineStepsResult := by
  unfold Obligations.EngineStepsResult
  refine ⟨fun t i u s hs => ?_, fun x m beta d h _ => decompose_spells x m beta d h, fun t k rest s hh => ⟨tableReload_idle, tableReload_result hh⟩,
    fun k ins arg f bad => ⟨fun l₁ h l₂ hl h1 hp => ?_, fun hc a b ha hb hab => settleCause_of_keys hc ha hb hab arg f bad, settleCause_eq_none_iff k ins arg f bad⟩⟩
  · intro x n k rows
    refine ⟨tblchk_result hs, bcvScale_result hs, bcvOut_result hs, aesKey_result hs, aesCtr_result hs, gcmOpen_result hs, fun h => ?_⟩
    have hh := held_of_issues h hs
    have hp := (opcode_of_issues h).2
    obtain ⟨hd, ha, -⟩ := rows_of_issues h
    obtain ⟨v, hv, hrun⟩ := hdr_of_issues h
    refine ⟨v, u.draw.1, hv, fun hc c hclass => ?_⟩
    intro ins arg f cause hdr clean differ
    obtain ⟨hct, hex, hext, href, hrep⟩ := hrun c hclass
    refine ⟨fun hk => ?_, fun hk => ?_, fun hk => ?_, fun hk hn => ?_, fun hk hn => ?_⟩
    · rw [hct hk]
      refine ⟨fun hstep => ?_, fun hstep hbad hlen => settleCiphertext_fails hh hc hp c hstep hbad hlen⟩
      have hset := settleCiphertext_settles hh hc hp c hstep
      refine ⟨hset.keyFail, hset.dataFail, hset.mute, hset.store, hset.poisoned, fun h1 h2 => hset.keys h1 ((differ_iff _ _).mp h2), fun h1 h2 => ?_, fun h1 => ?_⟩
      · exact hset.level.trans (if_pos ⟨h2, h1⟩)
      · exact hset.level.trans (if_neg (fun h2 => h1.elim (fun h3 => h3 h2.2) (fun h3 => h3 h2.1)))
    · subst hk
      rw [hex rfl]
      exact settleExport_settles hh hc hp
    · subst hk
      rw [hrep rfl]
      exact settleRepack_settles hh hc hp
    · subst hk
      rw [hext rfl]
      exact settleExtract_settles hh hc hd hn
    · subst hk
      rw [href rfl]
      obtain ⟨hrows, hreg, htag⟩ := settleRefresh_settles hh hc hp hd ha hn
      refine ⟨hrows, hreg, fun hcrc => ?_⟩
      rw [htag, Tile.tag, if_pos hcrc]
  · subst hl
    exact settleCause_of_poisoned h1 hp arg f bad

end Sys2Proof.Machine

namespace Sys2Proof.Machine

open Sys2Proof

/-! ## Montgomery reduction (R132) -/

/-- One Newton step towards the inverse of q mod 2^32. -/
def newtonInv (q x : Nat) : Nat := x * (2 ^ 33 + 2 - q * x % 2 ^ 32) % 2 ^ 32

theorem qinvNeg_eq_newtonInv (q : Nat) : qinvNeg q = (2 ^ 32 - (newtonInv q)^[5] q % 2 ^ 32) % 2 ^ 32 := rfl

/-- A Newton step doubles the number of correct bits. -/
theorem newtonInv_doubles {q x k : Nat} (hk : 2 * k ≤ 32) (h : (q * x : ℤ) ≡ 1 [ZMOD 2 ^ k]) : (q * newtonInv q x : ℤ) ≡ 1 [ZMOD 2 ^ (2 * k)] := by
  have hstep : (q * newtonInv q x : ℤ) ≡ q * (x * (2 - q * x)) [ZMOD 2 ^ 32] := by
    have hlt : q * x % 2 ^ 32 ≤ 2 ^ 33 + 2 := by have := Nat.mod_lt (q * x) (show 0 < 2 ^ 32 by decide); omega
    have hsub : ((2 ^ 33 + 2 - q * x % 2 ^ 32 : Nat) : ℤ) ≡ 2 - q * x [ZMOD 2 ^ 32] := by
      rw [Nat.cast_sub hlt, Int.natCast_mod, Nat.cast_mul]
      exact Int.ModEq.sub (show (2 ^ 33 + 2 : ℤ) ≡ 2 [ZMOD 2 ^ 32] by decide) (Int.mod_modEq _ _)
    rw [newtonInv, Int.natCast_mod, Nat.cast_mul]
    exact ((Int.mod_modEq _ _).trans (hsub.mul_left _)).mul_left _
  have hsq : (1 - q * (x * (2 - q * x)) : ℤ) = (1 - q * x) * (1 - q * x) := by ring
  refine (hstep.of_dvd (pow_dvd_pow 2 hk)).trans (Int.modEq_iff_dvd.mpr ?_)
  rw [hsq, two_mul, pow_add]
  exact mul_dvd_mul h.dvd h.dvd

theorem odd_mul_self_mod_eight {q : Nat} (hq : q % 2 = 1) : q * q ≡ 1 [MOD 2 ^ 3] := by
  have h8 : q % 8 = 1 ∨ q % 8 = 3 ∨ q % 8 = 5 ∨ q % 8 = 7 := by omega
  rw [Nat.ModEq, Nat.mul_mod]
  rcases h8 with h | h | h | h <;> norm_num [h]

/-- An odd number is its own inverse mod 8, and five Newton steps make that an inverse mod 2^32. -/
theorem newtonInv_inverts {q : Nat} (hq : q % 2 = 1) : (q * (newtonInv q)^[5] q : ℤ) ≡ 1 [ZMOD 2 ^ 32] := by
  have h3 : (q * q : ℤ) ≡ 1 [ZMOD 2 ^ 3] := by exact_mod_cast Int.natCast_modEq_iff.mpr (odd_mul_self_mod_eight hq)
  have h24 := newtonInv_doubles (by decide) (newtonInv_doubles (by decide) (newtonInv_doubles (by decide) h3))
  have h32 := newtonInv_doubles (by decide) (h24.of_dvd (pow_dvd_pow 2 (show 16 ≤ 24 by decide)))
  exact newtonInv_doubles (by decide) (h32.of_dvd (pow_dvd_pow 2 (show 16 ≤ 32 by decide)))

/-- `qinvNeg q` is -1/q mod 2^32. -/
theorem qinvNeg_inverts {q : Nat} (hq : q % 2 = 1) : 2 ^ 32 ∣ q * qinvNeg q + 1 := by
  have hle : (newtonInv q)^[5] q % 2 ^ 32 ≤ 2 ^ 32 := (Nat.mod_lt _ (by decide)).le
  have hneg : (qinvNeg q : ℤ) ≡ -((newtonInv q)^[5] q) [ZMOD 2 ^ 32] := by
    rw [qinvNeg_eq_newtonInv, Int.natCast_mod, Nat.cast_sub hle, Int.natCast_mod]
    refine (Int.mod_modEq _ _).trans ?_
    rw [← zero_sub ((newtonInv q)^[5] q : ℤ)]
    exact Int.ModEq.sub (show (2 ^ 32 : ℤ) ≡ 0 [ZMOD 2 ^ 32] by decide) (Int.mod_modEq _ _)
  have h0 : (q * qinvNeg q + 1 : ℤ) ≡ 0 [ZMOD 2 ^ 32] := by
    have hmul := hneg.mul_left (q : ℤ)
    rw [mul_neg] at hmul
    exact (hmul.trans (newtonInv_inverts hq).neg).add_right 1
  exact_mod_cast Int.modEq_zero_iff_dvd.mp h0

/-- The sum that redc shifts is a multiple of 2^32. -/
theorem redc_sum_divides {q : Nat} (hq : q % 2 = 1) (acc : Nat) : 2 ^ 32 ∣ acc + acc % 2 ^ 32 * qinvNeg q % 2 ^ 32 * q := by
  have hm : acc + acc % 2 ^ 32 * qinvNeg q % 2 ^ 32 * q ≡ acc + acc * qinvNeg q * q [MOD 2 ^ 32] :=
    ((Nat.mod_modEq _ _).trans ((Nat.mod_modEq acc _).mul_right _)).mul_right q |>.add_left acc
  have heq : acc + acc * qinvNeg q * q = acc * (q * qinvNeg q + 1) := by ring
  rw [heq] at hm
  exact (hm.dvd_iff dvd_rfl).mpr ((qinvNeg_inverts hq).mul_left acc)

/-- redc divides by 2^32 modulo q. -/
theorem redc_mul_modEq {q : Nat} (hq : q % 2 = 1) (acc : Nat) : redc q acc * 2 ^ 32 ≡ acc [MOD q] := by
  unfold redc
  dsimp only
  generalize hm : acc % 2 ^ 32 * qinvNeg q % 2 ^ 32 = m
  have hdvd := redc_sum_divides hq acc
  rw [hm] at hdvd
  have ht : (acc + m * q) / 2 ^ 32 * 2 ^ 32 ≡ acc [MOD q] := by
    rw [Nat.div_mul_cancel hdvd]
    simp [Nat.ModEq]
  split
  · rename_i hle
    have hsub : (acc + m * q) / 2 ^ 32 - q ≡ (acc + m * q) / 2 ^ 32 [MOD q] := by
      conv_rhs => rw [← Nat.sub_add_cancel hle]
      simp [Nat.ModEq]
    exact (hsub.mul_right _).trans ht
  · exact ht

/-! ## Powers and inverses modulo a prime -/

theorem cast_powMod (q n : Nat) (a e : Nat) (h : e < 2 ^ n) : (powMod q n a e : ZMod q) = a ^ e := by
  induction n generalizing e with
  | zero =>
    obtain rfl : e = 0 := by simpa using h
    simp [powMod]
  | succ n ih =>
    have hh := ih (e / 2) (by omega)
    unfold powMod
    dsimp only
    split
    · rename_i h1
      simp only [ZMod.natCast_mod, Nat.cast_mul, hh]
      conv_rhs => rw [show e = e / 2 + e / 2 + 1 by omega, pow_succ, pow_add]
    · rename_i h0
      simp only [ZMod.natCast_mod, Nat.cast_mul, hh]
      conv_rhs => rw [show e = e / 2 + e / 2 by omega, pow_add]

section
variable {q : Nat} [Fact q.Prime]

/-- A power of exponent q - 2 is an inverse. -/
theorem cast_powMod_inv {a : Nat} (h2 : 2 < q) (hq : q < 2 ^ 32) (ha : (a : ZMod q) ≠ 0) : (powMod q 32 a (q - 2) : ZMod q) = (a : ZMod q)⁻¹ := by
  rw [cast_powMod q 32 a (q - 2) (by omega)]
  refine eq_inv_of_mul_eq_one_left ?_
  rw [← pow_succ, show q - 2 + 1 = q - 1 by omega, ZMod.pow_card_sub_one_eq_one ha]

theorem two_ne_zero_of_odd_prime (h2 : 2 < q) : (2 : ZMod q) ≠ 0 := by
  have h : ((2 : Nat) : ZMod q) ≠ 0 := by
    rw [Ne, ZMod.natCast_eq_zero_iff]
    exact fun hd => absurd (Nat.le_of_dvd (by decide) hd) (by omega)
  simpa using h

theorem odd_of_prime_gt_two (h2 : 2 < q) : q % 2 = 1 := ((Fact.out : q.Prime).eq_two_or_odd).resolve_left (by omega)

theorem cast_redc (h2 : 2 < q) (acc : Nat) : (redc q acc : ZMod q) = acc * ((2 : ZMod q) ^ 32)⁻¹ := by
  have h := (ZMod.natCast_eq_natCast_iff _ _ _).mpr (redc_mul_modEq (odd_of_prime_gt_two h2) acc)
  rw [Nat.cast_mul, Nat.cast_pow, Nat.cast_ofNat] at h
  rw [← h, mul_assoc, mul_inv_cancel₀ (pow_ne_zero _ (two_ne_zero_of_odd_prime h2)), mul_one]

/-- A residue is its class. -/
theorem eq_of_cast_eq {x y : Nat} (hx : x < q) (hy : y < q) (h : (x : ZMod q) = y) : x = y := by
  have := (ZMod.natCast_eq_natCast_iff' x y q).mp h
  rwa [Nat.mod_eq_of_lt hx, Nat.mod_eq_of_lt hy] at this

theorem cast_sub_mod (v : Nat) : ((q - v % q : Nat) : ZMod q) = -v := by
  rw [Nat.cast_sub (Nat.mod_lt _ (Fact.out : q.Prime).pos).le]
  simp

theorem cast_half (h2 : 2 < q) : ((q + 1) / 2 : Nat) * (2 : ZMod q) = 1 := by
  have h : (q + 1) / 2 * 2 = q + 1 := Nat.div_mul_cancel (by have := odd_of_prime_gt_two h2; omega)
  have := congrArg (Nat.cast : Nat → ZMod q) h
  push_cast at this
  simpa using this

/-- The sum of the two outputs of a butterfly, halved, is its first input. -/
theorem butterfly_first (h2 : 2 < q) {x : Nat} (hx : x < q) (v : Nat) : ((x + v) % q + (x + (q - v % q)) % q) * ((q + 1) / 2) % q = x := by
  refine eq_of_cast_eq (Nat.mod_lt _ (by omega)) hx ?_
  simp only [ZMod.natCast_mod, Nat.cast_mul, Nat.cast_add, cast_sub_mod]
  linear_combination (x : ZMod q) * cast_half h2

/-- Their difference, halved and divided by the twiddle, is its second input. -/
theorem butterfly_second (h2 : 2 < q) (hq : q < 2 ^ 32) {x y w : Nat} (hy : y < q) (hw : w % q ≠ 0) :
    ((x + redc q (w * y)) % q + (q - (x + (q - redc q (w * y) % q)) % q % q)) * ((q + 1) / 2) % q * powMod q 32 (redc q w) (q - 2) % q = y := by
  have hw0 : (w : ZMod q) ≠ 0 := by
    rw [Ne, ZMod.natCast_eq_zero_iff]
    exact fun hd => hw (Nat.mod_eq_zero_of_dvd hd)
  have hr : ((2 : ZMod q) ^ 32)⁻¹ ≠ 0 := inv_ne_zero (pow_ne_zero _ (two_ne_zero_of_odd_prime h2))
  have hc : (redc q w : ZMod q) ≠ 0 := by
    rw [cast_redc h2]
    exact mul_ne_zero hw0 hr
  refine eq_of_cast_eq (Nat.mod_lt _ (by omega)) hy ?_
  have hv : (redc q (w * y) : ZMod q) = redc q w * y := by
    rw [cast_redc h2, cast_redc h2]
    push_cast
    ring
  simp only [ZMod.natCast_mod, Nat.cast_mul, Nat.cast_add, cast_sub_mod, cast_powMod_inv h2 hq hc, hv]
  have hinv : (redc q w : ZMod q) * (redc q w : ZMod q)⁻¹ = 1 := mul_inv_cancel₀ hc
  linear_combination (y : ZMod q) * (redc q w : ZMod q) * (redc q w : ZMod q)⁻¹ * cast_half h2 + (y : ZMod q) * hinv

end

/-! ## The inverse transform undoes the forward one (R133) -/

theorem length_nttFwdAux (q : Nat) (tw : Array Nat) (d node : Nat) {a : List Nat} (h : a.length = 2 ^ d) : (nttFwdAux q tw d node a).length = 2 ^ d := by
  induction d generalizing node a with
  | zero => exact h
  | succ d ih =>
    rw [nttFwdAux, List.length_append, ih, ih, ← two_mul, pow_succ'] <;> simp <;> omega

/-- Butterflies that are undone word by word. -/
theorem zipWith_butterflies (lo hi : List Nat) (F A B : Nat → Nat → Nat) (g : Nat → Nat) :
    List.zipWith F (List.zipWith A lo (hi.map g)) (List.zipWith B lo (hi.map g)) = List.zipWith (fun x y => F (A x (g y)) (B x (g y))) lo hi :=
  List.ext_getElem (by simp) (fun k h1 h2 => by simp)

theorem zipWith_eq_left {lo hi : List Nat} {f : Nat → Nat → Nat} (hl : lo.length = hi.length) (h : ∀ x ∈ lo, ∀ y ∈ hi, f x y = x) : List.zipWith f lo hi = lo :=
  List.ext_getElem (by simp [hl]) (fun k h1 h2 => by rw [List.getElem_zipWith, h _ (List.getElem_mem _) _ (List.getElem_mem _)])

theorem zipWith_eq_right {lo hi : List Nat} {f : Nat → Nat → Nat} (hl : lo.length = hi.length) (h : ∀ x ∈ lo, ∀ y ∈ hi, f x y = y) : List.zipWith f lo hi = hi :=
  List.ext_getElem (by simp [hl]) (fun k h1 h2 => by rw [List.getElem_zipWith, h _ (List.getElem_mem _) _ (List.getElem_mem _)])

theorem lt_of_mem_zipWith_mod {q : Nat} (hq : 0 < q) {f : Nat → Nat → Nat} {l m : List Nat} : ∀ z ∈ List.zipWith (fun x y => f x y % q) l m, z < q := by
  intro z hz
  obtain ⟨k, hk, rfl⟩ := List.getElem_of_mem hz
  rw [List.getElem_zipWith]
  exact Nat.mod_lt _ hq

/-- The twiddles of the nodes of a subtree of `d` levels are no multiples of q. -/
def TwiddlesInvert (q : Nat) (tw : Array Nat) (d node : Nat) : Prop :=
  ∀ j k, j < d → node * 2 ^ j ≤ k → k < (node + 1) * 2 ^ j → tw.getD k 0 % q ≠ 0

theorem TwiddlesInvert.child {q d node b : Nat} {tw : Array Nat} (h : TwiddlesInvert q tw (d + 1) node) (hb : b < 2) : TwiddlesInvert q tw d (2 * node + b) := by
  intro j k hj h1 h2
  refine h (j + 1) k (by omega) ?_ ?_ <;> rw [pow_succ'] <;> nlinarith [Nat.two_pow_pos j]

/-- The inverse transform of two halves, each brought back by itself. -/
theorem nttInvAux_append (q : Nat) (tw : Array Nat) (d node : Nat) {a b : List Nat} (ha : a.length = 2 ^ d) (hb : b.length = 2 ^ d) :
    nttInvAux q tw (d + 1) node (a ++ b) =
      List.zipWith (fun (u v : Nat) => (u + v) * ((q + 1) / 2) % q) (nttInvAux q tw d (2 * node) a) (nttInvAux q tw d (2 * node + 1) b) ++
        List.zipWith (fun (u v : Nat) => (u + (q - v % q)) * ((q + 1) / 2) % q * powMod q 32 (redc q (tw.getD node 0)) (q - 2) % q)
          (nttInvAux q tw d (2 * node) a) (nttInvAux q tw d (2 * node + 1) b) := by
  have hhalf : (a ++ b).length / 2 = 2 ^ d := by rw [List.length_append]; omega
  rw [nttInvAux, hhalf, List.take_left' ha, List.drop_left' ha]

/-- The inverse transform of the forward one: level by level, each pair of butterflies gives its two inputs back. -/
theorem nttInvAux_nttFwdAux {q : Nat} [Fact q.Prime] (h2 : 2 < q) (hq : q < 2 ^ 32) {tw : Array Nat} {d node : Nat} (htw : TwiddlesInvert q tw d node)
    {a : List Nat} (ha : a.length = 2 ^ d) (hlt : ∀ y ∈ a, y < q) : nttInvAux q tw d node (nttFwdAux q tw d node a) = a := by
  induction d generalizing node a with
  | zero => rfl
  | succ d ih =>
    have hw : tw.getD node 0 % q ≠ 0 := htw 0 node (by omega) (by simp) (by simp)
    have hhalf : a.length / 2 = 2 ^ d := by omega
    have hlo : (a.take (2 ^ d)).length = 2 ^ d := by rw [List.length_take]; omega
    have hhi : (a.drop (2 ^ d)).length = 2 ^ d := by rw [List.length_drop]; omega
    have hzip : ∀ f : Nat → Nat → Nat, (List.zipWith f (a.take (2 ^ d)) ((a.drop (2 ^ d)).map (fun x => redc q (tw.getD node 0 * x)))).length = 2 ^ d := fun f => by
      rw [List.length_zipWith, List.length_map, hlo, hhi, Nat.min_self]
    rw [nttFwdAux, hhalf, nttInvAux_append q tw d node (length_nttFwdAux q tw d _ (hzip _)) (length_nttFwdAux q tw d _ (hzip _)),
      ih (node := 2 * node) (htw.child (b := 0) (by decide)) (hzip _) (lt_of_mem_zipWith_mod (by omega)),
      ih (htw.child (b := 1) (by decide)) (hzip _) (lt_of_mem_zipWith_mod (by omega)), zipWith_butterflies, zipWith_butterflies,
      zipWith_eq_left (hlo.trans hhi.symm) (fun x hx y _ => butterfly_first h2 (hlt x (List.mem_of_mem_take hx)) _),
      zipWith_eq_right (hlo.trans hhi.symm) (fun x _ y hy => butterfly_second h2 hq (hlt y (List.mem_of_mem_drop hy)) hw), List.take_append_drop]

end Sys2Proof.Machine

namespace Sys2Proof.Machine

open Sys2Proof

/-! ## Word-wise lane steps (R132, R186, R214) -/

/-- One vector of a step that computes each word by itself. -/
def mapVector (w : StepWord) (o : LaneOp) (mode : Nat) (f : Nat → Nat → Option Nat) (_ : Nat) (a b _d : List Nat) (u : State) : Option (List Nat) × State :=
  let r := u.fillFree o.bitsD (if w.mode = mode then List.zipWith f a (if o.useB then b else a) else a.map (fun _ => none))
  (some r.1, r.2)

theorem mapLanes_eq_runLanes (s : State) (t : TileRef) (i : Issue) (o : LaneOp) (mode : Nat) (f : Nat → Nat → Option Nat) :
    s.mapLanes t i o mode f = s.runLanes t i o (mapVector i.w o mode f) := rfl

theorem mapLanes_of_badSources {s : State} {t : TileRef} {i : Issue} {o : LaneOp} (h : (s.tile t).badSources o i.w = true) (mode : Nat) (f : Nat → Nat → Option Nat) :
    s.mapLanes t i o mode f = s.storeTrap t i := by
  rw [mapLanes_eq_runLanes, State.runLanes, if_pos h]

/-- An operand of 128 words is a vector. -/
theorem operand_eq_vec {o : LaneOp} (ho : o.words = 128) {bits : Nat} (hb : bits = 32 ∨ bits = 64) (x : Tile) (row : Nat) : o.operand x row bits = x.vec row bits := by
  rw [LaneOp.operand, Tile.vec, ho]
  rcases hb with rfl | rfl <;> rfl

@[simp] theorem freeCount_accClear (s : State) (t : TileRef) (w : StepWord) : (s.accClear t w).freeCount = s.freeCount := by
  unfold State.accClear
  split <;> rfl

@[simp] theorem freeCount_touch (s : State) (t : TileRef) (i : Issue) (all : List Touch) : (s.touch t i all).2.freeCount = s.freeCount := by
  unfold State.touch
  dsimp only
  split <;> simp

/-- What a word-wise step of one vector from and to the tile store computes. -/
def LaneOp.mapped (o : LaneOp) (x : Tile) (w : StepWord) (f : Nat → Nat → Option Nat) : List (Option Nat) :=
  List.zipWith f (x.vec w.srcA o.bitsA) (if o.useB = true then x.vec w.srcB o.bitsB else x.vec w.srcA o.bitsA)

theorem length_mapped {o : LaneOp} (ha : o.bitsA = 32 ∨ o.bitsA = 64) (hb : o.bitsB = 32 ∨ o.bitsB = 64) (x : Tile) (w : StepWord) (f : Nat → Nat → Option Nat) :
    (o.mapped x w f).length = 128 := by
  unfold LaneOp.mapped
  split <;> simp [length_vec (Or.inr ha), length_vec (Or.inr hb)]

section
variable {s : State} {t : TileRef} {i : Issue} {o : LaneOp} {mode : Nat} {f : Nat → Nat → Option Nat}

/-- The vector of a word-wise step whose words are all defined. -/
theorem lane_mapVector (hh : Held s t) (hfl : (s.tile t).flight = []) (hp : i.w.plain 16) (hm : i.w.mode = mode) (ho : o.words = 128)
    (ha : o.bitsA = 32 ∨ o.bitsA = 64) (hb : o.bitsB = 32 ∨ o.bitsB = 64) (hl : ∀ x ∈ o.mapped (s.tile t) i.w f, x ≠ none) :
    (s.accClear t i.w).lane t i o (mapVector i.w o mode f) =
      (s.accClear t i.w).modTile t (fun y => y.putRows i.w.dst (elemBytes o.bitsD ((o.mapped (s.tile t) i.w f).map (fun x => x.getD 0)))) := by
  have htc := tile_accClear hh i.w
  have hvec : ∀ row bits, Tile.vec { s.tile t with accs := (s.tile t).accsFor i.w } row bits = (s.tile t).vec row bits := fun _ _ => rfl
  have hwords : List.zipWith f ((s.tile t).vec i.w.srcA o.bitsA) (if o.useB then (if o.useB then (s.tile t).vec i.w.srcB o.bitsB else []) else (s.tile t).vec i.w.srcA o.bitsA) =
      o.mapped (s.tile t) i.w f := by
    unfold LaneOp.mapped
    split <;> rfl
  rw [lane_of_plain (by rw [htc]; exact hfl) hp (by decide)]
  simp only [htc, mapVector, hm, if_true, operand_eq_vec ho ha, operand_eq_vec ho hb, hvec, hwords, fillFree_of_defined _ _ hl]

/-- A word-wise step of one plain vector writes its words, and changes nothing else but its tile's accumulators, accesses and busy units. -/
theorem mapLanes_writes (hh : Held s t) (hc : (s.tile t).calm) (hp : i.w.plain 16) (hm : i.w.mode = mode) (ho : o.words = 128)
    (ha : o.bitsA = 32 ∨ o.bitsA = 64) (hb : o.bitsB = 32 ∨ o.bitsB = 64) (hbd : o.bitsD = 32 ∨ o.bitsD = 64) (hl : ∀ x ∈ o.mapped (s.tile t) i.w f, x ≠ none) :
    let v := s.mapLanes t i o mode f
    Written s s v t i.w.dst o.bitsD ((o.mapped (s.tile t) i.w f).map (fun x => x.getD 0)) [] ∧ (v.tile t).accs = (s.tile t).accsFor i.w ∧ v.freeCount = s.freeCount := by
  intro v
  obtain ⟨hwf, hbad, hfl⟩ := hc
  have hlane := lane_mapVector (mode := mode) hh hfl hp hm ho ha hb hl
  have hclear := kept_accClear s t i.w []
  have htc := tile_accClear hh i.w
  have htp := tile_modTile_held (hclear.held t hh) (fun y => y.putRows i.w.dst (elemBytes o.bitsD ((o.mapped (s.tile t) i.w f).map (fun x => x.getD 0))))
  rw [htc] at htp
  have he : Entered _ v t 0 := runLanes_entered hbad hp.1 hlane ((kept_modTile _ t _ []).held t (hclear.held t hh)) (by rw [htp]; exact hfl)
  have hw := written_of_entered hh hwf hclear (by rw [htc]) (Or.inr hbd) (by rw [List.length_map, length_mapped ha hb]) he
  refine ⟨{ hw with reg := fun x => hw.kept.reg (by simp) }, by rw [he.accs, htp]; rfl, ?_⟩
  obtain ⟨plan, till, -, hrun⟩ := runLanes_one (f := mapVector i.w o mode f) (o := o) hbad hp.1
  rw [show v = _ from hrun, hlane]
  simp

end

/-! ## Which operation each step runs -/

section
variable {s u : State} {t : TileRef} {i : Issue}

theorem mmul_of_issues (h : Issues s t 0x10 i u) :
    exec (.mmul t) s = .next (u.mapLanes t i { lat := 12 } 0 (fun a b => redcOpt (u.primeOf i.part i.w.prime) (a * b))) := by
  show execMmul t s = _
  rw [execMmul, execStep_of_issues h]

theorem madd_of_issues (h : Issues s t 0x12 i u) :
    exec (.madd t) s = .next (u.mapLanes t i {} 0 (modOp (u.primeOf i.part i.w.prime) (fun a b => (a + b) % u.primeOf i.part i.w.prime))) := by
  show execMadd t s = _
  rw [execMadd, execStep_of_issues h]

theorem msub_of_issues (h : Issues s t 0x13 i u) :
    exec (.msub t) s = .next (u.mapLanes t i {} 0 (modOp (u.primeOf i.part i.w.prime) (fun a b => (a + (u.primeOf i.part i.w.prime - b)) % u.primeOf i.part i.w.prime))) := by
  show execMsub t s = _
  rw [execMsub, execStep_of_issues h]

theorem mneg_of_issues (h : Issues s t 0x14 i u) :
    exec (.mneg t) s = .next (u.mapLanes t i { useB := false } 0 (modOp (u.primeOf i.part i.w.prime) (fun a _ => (u.primeOf i.part i.w.prime - a) % u.primeOf i.part i.w.prime))) := by
  show execMneg t s = _
  rw [execMneg, execStep_of_issues h]

theorem radd_of_issues (h : Issues s t 0x18 i u) : exec (.radd t) s = .next (u.mapLanes t i (op64 i.w true) 1 (ringOp i.w (fun a b => (a : Int) + b))) := by
  show execRadd t s = _
  rw [execRadd, execStep_of_issues h]

theorem rsub_of_issues (h : Issues s t 0x19 i u) : exec (.rsub t) s = .next (u.mapLanes t i (op64 i.w true) 1 (ringOp i.w (fun a b => (a : Int) - b))) := by
  show execRsub t s = _
  rw [execRsub, execStep_of_issues h]

theorem rneg_of_issues (h : Issues s t 0x1A i u) : exec (.rneg t) s = .next (u.mapLanes t i (op64 i.w false) 1 (ringOp i.w (fun a _ => -(a : Int)))) := by
  show execRneg t s = _
  rw [execRneg, execStep_of_issues h]

theorem logic_of_issues (h : Issues s t 0x20 i u) :
    exec (.logic t) s = .next (u.mapLanes t i (op64 i.w (i.w.aux % 8 != 4)) 9 (logicWord i.w.aux)) := by
  show execLogic t s = _
  rw [execLogic, execStep_of_issues h]

end

/-- The lane form of a 64-bit step of two sources, and of one. -/
theorem op64_true (w : StepWord) : op64 w true = { bitsA := 64, bitsB := 64, bitsD := 64, per := if w.dstSpace = 0 then 2 else 1 } := by
  by_cases h : w.dstSpace = 0 <;> simp [op64, perOf64, h]

theorem op64_false (w : StepWord) : op64 w false = { bitsA := 64, bitsB := 64, bitsD := 64, useB := false, per := 2 } := by
  simp [op64, perOf64]

theorem op64_logic (w : StepWord) : op64 w (w.aux % 8 != 4) =
    { bitsA := 64, bitsB := 64, bitsD := 64, useB := decide (w.aux % 8 ≠ 4), per := if w.aux % 8 ≠ 4 ∧ w.dstSpace ≠ 0 then 1 else 2 } := by
  by_cases h : w.aux % 8 = 4 <;> simp [op64, perOf64, h]

/-! ## Ring words (R186) -/

theorem legalWidth_iff {k : Nat} : legalWidth k = true ↔ k = 32 ∨ k = 40 ∨ k = 48 ∨ k = 64 := by simp [legalWidth, or_assoc]

theorem ringOp_of_legal {w : StepWord} (h : legalWidth (w.aux % 256) = true) (f : Nat → Nat → Int) : ringOp w f = fun a b => some (unsgn (w.aux % 256) (f a b)) := by
  funext a b
  exact if_pos h

theorem ringOp_of_illegal {w : StepWord} (h : ¬ legalWidth (w.aux % 256) = true) (f : Nat → Nat → Int) : ringOp w f = fun _ _ => none := by
  funext a b
  exact if_neg h

theorem unsgn_of_modEq {k n : Nat} {z : Int} (h : z ≡ n [ZMOD (2 ^ k : Nat)]) : unsgn k z = n % 2 ^ k := by
  rw [unsgn, h, ← Int.natCast_mod, Int.toNat_natCast]

theorem sub_mod_modEq_neg (k b : Nat) : ((2 ^ k - b % 2 ^ k : Nat) : Int) ≡ -b [ZMOD (2 ^ k : Nat)] := by
  rw [Nat.cast_sub (Nat.mod_lt b (Nat.two_pow_pos k)).le, Int.natCast_mod, ← zero_sub (b : Int)]
  exact (Int.modEq_zero_iff_dvd.mpr dvd_rfl).sub (Int.mod_modEq _ _)

theorem unsgn_add (k a b : Nat) : unsgn k ((a : Int) + b) = (a + b) % 2 ^ k := unsgn_of_modEq (by rw [Nat.cast_add])

theorem unsgn_sub (k a b : Nat) : unsgn k ((a : Int) - b) = (a + (2 ^ k - b % 2 ^ k)) % 2 ^ k := by
  refine unsgn_of_modEq ?_
  rw [Nat.cast_add, sub_eq_add_neg]
  exact (sub_mod_modEq_neg k b).symm.add_left _

theorem unsgn_neg (k a : Nat) : unsgn k (-(a : Int)) = (2 ^ k - a % 2 ^ k) % 2 ^ k := unsgn_of_modEq (sub_mod_modEq_neg k a).symm

theorem logicWord_eq (aux a b : Nat) : logicWord aux a b =
    if aux % 8 = 0 then some (a ^^^ b) else if aux % 8 = 1 then some (a &&& b) else if aux % 8 = 2 then some (a ||| b)
    else if aux % 8 = 3 then some (a &&& (b ^^^ (2 ^ 64 - 1))) else if aux % 8 = 4 then some (rotl64 a (bits aux 13 8)) else none := by
  unfold logicWord
  split <;> simp_all

/-- Settles O52: each step is one word-wise lane operation, and that operation of one vector is one write of the words it computes. -/
theorem laneStepsResult : Obligations.LaneStepsResult := by
  unfold Obligations.LaneStepsResult
  refine ⟨fun t i u s => ?_, fun t i o mode f s => ⟨fun hbad => mapLanes_of_badSources hbad mode f, fun hh hc hp hm ho _ ha hb hbd => ?_⟩,
    fun q acc hq _ hacc => ⟨redc_lt hacc, redc_mul_modEq hq acc⟩⟩
  · intro q w legal wide
    have hadd := @radd_of_issues s u t i
    have hsub := @rsub_of_issues s u t i
    have hneg := @rneg_of_issues s u t i
    rw [op64_true] at hadd hsub
    rw [op64_false] at hneg
    refine ⟨mmul_of_issues, madd_of_issues, msub_of_issues, mneg_of_issues, fun h hw => ?_, fun h hw => ?_, fun h hw => ?_, fun hw => ⟨fun h => ?_, fun h => ?_, fun h => ?_⟩,
      fun h => ?_⟩
    · rw [hadd h, ringOp_of_legal (legalWidth_iff.mpr hw)]
      simp only [unsgn_add]
      rfl
    · rw [hsub h, ringOp_of_legal (legalWidth_iff.mpr hw)]
      simp only [unsgn_sub]
      rfl
    · rw [hneg h, ringOp_of_legal (legalWidth_iff.mpr hw)]
      simp only [unsgn_neg]
      rfl
    · rw [hadd h, ringOp_of_illegal (fun hl => hw (legalWidth_iff.mp hl))]
    · rw [hsub h, ringOp_of_illegal (fun hl => hw (legalWidth_iff.mp hl))]
    · rw [hneg h, ringOp_of_illegal (fun hl => hw (legalWidth_iff.mp hl))]
    · rw [logic_of_issues h, op64_logic]
      exact congrArg (fun g => Host.Outcome.next (u.mapLanes t i _ 9 g)) (funext fun a => funext fun b => logicWord_eq _ a b)
  · intro a l hl v
    obtain ⟨hw, haccs, hfree⟩ := mapLanes_writes hh hc hp hm ho ha hb hbd hl
    refine ⟨hw.vec.trans (List.map_map ..), hw.rows, ?_, haccs, hw.kept.others, hw.kept.wells, hw.kept.regs, hw.kept.parts, hfree⟩
    rw [hw.store]
    exact memWrite_wf _ _ _ hc.1

end Sys2Proof.Machine

namespace Sys2Proof.Machine

open Sys2Proof

/-! ## Steps over a limb (R133, R139, R195) -/

/-- The words of a limb of `n` words. -/
def Tile.limbOf (x : Tile) (n row : Nat) : List Nat := (elems 32 (x.rowsAt row (64 * limbRows n))).take n

section
variable {s : State} {t : TileRef} {i : Issue} {src dst n : Nat} {f : List Nat → Option (List Nat)} {l : List Nat}

/-- A step of the NTT network over one limb on a calm tile: the limb's image is written, and its accesses are entered. -/
theorem runLimbs_one (hbad : (s.tile t).storeBad = []) (hfl : (s.tile t).flight = []) (hn : i.w.count = 1) (busy lat : Nat)
    (hf : f ((s.tile t).limbOf n src) = some l) : ∃ plan till, (∀ q ∈ plan, q.unit = 1) ∧ s.runLimbs t i 1 src dst n busy lat f =
      ((s.modTile t (fun x => x.putRows dst (elemBytes 32 l))).touch t i plan).2.modTile t (fun x => x.occupy [1] till) := by
  unfold Tile.limbOf at hf
  unfold State.runLimbs
  simp only [badAt_of_no_errors hbad, Bool.false_eq_true, if_false, hn, List.range_one, List.foldl_cons, List.foldl_nil, rowsRead_of_no_flight hfl, Nat.zero_mul,
    Nat.add_zero, hf, if_true]
  exact ⟨_, _, by simp, rfl⟩

theorem runLimbs_entered (hh : Held s t) (hbad : (s.tile t).storeBad = []) (hfl : (s.tile t).flight = []) (hn : i.w.count = 1) (busy lat : Nat)
    (hf : f ((s.tile t).limbOf n src) = some l) :
    Entered (s.modTile t (fun x => x.putRows dst (elemBytes 32 l))) (s.runLimbs t i 1 src dst n busy lat f) t 1 := by
  obtain ⟨plan, till, hplan, hrun⟩ := runLimbs_one (dst := dst) hbad hfl hn busy lat hf
  rw [hrun]
  exact touch_occupy ((kept_modTile s t _ []).held t hh) (by rw [tile_modTile_held hh]; exact hfl) hplan i [1] till

end

/-! ## Transforms with a twiddle table (R133, R137, R195) -/

theorem tileBase_ne_logBase (t : TileRef) (o : Nat) : tileBase t + o ≠ logBase + 4 := by
  unfold tileBase wellBase logBase
  omega

/-- A mismatch is counted. -/
theorem reg_tableMismatch (s : State) (t : TileRef) (p k : Nat) {counter : Nat} (event : Nat) (hc : counter ≠ logBase + 4) :
    (s.tableMismatch t p k counter event).reg counter = min (s.reg counter + 1) 0xFFFFFFFF := by
  rw [State.tableMismatch, State.reg_raise _ _ _ _ _ _ hc, State.reg_count, if_pos rfl, State.modTile_reg]

/-- The words of a twiddle table. -/
def Tile.twiddleTable (x : Tile) (e : TileTable) : Array Nat := (elems 32 (x.tableBytes e)).toArray

/-- The twiddle register after a pass: the last entries of the table. -/
def lastTwiddles (tw : Array Nat) (n : Nat) : List Nat := (List.range 128).map (fun j => tw.getD (n - 128 + j) 0)

/-- The state in which a transform reads its limb: its table has been checked, and its last entries are in the twiddle register. -/
def State.twiddled (u : State) (t : TileRef) (i : Issue) (tw : Array Nat) : State :=
  (if (u.tile t).tableFails (i.w.aux / 256) = true then u.tableMismatch t i.part (i.w.aux / 256) (tileBase t + 0x30) 0x0504 else u).modTile t
    (fun x => { x with twiddles := lastTwiddles tw i.w.limbWords })

/-- A transform on a calm tile with its table and no table to reload. -/
theorem runNtt_of_calm {u : State} {t : TileRef} {i : Issue} (hbad : (u.tile t).storeBad = []) (hr : (u.tile t).reload = []) (hq : u.primeOf i.part i.w.prime ≠ 0)
    {e : TileTable} (he : (u.tile t).table (i.w.aux / 256) = some e) (f : Nat → Array Nat → Nat → List Nat → List Nat) :
    let tw := (u.tile t).twiddleTable e
    u.runNtt t i f = (u.twiddled t i tw).runLimbs t i 1 i.w.dst i.w.dst i.w.limbWords (i.w.count * i.w.limbWords * (i.w.aux % 32) / 256) 40
      (fun a => some (f (u.primeOf i.part i.w.prime) tw (i.w.aux % 32) a)) := by
  unfold State.runNtt State.twiddled lastTwiddles Tile.twiddleTable
  simp only [reloadPending_of_none hr, he, badAt_of_no_errors hbad, Bool.false_eq_true, if_false, hq]

/-- A tile whose table has been checked in a pass: a mismatch poisons the operation and marks the table for reload. -/
def Tile.checked (x : Tile) (k : Nat) : Tile := if x.tableFails k = true then { x with dataFail := true, reload := insertNat k x.reload } else x

theorem checked_of_good {x : Tile} {k : Nat} (h : x.tableFails k = false) : x.checked k = x := if_neg (by simp [h])

theorem checked_of_fails {x : Tile} {k : Nat} (h : x.tableFails k = true) : x.checked k = { x with dataFail := true, reload := insertNat k x.reload } := if_pos h

@[simp] theorem store_checked (x : Tile) (k : Nat) : (x.checked k).store = x.store := by
  unfold Tile.checked
  split <;> rfl

@[simp] theorem storeBad_checked (x : Tile) (k : Nat) : (x.checked k).storeBad = x.storeBad := by
  unfold Tile.checked
  split <;> rfl

@[simp] theorem flight_checked (x : Tile) (k : Nat) : (x.checked k).flight = x.flight := by
  unfold Tile.checked
  split <;> rfl

/-- What the check of a table before a pass leaves and counts. -/
structure Twiddled (u v : State) (t : TileRef) (k : Nat) (tws : List Nat) : Prop where
  kept : Kept u v t [tileBase t + 0x30, logBase + 4]
  tile : v.tile t = { (u.tile t).checked k with twiddles := tws }
  reg : v.reg (tileBase t + 0x30) = if (u.tile t).tableFails k = true then min (u.reg (tileBase t + 0x30) + 1) 0xFFFFFFFF else u.reg (tileBase t + 0x30)

theorem twiddled_twiddled {u : State} {t : TileRef} (hh : Held u t) (i : Issue) (tw : Array Nat) :
    Twiddled u (u.twiddled t i tw) t (i.w.aux / 256) (lastTwiddles tw i.w.limbWords) := by
  unfold State.twiddled
  by_cases hf : (u.tile t).tableFails (i.w.aux / 256) = true
  · obtain ⟨ht, hk⟩ := tableMismatch_marks hh i.part (i.w.aux / 256) (tileBase t + 0x30) 0x0504
    rw [if_pos hf]
    refine ⟨hk.trans (kept_modTile _ _ _ _), by rw [tile_modTile_held (hk.held t hh), ht, checked_of_fails hf], ?_⟩
    rw [State.modTile_reg, reg_tableMismatch u t _ _ _ (tileBase_ne_logBase t _), if_pos hf]
  · rw [if_neg hf]
    exact ⟨kept_modTile _ _ _ _, by rw [tile_modTile_held hh, checked_of_good (by simpa using hf)], (State.modTile_reg ..).trans (if_neg hf).symm⟩

/-- What a transform of one limb leaves: its image in place, and the marks and count of its table's check. -/
structure Transformed (u v : State) (t : TileRef) (k row : Nat) (l : List Nat) : Prop where
  kept : Kept u v t [tileBase t + 0x30, logBase + 4]
  tile : ∃ tws fl bs, v.tile t = { ((u.tile t).checked k).putRows row (elemBytes 32 l) with twiddles := tws, flight := fl, busy := bs }
  reg : v.reg (tileBase t + 0x30) = if (u.tile t).tableFails k = true then min (u.reg (tileBase t + 0x30) + 1) 0xFFFFFFFF else u.reg (tileBase t + 0x30)

theorem runNtt_transforms {u : State} {t : TileRef} {i : Issue} (hh : Held u t) (hc : (u.tile t).calm) (hr : (u.tile t).reload = []) (hn : i.w.count = 1)
    (hq : u.primeOf i.part i.w.prime ≠ 0) {e : TileTable} (he : (u.tile t).table (i.w.aux / 256) = some e) (f : Nat → Array Nat → Nat → List Nat → List Nat) :
    let x := u.tile t
    Transformed u (u.runNtt t i f) t (i.w.aux / 256) i.w.dst (f (u.primeOf i.part i.w.prime) (x.twiddleTable e) (i.w.aux % 32) (x.limbOf i.w.limbWords i.w.dst)) := by
  intro x
  obtain ⟨-, hbad, hfl⟩ := hc
  have htw := twiddled_twiddled hh i (x.twiddleTable e)
  have hd := htw.kept.held t hh
  have hlimb : ((u.twiddled t i (x.twiddleTable e)).tile t).limbOf i.w.limbWords i.w.dst = x.limbOf i.w.limbWords i.w.dst := by
    simp only [Tile.limbOf, Tile.rowsAt, htw.tile, store_checked, x]
  have hen : Entered ((u.twiddled t i (x.twiddleTable e)).modTile t (fun y => y.putRows i.w.dst (elemBytes 32
      (f (u.primeOf i.part i.w.prime) (x.twiddleTable e) (i.w.aux % 32) (x.limbOf i.w.limbWords i.w.dst))))) (u.runNtt t i f) t 1 := by
    rw [runNtt_of_calm hbad hr hq he f]
    exact runLimbs_entered hd (by simp [htw.tile, hbad]) (by simp [htw.tile, hfl]) hn _ 40 (congrArg (fun a => some (f _ _ _ a)) hlimb)
  obtain ⟨fl, bs, hv, -⟩ := hen.tile
  rw [tile_modTile_held hd, htw.tile] at hv
  exact ⟨htw.kept.trans ((kept_modTile _ t _ _).trans (hen.kept.mono (List.nil_subset _))), ⟨_, fl, bs, hv⟩, (hen.kept.reg (by simp)).trans htw.reg⟩

section
variable {u v : State} {t : TileRef} {k row : Nat} {l : List Nat}

theorem Transformed.store (h : Transformed u v t k row l) : (v.tile t).store = ((u.tile t).putRows row (elemBytes 32 l)).store := by
  obtain ⟨tws, fl, bs, ht⟩ := h.tile
  simp only [ht, Tile.putRows, store_checked]

/-- The marks of a table that passes its check, and of one that fails. -/
theorem Transformed.good (h : Transformed u v t k row l) (hr : (u.tile t).reload = []) (hf : (u.tile t).tableFails k = false) :
    (v.tile t).dataFail = (u.tile t).dataFail ∧ (v.tile t).reload = [] ∧ v.reg (tileBase t + 0x30) = u.reg (tileBase t + 0x30) := by
  obtain ⟨tws, fl, bs, ht⟩ := h.tile
  rw [ht, checked_of_good hf]
  exact ⟨rfl, hr, h.reg.trans (if_neg (by simp [hf]))⟩

theorem Transformed.fails (h : Transformed u v t k row l) (hr : (u.tile t).reload = []) (hf : (u.tile t).tableFails k = true) :
    (v.tile t).dataFail = true ∧ (v.tile t).reload = [k] ∧ v.reg (tileBase t + 0x30) = min (u.reg (tileBase t + 0x30) + 1) 0xFFFFFFFF := by
  obtain ⟨tws, fl, bs, ht⟩ := h.tile
  rw [ht, checked_of_fails hf]
  exact ⟨rfl, congrArg (insertNat k) hr, h.reg.trans (if_pos hf)⟩

end

/-! ## What each step runs -/

section
variable {s u : State} {t : TileRef} {i : Issue}

theorem nttFwd_of_issues (h : Issues s t 0x28 i u) : exec (.nttFwd t) s = .next (u.runNtt t i (fun q tw d a => nttFwdAux q tw d 1 a)) := by
  show execNttFwd t s = _
  rw [execNttFwd, execStep_of_issues h]

theorem nttInv_of_issues (h : Issues s t 0x29 i u) : exec (.nttInv t) s = .next (u.runNtt t i (fun q tw d a => nttInvAux q tw d 1 a)) := by
  show execNttInv t s = _
  rw [execNttInv, execStep_of_issues h]

/-- A limb's image under the automorphism of a step. -/
def autoOf (w : StepWord) (q d : Nat) (a : List Nat) : List Nat := if bit w.aux 0 = true then autoEval d w.ext a else autoCoef q (2 ^ d) w.ext a

theorem auto_of_issues (h : Issues s t 0x2A i u) : exec (.auto t) s =
    let d := u.regBits (ctxBase i.part) 4 0
    let q := u.primeOf i.part i.w.prime
    .next (u.runLimbs t i 1 i.w.srcA i.w.dst (2 ^ d) (i.w.count * 2 ^ d / 64) 16 (fun a => if q = 0 then none else some (autoOf i.w q d a))) := by
  show execAuto t s = _
  rw [execAuto, execStep_of_issues h]
  rfl

/-- AUTO of one limb writes its image. -/
theorem auto_result (hs : Held s t) (h : Issues s t 0x2A i u) : ∃ v, exec (.auto t) s = .next v ∧
    let d := u.regBits (ctxBase i.part) 4 0
    let q := u.primeOf i.part i.w.prime
    ((u.tile t).calm → i.w.count = 1 → q ≠ 0 →
      (v.tile t).store = ((u.tile t).putRows i.w.dst (elemBytes 32 (autoOf i.w q d ((u.tile t).limbOf (2 ^ d) i.w.srcA)))).store ∧ OnlyWell u v t.well ∧ v.parts = u.parts) := by
  refine ⟨_, auto_of_issues h, fun ⟨_, hbad, hfl⟩ hn hq => ?_⟩
  have hh := held_of_issues h hs
  have hen := runLimbs_entered hh hbad hfl hn (src := i.w.srcA) (dst := i.w.dst) (n := 2 ^ u.regBits (ctxBase i.part) 4 0)
    (f := fun a => if u.primeOf i.part i.w.prime = 0 then none else some (autoOf i.w (u.primeOf i.part i.w.prime) (u.regBits (ctxBase i.part) 4 0) a))
    (i.w.count * 2 ^ u.regBits (ctxBase i.part) 4 0 / 64) 16 (if_neg hq)
  have hk := (kept_modTile u t _ []).trans hen.kept
  exact ⟨by rw [hen.store, tile_modTile_held hh], hk.wells, hk.parts⟩

end

/-- Twiddles of a whole tree that are no multiples of q. -/
theorem twiddlesInvert_root {q d : Nat} {tw : Array Nat} (h : ∀ k, 1 ≤ k → k < 2 ^ d → tw.getD k 0 % q ≠ 0) : TwiddlesInvert q tw d 1 := by
  intro j k hj h1 h2
  have hpow : 2 ^ (j + 1) ≤ 2 ^ d := Nat.pow_le_pow_right (by decide) hj
  have hpos := Nat.two_pow_pos j
  exact h k (by omega) (by omega)

/-- Settles O54: a transform is one check of its table and one write of its limb's image, and the inverse butterflies undo the forward ones level by level. -/
theorem transformStepsResult : Obligations.TransformStepsResult := by
  unfold Obligations.TransformStepsResult
  refine ⟨fun t i u s hs => ⟨fun op r f hop h => ?_, auto_result hs⟩, fun q d tw a hp h2 hq htw ha hlt => ?_⟩
  · have hrun : exec r s = .next (u.runNtt t i (fun q tw d a => f q tw d 1 a)) := by
      rcases hop with ⟨rfl, rfl, rfl⟩ | ⟨rfl, rfl, rfl⟩
      · exact nttFwd_of_issues h
      · exact nttInv_of_issues h
    refine ⟨_, hrun, fun hc hr hn hq e he => ?_⟩
    have hv := runNtt_transforms (held_of_issues h hs) hc hr hn hq he (fun q tw d a => f q tw d 1 a)
    exact ⟨hv.store, hv.kept.wells, hv.kept.parts, hv.good hr, hv.fails hr⟩
  · have : Fact q.Prime := ⟨hp⟩
    exact nttInvAux_nttFwdAux h2 hq (twiddlesInvert_root (fun k h1 hk => (htw k h1 hk).2)) ha hlt

end Sys2Proof.Machine

namespace Sys2Proof.Machine

open Sys2Proof

/-! ## The hottest reading (R462) -/

/-- One sensor's reading enters the search for the hottest. -/
def hotter (a : Option (Nat × Int)) (e : Int × Nat) : Option (Nat × Int) :=
  match a with
  | none => some (e.2, e.1)
  | some m => if m.2 < e.1 then some (e.2, e.1) else some m

theorem foldl_hotter (l : List (Int × Nat)) (m : Nat × Int) :
    ∃ k, l.foldl hotter (some m) = some k ∧ k.2 ∈ m.2 :: l.map Prod.fst ∧ ∀ r ∈ m.2 :: l.map Prod.fst, r ≤ k.2 := by
  induction l generalizing m with
  | nil => exact ⟨m, rfl, by simp, by simp⟩
  | cons e l ih =>
    obtain ⟨m', hm, hmem, hle⟩ : ∃ m', hotter (some m) e = some m' ∧ (m'.2 = m.2 ∨ m'.2 = e.1) ∧ m.2 ≤ m'.2 ∧ e.1 ≤ m'.2 := by
      by_cases h : m.2 < e.1
      · exact ⟨_, if_pos h, .inr rfl, h.le, le_refl _⟩
      · exact ⟨_, if_neg h, .inl rfl, le_refl _, not_lt.mp h⟩
    obtain ⟨k, hk, hkmem, hkle⟩ := ih m'
    refine ⟨k, by rw [List.foldl_cons, hm, hk], ?_, fun r hr => ?_⟩
    · simp only [List.map_cons, List.mem_cons] at hkmem ⊢
      rcases hkmem with h | h
      · rcases hmem with h' | h' <;> simp [h, h']
      · simp [h]
    · simp only [List.map_cons, List.mem_cons] at hr
      have hm' := hkle m'.2 List.mem_cons_self
      rcases hr with rfl | rfl | hr
      · exact hle.1.trans hm'
      · exact hle.2.trans hm'
      · exact hkle r (List.mem_cons_of_mem _ hr)

/-- Of 49 readings the hottest is one of them, and none is above it. -/
theorem hottest_max {s : State} (h : s.power.readings.length = 49) :
    s.hottest.2 ∈ s.power.readings ∧ ∀ r ∈ s.power.readings, r ≤ s.hottest.2 := by
  have hmap : (s.power.readings.zip (List.range 49)).map Prod.fst = s.power.readings := List.map_fst_zip (by simp [h])
  have hrun : s.hottest = ((s.power.readings.zip (List.range 49)).foldl hotter none).getD (0, 0) := rfl
  cases hz : s.power.readings.zip (List.range 49) with
  | nil => rw [hz] at hmap; rw [← hmap] at h; simp at h
  | cons e l =>
    obtain ⟨k, hk, hmem, hle⟩ := foldl_hotter l (e.2, e.1)
    have hh : s.hottest = k := by rw [hrun, hz, List.foldl_cons, show hotter none e = some (e.2, e.1) from rfl, hk]; rfl
    rw [hz, List.map_cons] at hmap
    rw [hh, ← hmap]
    exact ⟨hmem, hle⟩

theorem sgn_unsgn {r : Int} (hlo : -2048 ≤ r) (hhi : r < 2048) : sgn 12 (unsgn 12 r) = r := by
  unfold sgn unsgn
  have h : ((r % ((2 ^ 12 : Nat) : Int)).toNat : Int) = r % 4096 := Int.toNat_of_nonneg (Int.emod_nonneg _ (by norm_num))
  have h2 : (2 ^ 12 : Nat) = 4096 := rfl
  simp only [h2] at h ⊢
  split <;> omega

/-- THM_MAX keeps the highest reading. -/
theorem thermalMax_kept (s : State) {m : Int} (hlo : -2048 ≤ m) (hhi : m < 2048) {t : State}
    (ht : t = if sgn 12 (s.reg (pwrBase + 0x48)) < m then s.setReg (pwrBase + 0x48) (readingField m) else s) :
    sgn 12 (t.reg (pwrBase + 0x48)) = max (sgn 12 (s.reg (pwrBase + 0x48))) m ∧ OnlyRegs s t [pwrBase + 0x48] ∧ RegsOnly s t := by
  subst ht
  split
  · rename_i h
    have hf : readingField m % 2 ^ 32 = unsgn 12 m := by
      unfold readingField unsgn
      have h2 : (2 ^ 12 : Nat) = 4096 := rfl
      omega
    rw [State.reg_setReg_self, hf, sgn_unsgn hlo hhi, max_eq_right h.le]
    exact ⟨rfl, onlyRegs_setReg _ _ _, rfl⟩
  · rename_i h
    exact ⟨(max_eq_left (not_lt.mp h)).symm, fun _ _ => rfl, rfl⟩

theorem thermalSample_keeps {rs : List Int} {s : State} (hl : s.life = .running ∨ s.life = .rom) (hp : s.power.state ≠ .p3) (hlen : rs.length = 49)
    (hr : ∀ r ∈ rs, -2048 ≤ r ∧ r < 2048) :
    ∃ t m, exec (.thermalSample rs) s = .next t ∧ m ∈ rs ∧ (∀ r ∈ rs, r ≤ m) ∧
      t.power = { s.power with readings := rs, periodMax := some (max (s.power.periodMax.getD m) m) } ∧
      sgn 12 (t.reg (pwrBase + 0x48)) = max (sgn 12 (s.reg (pwrBase + 0x48))) m ∧ OnlyRegs s t [pwrBase + 0x48] ∧
      t = { s with power := t.power, regs := t.regs, fresh := t.fresh } := by
  obtain ⟨hmem, hle⟩ := hottest_max (s := s.modPower (fun x => { x with readings := rs })) hlen
  obtain ⟨hlo, hhi⟩ := hr _ hmem
  have hrun : exec (.thermalSample rs) s = execThermalSample rs s := rfl
  rw [hrun, execThermalSample, if_neg (by rcases hl with hl | hl <;> simp [hl, hp, hlen])]
  extract_lets s1 h s2
  obtain ⟨hmax, honly, hregs⟩ := thermalMax_kept s2 hlo hhi rfl
  have hpower := congrArg State.power hregs
  refine ⟨_, h, rfl, hmem, hle, hpower, hmax, honly, ?_⟩
  rw [hpower]
  exact hregs

/-! ## What the governor leaves alone -/

/-- A partition but for the floor closure of its admission. -/
def Partition.unfloored (x : Partition) : Partition := { x with floorClosed := false, recoverSince := none }

/-- What the governor's level, its events and the admission floor leave alone: partitions but for the floor, wells, queue pairs and Lantus. -/
def State.ungoverned (s : State) : List Partition × List Well × List (Nat × Qp) × Lantus := (s.parts.map Partition.unfloored, s.wells, s.qps, s.lantus)

@[simp] theorem raise_ungoverned (s : State) (code part src : Nat) (l : List (Nat × Nat)) : (s.raise code part src l).ungoverned = s.ungoverned := by
  simp [State.ungoverned]

@[simp] theorem roundInt_ungoverned (s : State) (p b : Nat) : (s.roundInt p b).ungoverned = s.ungoverned := by
  rw [State.roundInt_eq]
  rfl

theorem State.powerInt_eq (s : State) (b : Nat) :
    s.powerInt b = { s.setBits (pwrBase + 0x50) b b 1 with fns := (s.powerInt b).fns, out := (s.powerInt b).out } := by
  unfold State.powerInt
  dsimp only
  split
  · rw [State.msix_eq]
  · rfl

@[simp] theorem powerInt_ungoverned (s : State) (b : Nat) : (s.powerInt b).ungoverned = s.ungoverned := by
  rw [State.powerInt_eq]
  rfl

@[simp] theorem powerInt_power (s : State) (b : Nat) : (s.powerInt b).power = s.power := by
  rw [State.powerInt_eq]
  rfl

@[simp] theorem powerInt_devtime (s : State) (b : Nat) : (s.powerInt b).devtime = s.devtime := by
  rw [State.powerInt_eq]
  rfl

@[simp] theorem modPower_ungoverned (s : State) (f : Power → Power) : (s.modPower f).ungoverned = s.ungoverned := rfl

@[simp] theorem ungoverned_ite (c : Prop) [Decidable c] (a b : State) : (if c then a else b).ungoverned = if c then a.ungoverned else b.ungoverned :=
  apply_ite _ _ _ _

theorem modPart_ungoverned (s : State) (p : Nat) {f : Partition → Partition} (h : ∀ x, (f x).unfloored = x.unfloored) :
    (s.modPart p f).ungoverned = s.ungoverned := by
  simp only [State.ungoverned, State.modPart_wells, State.modPart_qps, State.modPart_lantus, Prod.mk.injEq, and_true]
  exact map_updAt_self _ _ _ h

@[simp] theorem watchFloor_ungoverned (s : State) : s.watchFloor.ungoverned = s.ungoverned :=
  each_kept State.ungoverned _ _ _ (fun p _ t => by
    split
    · exact modPart_ungoverned _ _ (fun _ => rfl)
    · rfl)

@[simp] theorem closeFloor_ungoverned (s : State) : s.closeFloor.ungoverned = s.ungoverned :=
  each_kept State.ungoverned _ _ _ (fun p _ t => by
    split
    · rw [raise_ungoverned, roundInt_ungoverned]
      exact modPart_ungoverned _ _ (fun _ => rfl)
    · rfl)

@[simp] theorem setLevel_ungoverned (s : State) (g : Nat) : (s.setLevel g).ungoverned = s.ungoverned := by
  simp [State.setLevel]

@[simp] theorem watchFloor_power (s : State) : s.watchFloor.power = s.power :=
  each_kept State.power _ _ _ (fun p _ t => by split <;> rfl)

@[simp] theorem closeFloor_power (s : State) : s.closeFloor.power = s.power :=
  each_kept State.power _ _ _ (fun p _ t => by
    split
    · rw [State.raise_power, State.roundInt_eq]
      rfl
    · rfl)

/-- A change of the level sets it, and the time since which it is not 0. -/
theorem setLevel_power (s : State) (g : Nat) :
    (s.setLevel g).power = { s.power with g := g, engagedAt := if s.power.g = 0 ∧ 0 < g then s.devtime else s.power.engagedAt } := by
  unfold State.setLevel
  extract_lets old h pay s1 s2 s3
  have h2 : s2.power = s1.power := by unfold s2; split <;> simp
  have h3 : s3.power = s1.power := by unfold s3; split <;> simp [h2]
  split <;> simp only [State.raise_power, h3] <;> rfl

theorem onlyRegs_powerInt (s : State) (b : Nat) : OnlyRegs s (s.powerInt b) [pwrBase + 0x50, logBase + 4] := fun x hx => by
  rw [State.powerInt_eq]
  exact State.reg_setBits_ne s _ _ _ _ _ (fun h => hx (h ▸ List.mem_cons_self))

theorem onlyRegs_ite {s t u : State} {l : List Nat} {c : Prop} [Decidable c] (ht : OnlyRegs s t l) (hu : OnlyRegs s u l) : OnlyRegs s (if c then t else u) l := by
  split
  · exact ht
  · exact hu

theorem onlyRegs_setLevel (s : State) (g : Nat) : OnlyRegs s (s.setLevel g) [pwrBase + 0x50, logBase + 4] := by
  unfold State.setLevel
  extract_lets old h pay s1 s2 s3
  have hl : logBase + 4 ∈ [pwrBase + 0x50, logBase + 4] := by simp
  have h1 : OnlyRegs s s1 [pwrBase + 0x50, logBase + 4] := fun _ _ => rfl
  have h2 : OnlyRegs s s2 [pwrBase + 0x50, logBase + 4] := onlyRegs_ite (h1.trans ((onlyRegs_raise _ hl _ _ _ _).trans (onlyRegs_powerInt _ _))) h1
  have h3 : OnlyRegs s s3 [pwrBase + 0x50, logBase + 4] := onlyRegs_ite (h2.trans ((onlyRegs_raise _ hl _ _ _ _).trans (onlyRegs_powerInt _ _))) h2
  exact onlyRegs_ite (h3.trans (onlyRegs_raise _ hl _ _ _ _)) h3

/-! ### What follows for rounds, slacks and stretches -/

theorem part_unfloored {s t : State} (h : t.ungoverned = s.ungoverned) (p : Nat) : (t.part p).unfloored = (s.part p).unfloored := by
  have hm : t.parts.map Partition.unfloored = s.parts.map Partition.unfloored := congrArg Prod.fst h
  rw [State.part, State.part, ← List.getD_map t.parts (d := {}) Partition.unfloored, hm, List.getD_map]

theorem length_of_ungoverned {s t : State} (h : t.ungoverned = s.ungoverned) : t.parts.length = s.parts.length := by
  have hm : t.parts.map Partition.unfloored = s.parts.map Partition.unfloored := congrArg Prod.fst h
  simpa using congrArg List.length hm

theorem held_of_ungoverned {s t : State} (h : t.ungoverned = s.ungoverned) : t.wells = s.wells ∧ t.qps = s.qps ∧ t.lantus = s.lantus :=
  ⟨congrArg (fun g => g.2.1) h, congrArg (fun g => g.2.2.1) h, congrArg (fun g => g.2.2.2) h⟩

theorem round_of_ungoverned {s t : State} (h : t.ungoverned = s.ungoverned) (p : Nat) : t.round p = s.round p :=
  (congrArg Partition.round (part_unfloored h p) :)

theorem slackOf_of_ungoverned {s t : State} (h : t.ungoverned = s.ungoverned) (p : Nat) : t.slackOf p = s.slackOf p := by
  have himage : (t.part p).image = (s.part p).image := (congrArg Partition.image (part_unfloored h p) :)
  rw [State.slackOf, State.slackOf, round_of_ungoverned h, himage]

theorem stretches_of_ungoverned {s t : State} (h : t.ungoverned = s.ungoverned) (p : Nat) :
    (t.part p).stretch = (s.part p).stretch ∧ (t.part p).stretchNext = (s.part p).stretchNext :=
  ⟨(congrArg Partition.stretch (part_unfloored h p) :), (congrArg Partition.stretchNext (part_unfloored h p) :)⟩

theorem lastSent_of_ungoverned {s t : State} (h : t.ungoverned = s.ungoverned) (p : Nat) : t.lastSent p = s.lastSent p := by
  obtain ⟨hnow, hnext⟩ := stretches_of_ungoverned h p
  rw [State.lastSent, State.lastSent, hnext, hnow]

/-! ## Stretches that are sent (R464, R466) -/

/-- Rounds, wells, queue pairs and Lantus, power and registers: what sending a stretch leaves alone. -/
def State.unsent (s : State) : List Round × List Well × List (Nat × Qp) × Lantus × Power × List (Nat × W32) :=
  (s.parts.map Partition.round, s.wells, s.qps, s.lantus, s.power, s.regs)

theorem sendStretch_unsent (s : State) (p v : Nat) : (s.sendStretch p v).unsent = s.unsent := by
  unfold State.sendStretch
  split
  · rfl
  · simp only [State.unsent, State.modPart_wells, State.modPart_qps, State.modPart_lantus, State.modPart_power, State.modPart_regs, Prod.mk.injEq, and_true]
    exact map_updAt_self _ _ _ (fun _ => rfl)

theorem sendStretch_length (s : State) (p v : Nat) : (s.sendStretch p v).parts.length = s.parts.length := by
  unfold State.sendStretch
  split
  · rfl
  · exact updAt_length _ _ _

theorem lastSent_sendStretch_self {s : State} {p v : Nat} (hp : p < s.parts.length) (hv : v ≤ 1023) : (s.sendStretch p v).lastSent p = v := by
  unfold State.sendStretch
  split
  · rename_i h
    exact (h.resolve_right (by omega)).symm
  · rw [State.lastSent, State.part_modPart, if_pos ⟨rfl, hp⟩]
    simp

theorem lastSent_sendStretch_ne (s : State) {p q : Nat} (v : Nat) (h : q ≠ p) : (s.sendStretch p v).lastSent q = s.lastSent q := by
  unfold State.sendStretch
  split
  · rfl
  · rw [State.lastSent, State.part_modPart, if_neg (fun hc => h hc.1), State.lastSent]

/-- Each of the 24 partitions is sent the stretch of a rule. -/
def State.sendStretches (s : State) (f : Nat → Nat) : State := s.each (List.range 24) (fun u p => u.sendStretch p (f p))

theorem lastSent_sendStretches {s : State} (f : Nat → Nat) {p : Nat} (hp : p < 24) (hlen : p < s.parts.length) (hv : f p ≤ 1023) :
    (s.sendStretches f).lastSent p = f p := by
  have hsent : p < (s.sendStretches f).parts.length → (s.sendStretches f).lastSent p = f p := by
    refine each_establishes (P := fun t : State => p < t.parts.length → t.lastSent p = f p) (List.mem_range.mpr hp)
      (fun t ht => lastSent_sendStretch_self (by rwa [sendStretch_length] at ht) hv) (fun q _ t ih ht => ?_)
    rw [sendStretch_length] at ht
    by_cases hq : p = q
    · subst hq
      exact lastSent_sendStretch_self ht hv
    · rw [lastSent_sendStretch_ne t _ hq, ih ht]
  refine hsent ?_
  rwa [State.sendStretches, each_kept (fun t : State => t.parts.length) _ _ _ (fun q _ t => sendStretch_length t q _)]

theorem sendStretches_unsent (s : State) (f : Nat → Nat) : (s.sendStretches f).unsent = s.unsent :=
  each_kept State.unsent _ _ _ (fun q _ t => sendStretch_unsent t q _)

theorem round_of_unsent {s t : State} (h : t.unsent = s.unsent) (p : Nat) : t.round p = s.round p := by
  have hm : t.parts.map Partition.round = s.parts.map Partition.round := congrArg Prod.fst h
  rw [State.round, State.part, ← List.getD_map t.parts (d := {}) Partition.round, hm, List.getD_map]
  rfl

theorem held_of_unsent {s t : State} (h : t.unsent = s.unsent) :
    t.wells = s.wells ∧ t.qps = s.qps ∧ t.lantus = s.lantus ∧ t.power = s.power ∧ t.regs = s.regs :=
  ⟨congrArg (fun g => g.2.1) h, congrArg (fun g => g.2.2.1) h, congrArg (fun g => g.2.2.2.1) h, congrArg (fun g => g.2.2.2.2.1) h,
    congrArg (fun g => g.2.2.2.2.2) h⟩

/-- After a level is set and every stretch sent: rounds, wells, queue pairs and Lantus are as before, and each partition was sent its stretch. -/
structure Governed (s t : State) (f : Option Nat → Nat) : Prop where
  round : ∀ p, t.round p = s.round p
  wells : t.wells = s.wells
  qps : t.qps = s.qps
  lantus : t.lantus = s.lantus
  sent : ∀ p, p < 24 → p < s.parts.length → f (s.slackOf p) ≤ 1023 → t.lastSent p = f (s.slackOf p)

theorem governed_sendStretches {s u : State} (h : u.ungoverned = s.ungoverned) (f : Option Nat → Nat) :
    Governed s (u.sendStretches (fun p => f (u.slackOf p))) f := by
  have hsent := sendStretches_unsent u (fun p => f (u.slackOf p))
  obtain ⟨hw, hq, hl, -, -⟩ := held_of_unsent hsent
  obtain ⟨hw', hq', hl'⟩ := held_of_ungoverned h
  refine ⟨fun p => (round_of_unsent hsent p).trans (round_of_ungoverned h p), hw.trans hw', hq.trans hq', hl.trans hl', fun p hp hlen hv => ?_⟩
  rw [← slackOf_of_ungoverned h] at hv ⊢
  exact lastSent_sendStretches _ hp (by rwa [length_of_ungoverned h]) hv

/-- What is governed stays so while only the admission floor is watched. -/
theorem Governed.floored {s t u : State} {f : Option Nat → Nat} (h : Governed s t f) (hu : u.ungoverned = t.ungoverned) : Governed s u f := by
  obtain ⟨hw, hq, hl⟩ := held_of_ungoverned hu
  exact ⟨fun p => (round_of_ungoverned hu p).trans (h.round p), hw.trans h.wells, hq.trans h.qps, hl.trans h.lantus,
    fun p hp hlen hv => (lastSent_of_ungoverned hu p).trans (h.sent p hp hlen hv)⟩

theorem running_of_serves {s : State} (h : s.serves = true) : s.life = .running := by
  simp only [State.serves, Bool.and_eq_true, beq_iff_eq] at h
  exact h.1.1

/-- A stretch by its level, 0 where the round gives no slack. -/
def stretchAtLevel (g : Nat) (k : Option Nat) : Nat := match k with | some k => stretchAt g k | none => 0

/-- The floor of a stretch, 0 where the round gives no slack. -/
def floorStretch (k : Option Nat) : Nat := match k with | some k => sFloor k | none => 0

theorem governorPeriod_governs {s : State} (hs : s.serves = true) (hms : s.devtime % 400000 = 0) (hlast : s.power.lastPeriod < s.devtime)
    (hv : s.power.vrAlert = false) :
    ∃ t, exec .governorPeriod s = .next t ∧ t.power.lastPeriod = s.devtime ∧ t.power.vrAlert = false ∧
      t.power.g = nextLevel s.power.g s.periodReading ∧ Governed s t (stretchAtLevel (nextLevel s.power.g s.periodReading)) := by
  have hrun : exec .governorPeriod s = execGovernorPeriod s := rfl
  rw [hrun, execGovernorPeriod]
  extract_lets t s0 s1 s2 s3
  rw [if_neg (by simp [running_of_serves hs, hs, hms, hlast]), if_neg (by simp [hv])]
  have h2 : s2.ungoverned = s.ungoverned := by simp [s2, s1, s0]
  have hp1 : s1.power = { s.power with lastPeriod := s.devtime, vrAlert := false } := by
    unfold s1
    split <;> simp [s0]
  obtain ⟨hg, hper, hal⟩ : s2.power.g = nextLevel s.power.g s.periodReading ∧ s2.power.lastPeriod = s.devtime ∧ s2.power.vrAlert = false := by
    unfold s2
    rw [setLevel_power, hp1]
    exact ⟨rfl, rfl, rfl⟩
  have h3 : s3 = s2.sendStretches (fun p => stretchAtLevel s2.power.g (s2.slackOf p)) := rfl
  clear_value s3
  obtain ⟨-, -, -, hp3, -⟩ := held_of_unsent (sendStretches_unsent s2 (fun p => stretchAtLevel s2.power.g (s2.slackOf p)))
  rw [← h3] at hp3
  have hgov := governed_sendStretches h2 (stretchAtLevel s2.power.g)
  rw [← h3, hg] at hgov
  refine ⟨s3.watchFloor, rfl, ?_, ?_, ?_, hgov.floored (watchFloor_ungoverned s3)⟩
  all_goals rw [watchFloor_power, hp3]
  exacts [hper, hal, hg]

theorem governorPeriod_alerted {s : State} (hs : s.serves = true) (hms : s.devtime % 400000 = 0) (hlast : s.power.lastPeriod < s.devtime)
    (hv : s.power.vrAlert = true) :
    ∃ t, exec .governorPeriod s = .next t ∧ t.power = { s.power with lastPeriod := s.devtime, vrAlert := false } ∧ t.ungoverned = s.ungoverned := by
  have hrun : exec .governorPeriod s = execGovernorPeriod s := rfl
  rw [hrun, execGovernorPeriod]
  extract_lets t s0 s1 s2 s3
  rw [if_neg (by simp [running_of_serves hs, hs, hms, hlast]), if_pos hv]
  exact ⟨s0.watchFloor, rfl, watchFloor_power s0, watchFloor_ungoverned s0⟩

/-- VR_ALERT_N before its stretches are sent: the level is 2,000 and the alert is counted. -/
def State.alerted (s : State) : State :=
  ((((s.count (pwrBase + 0x4C)).powerInt 3).raise 0x0C0B 0x1F 0 []).setLevel 2000).modPower (fun y => { y with vrAlert := true })

theorem alerted_ungoverned (s : State) : s.alerted.ungoverned = s.ungoverned := by
  rw [State.alerted, modPower_ungoverned, setLevel_ungoverned, raise_ungoverned, powerInt_ungoverned]
  rfl

theorem alerted_power (s : State) : s.alerted.power.g = 2000 ∧ s.alerted.power.vrAlert = true := by
  rw [State.alerted, State.modPower_power, setLevel_power]
  exact ⟨rfl, rfl⟩

theorem reg_alerted (s : State) : s.alerted.reg (pwrBase + 0x4C) = min (s.reg (pwrBase + 0x4C) + 1) 0xFFFFFFFF := by
  have hl : logBase + 4 ∈ [pwrBase + 0x50, logBase + 4] := by simp
  have hregs : OnlyRegs (s.count (pwrBase + 0x4C)) s.alerted [pwrBase + 0x50, logBase + 4] :=
    ((onlyRegs_powerInt _ _).trans (onlyRegs_raise _ hl _ _ _ _)).trans (onlyRegs_setLevel _ _)
  rw [hregs _ (by decide), State.reg_count, if_pos rfl]

theorem vrAlertN_governs {s : State} (hlife : s.life = .running) (hal : s.alive = true) :
    ∃ t, exec .vrAlertN s = .next t ∧ t.power.g = 2000 ∧ t.power.vrAlert = true ∧ t.reg (pwrBase + 0x4C) = min (s.reg (pwrBase + 0x4C) + 1) 0xFFFFFFFF ∧
      Governed s t floorStretch := by
  have hrun : exec .vrAlertN s = .next (s.alerted.sendStretches (fun p => floorStretch (s.alerted.slackOf p))) :=
    if_neg (by simp [hlife, hal])
  obtain ⟨-, -, -, hp, hr⟩ := held_of_unsent (sendStretches_unsent s.alerted (fun p => floorStretch (s.alerted.slackOf p)))
  refine ⟨_, hrun, ?_, ?_, ?_, governed_sendStretches (alerted_ungoverned s) floorStretch⟩
  · rw [hp, (alerted_power s).1]
  · rw [hp, (alerted_power s).2]
  · rw [State.reg, State.regW, hr, ← State.regW, ← State.reg, reg_alerted]

/-! ## STRETCH_ACTIVATION (R205) -/

/-- A partition whose stretches have come due by a time. -/
def Partition.activated (x : Partition) (v now : Nat) : Partition :=
  { x with stretch := v, stretchNext := x.stretchNext.filter (fun e => decide (now < e.2)) }

/-- The admission floor is a matter of the partitions alone. -/
theorem watchFloor_eq (s : State) : s.watchFloor = { s with parts := s.watchFloor.parts } := by
  have hkeep : ({ s.watchFloor with parts := [] } : State) = { s with parts := [] } :=
    each_kept (fun t : State => ({ t with parts := [] } : State)) _ _ _ (fun q _ t => by split <;> rfl)
  generalize s.watchFloor = u at hkeep ⊢
  exact congrArg (fun v : State => { v with parts := u.parts }) hkeep

theorem stretchActivation_activates {p : Nat} {s : State} (hal : s.alive = true) (hp : p < s.parts.length) :
    ∃ t, exec (.stretchActivation p) s = .next t ∧ (t.part p).stretch = s.stretchOf p ∧
      (t.part p).stretchNext = (s.part p).stretchNext.filter (fun e => decide (s.devtime < e.2)) ∧ (∀ q, t.round q = s.round q) ∧
      t = { s with parts := t.parts } := by
  have hrun : exec (.stretchActivation p) s = .next (s.modPart p (fun x => x.activated (s.stretchOf p) s.devtime)).watchFloor := if_neg (by simp [hal])
  have hu : (s.modPart p (fun x => x.activated (s.stretchOf p) s.devtime)).part p = (s.part p).activated (s.stretchOf p) s.devtime := by
    rw [State.part_modPart, if_pos ⟨rfl, hp⟩]
  have hround : ∀ q, (s.modPart p (fun x => x.activated (s.stretchOf p) s.devtime)).round q = s.round q := fun q => by
    rw [State.round, State.part_modPart]
    split
    · rename_i h
      rw [h.1]
      rfl
    · rfl
  generalize hm : s.modPart p (fun x => x.activated (s.stretchOf p) s.devtime) = u at hrun hu hround
  obtain ⟨hnow, hnext⟩ := stretches_of_ungoverned (watchFloor_ungoverned u) p
  refine ⟨_, hrun, ?_, ?_, fun q => (round_of_ungoverned (watchFloor_ungoverned u) q).trans (hround q), ?_⟩
  · rw [hnow, hu]
    rfl
  · rw [hnext, hu]
    rfl
  · have hw := watchFloor_eq u
    generalize u.watchFloor = v at hw
    rw [hw, ← hm]
    rfl

/-- Settles O39: a sample keeps the hottest reading, a level changes power and registers alone, and each stretch that is sent is the last one of its partition. -/
theorem governorSetsStretch : Obligations.GovernorSetsStretch := by
  refine ⟨fun rs s hl hp hlen hr => thermalSample_keeps hl hp hlen hr, fun s hs hms hlast => ?_, fun g x => ?_, fun s hlife hal => ?_,
    fun p s hal hp => stretchActivation_activates hal hp⟩
  · cases hv : s.power.vrAlert
    · obtain ⟨t, hrun, hper, hal, hg, h⟩ := governorPeriod_governs hs hms hlast hv
      exact ⟨t, hrun, hper, hal, hg, fun _ => h.sent, h.round, h.wells, h.lantus, h.qps⟩
    · obtain ⟨t, hrun, hpow, h⟩ := governorPeriod_alerted hs hms hlast hv
      obtain ⟨hw, hq, hl⟩ := held_of_ungoverned h
      exact ⟨t, hrun, by rw [hpow], by rw [hpow], by rw [hpow]; rfl, nofun, round_of_ungoverned h, hw, hl, hq⟩
  · unfold nextLevel
    refine ⟨fun h => if_pos h, fun h1 h2 => ?_, fun h => ?_⟩
    · rw [if_neg (by omega), if_pos h1]
    · rw [if_neg (by omega), if_neg (by omega)]
  · obtain ⟨t, hrun, hg, hv, hreg, h⟩ := vrAlertN_governs hlife hal
    exact ⟨t, hrun, hg, hv, hreg, h.sent, h.round, h.wells, h.lantus, h.qps⟩

end Sys2Proof.Machine

namespace Sys2Proof.Machine

open Sys2Proof

/-! ## The next step of a windlass (R205, R206) -/

/-- The issue of the next step of a tile, which is no NOP. -/
def State.nextIssue (s : State) (t : TileRef) : Issue :=
  let x := s.tile t
  let w := stepWord (x.stepBytes x.next)
  ⟨w, x.next, x.issueAt (unitsOf w), s.owner t.well, x.store⟩

/-- The state in which the operation of that step runs. -/
def State.nextIssued (s : State) (t : TileRef) : State :=
  let i := s.nextIssue t
  (s.noteLate t i.part i.idx (i.at_ - (s.tile t).due)).issued t i.idx i.at_ i.w.gap (s.stretchAt i.part (i.at_ / 4))

/-- A windlass whose next step is no NOP skips nothing. -/
theorem skipNops_of_opcode {s : State} {t : TileRef} (h : (stepWord ((s.tile t).stepBytes (s.tile t).next)).opcode ≠ 0) (p fuel : Nat) :
    s.skipNops t p fuel = s := by
  cases fuel with
  | zero => rfl
  | succ fuel => exact if_neg (fun hc => h hc.2.2)

theorem issues_nextIssue {s : State} {t : TileRef} {op : Nat} (hruns : Runs s t) (h0 : op ≠ 0) (hdue : (s.tile t).due < s.tickEnd)
    (hgood : (s.tile t).stepFault (s.tile t).next = none) (hop : (s.nextIssue t).w.opcode = op)
    (hfree : (s.tile t).transferFree (unitsOf (s.nextIssue t).w) = true) (hat : (s.nextIssue t).at_ < s.tickEnd) :
    Issues s t op (s.nextIssue t) (s.nextIssued t) := by
  refine ⟨hruns, ?_⟩
  simp only [skipNops_of_opcode (s := s) (t := t) (fun h => h0 (hop.symm.trans h))]
  exact ⟨hdue, hgood, hop, hfree, hat, rfl, rfl⟩

theorem stepEnd_of_issues {s u : State} {t : TileRef} {i : Issue} (h : Issues s t 0x06 i u) :
    exec (.stepEnd t) s = .next ((u.modTile t (fun x => { x with state := .stopped, aesKey := [], serving := none })).finishAbort i.part) := by
  show execStepEnd t s = _
  rw [execStepEnd, execStep_of_issues h]

/-! ## An END that does not stay stopped (R209, R211, R518) -/

/-- The 32 bytes of an END step. -/
def endStep : Bytes := sealCrc (bytesOf [6] ++ zeros 31)

/-- Tile 0 of well 0. -/
def firstTile : TileRef := ⟨0, 0⟩

/-- Partition 0 holds well 0, its round waits in INTAKE for a ROUND_ABORT, and the one windlass that runs, at an END step, still holds a wait for FAILED. -/
def staleWait : State :=
  { State.reset with
    life := .running
    access := { State.reset.access with owners := List.replicate 3 (0 :: List.replicate 23 0x1F) }
    parts := { round := { state := .intake, abortPending := true } } :: List.replicate 23 {}
    wells := { tiles := { state := .running, waiting := some (0, RoundState.failed.code), steps := memWrite [] 0 endStep } :: List.replicate 24 {} } ::
      List.replicate 23 {} }

theorem staleWait_issues : Issues staleWait firstTile 0x06 (staleWait.nextIssue firstTile) (staleWait.nextIssued firstTile) := by
  refine issues_nextIssue ?_ ?_ ?_ ?_ ?_ ?_ ?_
  · unfold Runs
    decide +kernel
  all_goals decide +kernel

/-- END brings the last windlass to rest, so the abort fails the round, and with FAILED entered the wait that the tile still holds is served: it runs on. -/
theorem staleWait_runs_on :
    ((((staleWait.nextIssued firstTile).modTile firstTile (fun x => { x with state := .stopped, aesKey := [], serving := none })).finishAbort
      (staleWait.nextIssue firstTile).part).tile firstTile).state = .running := by
  decide +kernel

/-- Refutes O51: END does not leave every windlass STOPPED. The statement lets a windlass run while its record still holds a wait; in `staleWait` that is a wait
for FAILED, and the ROUND_ABORT that END carries out enters FAILED and serves it. -/
theorem not_windlassStepsAdvance : ¬ Obligations.WindlassStepsAdvance := by
  unfold Obligations.WindlassStepsAdvance
  rintro ⟨-, -, -, -, hsteps, -⟩
  have hheld : Held staleWait firstTile := by
    unfold Held
    decide
  obtain ⟨-, -, -, -, -, -, -, hend, -⟩ := hsteps firstTile (staleWait.nextIssue firstTile) (staleWait.nextIssued firstTile) staleWait hheld (by decide)
  obtain ⟨v, hrun, hstopped, -⟩ := hend staleWait_issues
  rw [stepEnd_of_issues staleWait_issues, Host.Outcome.next.injEq] at hrun
  rw [← hrun, staleWait_runs_on] at hstopped
  cases hstopped

end Sys2Proof.Machine

namespace Sys2Proof.Machine

open Sys2Proof

/-! ## What a well records of its tiles and buckets (R222, R224, R257)

The substitution table, the failed tiles, the count of remaps, the service and the retired buckets of a well: accesses to its memories, its windlasses and the
end of a round leave them alone. -/

/-- What a remap and a retirement set in a well beside its tiles. -/
def Well.mapping (x : Well) : List Nat × List Nat × Nat × Bool × List Nat := (x.subst, x.failed, x.remaps, x.inService, x.retired)

/-- What remaps and retirements have set in every well. -/
def State.mappings (s : State) : List (List Nat × List Nat × Nat × Bool × List Nat) := s.wells.map Well.mapping

theorem mapping_of_mappings {s d : State} (h : d.mappings = s.mappings) (w : Nat) : (d.well w).mapping = (s.well w).mapping := by
  have hm : d.wells.map Well.mapping = s.wells.map Well.mapping := h
  rw [State.well, State.well, ← List.getD_map d.wells (d := {}) Well.mapping, hm, List.getD_map]

theorem length_of_mappings {s d : State} (h : d.mappings = s.mappings) : d.wells.length = s.wells.length := by
  have hl := congrArg List.length h
  rwa [State.mappings, State.mappings, List.length_map, List.length_map] at hl

theorem mappings_of_wells {s d : State} (h : d.wells = s.wells) : d.mappings = s.mappings := congrArg (List.map Well.mapping) h

theorem each_mappings {α : Type} (s : State) (l : List α) (f : State → α → State) (h : ∀ t a, (f t a).mappings = t.mappings) :
    (s.each l f).mappings = s.mappings := each_kept State.mappings s l f (fun a _ t => h t a)

theorem modWell_mappings (s : State) (w : Nat) {f : Well → Well} (h : ∀ x, (f x).mapping = x.mapping) : (s.modWell w f).mappings = s.mappings :=
  map_updAt_self _ _ _ h

@[simp] theorem modTile_mappings (s : State) (t : TileRef) (f : Tile → Tile) : (s.modTile t f).mappings = s.mappings := modWell_mappings s t.well (fun _ => rfl)
@[simp] theorem modPart_mappings (s : State) (p : Nat) (f : Partition → Partition) : (s.modPart p f).mappings = s.mappings := rfl
@[simp] theorem modRound_mappings (s : State) (p : Nat) (f : Round → Round) : (s.modRound p f).mappings = s.mappings := rfl
@[simp] theorem setReg64_mappings (s : State) (x v : Nat) : (s.setReg64 x v).mappings = s.mappings := rfl
@[simp] theorem setRecord_mappings (s : State) (x v : Nat) : (s.setRecord x v).mappings = s.mappings := rfl
@[simp] theorem count_mappings (s : State) (x : Nat) : (s.count x).mappings = s.mappings := rfl

@[simp] theorem raise_mappings (s : State) (code part src : Nat) (l : List (Nat × Nat)) : (s.raise code part src l).mappings = s.mappings :=
  mappings_of_wells (State.raise_wells _ _ _ _ _)

@[simp] theorem roundInt_mappings (s : State) (p b : Nat) : (s.roundInt p b).mappings = s.mappings := mappings_of_wells (roundInt_wells _ _ _)

/-! ### Reads of the memories -/

theorem putBucket_mappings (s : State) (lp : Bool) (w b : Nat) (data : Bytes) : (s.putBucket lp w b data).mappings = s.mappings :=
  modWell_mappings s w (fun x => by cases lp <;> rfl)

theorem bankRead_mappings (s : State) (lp : Bool) (w b : Nat) : (s.bankRead lp w b).2.mappings = s.mappings := by
  unfold State.bankRead
  split
  · rfl
  · split <;> rfl

theorem cisUncorrectable_mappings (s : State) (w b kind : Nat) : (s.cisUncorrectable w b kind).mappings = s.mappings := by
  rw [State.cisUncorrectable, raise_mappings, setRecord_mappings, count_mappings]

theorem lpxReadFails_mappings (s : State) (w b : Nat) : (s.lpxReadFails w b).mappings = s.mappings := by
  rw [State.lpxReadFails, modWell_mappings, State.lpxUncorrectable, raise_mappings, setReg64_mappings, count_mappings]
  exact fun _ => rfl

theorem writeBack_mappings (s : State) (lp : Bool) (w : Nat) (e : MergeEntry) : (s.writeBack lp w e).mappings = s.mappings := by
  unfold State.writeBack
  dsimp only
  split
  · rw [modWell_mappings, putBucket_mappings, cisUncorrectable_mappings, count_mappings, bankRead_mappings]
    exact fun _ => rfl
  · rw [putBucket_mappings, count_mappings, bankRead_mappings]

theorem settleEntry_mappings (s : State) (lp : Bool) (w b : Nat) : (s.settleEntry lp w b).mappings = s.mappings := by
  unfold State.settleEntry
  split
  · exact writeBack_mappings _ _ _ _
  · rfl

theorem bucketRead_mappings (s : State) (lp : Bool) (w b kind : Nat) : (s.bucketRead lp w b kind).2.2.mappings = s.mappings := by
  have h : ((s.settleEntry lp w b).bankRead lp w b).2.mappings = s.mappings := (bankRead_mappings _ _ _ _).trans (settleEntry_mappings _ _ _ _)
  unfold State.bucketRead
  dsimp only
  (repeat' split)
  · exact (lpxReadFails_mappings _ _ _).trans h
  · exact h
  · exact (cisUncorrectable_mappings _ _ _ _).trans h
  · exact h

theorem readBuckets_mappings (s : State) (kind n addr : Nat) : (s.readBuckets kind n addr).2.2.mappings = s.mappings := by
  induction n generalizing s addr with
  | zero => rfl
  | succ n ih =>
    unfold State.readBuckets
    split
    · exact (ih _ _).trans (bucketRead_mappings _ _ _ _ _)
    · exact ih _ _

/-! ### The end of a round (R51, R70, R82) -/

theorem stopWindlasses_mappings (s : State) (p : Nat) : (s.stopWindlasses p).mappings = s.mappings :=
  (modPart_mappings _ _ _).trans (each_mappings _ _ _ (fun t r => modTile_mappings t r Tile.stop))

/-- Emptying a list of ranges keeps what a well records of its tiles and buckets. -/
theorem mapping_zeroRanges (l : List (Nat × Nat × Nat)) (x : Well) :
    (l.foldl (fun y e => (y.dropUnits e.2.1 e.2.2).zeroRange e.2.1 (e.2.2 + 1 - e.2.1)) x).mapping = x.mapping := by
  induction l generalizing x with
  | nil => rfl
  | cons e l ih => exact ih _

theorem wipeRanges_mappings (s : State) (p : Nat) : (s.wipeRanges p).mappings = s.mappings :=
  (modPart_mappings _ _ _).trans (each_mappings _ _ _ (fun _ _ => modWell_mappings _ _ (fun _ => mapping_zeroRanges _ _)))

theorem dropUploads_mappings (s : State) (p : Nat) : (s.dropUploads p).mappings = s.mappings :=
  (modPart_mappings _ _ _).trans (each_mappings _ _ _ (fun t u => mappings_of_wells (State.modQp_wells t u.qpn _)))

theorem putAway_mappings (s : State) (p : Nat) (st : Status) : (s.putAway p st).mappings = s.mappings := by
  rw [State.putAway, modRound_mappings, dropUploads_mappings, wipeRanges_mappings, stopWindlasses_mappings]

theorem showState_mappings (s : State) (p : Nat) (st : RoundState) : (s.showState p st).mappings = s.mappings := by
  unfold State.showState
  dsimp only
  rw [raise_mappings, roundInt_mappings, modRound_mappings]
  split
  · exact modPart_mappings _ _ _
  · rfl

theorem serveWaits_mappings (s : State) (p : Nat) : (s.serveWaits p).mappings = s.mappings :=
  serveWaits_invariant (P := fun t => t.mappings = s.mappings) rfl (fun _ _ _ h => h) (fun r _ t f h => (modTile_mappings t r f).trans h)

theorem enterState_mappings (s : State) (p : Nat) (st : RoundState) : (s.enterState p st).mappings = s.mappings := by
  rw [State.enterState, State.releaseState, serveWaits_mappings, modRound_mappings, showState_mappings]

theorem completeAborts_mappings (s : State) (p : Nat) : (s.completeAborts p).mappings = s.mappings :=
  each_mappings s _ _ (fun t c => mappings_of_wells (complete_links t c .ok 0 0).2)

theorem queueRecord_mappings (s : State) (p n : Nat) (rec : Bytes) : (s.queueRecord p n rec).mappings = s.mappings :=
  mappings_of_wells (queueRecord_records s p n rec).wells

theorem failNow_mappings (s : State) (p : Nat) (st : Status) : (s.failNow p st).mappings = s.mappings := by
  rw [State.failNow, completeAborts_mappings, each_mappings _ _ _ (fun t n => queueRecord_mappings t p n _), raise_mappings, roundInt_mappings,
    enterState_mappings, ← State.putAway, putAway_mappings]

theorem finishRound_mappings (s : State) (p : Nat) (st : Status) : (s.finishRound p st).mappings = s.mappings := by
  rw [State.finishRound, completeAborts_mappings, raise_mappings, roundInt_mappings, enterState_mappings, ← State.putAway, putAway_mappings]

theorem failRound_mappings (s : State) (p : Nat) (st : Status) : (s.failRound p st).mappings = s.mappings := by
  unfold State.failRound
  dsimp only
  (repeat' split)
  · exact failNow_mappings _ _ _
  · exact failNow_mappings _ _ _
  · exact finishRound_mappings _ _ _
  · rfl

theorem faultCause_mappings (s : State) (p : Nat) (st : Status) : (s.faultCause p st).mappings = s.mappings := by
  unfold State.faultCause
  split
  · exact failRound_mappings _ _ _
  · rfl

/-- A well that leaves service keeps its failed tiles, as every other well does. -/
theorem failed_wellOut (s : State) (w cause v : Nat) : ((s.wellOut w cause).well v).failed = (s.well v).failed := by
  unfold State.wellOut
  split
  · have h := mapping_of_mappings ((faultCause_mappings
      ((s.modWell w (fun x => { x with inService := false })).raise 0x0D03 (s.planOwner w) 0 [(8, w), (8, cause)]) (s.planOwner w) .uncorrectable).trans
        (raise_mappings _ _ _ _ _)) v
    refine (congrArg (fun m => m.2.1) h).trans ?_
    show ((s.modWell w (fun x => { x with inService := false })).well v).failed = _
    rw [State.well_modWell]
    split
    · rename_i hv
      rw [hv.1]
    · rfl
  · rfl

end Sys2Proof.Machine

namespace Sys2Proof.Machine

open Sys2Proof

/-! ## What a remap leaves alone (R224) -/

/-- Queue pairs, partitions, Lantus, commands and what every well records of its tiles and buckets are as before, and so are the tiles of every other well. -/
structure FillScope (s d : State) (w : Nat) : Prop where
  mappings : d.mappings = s.mappings
  tiles : ∀ v, v ≠ w → (d.well v).tiles = (s.well v).tiles
  parts : d.parts = s.parts
  qps : d.qps = s.qps
  lantus : d.lantus = s.lantus
  cmds : d.cmds = s.cmds

theorem FillScope.refl (s : State) (w : Nat) : FillScope s s w := ⟨rfl, fun _ _ => rfl, rfl, rfl, rfl, rfl⟩

theorem FillScope.trans {s d e : State} {w : Nat} (h : FillScope s d w) (k : FillScope d e w) : FillScope s e w where
  mappings := k.mappings.trans h.mappings
  tiles v hv := (k.tiles v hv).trans (h.tiles v hv)
  parts := k.parts.trans h.parts
  qps := k.qps.trans h.qps
  lantus := k.lantus.trans h.lantus
  cmds := k.cmds.trans h.cmds

theorem fillScope_readBuckets (s : State) (w kind n addr : Nat) : FillScope s (s.readBuckets kind n addr).2.2 w := by
  have hg := readBuckets_ground s kind n addr
  have hu := readBuckets_unvoted s 0 kind n addr
  have hm := readBuckets_mappings s kind n addr
  have hl := (memScope_readBuckets s kind n addr).looms
  generalize (s.readBuckets kind n addr).2.2 = d at hg hu hm hl
  exact ⟨hm, fun v _ => tiles_of_looms hl v, congrArg (fun g => g.1) hg, congrArg (fun g => g.2.1) hu, congrArg (fun g => g.2.2.2.1) hg,
    congrArg (fun g => g.2.2.1) hu⟩

theorem fillScope_modTile (s : State) (t : TileRef) (f : Tile → Tile) : FillScope s (s.modTile t f) t.well :=
  ⟨modTile_mappings s t f, fun v hv => congrArg Well.tiles (onlyWell_modWell s t.well _ v hv), rfl, rfl, rfl, rfl⟩

theorem fillScope_raise (s : State) (w code part src : Nat) (l : List (Nat × Nat)) : FillScope s (s.raise code part src l) w := by
  rw [State.raise_eq]
  exact ⟨rfl, fun _ _ => rfl, rfl, rfl, rfl, rfl⟩

theorem fillScope_readSection (s : State) (w base : Nat) (x : SectionInfo) : FillScope s (s.readSection w base x).2.2 w := fillScope_readBuckets _ _ _ _ _

/-- One section is read and compared with its CRC. -/
def gateStep (w base : Nat) (a : Option SectionInfo × State) (x : SectionInfo) : Option SectionInfo × State :=
  let r := a.2.readSection w base x
  (if a.1.isNone && (r.2.1 || crc32c r.1 != x.crc) then some x else a.1, r.2.2)

theorem gateFails_eq (s : State) (w base : Nat) (xs : List SectionInfo) : s.gateFails w base xs = xs.foldl (gateStep w base) (none, s) := rfl

theorem fillScope_gateSteps (w base : Nat) (xs : List SectionInfo) (a : Option SectionInfo × State) :
    FillScope a.2 (xs.foldl (gateStep w base) a).2 w := by
  induction xs generalizing a with
  | nil => exact FillScope.refl _ _
  | cons x xs ih => exact (fillScope_readSection a.2 w base x).trans (ih (gateStep w base a x))

theorem fillScope_gateFails (s : State) (w base : Nat) (xs : List SectionInfo) : FillScope s (s.gateFails w base xs).2 w :=
  fillScope_gateSteps w base xs (none, s)

theorem fillScope_loadTable (s : State) (t : TileRef) (k : Nat) : FillScope s (s.loadTable t k) t.well := by
  unfold State.loadTable
  split
  · exact (fillScope_readBuckets _ _ _ _ _).trans (fillScope_modTile _ _ _)
  · exact fillScope_modTile _ _ _

theorem fillScope_loadTables (s : State) (t : TileRef) : FillScope s (s.loadTables t) t.well :=
  each_invariant (P := fun u => FillScope s u t.well) (FillScope.refl _ _)
    (fun _ _ _ h => h.trans ((fillScope_loadTable _ _ _).trans (fillScope_modTile _ _ _)))

theorem fillScope_fillTile (s : State) (p w lt : Nat) : FillScope s (s.fillTile p w lt) w := by
  unfold State.fillTile
  dsimp only
  split
  · exact (fillScope_readSection _ _ _ _).trans ((fillScope_modTile _ ⟨w, s.physOf w lt⟩ _).trans (fillScope_loadTables _ ⟨w, s.physOf w lt⟩))
  · exact FillScope.refl _ _

/-! ## A tile that fails, and the tile that takes its place (R218, R222, R225) -/

/-- A tile marked FAILED. -/
def Tile.broken (x : Tile) : Tile := { x with state := .failed, waiting := none, stopping := false }

/-- A well with one more failed tile. -/
def Well.withFailed (k : Nat) (x : Well) : Well := { x with tiles := updAt x.tiles k Tile.broken, failed := insertNat k x.failed }

/-- A well whose logical tile stands on another physical tile. -/
def Well.mapped (lt new : Nat) (x : Well) : Well := { x with subst := updAt x.subst lt (fun _ => new), remaps := min (x.remaps + 1) 255 }

theorem modWell_modWell (s : State) (w : Nat) (f g : Well → Well) : (s.modWell w f).modWell w g = s.modWell w (fun x => g (f x)) :=
  congrArg (fun l => { s with wells := l }) (updAt_updAt_at s.wells w {} rfl)

theorem markFailed_eq (s : State) (t : TileRef) :
    s.markFailed t = (s.modWell t.well (Well.withFailed t.tile)).setBits (substBase t.well + 0x10) t.tile t.tile 1 :=
  congrArg (fun u : State => u.setBits (substBase t.well + 0x10) t.tile t.tile 1) (modWell_modWell s t.well _ _)

theorem mapTile_eq (s : State) (w lt new : Nat) :
    s.mapTile w lt new = (s.modWell w (Well.mapped lt new)).setReg (substBase w + 0x18) ((s.modWell w (Well.mapped lt new)).well w).substCrc := rfl

theorem well_markFailed {s : State} {t : TileRef} (h : t.well < s.wells.length) :
    (s.markFailed t).well t.well = (s.well t.well).withFailed t.tile := by
  rw [markFailed_eq, State.setBits_well, well_modWell_self _ h]

theorem well_mapTile {s : State} {w : Nat} (lt new : Nat) (h : w < s.wells.length) : (s.mapTile w lt new).well w = (s.well w).mapped lt new := by
  rw [mapTile_eq, State.setReg_well, well_modWell_self _ h]

/-- A failed tile and the tile in its place: one well changes, and no partition, queue pair or command. -/
structure MoveScope (s d : State) (w : Nat) : Prop where
  others : OnlyWell s d w
  length : d.wells.length = s.wells.length
  parts : d.parts = s.parts
  qps : d.qps = s.qps
  lantus : d.lantus = s.lantus
  cmds : d.cmds = s.cmds

theorem MoveScope.trans {s d e : State} {w : Nat} (h : MoveScope s d w) (k : MoveScope d e w) : MoveScope s e w where
  others v hv := (k.others v hv).trans (h.others v hv)
  length := k.length.trans h.length
  parts := k.parts.trans h.parts
  qps := k.qps.trans h.qps
  lantus := k.lantus.trans h.lantus
  cmds := k.cmds.trans h.cmds

theorem moveScope_modWell (s : State) (w : Nat) (f : Well → Well) : MoveScope s (s.modWell w f) w :=
  ⟨onlyWell_modWell s w f, updAt_length _ _ _, rfl, rfl, rfl, rfl⟩

theorem moveScope_regsOnly {s d : State} (w : Nat) (h : RegsOnly s d) : MoveScope s d w := by
  rw [show d = _ from h]
  exact ⟨fun _ _ => rfl, rfl, rfl, rfl, rfl, rfl⟩

theorem moveScope_markFailed (s : State) (t : TileRef) : MoveScope s (s.markFailed t) t.well := by
  rw [markFailed_eq]
  exact (moveScope_modWell _ _ _).trans (moveScope_regsOnly _ (regsOnly_setBits _ _ _ _ _))

theorem moveScope_mapTile (s : State) (w lt new : Nat) : MoveScope s (s.mapTile w lt new) w := by
  rw [mapTile_eq]
  exact (moveScope_modWell _ _ _).trans (moveScope_regsOnly _ (regsOnly_setReg _ _ _))

/-! ## TILE_REMAP (R223, R224) -/

/-- Sections of the image that a remapped tile is filled from. -/
def State.remapSections (s : State) (w lt : Nat) : List SectionInfo :=
  if decide (s.owner w < 24) && (s.part (s.owner w)).image.state == .loaded then (s.part (s.owner w)).image.tileSections (s.rankOf w) lt else []

/-- The check gate of a remap. -/
def State.remapGate (s : State) (w lt : Nat) : Option SectionInfo × State :=
  s.gateFails w (((s.imageArea w).map (fun a => a.1)).getD 0) (s.remapSections w lt)

/-- A remap has been carried out: the logical tile stands on the new physical tile, and the old one is FAILED. -/
structure Remapped (s u : State) (w lt new : Nat) : Prop where
  self : (u.well w).mapping = (updAt (s.well w).subst lt (fun _ => new), insertNat (s.physOf w lt) (s.well w).failed, min ((s.well w).remaps + 1) 255,
    (s.well w).inService, (s.well w).retired)
  others : ∀ v, v ≠ w → (u.well v).mapping = (s.well v).mapping ∧ (u.well v).tiles = (s.well v).tiles
  parts : u.parts = s.parts
  qps : u.qps = s.qps
  lantus : u.lantus = s.lantus
  cmds : u.cmds = s.cmds

/-- Sections are read, the tile moves, and the new one is filled. -/
theorem remapped_of_scopes {s g m u : State} {w lt new : Nat} (hg : FillScope s g w) (hm : MoveScope g m w) (hu : FillScope m u w)
    (hself : m.well w = ((g.well w).withFailed (s.physOf w lt)).mapped lt new) : Remapped s u w lt new where
  self := by
    have h := mapping_of_mappings hg.mappings w
    rw [mapping_of_mappings hu.mappings, hself]
    simp only [Well.mapping, Prod.mk.injEq] at h
    obtain ⟨h1, h2, h3, h4, h5⟩ := h
    simp only [Well.mapping, Well.mapped, Well.withFailed, h1, h2, h3, h4, h5]
  others v hv := by
    rw [mapping_of_mappings hu.mappings, hu.tiles v hv, hm.others v hv]
    exact ⟨mapping_of_mappings hg.mappings v, hg.tiles v hv⟩
  parts := hu.parts.trans (hm.parts.trans hg.parts)
  qps := hu.qps.trans (hm.qps.trans hg.qps)
  lantus := hu.lantus.trans (hm.lantus.trans hg.lantus)
  cmds := hu.cmds.trans (hm.cmds.trans hg.cmds)

/-- The tile has moved, after the sections were read. -/
def State.moved (s : State) (w lt new : Nat) : State := ((s.remapGate w lt).2.markFailed ⟨w, s.physOf w lt⟩).mapTile w lt new

/-- The tile has moved, and is filled where its partition has an image. -/
def State.refilled (s : State) (w lt new : Nat) : State :=
  if decide (s.owner w < 24) && (s.part (s.owner w)).image.state == .loaded then (s.moved w lt new).fillTile (s.owner w) w lt else s.moved w lt new

theorem remap_eq {s : State} {w lt : Nat} (new : Nat) (k : Cmd) (hg : (s.remapGate w lt).1 = none) :
    s.remap w lt new k = ((s.refilled w lt new).raise 0x0505 (s.planOwner w) 0
      [(8, w), (8, lt), (8, s.physOf w lt), (8, new)]).complete k .ok 0 0 := by
  unfold State.remap
  extract_lets p old loaded xs g
  rw [show g.1 = none from hg]
  rfl

theorem remapped_refilled {s : State} {w : Nat} (lt new : Nat) (hw : w < s.wells.length) : Remapped s (s.refilled w lt new) w lt new := by
  have hgate : FillScope s (s.remapGate w lt).2 w := fillScope_gateFails s w _ _
  have hmark := moveScope_markFailed (s.remapGate w lt).2 ⟨w, s.physOf w lt⟩
  have hlen : w < (s.remapGate w lt).2.wells.length := by rwa [length_of_mappings hgate.mappings]
  refine remapped_of_scopes hgate (hmark.trans (moveScope_mapTile _ w lt new)) ?_ ?_
  · show FillScope (s.moved w lt new) (s.refilled w lt new) w
    unfold State.refilled
    split
    · exact fillScope_fillTile _ _ _ _
    · exact FillScope.refl _ _
  · rw [well_mapTile _ _ (by rwa [hmark.length]), well_markFailed (t := ⟨w, s.physOf w lt⟩) hlen]

theorem Remapped.raise {s u : State} {w lt new : Nat} (h : Remapped s u w lt new) (code part src : Nat) (l : List (Nat × Nat)) :
    Remapped s (u.raise code part src l) w lt new := by
  rw [State.raise_eq]
  exact ⟨h.self, h.others, h.parts, h.qps, h.lantus, h.cmds⟩

/-- The first tests of TILE_REMAP. -/
theorem tileRemap_refuses {c : CmdRef} {k : Cmd} {s : State} (hk : s.ready c 0x28 = some k) :
    (24 ≤ bits k.p0 7 0 ∨ 24 ≤ bits k.p0 15 8 → exec (.tileRemap c) s = .next (s.complete k .format 0 0)) ∧
    (bits k.p0 7 0 < 24 → bits k.p0 15 8 < 24 → s.owner (bits k.p0 7 0) < 24 → (s.round (s.owner (bits k.p0 7 0))).state.busy = true →
      exec (.tileRemap c) s = .next (s.complete k .state 0 0)) := by
  have hrun : exec (.tileRemap c) s = execTileRemap c s := rfl
  rw [hrun, execTileRemap, hk]
  refine ⟨fun h => if_pos h, fun hw hl ho hb => ?_⟩
  exact (if_neg (by omega)).trans (if_pos ⟨ho, hb⟩)

/-- A remap to the first unmapped tile of a well; NOT_READY when there is none (R224). -/
def State.remapUnmapped (s : State) (w lt : Nat) (k : Cmd) : Result :=
  match (s.well w).unmapped.head? with
  | none => .next (s.complete k .notReady 0 0)
  | some new => .next (s.remap w lt new k)

theorem remapUnmapped_of_nil {s : State} {w : Nat} (lt : Nat) (k : Cmd) (h : (s.well w).unmapped = []) :
    s.remapUnmapped w lt k = .next (s.complete k .notReady 0 0) := by
  unfold State.remapUnmapped
  rw [h]
  rfl

theorem remapUnmapped_of_cons {s : State} {w new : Nat} {rest : List Nat} (lt : Nat) (k : Cmd) (h : (s.well w).unmapped = new :: rest) :
    s.remapUnmapped w lt k = .next (s.remap w lt new k) := by
  unfold State.remapUnmapped
  rw [h]
  rfl

/-- TILE_REMAP on a well whose table agrees with its CRC, once its operands and the round allow it. -/
theorem tileRemap_admitted {c : CmdRef} {k : Cmd} {s : State} (hk : s.ready c 0x28 = some k) (hw : bits k.p0 7 0 < 24) (hl : bits k.p0 15 8 < 24)
    (hr : s.owner (bits k.p0 7 0) < 24 → (s.round (s.owner (bits k.p0 7 0))).state.busy = false) (hg : s.substGood (bits k.p0 7 0) = true) :
    exec (.tileRemap c) s = if bit k.p0 16 then .next (s.retireWell (bits k.p0 7 0) (bits k.p0 15 8) k)
      else s.remapUnmapped (bits k.p0 7 0) (bits k.p0 15 8) k := by
  have hrun : exec (.tileRemap c) s = execTileRemap c s := rfl
  have hbusy : ¬ (s.owner (bits k.p0 7 0) < 24 ∧ (s.round (s.owner (bits k.p0 7 0))).state.busy = true) := fun h => by simp [hr h.1] at h
  rw [hrun, execTileRemap, hk]
  dsimp only
  rw [if_neg (by omega), if_neg hbusy, checkSubst_good (fun _ => hg)]
  rfl

/-- A well that is retired: it is out of service, with the tile among its failed ones. -/
theorem retireWell_retires {s : State} {w : Nat} (lt : Nat) (k : Cmd) (hw : w < s.wells.length) :
    ∃ u : State, s.retireWell w lt k = u.complete k .ok 0 0 ∧ (u.well w).inService = false ∧ s.physOf w lt ∈ (u.well w).failed := by
  unfold State.retireWell
  extract_lets p s1 s2 s3
  have h1 : s.physOf w lt ∈ (s1.well w).failed := by
    rw [well_markFailed (t := ⟨w, s.physOf w lt⟩) hw]
    exact (mem_insertNat_iff _ _ _).mpr (.inl rfl)
  have h2 : s2.mappings = s1.mappings := by
    unfold s2
    split
    · exact stopWindlasses_mappings _ _
    · rfl
  have h3 : s3.mappings = s1.mappings := (raise_mappings _ _ _ _ _).trans h2
  have hlen : w < s3.wells.length := by
    rw [length_of_mappings h3, (moveScope_markFailed s ⟨w, s.physOf w lt⟩).length]
    exact hw
  refine ⟨_, rfl, congrArg Prod.snd (service_wellOut s3 4 hlen), ?_⟩
  rw [failed_wellOut, show (s3.well w).failed = (s1.well w).failed from congrArg (fun m => m.2.1) (mapping_of_mappings h3 w)]
  exact h1

end Sys2Proof.Machine

namespace Sys2Proof.Machine

open Sys2Proof

/-! ## The self-test of a tile (R218, R225) -/

/-- The tile that TILE_SELFTEST names. -/
def Cmd.testTile (k : Cmd) : TileRef := ⟨bits k.p0 7 0, bits k.p0 15 8⟩

theorem tileSelftest_eq {c : CmdRef} {k : Cmd} {s : State} (hk : s.ready c 0x29 = some k) :
    exec (.tileSelftest c) s =
      if 24 ≤ k.testTile.well ∨ 25 ≤ k.testTile.tile then .next (s.complete k .format 0 0)
      else if ((s.startCmd c).startSelfTest k.testTile (some c)).2 then .next ((s.startCmd c).startSelfTest k.testTile (some c)).1
      else .next ((s.discard 0 0 (tileBase k.testTile + 4) 4).complete k .ok (s.selfTestWord k.testTile) 0) := by
  have hrun : exec (.tileSelftest c) s = execTileSelftest c s := rfl
  rw [hrun, execTileSelftest, hk]
  rfl

/-- A test that starts changes the commands and one tile. -/
theorem tileSelftest_starts {c : CmdRef} {k : Cmd} {s : State} (hk : s.ready c 0x29 = some k) (hw : k.testTile.well < 24) (hl : k.testTile.tile < 25)
    (ho : s.logicalOf k.testTile = 0x1F) (h1 : (s.tile k.testTile).state ≠ .test) (h2 : (s.tile k.testTile).state ≠ .failed) :
    exec (.tileSelftest c) s = .next ((s.startCmd c).modTile k.testTile (fun x => { x with state := .test, selfTest := some (s.devtime, some c) })) := by
  have hstart : (s.startCmd c).startSelfTest k.testTile (some c) =
      ((s.startCmd c).modTile k.testTile (fun x => { x with state := .test, selfTest := some (s.devtime, some c) }), true) := if_pos ⟨ho, h1, h2⟩
  rw [tileSelftest_eq hk, if_neg (by omega), hstart]
  rfl

/-- On a FAILED tile the write is discarded, and the command completes. -/
theorem tileSelftest_ignored {c : CmdRef} {k : Cmd} {s : State} (hk : s.ready c 0x29 = some k) (hw : k.testTile.well < 24) (hl : k.testTile.tile < 25)
    (hf : (s.tile k.testTile).state = .failed) :
    exec (.tileSelftest c) s = .next ((s.discard 0 0 (tileBase k.testTile + 4) 4).complete k .ok (s.selfTestWord k.testTile) 0) := by
  have hstart : (s.startCmd c).startSelfTest k.testTile (some c) = (s.startCmd c, false) := if_neg (fun h => h.2.2 hf)
  rw [tileSelftest_eq hk, if_neg (by omega), hstart]
  rfl

/-- The tile of a self-test that has ended. -/
def Tile.tested (was : Bool) (x : Tile) : Tile := { x with state := if was then .failed else .off, selfTest := none }

/-- The result register is written and the test's tile at rest (R218). -/
def State.tested (s : State) (t : TileRef) (failing : Nat) : State :=
  (s.setReg (tileBase t + 0x3C) (if failing = 0 then 3 * 2 ^ 30 else 2 ^ 31 + failing % 256)).modTile t
    (Tile.tested ((s.well t.well).failed.contains t.tile))

/-- A failing test marks the tile FAILED and raises its event (R218, R225). -/
def State.judged (s : State) (t : TileRef) (failing : Nat) : State :=
  if failing = 0 then s.tested t failing
  else ((s.tested t failing).markFailed t).raise 0x0506 (s.planOwner t.well) 0 [(8, t.well), (8, t.tile), (8, failing)]

theorem tileSelftestDone_eq {t : TileRef} {failing n : Nat} {r : Option CmdRef} {s : State} (ha : s.alive = true) (hs : (s.tile t).state = .test)
    (ht : (s.tile t).selfTest = some (n, r)) :
    exec (.tileSelftestDone t failing) s = .next (s.judged t failing) ∨
      ∃ k, exec (.tileSelftestDone t failing) s = .next ((s.judged t failing).complete k .ok ((s.judged t failing).selfTestWord t) 0) := by
  have hgo : ¬ ((!s.alive) = true ∨ (s.tile t).state ≠ .test) := by simp [ha, hs]
  have hrun : exec (.tileSelftestDone t failing) s = match r.bind (fun r => (s.judged t failing).cmds.find? (fun k => k.is r)) with
      | some k => .next ((s.judged t failing).complete k .ok ((s.judged t failing).selfTestWord t) 0)
      | none => .next (s.judged t failing) := by
    show execTileSelftestDone t failing s = _
    rw [execTileSelftestDone, ht]
    exact if_neg hgo
  rw [hrun]
  split
  · exact .inr ⟨_, rfl⟩
  · exact .inl rfl

/-- What the end of a self-test leaves. -/
structure Judged (s u : State) (t : TileRef) (failing : Nat) : Prop where
  selfTest : (u.tile t).selfTest = none
  state : (u.tile t).state = if failing ≠ 0 ∨ (s.well t.well).failed.contains t.tile = true then .failed else .off
  result : u.reg (tileBase t + 0x3C) = if failing = 0 then 3 * 2 ^ 30 else 2 ^ 31 + failing % 256
  failed : (u.well t.well).failed = if failing = 0 then (s.well t.well).failed else insertNat t.tile (s.well t.well).failed
  others : OnlyWell s u t.well
  parts : u.parts = s.parts
  lantus : u.lantus = s.lantus

theorem Judged.complete {s u : State} {t : TileRef} {failing : Nat} (h : Judged s u t failing) (k : Cmd) (st : Status) (result detail : Nat) :
    Judged s (u.complete k st result detail) t failing := by
  rw [State.complete_eq]
  exact ⟨h.selfTest, h.state, h.result, h.failed, h.others, h.parts, h.lantus⟩

/-- The result register lies outside the substitution registers of the wells (R218, R222). -/
theorem tileBase_ne_substBase (t : TileRef) (w : Nat) : tileBase t + 0x3C ≠ substBase w + 0x10 := by
  unfold tileBase substBase wellBase
  omega

theorem reg_markFailed (s : State) (t r : TileRef) : (s.markFailed r).reg (tileBase t + 0x3C) = s.reg (tileBase t + 0x3C) := by
  rw [markFailed_eq, State.reg_setBits_ne _ _ _ _ _ _ (tileBase_ne_substBase t r.well)]
  rfl

theorem tile_markFailed {s : State} {t : TileRef} (hw : t.well < s.wells.length) (ht : t.tile < (s.well t.well).tiles.length) :
    (s.markFailed t).tile t = (s.tile t).broken := by
  rw [State.tile, well_markFailed hw, Well.withFailed, updAt_getD, if_pos ⟨rfl, ht⟩, State.tile]

theorem well_tested {s : State} {t : TileRef} (failing : Nat) (hw : t.well < s.wells.length) :
    (s.tested t failing).well t.well =
      { s.well t.well with tiles := updAt (s.well t.well).tiles t.tile (Tile.tested ((s.well t.well).failed.contains t.tile)) } :=
  well_modWell_self (s := s.setReg _ _) _ hw

/-- The register and the well of a test that has ended, before a failure is marked. -/
theorem tested_keeps {s : State} {t : TileRef} (failing : Nat) (hw : t.well < s.wells.length) (ht : t.tile < (s.well t.well).tiles.length) :
    MoveScope s (s.tested t failing) t.well ∧ (s.tested t failing).tile t = (s.tile t).tested ((s.well t.well).failed.contains t.tile) ∧
      ((s.tested t failing).well t.well).failed = (s.well t.well).failed ∧
      (s.tested t failing).reg (tileBase t + 0x3C) = (if failing = 0 then 3 * 2 ^ 30 else 2 ^ 31 + failing % 256) := by
  refine ⟨(moveScope_regsOnly _ (regsOnly_setReg s _ _)).trans (moveScope_modWell _ _ _), ?_, ?_, ?_⟩
  · rw [State.tested, State.tile_modTile, if_pos ⟨rfl, hw, ht⟩, State.setReg_tile]
  · rw [well_tested failing hw]
  · rw [State.tested, State.modTile_reg, State.reg_setReg_self, Nat.mod_eq_of_lt]
    split <;> omega

theorem judged_judges {s : State} {t : TileRef} (failing : Nat) (hw : t.well < s.wells.length) (ht : t.tile < (s.well t.well).tiles.length) :
    Judged s (s.judged t failing) t failing := by
  obtain ⟨hscope, htile, hfailed, hreg⟩ := tested_keeps failing hw ht
  by_cases h0 : failing = 0
  · rw [State.judged, if_pos h0]
    refine ⟨?_, ?_, hreg, ?_, hscope.others, hscope.parts, hscope.lantus⟩
    · rw [htile, Tile.tested]
    · rw [htile, Tile.tested]
      simp [h0]
    · rw [hfailed, if_pos h0]
  · have hlen : t.tile < ((s.tested t failing).well t.well).tiles.length := by
      rw [well_tested failing hw]
      exact (updAt_length _ _ _).symm ▸ ht
    have hmark := hscope.trans (moveScope_markFailed (s.tested t failing) t)
    have hbroken := tile_markFailed (hscope.length.symm ▸ hw) hlen
    rw [State.judged, if_neg h0]
    refine ⟨?_, ?_, ?_, ?_, fun v hv => ?_, ?_, ?_⟩
    · rw [State.raise_tile, hbroken, htile, Tile.broken, Tile.tested]
    · rw [State.raise_tile, hbroken, if_pos (.inl h0), Tile.broken]
    · rw [State.reg_raise _ _ _ _ _ _ (tileBase_ne_logBase t _), reg_markFailed, hreg]
    · rw [State.raise_well, well_markFailed (hscope.length.symm ▸ hw), if_neg h0, Well.withFailed, hfailed]
    · rw [State.raise_well, hmark.others v hv]
    · rw [State.raise_parts, hmark.parts]
    · rw [State.raise_lantus, hmark.lantus]

/-! ## BUCKET_RETIRE (R257) -/

/-- A well with one more retired bucket, on a spare row of a bank. -/
def Well.withRetired (b bank : Nat) (x : Well) : Well := { x with retired := x.retired ++ [b], spareBanks := x.spareBanks ++ [bank] }

theorem retire_eq (s : State) (w b : Nat) :
    ∃ l m, s.retire w b = (s.modWell w (Well.withRetired b (s.bankOf w b))).raise 0x0607 (s.owner w) 0 l ∨
      s.retire w b = ((s.modWell w (Well.withRetired b (s.bankOf w b))).raise 0x0607 (s.owner w) 0 l).raise 0x0608 (s.owner w) 0 m := by
  refine ⟨[(8, w), (32, b), (8, s.sparesUsed w (s.bankOf w b))], [(8, w), (8, s.bankOf w b)], ?_⟩
  by_cases h : s.sparesUsed w (s.bankOf w b) + 1 = 64
  · exact .inr (if_pos h)
  · exact .inl (if_neg h)

/-- A retired bucket changes its well, registers and the log. -/
structure Retires (s u : State) (w b : Nat) : Prop where
  self : u.well w = (s.well w).withRetired b (s.bankOf w b)
  others : OnlyWell s u w
  regs : OnlyRegs s u [logBase + 4]
  rest : u = { s with wells := u.wells, regs := u.regs, fresh := u.fresh, log := u.log }

theorem Retires.raise {s u : State} {w b : Nat} (h : Retires s u w b) (code part src : Nat) (l : List (Nat × Nat)) :
    Retires s (u.raise code part src l) w b where
  self := by rw [State.raise_well, h.self]
  others v hv := by rw [State.raise_well, h.others v hv]
  regs := h.regs.trans (onlyRegs_raise _ List.mem_cons_self _ _ _ _)
  rest := by
    rw [State.raise_eq]
    exact congrArg (fun x : State => { x with
      regs := (u.raise code part src l).regs, fresh := (u.raise code part src l).fresh, log := (u.raise code part src l).log }) h.rest

theorem retires_retire {s : State} {w : Nat} (b : Nat) (hw : w < s.wells.length) : Retires s (s.retire w b) w b := by
  have hmod : Retires s (s.modWell w (Well.withRetired b (s.bankOf w b))) w b :=
    ⟨well_modWell_self _ hw, onlyWell_modWell _ _ _, fun _ _ => rfl, rfl⟩
  obtain ⟨l, m, h | h⟩ := retire_eq s w b
  · rw [h]
    exact hmod.raise _ _ _ _
  · rw [h]
    exact (hmod.raise _ _ _ _).raise _ _ _ _

/-- BUCKET_RETIRE by its tests: FORMAT, STATE, NOT_READY, or a retired bucket. -/
theorem bucketRetire_eq {c : CmdRef} {k : Cmd} {s : State} (hk : s.ready c 0x2A = some k) :
    exec (.bucketRetire c) s =
      if 23 < k.p0 % 256 ∨ 2097151 < k.p1 then .next (s.complete k .format 0 0)
      else if s.owner (k.p0 % 256) < 24 ∧ (s.round (s.owner (k.p0 % 256))).state.busy then .next (s.complete k .state 0 0)
      else if !(s.well (k.p0 % 256)).inService ∨ 64 ≤ s.sparesUsed (k.p0 % 256) (s.bankOf (k.p0 % 256) k.p1) then .next (s.complete k .notReady 0 0)
      else .next ((s.retire (k.p0 % 256) k.p1).complete k .ok 0 0) := by
  have hrun : exec (.bucketRetire c) s = execBucketRetire c s := rfl
  rw [hrun, execBucketRetire, hk]

end Sys2Proof.Machine

namespace Sys2Proof.Machine

open Sys2Proof

/-! ## O19 -/

/-- TILE_REMAP with its retire flag clear, and with it set. -/
theorem tileRemap_remaps {c : CmdRef} {k : Cmd} {s : State} (hk : s.ready c 0x28 = some k) :
    let w := bits k.p0 7 0
    let lt := bits k.p0 15 8
    w < 24 → lt < 24 → (s.owner w < 24 → (s.round (s.owner w)).state.busy = false) → s.substGood w = true → w < s.wells.length →
      (bit k.p0 16 = false → (s.well w).unmapped = [] → exec (.tileRemap c) s = .next (s.complete k .notReady 0 0)) ∧
      (∀ new rest, bit k.p0 16 = false → (s.well w).unmapped = new :: rest → (s.remapGate w lt).1 = none →
        ∃ u : State, exec (.tileRemap c) s = .next (u.complete k .ok 0 0) ∧ Remapped s u w lt new) ∧
      (bit k.p0 16 = true →
        ∃ u : State, exec (.tileRemap c) s = .next (u.complete k .ok 0 0) ∧ (u.well w).inService = false ∧ s.physOf w lt ∈ (u.well w).failed) := by
  intro w lt hw hl hr hg hlen
  have hrun := tileRemap_admitted hk hw hl hr hg
  refine ⟨fun hb hu => ?_, fun new rest hb hu hgate => ?_, fun hb => ?_⟩
  · rw [hrun, hb]
    exact remapUnmapped_of_nil lt k hu
  · rw [hrun, hb]
    exact ⟨_, (remapUnmapped_of_cons lt k hu).trans (congrArg Host.Outcome.next (remap_eq new k hgate)), (remapped_refilled lt new hlen).raise _ _ _ _⟩
  · rw [hrun, hb]
    obtain ⟨u, hu, hrest⟩ := retireWell_retires lt k hlen
    exact ⟨u, congrArg Host.Outcome.next hu, hrest⟩

/-- Settles O19: the reads of a remap and the end of a retired well's round leave alone what a well records of its tiles and buckets, so that what TILE_REMAP
and its retire flag set stands; the self-test and BUCKET_RETIRE change one tile or one well directly. -/
theorem tileRemapAndSelftest : Obligations.TileRemapAndSelftest := by
  unfold Obligations.TileRemapAndSelftest
  refine ⟨fun c k s hk => ?_, fun c k s hk => ?_, fun t failing n r s ha hs ht hw hl => ?_, fun c k s hk => ?_⟩
  · refine ⟨(tileRemap_refuses hk).1, (tileRemap_refuses hk).2, fun hw hl hr hg hlen => ?_⟩
    obtain ⟨hfull, hmoves, hretire⟩ := tileRemap_remaps hk hw hl hr hg hlen
    refine ⟨hfull, fun new rest hb hu _ hgate => ?_, hretire⟩
    obtain ⟨u, hu, h⟩ := hmoves new rest hb hu hgate
    obtain ⟨hsubst, hfailed, hremaps, hservice, -⟩ : _ ∧ _ ∧ _ ∧ _ ∧ _ := by simpa only [Well.mapping, Prod.mk.injEq] using h.self
    refine ⟨u, hu, hsubst, hfailed, hremaps, hservice, fun v hv => ?_, h.parts, h.qps, h.lantus, h.cmds⟩
    obtain ⟨hmap, htiles⟩ := h.others v hv
    obtain ⟨h1, h2, h3, h4, h5⟩ : _ ∧ _ ∧ _ ∧ _ ∧ _ := by simpa only [Well.mapping, Prod.mk.injEq] using hmap
    exact ⟨h1, h2, h3, htiles, h4, h5⟩
  · refine ⟨fun h => (tileSelftest_eq hk).trans (if_pos h), fun hw hl ho h1 h2 hlen htl => ?_, fun hw hl hf => ?_⟩
    · refine ⟨_, tileSelftest_starts hk hw hl ho h1 h2, ?_, fun r hr => ?_, rfl⟩
      · rw [State.tile_modTile, if_pos ⟨rfl, hlen, htl⟩]
        rfl
      · rw [State.tile_modTile, if_neg (fun h => hr h.1)]
        rfl
    · refine ⟨_, tileSelftest_ignored hk hw hl hf, ?_⟩
      rw [(complete_links _ _ _ _ _).2, State.discard_eq _ _ _ _ (by omega)]
  · have hj := judged_judges failing hw hl
    obtain hrun | ⟨k, hrun⟩ := tileSelftestDone_eq (failing := failing) ha hs ht
    · exact ⟨_, hrun, hj.selfTest, hj.state, hj.result, hj.failed, hj.others, hj.parts, hj.lantus⟩
    · have hc := hj.complete k .ok ((s.judged t failing).selfTestWord t) 0
      exact ⟨_, hrun, hc.selfTest, hc.state, hc.result, hc.failed, hc.others, hc.parts, hc.lantus⟩
  · have hrun := bucketRetire_eq hk
    refine ⟨fun h => hrun.trans (if_pos h), fun hw hb ho hbusy => ?_, fun hw hb hr hlen => ⟨fun h => ?_, fun hin hsp => ?_⟩⟩
    · rw [hrun, if_neg (by omega), if_pos ⟨ho, hbusy⟩]
    · have hnot : ¬ (s.owner (k.p0 % 256) < 24 ∧ (s.round (s.owner (k.p0 % 256))).state.busy = true) := fun h => by simp [hr h.1] at h
      rw [hrun, if_neg (by omega), if_neg hnot, if_pos (by simpa using h)]
    · have hnot : ¬ (s.owner (k.p0 % 256) < 24 ∧ (s.round (s.owner (k.p0 % 256))).state.busy = true) := fun h => by simp [hr h.1] at h
      have hret := retires_retire k.p1 hlen
      refine ⟨_, ?_, hret.self, hret.others, hret.regs, hret.rest⟩
      rw [hrun, if_neg (by omega), if_neg hnot, if_neg (by simpa [hin] using hsp)]

end Sys2Proof.Machine
